-- ==== Sys2Proof/Word.lean ====
section
/-! DEFINITION. The plainest types: a byte, the 64-bit word of registers and instructions, and the
finite map by which the state holds everything that is numbered (registers, cores, bolts, bytes). -/

namespace Sys2Proof

/-- A byte of memory. -/
abbrev Byte := BitVec 8

/-- The 64-bit word: an instruction word (R70), a register (R84), a data-port unit (R399). -/
abbrev Word := BitVec 64

/-- A finite map with natural keys: pairs in strictly rising key order, none equal to the default of
its key, so that equal maps are equal lists (`Sys2Proof.Machine.FMap.wf`). -/
abbrev FMap (α : Type) := List (Nat × α)

end Sys2Proof
end

