-- ==== Sys2Proof/Syntax.lean ====
section
/-! DEFINITION. The commands: one constructor for each row of the table of operations and events, with the
operands that name the unit it happens at and what arrives from outside. Physical events that only the world
decides (a measured value, an error in storage, the outcome of a test) are operands. -/

namespace Sys2Proof

/-- One command of the module. -/
inductive Instr where
  /-- REGISTER_WRITE (R10): A host write to a register that has no row of its own stores RW fields, clears W1C
  bits and ignores RO and RSV0 bits, with the write's timing set by that register's own rule. -/
  | registerWrite (fn : Nat) (off : Nat) (size : Nat) (val : Nat)
  /-- RC_READ (R10): A read that covers an RC field returns the stored value and clears the field to its reset
  value in the same access, and an event counted in that same cycle is kept. -/
  | rcRead (fn : Nat) (off : Nat) (size : Nat) (events : Nat)
  /-- NOP (R70): The sequencer issues a NOP word, which performs no action. -/
  | nop (core : Nat)
  /-- MMA (R73): The sequencer checks an MMA word at issue, copies its descriptors and places it in the matrix
  queue. -/
  | mma (core : Nat)
  /-- TDLD (R75): The sequencer checks a TDLD word and loads a 32 B descriptor image from core scratch into a
  descriptor slot. -/
  | tdld (core : Nat)
  /-- TDADD (R74): The sequencer adds a signed offset to the BASE or SCALE_BASE of a descriptor slot, wrapping
  modulo 2^52. -/
  | tdadd (core : Nat)
  /-- CPY (R75): The sequencer checks a shuttle copy and queues it on the shuttle that ENG names. -/
  | cpy (core : Nat)
  /-- FENCE (R74): The sequencer issues a FENCE word, which waits for the named shuttles to finish their earlier
  work. -/
  | fence (core : Nat)
  /-- SYNC (R75): The sequencer issues a SYNC word, which waits as FENCE with ST = 1 does and then waits at the
  numbered barrier of its scope. -/
  | sync (core : Nat)
  /-- LOOP (R75): The sequencer issues a LOOP word, which repeats the preceding BACK words COUNT times in total,
  nested at most four deep. -/
  | loop (core : Nat)
  /-- STEPEND (R75): The sequencer issues a STEPEND word, which ends the core's program for the step. -/
  | stepend (core : Nat)
  /-- WST_RELEASE (R63): An instruction with WST = 1 begins once every earlier write of the core is complete. -/
  | wstRelease (core : Nat) (queue : Nat)
  /-- FENCE_COMPLETE (R74): A waiting FENCE completes once the named shuttles have finished their earlier work,
  and the sequencer goes on issuing. -/
  | fenceComplete (core : Nat)
  /-- SYNC_RELEASE (R75): A barrier is released once every logical core of its scope has reached it in the step,
  a hole counting through its carrier. -/
  | syncRelease (sw : Nat) (scope : Nat) (barrier : Nat) (region : Nat)
  /-- STEPEND_DONE (R75): Once both shuttles and the vector unit have finished, the core reports itself done to
  the region controller. -/
  | stependDone (core : Nat)
  /-- ISSUE_RESUME (R65): The sequencer resumes issuing once its full target queue has room. -/
  | issueResume (core : Nat)
  /-- ARRAY_CYCLE (R57): In each passed ARRAY pulse, rows enter the arrays, column sums advance, residues are
  compared, partials are joined and due promotions are made. -/
  | arrayCycle (core : Nat) (upset : Nat)
  /-- BOBBIN_SWAP (R54): The faces of all four arrays take the bobbin tile once the last row of the current tile
  has entered and the next tile is filled and staged. -/
  | bobbinSwap (core : Nat)
  /-- LOAD_SHUTTLE_STAGE (R60): The load shuttle stages operands into the staging ring up to LOAD_DIST steps
  ahead, as far as free ring space allows. -/
  | loadShuttleStage (core : Nat)
  /-- STORE_DRAIN (R62): The store shuttle drains an edge bank at 256 B per FABRIC cycle, converts the elements
  and, when FUSE is set, passes each row to the row-statistics unit. -/
  | storeDrain (core : Nat)
  /-- CPY_TRANSFER (R75): A queued copy moves its rows at up to 256 B per FABRIC cycle until it completes. -/
  | cpyTransfer (core : Nat) (eng : Nat)
  /-- CORE_FAULT (R81): A parity error, residue mismatch or failed fitting slice makes the core faulty, and the
  core is fenced. -/
  | coreFault (region : Nat) (phys : Nat) (cause : Nat)
  /-- VMAP (R133): The sequencer issues an element-wise function of X, or of X and Y, into Z. -/
  | vmap (core : Nat)
  /-- VFMA (R132): The sequencer issues Z := round(X × Y + Z) in place, with one rounding. -/
  | vfma (core : Nat)
  /-- VROW (R137): The sequencer issues one reduction per row, SUM, SUMSQ, MAX or AMAX, into Z. -/
  | vrow (core : Nat)
  /-- VNORM (R138): The sequencer issues an RMS or LAYER row normalisation of X with gain row Y into Z. -/
  | vnorm (core : Nat)
  /-- VSMAX (R144): The sequencer issues the computation of probabilities from scores X and the row-statistics
  records TR into Z. -/
  | vsmax (core : Nat)
  /-- VRSC_RESCALE (R144): VRSC RESCALE brings Z rows to the record's new maximum and sets AUX := M. -/
  | vrscRescale (core : Nat)
  /-- VRSC_FINAL (R144): VRSC FINAL divides each Z row by L, writing +0 and counting VEC_EMPTY_NORM when L = +0. -/
  | vrscFinal (core : Nat)
  /-- VRSC_CLOSE (R144): VRSC CLOSE sets AUX := M and leaves Z untouched. -/
  | vrscClose (core : Nat)
  /-- VSTI (R140): The sequencer issues the writing of the empty record to N rows. -/
  | vsti (core : Nat)
  /-- VDOT (R144): The sequencer issues a per-row W48 dot product of X and Y into AUX of TR. -/
  | vdot (core : Nat)
  /-- VSBWD (R144): The sequencer issues the score gradient from P, dP and D into Z. -/
  | vsbwd (core : Nat)
  /-- VLOSS (R139): The sequencer issues the cross-entropy loss of the logit rows, added into the W48 value at
  Z. -/
  | vloss (core : Nat)
  /-- VQNT (R155): The sequencer issues the narrowing of X into Z under the recipe of Z's tag, with an amax pass
  first when the tag is at first use. -/
  | vqnt (core : Nat)
  /-- VPOS (R134): The sequencer sets the query and key positions and the mask mode for later words. -/
  | vpos (core : Nat)
  /-- VSETF (R134): The sequencer sets the BETA or EPS vector register to the FP32 bits given. -/
  | vsetf (core : Nat)
  /-- VECTOR_CHUNK (R127): The vector unit processes one 256-element chunk of a row once its scratch grants are
  given. -/
  | vectorChunk (core : Nat)
  /-- SCRATCH_GRANT (R28): Each scratch bank grants one requester per FABRIC cycle by fixed priority, ahead of
  priority for a requester that has waited 16 cycles. -/
  | scratchGrant (core : Nat) (bank : Nat) (store : Bool) (load : Bool) (vec : Bool)
  /-- SWITCH_REQUEST (R363): A swatch switch request reaches a core, and the core's sequencer stops issuing. -/
  | switchRequest (core : Nat) (sw : Nat)
  /-- CORE_SWITCH (R363): At the next K-tile, chunk or row boundary, after the other edge bank drains, the core
  flushes its counts, saves its state and loads the incoming swatch's state. -/
  | coreSwitch (core : Nat)
  /-- SWITCH_COMPLETE (R366): A core switch completes once the save and restore traffic is done, and it is
  counted in SWT_SWITCHES and SWT_SWITCH_MAX. -/
  | switchComplete (core : Nat)
  /-- SCHEDULE (R359): When a set of regions falls free, the partition scheduler picks a runnable swatch by
  priority, time since it last ran and number. -/
  | schedule (part : Nat)
  /-- STEP_START (R358): A step of the chosen swatch starts on every logical core of its regions at PROG_BASE,
  after the descriptor check. -/
  | stepStart (sw : Nat)
  /-- PREEMPT (R360): A runnable swatch of higher priority switches out a lower-priority swatch with an open
  step, whose RUN becomes 2. -/
  | preempt (sw : Nat)
  /-- SWATCH_RETURN (R361): When MAX_OUT expires, a swatch with RUN = 2 returns to its cores ahead of every
  priority and displaces what runs there. -/
  | swatchReturn (sw : Nat)
  /-- STEP_BOUNDARY (R369): After END and after the commit or skip of the step, the swatch reaches its step
  boundary, and RUN returns to 0. -/
  | stepBoundary (sw : Nat)
  /-- LIMP_SWITCH (R466): A carrier changes limp context when the running context reaches STEPEND or an
  unreleased SYNC, moving state and the scratch window. -/
  | limpSwitch (region : Nat) (carrier : Nat)
  /-- PACK_JOB (R170): The press quantises a span's local gradient plus its error terms into the E5M2 send
  plane. -/
  | packJob (stack : Nat)
  /-- UPDATE_JOB (R176): After verdict 1, the press updates every record block of a dense span and rewrites its
  working and scale planes. -/
  | updateJob (stack : Nat) (badBlocks : List Nat)
  /-- FOREIGN_ERROR_PASS (R184): For a ROLE foreign span, the press writes the new error terms into the error
  plane and touches nothing else. -/
  | foreignErrorPass (stack : Nat)
  /-- STEP_COMMIT (R184): Once the updates have run, the device advances the group step counts, flips the
  residual selector, updates the tag statistics and applies held commits. -/
  | stepCommit (sw : Nat)
  /-- PENDING_ROW_APPEND (R189): The owner appends a sparse row that passes its checks to the pending-update
  ledger, pins its bolts and requests a promote, waiting when the ledger is full. -/
  | pendingRowAppend (sw : Nat) (span : Nat) (row : Nat) (rows : List (List Nat))
  /-- PENDING_ROW_APPLY (R189): Once every bolt of its row is in T1, the press applies a committed entry, frees
  it and drops its pins. `entry`: its index in the ledger, and the blocks of its row that read uncorrectable (R187). -/
  | pendingRowApply (stack : Nat) (sw : Nat) (entry : Nat × List Nat)
  /-- CLOSING_HOP (R173): The shard owner adds its residual to the final FP32 sum, quantises the reduced shard
  and writes the next residual. -/
  | closingHop (sw : Nat) (span : Nat) (block : Nat)
  /-- ROUND_TRAILER_SEND (R202): A member sends its round trailer of the closing reduce-scatter to the next ring
  position once its send condition holds. -/
  | roundTrailerSend (dom : Nat) (sw : Nat)
  /-- TRAILER (R204): A received TRAILER message is checked, and is discarded as stale, folded, taken as ending
  a flit sequence, or acted on as a FINAL trailer. -/
  | trailer (dom : Nat) (raw : Nat) (sender : Nat)
  /-- COLLECTIVE_TIMEOUT (R207): When a collective's 50 ms timer expires, the member applies nothing, counts
  HUB_TACK_TIMEOUT, writes a ledger entry and is withdrawn. -/
  | collectiveTimeout (dom : Nat) (seq : Nat)
  /-- HOLD_NOTICE_TICK (R206): Every 10 ms, a stalled or switched-out member before its latch sends HOLD
  messages to its ring neighbours. -/
  | holdNoticeTick (sw : Nat)
  /-- HOLD (R335): A received HOLD message restarts the timers of the listed collectives that the receiver has
  open. -/
  | hold (dom : Nat) (epoch : Nat) (seqs : List Nat) (sender : Nat)
  /-- AGREE_LOCALISE (R216): After a step failed on MM, the members exchange roots, span digests, leaf digests
  and block digests to find the differing blocks. `info`: device addresses of units that read uncorrectable (R210). -/
  | agreeLocalise (sw : Nat) (info : List Nat)
  /-- AGREE_REPAIR (R218): Once localisation ends, the reference repairs the odd members' blocks, or the swatch
  halts, or the odd members withdraw. `info`: device addresses of units that read uncorrectable (R210). -/
  | agreeRepair (sw : Nat) (info : List Nat)
  /-- STATE_TRANSFER_SEND (R221): The source sends the covered bytes of every replicated block, and then every
  block that a later commit rewrites. -/
  | stateTransferSend (dom : Nat) (sw : Nat)
  /-- STATE_TRANSFER_DONE (R221): The receiver, once it holds every block as of a boundary, rebuilds its planes
  and joins under a new epoch. -/
  | stateTransferDone (dom : Nat) (sw : Nat)
  /-- HBM_REQUEST (R231): A pseudo-channel controller serves a request through the base cache by class, age and
  open row, checking its Reed–Solomon code. -/
  | hbmRequest (stack : Nat) (pch : Nat) (arrivals : List Nat) (syms : List Nat)
  /-- LANE_SWAP (R237): At the channel's next refresh interval, a lane that reached 64 corrected symbols in a
  second is swapped for a selvedge spare. -/
  | laneSwap (stack : Nat) (chan : Nat)
  /-- PATROL_SCRUB (R239): The patrol scrub reads each slot once a day, bypassing the cache, and writes back the
  units it corrects. -/
  | patrolScrub (stack : Nat) (slot : Nat) (syms : List Nat)
  /-- ARBITER_GRANT (R376): Each class arbiter grants one unit by priority and age, with floor offers to C2 to
  C5 and the hot-level cap. -/
  | arbiterGrant (arb : Nat) (waiting : List Nat)
  /-- POCKET_ACCESS (R249): A read or write reaches the pocket: PCACHE reads allocate on a miss, writes update
  and write through, and scratch ways serve their window. -/
  | pocketAccess (region : Nat) (sw : Nat) (tag : Nat) (addr : Nat) (write : Bool) (data : Nat) (parity : Bool)
  /-- POCKET_ZEROING_DONE (R247): The zeroing of a way ends within 4,096 FABRIC cycles, and the cores waiting on
  it proceed. -/
  | pocketZeroingDone (region : Nat) (way : Nat)
  /-- POCKET_SWEEP (R250): The sweeper visits four lines per FABRIC cycle and invalidates stale-stamped lines. -/
  | pocketSweep (region : Nat)
  /-- THERMAL_SAMPLE (R252): Every 1 ms, each stack's temperature is sampled and its thermal level is changed. -/
  | thermalSample (temps : List Nat) (dies : List Nat)
  /-- STACK_FIT_SLICE (R255): After a fenced stack has stayed below 82 °C for 1 s, its fitting slice runs. -/
  | stackFitSlice (stack : Nat)
  /-- STACK_SLICE_RESULT (R255): When the stack slice ends, the fence lifts on a pass or stays until refurbish
  on a fail. -/
  | stackSliceResult (stack : Nat) (pass : Bool)
  /-- ALLOC (R276): A tier request allocates FREE bolts, zeroing their location, charging quota and advancing
  the generation. -/
  | alloc
  /-- FREE (R276): A tier request frees bolts, or marks PEND_FREE when they are pinned or moving. -/
  | free
  /-- PROMOTE_REQUEST (R276): A tier request promotes bolts to a lower-numbered tier, starting, merging, holding
  or cancelling moves. -/
  | promoteRequest
  /-- EVICT (R276): A tier request evicts bolts to a higher-numbered tier, or defers the eviction while they are
  pinned. -/
  | evict
  /-- PIN (R276): A tier request adds a pin to each bolt, waiting or refusing with PIN_FULL at 255. -/
  | pin
  /-- UNPIN (R276): A tier request removes a pin, acting on a pending free or eviction at the last pin. -/
  | unpin
  /-- QUERY (R299): A tier request returns the 16 B directory entry of bolt FIRST as it stands. -/
  | query
  /-- MOVE_RESERVE (R272): The move engine reserves a destination charged to the DTIER quota once room exists,
  and the copy begins. -/
  | moveReserve (bolt : Nat)
  /-- MOVE_COPY_DONE (R272): A copy or recopy pass ends, and the move recopies the dirty granules or proceeds
  toward the hold. -/
  | moveCopyDone (bolt : Nat) (bad : List Nat)
  /-- MOVE_HOLD (R272): No sooner than 16 µs after the bolt's previous advance, the move sends hold notices and
  waits for acknowledgements. -/
  | moveHold (bolt : Nat)
  /-- HOLD_ACK (R272): A holder acknowledges a hold once its own requests to the bolt have completed. -/
  | holdAck (bolt : Nat) (holder : Nat)
  /-- MOVE_FLIP (R272): At the end of the hold, HOME and DEST swap, the generation advances and release notices
  go out. -/
  | moveFlip (bolt : Nat)
  /-- MOVE_FREE_SOURCE (R272): The old location is freed, the entry returns to HOME, and pending frees,
  evictions and held requests are acted on. -/
  | moveFreeSource (bolt : Nat)
  /-- DIR_NOTICE (R270): A holder applies a flip, ALLOC or FREE notice to its buffered entry when that entry's
  generation is earlier. -/
  | dirNotice (holder : Nat) (bolt : Nat) (gen : Nat) (freed : Bool)
  /-- TRANSLATION_FILL (R270): A translation buffer miss is filled from the owning hub, and the fill is dropped
  if it is stale. -/
  | translationFill (bolt : Nat) (holder : Nat) (sw : Nat) (write : Bool)
  /-- LAYER_MARK (R284): A run plan LAYER entry sets L and walks the prefetch list in a release pass and a
  prefetch pass. -/
  | layerMark (sw : Nat)
  /-- STALL_LIMIT (R293): A request that has waited past the stall limit breaks its open step with cause STALL,
  or falls under R207. -/
  | stallLimit (sw : Nat) (cause : Nat)
  /-- DIR_SCRUB (R297): The scrubber visits buffer entries and waiting tier requests and rewrites those lagging
  by 2^14 or more. -/
  | dirScrub
  /-- FLASH_PROGRAM (R286): A flash controller programs write-buffer contents to NAND in the background, and its
  buffer frees room. -/
  | flashProgram (ctl : Nat) (spareLost : Nat)
  /-- FLASH_BUDGET_HOUR (R288): Each hour, the controller rolls its 24-hour window of bytes programmed and
  applies the write budget. -/
  | flashBudgetHour (ctl : Nat)
  /-- TIER_T3_WRITE (R290): A write to TIER_T3_BASE or TIER_T3_SIZE takes effect only while no bolt is homed in
  T3 or moving to or from it. -/
  | tierT3Write (size : Bool) (val : Nat)
  /-- PORT_DETECT (R313): A port detects its peer and trains: lock, PRBS test, lane map, deskew, HELLO and
  credits. -/
  | portDetect (port : Nat)
  /-- PORT_UP (R313): Training completes and the port comes up at full or half width, or is left MISWIRED or
  OUT_OF_REACH. -/
  | portUp (port : Nat) (lanes : List Nat) (rtt : Nat)
  /-- HELLO (R314): A received HELLO fixes the link generation, measures the round trip and checks the wiring. -/
  | hello (port : Nat) (fields : List Nat)
  /-- FLIT_RECEIVE (R310): A received flit is corrected and checked, and it is delivered in order, relayed, or
  discarded with a NAK. -/
  | flitReceive (port : Nat) (header : Nat) (payload : Nat) (err : List Nat) (crcOk : Bool)
  /-- NAK (R310): A received NAK makes the sender replay from the SEQ it names. -/
  | nak (port : Nat) (seq : Nat)
  /-- REPLAY_TIMEOUT (R310): A flit unacknowledged for 4 µs is replayed, and 16 replays start a retrain. -/
  | replayTimeout (port : Nat)
  /-- RETRAIN (R316): A port retrains, or is retired after more than 8 retrains within 60 s. -/
  | retrain (port : Nat)
  /-- SIGNAL_LOSS (R316): A port loses lock or signal and waits for its peer to retrain. -/
  | signalLoss (port : Nat)
  /-- JOIN (R325): A candidate's JOIN message reaches a module and may start an epoch change. -/
  | join (fields : List Nat)
  /-- LEAVE (R327): A member's LEAVE message starts an epoch change. -/
  | leave (fields : List Nat)
  /-- PROPOSE (R325): A listed module accepts a later PROPOSE, opens no further step and announces once none is
  open. -/
  | propose (fields : List Nat)
  /-- ANNOUNCE (R325): The convener records an ANNOUNCE and sends ADOPT once every listed module has announced. -/
  | announce (fields : List Nat)
  /-- ADOPT (R325): A listed module enters the epoch, resets shard residuals, sets COLL_SEQ to 1 and runs, waits
  or halts. -/
  | adopt (fields : List Nat)
  /-- CLKSTAT (R337): A received CLKSTAT updates the peer's recorded clock depth. -/
  | clkstat (port : Nat) (depth : Nat)
  /-- CMD (R346): The convener acts on a forwarded REMOVE or FORCE. -/
  | cmd (fields : List Nat)
  /-- PROPOSE_RETRY (R325): After 100 ms without every ANNOUNCE, the convener strikes the silent modules and
  proposes epoch e + 1. -/
  | proposeRetry (dom : Nat)
  /-- ADOPT_TIMEOUT (R325): A module that announced and received no ADOPT within 200 ms sends JOIN and starts
  again. -/
  | adoptTimeout (dom : Nat)
  /-- JOIN_RESEND (R325): A candidate outside any epoch of the domain sends JOIN again every 100 ms. -/
  | joinResend (dom : Nat)
  /-- MEMBER_STRIKE (R327): The convener strikes a withdrawn member that has sent no trailer for 50 ms and
  starts an epoch change. -/
  | memberStrike (dom : Nat) (place : Nat)
  /-- COLL_ISSUE (R330): A collective takes the domain's next COLL_SEQ, waiting while 8 are open. -/
  | collIssue (dom : Nat)
  /-- SEQUENCE_COMPLETE (R331): A flit sequence completes once its trailer and every announced byte have
  arrived. -/
  | sequenceComplete (dom : Nat) (seq : Nat) (sender : Nat)
  /-- RUN_BARRIER (R368): A run plan BARRIER entry waits until every core of the swatch has passed the
  swatch-scope SYNC. -/
  | runBarrier (sw : Nat)
  /-- RUN_PACK (R368): A run plan PACK entry queues the pack jobs of its spans. -/
  | runPack (sw : Nat)
  /-- RUN_COLL_EXCHANGE (R368): A run plan COLL MODE 0 entry issues the gradient exchange of its spans, or acts
  as R370 and R220 state. -/
  | runCollExchange (sw : Nat)
  /-- COLL_REDUCE_SCATTER (R329): A run plan COLL MODE 1 entry issues a reduce-scatter of a general tensor. -/
  | collReduceScatter (sw : Nat)
  /-- COLL_ALL_GATHER (R329): A run plan COLL MODE 1 entry issues an all-gather. -/
  | collAllGather (sw : Nat)
  /-- COLL_ALL_REDUCE (R329): A run plan COLL MODE 1 entry issues an all-reduce. -/
  | collAllReduce (sw : Nat)
  /-- COLL_BROADCAST (R329): A run plan COLL MODE 1 entry issues a broadcast from the root position. -/
  | collBroadcast (sw : Nat)
  /-- RUN_TIER (R368): A run plan TIER entry posts its tier request. -/
  | runTier (sw : Nat)
  /-- RUN_END (R368): A run plan END entry waits for every core to reach STEPEND. -/
  | runEnd (sw : Nat)
  /-- BARRIER_STALL (R369): A barrier wait longer than the stall limit breaks the step with cause STALL. -/
  | barrierStall (sw : Nat)
  /-- RESUME (R381): SWT_CMD RESUME returns RUN 3, 4, 5 or 7 to 0 for a recheck at the next step. -/
  | resume (fn : Nat) (sw : Nat)
  /-- PARK (R381): SWT_CMD PARK sets RUN to 3 at the next step boundary. -/
  | park (fn : Nat) (sw : Nat)
  /-- PARTITION_WRITE (R371): A partition register write that would make enabled partitions overlap is ignored
  and sets PART_REJECT, and an accepted change waits for idle swatches. -/
  | partitionWrite (fn : Nat) (part : Nat) (which : Nat) (val : Nat)
  /-- PARTITION_CHANGE_APPLY (R373): A pending partition change takes effect once every swatch concerned is
  idle. -/
  | partitionChangeApply (part : Nat)
  /-- DESCRIPTOR_WRITE (R351): A host write to a swatch descriptor applies at once when the swatch is idle, or
  at its next step boundary, with a run plan check when RUN_BASE or RUN_LEN changes. -/
  | descriptorWrite (fn : Nat) (sw : Nat) (word : Nat) (val : Nat)
  /-- COLL_DOM_CFG_WRITE (R345): A domain configuration write takes effect at once or at the next epoch, and
  ENABLE = 0 acts as a LEAVE. -/
  | collDomCfgWrite (fn : Nat) (dom : Nat) (val : Nat)
  /-- COLL_CMD_JOIN (R346): COLL_CMD JOIN makes this module join the domain. -/
  | collCmdJoin (dom : Nat)
  /-- COLL_CMD_LEAVE (R346): COLL_CMD LEAVE sends a LEAVE at the time that R345 gives. -/
  | collCmdLeave (dom : Nat)
  /-- COLL_CMD_REMOVE (R346): COLL_CMD REMOVE removes the module at PLACE at the convener, forwarded in a CMD
  message when needed. -/
  | collCmdRemove (dom : Nat) (place : Nat)
  /-- COLL_CMD_FORCE (R326): COLL_CMD FORCE makes the convener adopt with the HALT flag clear, or propose the
  first epoch with the candidates it has. -/
  | collCmdForce (dom : Nat)
  /-- SOURCE_LANE_LOST (R443): Loss of the clock source lane puts the root in holdover and ramps every domain
  toward 2d. -/
  | sourceLaneLost
  /-- RAMP_REACHED (R442): When every domain stands at its target divider, the root moves on to RELOCKING, to
  LOCAL or to RECOVERED. -/
  | rampReached
  /-- ROOT_LOCKED (R443): The root counts as locked after 10 µs with phase error below 50 ps, and the domains
  ramp back. -/
  | rootLocked
  /-- CLOCK_ACQUIRE (R444): When the source port is up with a peer depth from 0 to 29 and the root is LOCAL,
  acquisition ramps the domains up and switches the reference. -/
  | clockAcquire
  /-- REACQUIRE (R444): CLK_CMD REACQUIRE starts acquisition when its conditions hold, and is otherwise ignored. -/
  | reacquire
  /-- CLKREF_LOST (R445): Loss of CLKREF sets REF_LOST and takes the host link down, and outside RECOVERED it is
  a unit fault of hub 0. -/
  | clkrefLost
  /-- DIVIDER_STEP (R437): After 256 cycles at a divider, a ramping domain steps its divider by one. -/
  | dividerStep (dom : Nat)
  /-- PASS_STEP (R437): After 256 ARRAY cycles, P moves one step toward its target. -/
  | passStep
  /-- VOLTAGE_SETTLED (R440): The array rail comes within 10 mV of a raised level, and P is allowed to rise. -/
  | voltageSettled
  /-- POWER_SAMPLE (R441): Every 100 µs, input power is sampled and P is cut or raised against the power limit. -/
  | powerSample (mv : Nat) (dw : Nat)
  /-- PWRGD_ASSERT (R424): PWRGD rises, and the SMBus target serves 100 ms later. -/
  | pwrgdAssert
  /-- PWRGD_DEASSERT (R386): PWRGD falls, and the module stops at once and loses every store, DRAM included. -/
  | pwrgdDeassert
  /-- PERST_ASSERT (R471): PERST# asserted applies a module reset: LEAVE, moves abandoned, writes drained, DRAM
  in self-refresh. -/
  | perstAssert
  /-- PERST_DEASSERT (R447): PERST# deasserted with PWRGD asserted samples the straps and starts a cold or warm
  bring-up. -/
  | perstDeassert (straps : Nat)
  /-- BRING_UP_STEP (R447): A numbered bring-up step completes, and the next begins or bring-up stops or reports
  READY. -/
  | bringUpStep (results : List Nat)
  /-- PORT_WAIT_END (R447): Step 10 ends once every expected port is up, or when its 2 s wait runs out. -/
  | portWaitEnd
  /-- FITTING_SLICE (R461): Once per interval, the region controller runs a 100 µs slice on each physical core,
  switching a running core out at its K-tile boundary. -/
  | fittingSlice (region : Nat) (phys : Nat) (pass : Bool)
  /-- RESET_CORE (R469): RGN_CMD RESET_CORE resets one logical core and reloads its scratch from its image. -/
  | resetCore (region : Nat) (k : Nat)
  /-- RESET_REGION (R469): RGN_CMD RESET_REGION resets a region and invalidates its pocket cache lines. -/
  | resetRegion (region : Nat)
  /-- PARTITION_RESET (R469): HUB_RESET OP 1 breaks the partition's open steps and resets its units and swatch
  RUN states. -/
  | partitionReset (part : Nat)
  /-- MODULE_RESET (R471): HUB_RESET OP 2 applies a module reset as PERST# does. -/
  | moduleReset
  /-- RESET_COMPLETE (R469): A core, region or partition reset completes within its bound, after the partition's
  open steps have ended. -/
  | resetComplete (scope : Nat) (id : Nat)
  /-- FUNCTION_LEVEL_RESET (R393): A function-level reset clears that function's HST_, DP_ and TXN_ state, and
  for a virtual function resets its partition and job board. -/
  | functionLevelReset (fn : Nat)
  /-- LINK_STATE_CHANGE (R389): The PCI Express link trains, goes down or recovers, updating HST_LINK and
  pausing or resuming T3 moves. -/
  | linkStateChange (rate : Nat) (width : Nat) (flit : Bool)
  /-- INT_MASK_WRITE (R392): Enabling a cause that is already set in HST_INT_MASK sends its MSI-X message. -/
  | intMaskWrite (fn : Nat) (val : Nat)
  /-- DP_ADDR_WRITE (R399): A write to DP_ADDR sets the row address A and the offset o to 0. -/
  | dpAddrWrite (fn : Nat) (val : Nat)
  /-- DATA_PORT_ACCESS (R399): A BAR2 window access moves 8 B units at successive addresses, resolving tiered
  units through the directory and mirroring scratch writes to core images. -/
  | dataPortAccess (fn : Nat) (write : Bool) (off : Nat) (units : List Nat)
  /-- DP_READ_STALL (R400): A window read that has waited past the stall limit completes with zeros and counts
  in DP_ERR. -/
  | dpReadStall (fn : Nat)
  /-- JOB_BOARD_CHECK (R404): At each step boundary of the partition, or every 10 µs while it is idle, the
  cutter takes up to 64 valid job records. -/
  | jobBoardCheck (part : Nat)
  /-- JOB_RUN (R405): A RUN record queues STEPS steps for its swatch. -/
  | jobRun
  /-- JOB_TIER (R405): A TIER record posts its tier request. -/
  | jobTier
  /-- JOB_STOP (R405): A STOP record ends the swatch's runs at its next boundary and posts OK at once. -/
  | jobStop
  /-- SLOT_READ (R409): A read of a result slot while READY = 0 returns zeros and counts HST_EARLY_READS. -/
  | slotRead (fn : Nat) (part : Nat) (slot : Nat)
  /-- SLOT_RELEASE (R409): Writing RELEASE to a ready slot empties it, which frees it for the next record. -/
  | slotRelease (fn : Nat) (part : Nat) (slot : Nat)
  /-- BEGIN (R419): TXN_CTRL BEGIN opens a transaction, or is refused with ALREADY_OPEN. -/
  | begin (fn : Nat)
  /-- COMMIT (R421): TXN_CTRL COMMIT validates the transaction and accepts it in one instant, or fails it. -/
  | commit (fn : Nat)
  /-- ROLLBACK (R421): TXN_CTRL ROLLBACK discards the staged entries and closes the transaction. -/
  | rollback (fn : Nat)
  /-- SELECT_NEXT (R414): PAT_CMD SELECT_NEXT selects a pattern for the next bring-up. -/
  | selectNext (num : Nat)
  /-- CLEAR_NEXT (R414): PAT_CMD CLEAR_NEXT clears the command selection. -/
  | clearNext
  /-- PAT_WRITE (R417): PAT_CMD WRITE verifies an image and writes it to one copy of the named pattern, or
  refuses it. -/
  | patWrite (num : Nat)
  /-- PAT_WRITE_DONE (R417): A pattern write to config flash ends and sets WRITE_RESULT and the copy states. -/
  | patWriteDone (ok : Bool)
  /-- SMB_IDENTITY (R425): SMBus command 00h returns the part code, grade, identity, firmware version and GEN. -/
  | smbIdentity
  /-- SMB_STATUS (R425): SMBus command 01h returns the READY, DEGRADED, withdrawn, no-pattern and bring-up step
  flags. -/
  | smbStatus
  /-- SMB_TEMPS (R425): SMBus command 02h returns the temperatures. -/
  | smbTemps
  /-- SMB_POWER (R425): SMBus command 03h returns input voltage, current and power, and the grade limit. -/
  | smbPower
  /-- SMB_ALERT_READ (R425): SMBus command 04h returns the alert causes. -/
  | smbAlertRead
  /-- SMB_ALERT_CLEAR (R426): SMBus command 05h clears the alert causes written as 1. -/
  | smbAlertClear (val : Nat)
  /-- SMB_ALERT_MASK (R425): SMBus command 06h sets the alert mask. -/
  | smbAlertMask (val : Nat)
  /-- SMB_LEDGER_INDEX (R425): SMBus command 10h sets the ledger read index. -/
  | smbLedgerIndex (val : Nat)
  /-- SMB_LEDGER_READ (R425): SMBus command 11h returns 32 B of the ledger and advances the index. -/
  | smbLedgerRead
  /-- SMB_ALERT_RESPONSE (R424): A read at the Alert Response Address identifies the alerting module. -/
  | smbAlertResponse
  /-- ATTEST (R486): THM_CMD ATTEST writes a signed 512 B attestation report for the given nonce. -/
  | attest
  /-- SPDM_REQUEST (R486): The SPDM responder on DOE returns the certificate chain or the measurements. -/
  | spdmRequest (kind : Nat) (nonce : Nat)
  /-- WIPE (R487): THM_CMD WIPE writes BEGIN, resets, replaces media keys, runs a zeroing cold bring-up and
  writes END. -/
  | wipe
  /-- REFURBISH (R493): THM_CMD REFURBISH, with an owner authorisation, writes REQUEST so that the next reset
  runs refurbish mode. -/
  | refurbish
  /-- OWNER (R485): THM_CMD OWNER writes a new owner record over the older boot header copy. -/
  | owner
  /-- COMMIT_SVN (R483): THM_CMD COMMIT_SVN raises the fused minimum SVN to that of the running image. -/
  | commitSvn
  /-- REVOKE_F0 (R483): THM_CMD REVOKE_F0 blows the revocation fuse of firmware key F0. -/
  | revokeF0
  /-- RCV_BEGIN (R482): THM_CMD RCV_BEGIN erases the named image slot for a recovery write. -/
  | rcvBegin (slot : Nat)
  /-- RCV_DATA_WRITE (R482): A write to THM_RCV programs 8 B at the next offset of the recovery slot. -/
  | rcvDataWrite (val : Nat)
  /-- RCV_END (R482): THM_CMD RCV_END verifies the written slot and sets THM_RESULT. -/
  | rcvEnd
  /-- LEDGER_PROGRAM (R491): The thimble programs the next queued ledger entry, archiving the oldest sector when
  one free sector remains. -/
  | ledgerProgram
  /-- LEDGER_PERIODIC (R490): The 4-hour and 24-hour timers queue HOURS, FLASH and STACK entries. -/
  | ledgerPeriodic
  /-- ARCHIVE (R492): LEDG_CMD ARCHIVE archives the oldest COUNT sectors with SUMMARY entries. -/
  | archive (count : Nat)
  /-- ILLEGAL_WORD (R70): The sequencer issues a word with an unassigned opcode (including 35h to 37h), which is
  refused with ILLEGAL and breaks the step. -/
  | illegalWord (core : Nat)
  /-- UNIT_FAULT (R197): A fault is detected in a pocket, region router, stack, base die, seam die, hub or flash
  controller, making the verdict bit 0 and setting the module to withdraw. -/
  | unitFault (kind : Nat) (num : Nat)
  /-- MOVE_HOLD_NOTICE (R272): A translation-buffer holder receives a move's hold notice and stops issuing to
  the bolt until the release notice. -/
  | moveHoldNotice (holder : Nat) (bolt : Nat)
  /-- GENERATION_SPACING_END (R295): An ALLOC or FREE that waited for 16 µs since the bolt's previous generation
  advance proceeds when that time has passed. -/
  | generationSpacingEnd (bolt : Nat)
  /-- RESET_DRAIN_END (R471): The drain of a module reset ends, and a bring-up that was delayed behind it, or
  one following HUB_RESET OP 2 or a wipe, begins. -/
  | resetDrainEnd
  /-- PER_BANK_REFRESH (R229): The refresh timer of a bank expires and the controller refreshes it at the base
  or doubled rate, ahead of every traffic class. -/
  | perBankRefresh (stack : Nat) (pch : Nat) (bank : Nat)
  /-- CLKREF_RETURN (R445): CLKREF returns after a loss, so the host link can retrain and a root held over can
  again lock to a reference. -/
  | clkrefReturn
  /-- IDE_KM_REQUEST (R388): An IDE_KM request on DOE sets up or ends a selective IDE stream, updating
  HST_LINK.IDE_STREAMS. -/
  | ideKmRequest (setup : Bool)
  deriving DecidableEq, Repr

end Sys2Proof
end

