-- ==== Sys2Proof/Decode.lean ====
section
/-! DEFINITION. The commands that words of the table spell. The table of operations and events gives no row any
bits (its rows are steps of a block, not instruction words), so no word spells a command. The 64-bit words of the
needle cores are decoded in Machine/Words.lean. -/

namespace Sys2Proof

/-- The command that a word spells by the table's bits: none, for no row of the table has bits. -/
def decodeTableWord (_nbits _w : Nat) : Option Instr := none

end Sys2Proof
end

