-- ==== Sys2Proof/Machine/Maps.lean ====
section
/-! DEFINITION. Reading and writing finite maps and memories in their one canonical form: keys strictly
rising, no entry equal to what an unlisted key reads as. -/

namespace Sys2Proof.Machine

/-- What key `k` holds; `d` is what an unlisted key reads as. -/
def FMap.get {α : Type} (d : α) : FMap α → Nat → α
  | [], _ => d
  | (k, v) :: m, j => if k = j then v else FMap.get d m j

/-- Puts `v` at key `k`, keeping the keys in rising order. -/
def FMap.insert {α : Type} : FMap α → Nat → α → FMap α
  | [], k, v => [(k, v)]
  | (j, w) :: m, k, v =>
    if k = j then (k, v) :: m
    else if k < j then (k, v) :: (j, w) :: m
    else (j, w) :: FMap.insert m k v

/-- Removes key `k`. -/
def FMap.erase {α : Type} (m : FMap α) (k : Nat) : FMap α := m.filter (fun p => p.1 != k)

/-- A write: the value at `k` becomes `v`; writing the default removes the entry. -/
def FMap.set {α : Type} [DecidableEq α] (d : α) (m : FMap α) (k : Nat) (v : α) : FMap α :=
  if v = d then FMap.erase m k else FMap.insert m k v

/-- Applies `f` to what key `k` holds. -/
def FMap.upd {α : Type} [DecidableEq α] (d : α) (m : FMap α) (k : Nat) (f : α → α) : FMap α :=
  FMap.set d m k (f (FMap.get d m k))

/-- Removes every key from `lo` to `hi - 1`: they read as the default again. -/
def FMap.clearRange {α : Type} (m : FMap α) (lo hi : Nat) : FMap α :=
  m.filter (fun p => p.1 < lo || hi ≤ p.1)

/-- The keys in strictly rising order. -/
def FMap.sorted {α : Type} : FMap α → Bool
  | [] => true
  | [_] => true
  | (k, _) :: (j, w) :: m => decide (k < j) && FMap.sorted ((j, w) :: m)

/-- The canonical form, for a default that may depend on the key. -/
def FMap.wf {α : Type} [DecidableEq α] (d : Nat → α) (m : FMap α) : Bool :=
  FMap.sorted m && m.all (fun p => decide (p.2 ≠ d p.1))

/-- A memory: a list of (address, byte) cells in the canonical form of `FMap.wf`. -/
abbrev Memory := List Host.Cell

/-- The canonical form of a memory whose unlisted bytes read as `d`. -/
def Memory.wf (d : Byte) (m : Memory) : Bool := FMap.wf (fun _ => d) m

/-- Bytes `a` to `a + n - 1`, lowest address first. -/
def Memory.bytes (d : Byte) (m : Memory) (a : Nat) : Nat → List Byte
  | 0 => []
  | n + 1 => FMap.get d m a :: Memory.bytes d m (a + 1) n

/-- Writes bytes from address `a` upward. -/
def Memory.write (d : Byte) (m : Memory) (a : Nat) : List Byte → Memory
  | [] => m
  | b :: bs => Memory.write d (FMap.set d m a b) (a + 1) bs

/-- The listed cells from `lo` to `lo + len - 1`, moved to start at `dst`. -/
def Memory.slice (m : Memory) (lo len dst : Nat) : Memory :=
  (m.filter (fun p => lo ≤ p.1 && p.1 < lo + len)).map (fun p => (p.1 - lo + dst, p.2))

/-- Lays the cells `cs` over a memory, one write each. -/
def Memory.overlay (d : Byte) (m : Memory) (cs : Memory) : Memory :=
  cs.foldl (fun acc p => FMap.set d acc p.1 p.2) m

/-- Copies `len` bytes from `src` at `a` to `dst` at `b`; bytes that `src` does not list arrive as the default. -/
def Memory.copy (d : Byte) (src : Memory) (a len : Nat) (dst : Memory) (b : Nat) : Memory :=
  Memory.overlay d (FMap.clearRange dst b (b + len)) (Memory.slice src a len b)

end Sys2Proof.Machine
end

