-- ==== Sys2Proof/Machine/Bits.lean ====
section
/-! DEFINITION. Bit fields, little-endian bytes (R8), the comparison of wrapping counters (R14), and small
arithmetic on lists that the rules use. -/

namespace Sys2Proof.Machine

/-- Bits `[lo + w - 1 : lo]` of `v` (R8). -/
def bitField (v lo w : Nat) : Nat := (v >>> lo) % 2 ^ w

/-- `v` with bits `[lo + w - 1 : lo]` replaced by the low bits of `x`. -/
def setBits (v lo w x : Nat) : Nat :=
  v % 2 ^ lo + (x % 2 ^ w) * 2 ^ lo + (v >>> (lo + w)) * 2 ^ (lo + w)

/-- Bit `i` of `v`. -/
def bitAt (v i : Nat) : Bool := Nat.testBit v i

/-- `v` with bit `i` set or cleared. -/
def putBit (v i : Nat) (b : Bool) : Nat := setBits v i 1 (if b then 1 else 0)

/-- A flag as a one-bit number. -/
def flagBit (b : Bool) : Nat := if b then 1 else 0

/-- How many of bits 0 to `n - 1` of `v` are set. -/
def popBits (v : Nat) : Nat → Nat
  | 0 => 0
  | n + 1 => popBits v n + (if Nat.testBit v n then 1 else 0)

/-- The numbers of the set bits of `v` below `n`, ascending. -/
def setBitsOf (v n : Nat) : List Nat := (List.range n).filter (fun i => Nat.testBit v i)

/-- The number whose bits are those listed. -/
def maskOf (l : List Nat) : Nat := l.foldl (fun a i => putBit a i true) 0

/-- The number that bytes stand for, the first byte lowest (R8). -/
def leNat : List Byte → Nat
  | [] => 0
  | b :: bs => b.toNat + 256 * leNat bs

/-- The `n` bytes of a number, lowest first (R8). -/
def leBytes (v : Nat) : Nat → List Byte
  | 0 => []
  | n + 1 => BitVec.ofNat 8 v :: leBytes (v / 256) n

/-- `n` bytes of one value. -/
def fillBytes (n : Nat) (b : Byte) : List Byte := List.replicate n b

/-- R14: `a` is later than `b` as `n`-bit counters. -/
def isLater (n a b : Nat) : Bool :=
  let dist := (a + 2 ^ n - b % 2 ^ n) % 2 ^ n
  1 ≤ dist && dist ≤ 2 ^ (n - 1) - 1

/-- R14: `a` is earlier than `b` as `n`-bit counters. -/
def isEarlier (n a b : Nat) : Bool := isLater n b a

/-- R14: the pair lies at distance 2^(n-1), and neither value is later. -/
def isUnordered (n a b : Nat) : Bool := (a + 2 ^ n - b % 2 ^ n) % 2 ^ n = 2 ^ (n - 1)

/-- The larger of two numbers. -/
def natMax (a b : Nat) : Nat := if a < b then b else a

/-- The smaller of two numbers. -/
def natMin (a b : Nat) : Nat := if a < b then a else b

/-- Rounded-up quotient. -/
def ceilDiv (a b : Nat) : Nat := (a + b - 1) / b

/-- The lowest number not in the list. -/
def firstFree (used : List Nat) : Nat :=
  ((List.range (used.length + 1)).find? (fun i => !used.contains i)).getD 0

/-- The highest number below `n` not in the list, if there is one. -/
def lastFree (used : List Nat) (n : Nat) : Option Nat :=
  (List.range n).reverse.find? (fun i => !used.contains i)

/-- Inserts a number into an ascending list without repeats. -/
def insertAsc (x : Nat) : List Nat → List Nat
  | [] => [x]
  | y :: ys => if x = y then y :: ys else if x < y then x :: y :: ys else y :: insertAsc x ys

/-- A list in ascending order without repeats. -/
def sortAsc (l : List Nat) : List Nat := l.foldr insertAsc []

/-- A saturating 32-bit count (R84). -/
def satAdd (v k : Nat) : Nat := natMin (v + k) 0xFFFFFFFF

/-- A number read as `w`-bit two's complement. -/
def signedOf (v w : Nat) : Int :=
  if v % 2 ^ w < 2 ^ (w - 1) then Int.ofNat (v % 2 ^ w) else Int.ofNat (v % 2 ^ w) - Int.ofNat (2 ^ w)

/-- The `w`-bit two's complement pattern of an integer. -/
def ofSigned (x : Int) (w : Nat) : Nat := (x % Int.ofNat (2 ^ w)).toNat

/-- One microsecond in timestamp counts of 1.2 GHz (R435). -/
def usec (n : Nat) : Nat := 1200 * n

/-- One millisecond in timestamp counts. -/
def msec (n : Nat) : Nat := 1200000 * n

/-- One second in timestamp counts. -/
def sec (n : Nat) : Nat := 1200000000 * n

end Sys2Proof.Machine
end

