-- ==== Sys2Proof/Machine/Fields.lean ====
section
/-! DEFINITION. The register fields of the manual's register tables (R85 to R90, R123, R124, R157, R158,
R194 to R196, R223 to R225, R257 to R261, R301 to R304, R343 to R348, R381 to R383, R428 to R432, R473 to
R476, R500, R501): one name for each field, and for each its block, offset, bits, access and reset value.
A counter register of one 32-bit RC field carries the register's own name. The 64-bit and 32-bit fields
BASE_SELVEDGE_SPARES, BASE_KEEP_CFG_KEEP_WAYS, HST_INT_VEC_VEC, RGN_CORE_MAP_PHYS and RGN_LIMP_CARRIER
hold the numbered subfields of their rows side by side. -/

namespace Sys2Proof

/-- The register blocks, named by their prefixes (R9). -/
inductive Block where
  | core | arr | vec | press | hub | base | rgn | tier | dir | flc | seam | coll | swt | hst | dp | txn | pat | clk | pwr | thm | ledg
  deriving DecidableEq, Repr

/-- The access codes of R10. Bits of a register in no listed field are RSV0. -/
inductive Access where
  | RW | RO | WO | W1C | RC
  deriving DecidableEq, Repr

/-- The Reset column (R11): a fixed value, P (from the pattern) or F (set by firmware). -/
inductive ResetKind where
  | fixed | pattern | firmware
  deriving DecidableEq, Repr

/-- Every register field, as REGISTER_FIELD. -/
inductive FieldName where
  | CORE_ID_LOGICAL | CORE_ID_PHYS_K | CORE_ID_REGION | CORE_ID_GEN | CORE_STATUS_STATE | CORE_STATUS_REFUSED
  | CORE_STATUS_BROKEN | CORE_STATUS_LAST_REFUSAL | CORE_STATUS_SWATCH | CORE_STATUS_REFUSAL_PC
  | CORE_SHUTTLE_CFG_LOAD_DIST | CORE_SHUTTLE_CFG_STAGE | CORE_SHUTTLE_CFG_STAGE_BASE | CORE_PROG_BASE
  | CORE_PC_PC | CORE_PC_DEPTH | CORE_ISSUED | CORE_BUSY | CORE_FILL_BOUND | CORE_STALL_ROW
  | CORE_STALL_WEIGHT | CORE_STALL_STORE | CORE_EMPTY_ROWS | CORE_REFUSALS | ARR_STATUS_ACTIVE
  | ARR_STATUS_MODE | ARR_STATUS_FACE_VALID | ARR_FAULT_VALID | ARR_FAULT_ARRAY | ARR_FAULT_COLUMN
  | ARR_FAULT_SLOT | ARR_COMP_INSTR | ARR_SAT | ARR_NONFINITE | ARR_NAN_SCALE | ARR_NUMERIC_SAT_SEEN
  | ARR_NUMERIC_LAST_SAT_STAGE | ARR_NUMERIC_LAST_SAT_TAG | VEC_STATUS_BUSY | VEC_STATUS_OP
  | VEC_STATUS_SAT_SEEN | VEC_STATUS_LAST_SAT_TAG | VEC_BETA_BETA | VEC_EPS_EPS | VEC_POS_QBASE
  | VEC_POS_KBASE | VEC_POS_MASK | VEC_BUSY | VEC_STALL_SCRATCH | VEC_SAT | VEC_NONFINITE | VEC_FIRST_USE
  | VEC_EMPTY_NORM | PRESS_STATUS_STATE | PRESS_STATUS_BAD_SEEN | PRESS_STATUS_UNCORR_SEEN
  | PRESS_STATUS_SPAN | PRESS_STATUS_SWATCH | PRESS_QUEUE_DEPTH | PRESS_QUEUE_PENDING_ROWS | PRESS_BLOCKS
  | PRESS_FAR | PRESS_SAT | PRESS_BAD_SPAN | PRESS_ROW_SKIP | PRESS_ROW_WAIT | PRESS_PEND_FULL
  | PRESS_RES_RESET | PRESS_UPD_CYC | HUB_TACK_LAST_VALID | HUB_TACK_LAST_V | HUB_TACK_LAST_W
  | HUB_TACK_LAST_MM | HUB_TACK_LAST_CAUSE | HUB_TACK_LAST_SWATCH | HUB_TACK_LAST_STEP_LO
  | HUB_AGREE_STATUS_STATE | HUB_AGREE_STATUS_SWATCH | HUB_AGREE_STATUS_HALT_SEEN
  | HUB_AGREE_STATUS_WITHDRAW_SEEN | HUB_TACK_PASS | HUB_TACK_FAIL | HUB_TACK_STALE | HUB_TACK_DISAGREE
  | HUB_TACK_TIMEOUT | HUB_AGREE_MISMATCH | HUB_AGREE_REPAIR | HUB_UNCORR | BASE_STATUS_STATE
  | BASE_STATUS_LEVEL | BASE_STATUS_PRESSED | BASE_STATUS_HOT_SEEN | BASE_STATUS_CRIT_SEEN | BASE_TEMP_CUR
  | BASE_TEMP_PEAK | BASE_TEMP_DIE | BASE_SELVEDGE_SPARES | BASE_UNCORR_LOC_VALID | BASE_UNCORR_LOC_SLOT
  | BASE_UNCORR_LOC_PCH | BASE_UNCORR_LOC_GRANULE | BASE_UNCORR_LOC_UNIT | BASE_KEEP_CFG_KEEP_WAYS
  | BASE_CORR | BASE_UNCORR | BASE_RETIRED | BASE_LANE_SWAP | BASE_HOT_CYC | BASE_HIT | BASE_MISS
  | BASE_DALU_DROP | BASE_SCRUB_PASS | RGN_PKT_STATUS_ZEROING | RGN_PKT_STATUS_PARITY_SEEN
  | RGN_PKT_STATUS_FAULT_SEEN | RGN_PKT_WAY_KIND | RGN_PKT_WAY_SWATCH | RGN_PKT_HIT | RGN_PKT_MISS
  | RGN_PKT_PARITY | TIER_CFG_STALL_LIMIT | TIER_T3_BASE_BASE | TIER_T3_SIZE_BOLTS | TIER_FREE_T1
  | TIER_FREE_T2 | TIER_STALL_LAST_SWATCH | TIER_STALL_LAST_CAUSE | TIER_STALL_LAST_FAILED
  | TIER_STALL_LAST_DURATION | TIER_STALL_FLASH | TIER_STALL_HOT | TIER_STALL_DIR | TIER_STALL_QUOTA
  | TIER_STALL_HOST | TIER_STALL_SEAM | TIER_STALL_FAIL | TIER_MOVES | TIER_CANCELS | TIER_DEFERS
  | TIER_CANCEL_FULL | TIER_VOID | DIR_CFG_ENTRIES | DIR_CFG_SLICE | DIR_HIT | DIR_MISS | DIR_DENIED
  | DIR_FLIPS | DIR_SCRUB_FIX | DIR_SCRUB_PASS | FLC_STATUS_STATE | FLC_STATUS_BUDGET_HIT
  | FLC_STATUS_SPARE_LOW | FLC_WEAR_AVG_PE | FLC_WEAR_MAX_PE | FLC_WEAR_WA | FLC_CAPACITY_SLOTS
  | FLC_BUDGET_GIB_PER_DAY | FLC_BUDGET_WRITTEN | FLC_READS | FLC_WRITES | FLC_CORR | FLC_UNCORR
  | FLC_BUDGET_FALLBACK | SEAM_STATUS_STATE | SEAM_STATUS_GEN | SEAM_STATUS_CLK_SRC | SEAM_STATUS_HALF_SEEN
  | SEAM_STATUS_RETIRED_SEEN | SEAM_STATUS_PEER_PORT | SEAM_STATUS_PEER_PLACE | SEAM_STATUS_PEER_DEPTH
  | SEAM_LANES_UNUSED | SEAM_LANES_SPARES | SEAM_PEER_ID_PEER_ID | SEAM_RTT_RTT | SEAM_FEC_CORR | SEAM_REPLAY
  | SEAM_RETRAIN | SEAM_TX_MFLITS | SEAM_RX_MFLITS | SEAM_CREDIT_WAIT | COLL_STATUS_MEMBER
  | COLL_STATUS_HALTED | COLL_CMD_DOM | COLL_CMD_OP | COLL_CMD_PLACE | COLL_DOM_CFG_ID | COLL_DOM_CFG_ENABLE
  | COLL_DOM_CFG_LINING | COLL_DOM_CFG_EXPECT | COLL_DOM_STATE_EPOCH | COLL_DOM_STATE_MEMBERS
  | COLL_DOM_STATE_POSITION | COLL_DOM_STATE_STATE | COLL_DOM_SEQ_NEXT | COLL_DOM_SEQ_OPEN | COLL_ISSUED
  | COLL_EPOCHS | COLL_PROPOSE_RETRY | COLL_HOLD_TX | COLL_HOLD_RX | COLL_SEQ_DROP | SWT_CFG_MAX_OUT
  | SWT_CFG_PREEMPT | SWT_STATUS_SWATCH | SWT_STATUS_REASON | SWT_STATUS_INVALID_SEEN
  | SWT_STATUS_PART_REJECT | SWT_CMD_SWATCH | SWT_CMD_OP | HUB_PART_CFG_REGIONS | HUB_PART_CFG_ENABLE
  | HUB_PART_SWT_FIRST | HUB_PART_SWT_COUNT | HUB_PART_SWT_PENDING | SWT_SWITCHES | SWT_PREEMPTS
  | SWT_RETURNS | SWT_INVALID | SWT_SWITCH_MAX | HST_ID_FUNCTION | HST_ID_PARTITION | HST_ID_GEN
  | HST_LINK_RATE | HST_LINK_WIDTH | HST_LINK_FLIT | HST_LINK_IDE_STREAMS | HST_LINK_SLOW_SEEN
  | HST_STRAPS_BOARDPOS | HST_STRAPS_PATSEL | HST_INT_CAUSE_CAUSE | HST_INT_MASK_ENABLE | HST_INT_VEC_VEC
  | HST_JOB_NEXT_SEQ | HST_JOB_STALLED | HST_JOB_WHY | HST_JOBS | HST_EARLY_READS | HST_SLOT_WAIT
  | HST_BOARD_STALL | HST_MMIO_DENIED | DP_ADDR_ADDR | DP_STRIDE_STRIDE | DP_COUNT_COUNT | DP_STATUS_ERR_SEEN
  | DP_STATUS_LAST_ERR | DP_STATUS_READ_PENDING | DP_DONE | DP_ERR | TXN_CTRL_OP | TXN_STATUS_OPEN
  | TXN_STATUS_RESULT | TXN_STATUS_ENTRIES | TXN_STATUS_OVERFLOW | TXN_STATUS_HELD | TXN_STATUS_LAST_COMMIT
  | TXN_APPLIED_APPLIED | PAT_STATUS_SELECTED | PAT_STATUS_SOURCE | PAT_STATUS_COPY | PAT_STATUS_FALLBACK_WHY
  | PAT_STATUS_NEXT_VALID | PAT_STATUS_NEXT | PAT_STATUS_BUSY | PAT_STATUS_WRITE_RESULT | PAT_STATUS_GEN
  | PAT_CMD_OP | PAT_CMD_NUMBER | PAT_SRC_ADDR | PAT_COPY_GEN | PAT_COPY_STATE | CLK_STATUS_STATE
  | CLK_STATUS_ROLE | CLK_STATUS_PORT | CLK_STATUS_DEPTH | CLK_STATUS_ORPHANED | CLK_STATUS_LOST_SEEN
  | CLK_STATUS_REF_LOST | CLK_STATUS_ARRAY_DIV | CLK_STATUS_FABRIC_DIV | CLK_STATUS_VECTOR_DIV
  | CLK_STATUS_HBMC_DIV | CLK_STATUS_CTRL_DIV | CLK_CMD_OP | CLK_TIME_TIME | CLK_LOSSES | CLK_SWITCHES
  | PWR_STATUS_LEVEL | PWR_STATUS_PASS | PWR_STATUS_LIMITING | PWR_STATUS_LIMIT_SEEN | PWR_STATUS_FLOOR_SEEN
  | PWR_CFG_LIMIT_W | PWR_INPUT_MV | PWR_INPUT_DW | PWR_GRADE_GRADE | PWR_GRADE_PASS_MAX | PWR_GRADE_GRADE_W
  | PWR_LIMIT_MS | PWR_FAST | HUB_BOOT_STEP | HUB_BOOT_WARM | HUB_BOOT_FAST | HUB_BOOT_READY
  | HUB_BOOT_DEGRADED | HUB_BOOT_FAIL_WHY | HUB_BOOT_MISSING | HUB_BOOT_UNEXPECTED | HUB_BOOT_FW_RESTART
  | HUB_BOOT_MAP_REPLAYED | HUB_BOOT_BOOT_MS | HUB_CAPACITY_CORES | HUB_CAPACITY_REGIONS_OUT
  | HUB_CAPACITY_STACKS | HUB_CAPACITY_FLASH_CTL | HUB_CAPACITY_PORTS_UP | HUB_CAPACITY_RETIRED
  | HUB_RESET_OP | HUB_RESET_PART | HUB_ABSORBED | RGN_STATUS_STATE | RGN_STATUS_SWATCH
  | RGN_STATUS_REMAP_SEEN | RGN_STATUS_HOLE_SEEN | RGN_CORE_MAP_PHYS | RGN_CORE_MAP_FUSED
  | RGN_CORE_MAP_FIELD | RGN_CORE_MAP_FIT_FAIL | RGN_LIMP_CARRIER | RGN_FIT_CFG_INTERVAL | RGN_CMD_OP
  | RGN_CMD_K | RGN_SLICES | RGN_SLICE_FAIL | RGN_REMAPS | RGN_LIMP_SWAPS | RGN_ABSORBED | THM_STATUS_STATE
  | THM_STATUS_SLOT | THM_STATUS_KEY | THM_STATUS_F0_REVOKED | THM_STATUS_CLEAN | THM_STATUS_REFURB_REQ
  | THM_STATUS_MIN_SVN | THM_STATUS_SVN | THM_CMD_OP | THM_CMD_SLOT | THM_ARG_ADDR | THM_RESULT_RESULT
  | THM_RESULT_OP | THM_NONCE_NONCE | THM_RCV_DATA | THM_VERIFY_FAIL | LEDG_STATUS_SECTORS
  | LEDG_STATUS_FULL90 | LEDG_STATUS_ARCHIVED_SEEN | LEDG_STATUS_QUEUE | LEDG_HEAD_SEQ | LEDG_TAIL_SEQ
  | LEDG_INDEX_SEQ | LEDG_CMD_OP | LEDG_CMD_COUNT | LEDG_WRITES
  deriving DecidableEq, Repr

/-- One row of a register table. `stride` and `count` belong to indexed registers (R342, R380, R427, R260). -/
structure FieldDesc where
  block  : Block
  offset : Nat
  stride : Nat
  count  : Nat
  lo     : Nat
  width  : Nat
  access : Access
  kind   : ResetKind
  reset  : Nat
  deriving DecidableEq, Repr

end Sys2Proof

namespace Sys2Proof.Machine

/-- The register tables, row by row. (DESIGN CHOICE, log 3.) -/
def fieldDesc : FieldName → FieldDesc
  | .CORE_ID_LOGICAL => ⟨.core, 0x0, 0, 1, 0, 9, .RO, .firmware, 0x0⟩
  | .CORE_ID_PHYS_K => ⟨.core, 0x0, 0, 1, 12, 4, .RO, .firmware, 0x0⟩
  | .CORE_ID_REGION => ⟨.core, 0x0, 0, 1, 16, 6, .RO, .firmware, 0x0⟩
  | .CORE_ID_GEN => ⟨.core, 0x0, 0, 1, 22, 2, .RO, .fixed, 0x1⟩
  | .CORE_STATUS_STATE => ⟨.core, 0x8, 0, 1, 0, 3, .RO, .fixed, 0x0⟩
  | .CORE_STATUS_REFUSED => ⟨.core, 0x8, 0, 1, 3, 1, .W1C, .fixed, 0x0⟩
  | .CORE_STATUS_BROKEN => ⟨.core, 0x8, 0, 1, 4, 1, .RO, .fixed, 0x0⟩
  | .CORE_STATUS_LAST_REFUSAL => ⟨.core, 0x8, 0, 1, 8, 8, .RO, .fixed, 0x0⟩
  | .CORE_STATUS_SWATCH => ⟨.core, 0x8, 0, 1, 16, 16, .RO, .fixed, 0x0⟩
  | .CORE_STATUS_REFUSAL_PC => ⟨.core, 0x8, 0, 1, 32, 19, .RO, .fixed, 0x0⟩
  | .CORE_SHUTTLE_CFG_LOAD_DIST => ⟨.core, 0x10, 0, 1, 0, 6, .RW, .pattern, 0x0⟩
  | .CORE_SHUTTLE_CFG_STAGE => ⟨.core, 0x10, 0, 1, 8, 6, .RW, .pattern, 0x0⟩
  | .CORE_SHUTTLE_CFG_STAGE_BASE => ⟨.core, 0x10, 0, 1, 16, 8, .RW, .pattern, 0x0⟩
  | .CORE_PROG_BASE => ⟨.core, 0x18, 0, 1, 0, 19, .RO, .fixed, 0x0⟩
  | .CORE_PC_PC => ⟨.core, 0x20, 0, 1, 0, 19, .RO, .fixed, 0x0⟩
  | .CORE_PC_DEPTH => ⟨.core, 0x20, 0, 1, 19, 3, .RO, .fixed, 0x0⟩
  | .CORE_ISSUED => ⟨.core, 0x28, 0, 1, 0, 32, .RC, .fixed, 0x0⟩
  | .CORE_BUSY => ⟨.core, 0x30, 0, 1, 0, 32, .RC, .fixed, 0x0⟩
  | .CORE_FILL_BOUND => ⟨.core, 0x38, 0, 1, 0, 32, .RC, .fixed, 0x0⟩
  | .CORE_STALL_ROW => ⟨.core, 0x40, 0, 1, 0, 32, .RC, .fixed, 0x0⟩
  | .CORE_STALL_WEIGHT => ⟨.core, 0x48, 0, 1, 0, 32, .RC, .fixed, 0x0⟩
  | .CORE_STALL_STORE => ⟨.core, 0x50, 0, 1, 0, 32, .RC, .fixed, 0x0⟩
  | .CORE_EMPTY_ROWS => ⟨.core, 0x58, 0, 1, 0, 32, .RC, .fixed, 0x0⟩
  | .CORE_REFUSALS => ⟨.core, 0x60, 0, 1, 0, 32, .RC, .fixed, 0x0⟩
  | .ARR_STATUS_ACTIVE => ⟨.arr, 0x0, 0, 1, 0, 4, .RO, .fixed, 0x0⟩
  | .ARR_STATUS_MODE => ⟨.arr, 0x0, 0, 1, 4, 2, .RO, .fixed, 0x0⟩
  | .ARR_STATUS_FACE_VALID => ⟨.arr, 0x0, 0, 1, 6, 1, .RO, .fixed, 0x0⟩
  | .ARR_FAULT_VALID => ⟨.arr, 0x8, 0, 1, 0, 1, .RO, .fixed, 0x0⟩
  | .ARR_FAULT_ARRAY => ⟨.arr, 0x8, 0, 1, 1, 2, .RO, .fixed, 0x0⟩
  | .ARR_FAULT_COLUMN => ⟨.arr, 0x8, 0, 1, 3, 6, .RO, .fixed, 0x0⟩
  | .ARR_FAULT_SLOT => ⟨.arr, 0x8, 0, 1, 9, 6, .RO, .fixed, 0x0⟩
  | .ARR_COMP_INSTR => ⟨.arr, 0x10, 0, 1, 0, 32, .RC, .fixed, 0x0⟩
  | .ARR_SAT => ⟨.arr, 0x18, 0, 1, 0, 32, .RC, .fixed, 0x0⟩
  | .ARR_NONFINITE => ⟨.arr, 0x20, 0, 1, 0, 32, .RC, .fixed, 0x0⟩
  | .ARR_NAN_SCALE => ⟨.arr, 0x28, 0, 1, 0, 32, .RC, .fixed, 0x0⟩
  | .ARR_NUMERIC_SAT_SEEN => ⟨.arr, 0x30, 0, 1, 0, 1, .W1C, .fixed, 0x0⟩
  | .ARR_NUMERIC_LAST_SAT_STAGE => ⟨.arr, 0x30, 0, 1, 1, 3, .RO, .fixed, 0x0⟩
  | .ARR_NUMERIC_LAST_SAT_TAG => ⟨.arr, 0x30, 0, 1, 4, 12, .RO, .fixed, 0x0⟩
  | .VEC_STATUS_BUSY => ⟨.vec, 0x0, 0, 1, 0, 1, .RO, .fixed, 0x0⟩
  | .VEC_STATUS_OP => ⟨.vec, 0x0, 0, 1, 1, 6, .RO, .fixed, 0x0⟩
  | .VEC_STATUS_SAT_SEEN => ⟨.vec, 0x0, 0, 1, 7, 1, .W1C, .fixed, 0x0⟩
  | .VEC_STATUS_LAST_SAT_TAG => ⟨.vec, 0x0, 0, 1, 8, 12, .RO, .fixed, 0x0⟩
  | .VEC_BETA_BETA => ⟨.vec, 0x8, 0, 1, 0, 32, .RO, .fixed, 0x3F800000⟩
  | .VEC_EPS_EPS => ⟨.vec, 0x10, 0, 1, 0, 32, .RO, .fixed, 0x35800000⟩
  | .VEC_POS_QBASE => ⟨.vec, 0x18, 0, 1, 0, 22, .RO, .fixed, 0x0⟩
  | .VEC_POS_KBASE => ⟨.vec, 0x18, 0, 1, 22, 22, .RO, .fixed, 0x0⟩
  | .VEC_POS_MASK => ⟨.vec, 0x18, 0, 1, 44, 2, .RO, .fixed, 0x0⟩
  | .VEC_BUSY => ⟨.vec, 0x20, 0, 1, 0, 32, .RC, .fixed, 0x0⟩
  | .VEC_STALL_SCRATCH => ⟨.vec, 0x28, 0, 1, 0, 32, .RC, .fixed, 0x0⟩
  | .VEC_SAT => ⟨.vec, 0x30, 0, 1, 0, 32, .RC, .fixed, 0x0⟩
  | .VEC_NONFINITE => ⟨.vec, 0x38, 0, 1, 0, 32, .RC, .fixed, 0x0⟩
  | .VEC_FIRST_USE => ⟨.vec, 0x40, 0, 1, 0, 32, .RC, .fixed, 0x0⟩
  | .VEC_EMPTY_NORM => ⟨.vec, 0x48, 0, 1, 0, 32, .RC, .fixed, 0x0⟩
  | .PRESS_STATUS_STATE => ⟨.press, 0x0, 0, 1, 0, 3, .RO, .fixed, 0x0⟩
  | .PRESS_STATUS_BAD_SEEN => ⟨.press, 0x0, 0, 1, 3, 1, .W1C, .fixed, 0x0⟩
  | .PRESS_STATUS_UNCORR_SEEN => ⟨.press, 0x0, 0, 1, 4, 1, .W1C, .fixed, 0x0⟩
  | .PRESS_STATUS_SPAN => ⟨.press, 0x0, 0, 1, 8, 16, .RO, .fixed, 0x0⟩
  | .PRESS_STATUS_SWATCH => ⟨.press, 0x0, 0, 1, 24, 16, .RO, .fixed, 0x0⟩
  | .PRESS_QUEUE_DEPTH => ⟨.press, 0x8, 0, 1, 0, 10, .RO, .fixed, 0x0⟩
  | .PRESS_QUEUE_PENDING_ROWS => ⟨.press, 0x8, 0, 1, 16, 16, .RO, .fixed, 0x0⟩
  | .PRESS_BLOCKS => ⟨.press, 0x10, 0, 1, 0, 32, .RC, .fixed, 0x0⟩
  | .PRESS_FAR => ⟨.press, 0x18, 0, 1, 0, 32, .RC, .fixed, 0x0⟩
  | .PRESS_SAT => ⟨.press, 0x20, 0, 1, 0, 32, .RC, .fixed, 0x0⟩
  | .PRESS_BAD_SPAN => ⟨.press, 0x28, 0, 1, 0, 32, .RC, .fixed, 0x0⟩
  | .PRESS_ROW_SKIP => ⟨.press, 0x30, 0, 1, 0, 32, .RC, .fixed, 0x0⟩
  | .PRESS_ROW_WAIT => ⟨.press, 0x38, 0, 1, 0, 32, .RC, .fixed, 0x0⟩
  | .PRESS_PEND_FULL => ⟨.press, 0x40, 0, 1, 0, 32, .RC, .fixed, 0x0⟩
  | .PRESS_RES_RESET => ⟨.press, 0x48, 0, 1, 0, 32, .RC, .fixed, 0x0⟩
  | .PRESS_UPD_CYC => ⟨.press, 0x50, 0, 1, 0, 32, .RC, .fixed, 0x0⟩
  | .HUB_TACK_LAST_VALID => ⟨.hub, 0x800, 0, 1, 0, 1, .RO, .fixed, 0x0⟩
  | .HUB_TACK_LAST_V => ⟨.hub, 0x800, 0, 1, 1, 1, .RO, .fixed, 0x0⟩
  | .HUB_TACK_LAST_W => ⟨.hub, 0x800, 0, 1, 2, 1, .RO, .fixed, 0x0⟩
  | .HUB_TACK_LAST_MM => ⟨.hub, 0x800, 0, 1, 3, 1, .RO, .fixed, 0x0⟩
  | .HUB_TACK_LAST_CAUSE => ⟨.hub, 0x800, 0, 1, 4, 8, .RO, .fixed, 0x0⟩
  | .HUB_TACK_LAST_SWATCH => ⟨.hub, 0x800, 0, 1, 12, 16, .RO, .fixed, 0x0⟩
  | .HUB_TACK_LAST_STEP_LO => ⟨.hub, 0x800, 0, 1, 28, 36, .RO, .fixed, 0x0⟩
  | .HUB_AGREE_STATUS_STATE => ⟨.hub, 0x808, 0, 1, 0, 2, .RO, .fixed, 0x0⟩
  | .HUB_AGREE_STATUS_SWATCH => ⟨.hub, 0x808, 0, 1, 2, 16, .RO, .fixed, 0x0⟩
  | .HUB_AGREE_STATUS_HALT_SEEN => ⟨.hub, 0x808, 0, 1, 18, 1, .W1C, .fixed, 0x0⟩
  | .HUB_AGREE_STATUS_WITHDRAW_SEEN => ⟨.hub, 0x808, 0, 1, 19, 1, .W1C, .fixed, 0x0⟩
  | .HUB_TACK_PASS => ⟨.hub, 0x810, 0, 1, 0, 32, .RC, .fixed, 0x0⟩
  | .HUB_TACK_FAIL => ⟨.hub, 0x818, 0, 1, 0, 32, .RC, .fixed, 0x0⟩
  | .HUB_TACK_STALE => ⟨.hub, 0x820, 0, 1, 0, 32, .RC, .fixed, 0x0⟩
  | .HUB_TACK_DISAGREE => ⟨.hub, 0x828, 0, 1, 0, 32, .RC, .fixed, 0x0⟩
  | .HUB_TACK_TIMEOUT => ⟨.hub, 0x830, 0, 1, 0, 32, .RC, .fixed, 0x0⟩
  | .HUB_AGREE_MISMATCH => ⟨.hub, 0x838, 0, 1, 0, 32, .RC, .fixed, 0x0⟩
  | .HUB_AGREE_REPAIR => ⟨.hub, 0x840, 0, 1, 0, 32, .RC, .fixed, 0x0⟩
  | .HUB_UNCORR => ⟨.hub, 0x848, 0, 1, 0, 32, .RC, .fixed, 0x0⟩
  | .BASE_STATUS_STATE => ⟨.base, 0x0, 0, 1, 0, 3, .RO, .fixed, 0x0⟩
  | .BASE_STATUS_LEVEL => ⟨.base, 0x0, 0, 1, 3, 2, .RO, .fixed, 0x0⟩
  | .BASE_STATUS_PRESSED => ⟨.base, 0x0, 0, 1, 5, 1, .RO, .firmware, 0x0⟩
  | .BASE_STATUS_HOT_SEEN => ⟨.base, 0x0, 0, 1, 6, 1, .W1C, .fixed, 0x0⟩
  | .BASE_STATUS_CRIT_SEEN => ⟨.base, 0x0, 0, 1, 7, 1, .W1C, .fixed, 0x0⟩
  | .BASE_TEMP_CUR => ⟨.base, 0x8, 0, 1, 0, 8, .RO, .fixed, 0x0⟩
  | .BASE_TEMP_PEAK => ⟨.base, 0x8, 0, 1, 8, 8, .RC, .fixed, 0x0⟩
  | .BASE_TEMP_DIE => ⟨.base, 0x8, 0, 1, 16, 5, .RO, .fixed, 0x0⟩
  | .BASE_SELVEDGE_SPARES => ⟨.base, 0x10, 0, 1, 0, 64, .RO, .firmware, 0x0⟩
  | .BASE_UNCORR_LOC_VALID => ⟨.base, 0x18, 0, 1, 0, 1, .W1C, .fixed, 0x0⟩
  | .BASE_UNCORR_LOC_SLOT => ⟨.base, 0x18, 0, 1, 1, 21, .RO, .fixed, 0x0⟩
  | .BASE_UNCORR_LOC_PCH => ⟨.base, 0x18, 0, 1, 22, 6, .RO, .fixed, 0x0⟩
  | .BASE_UNCORR_LOC_GRANULE => ⟨.base, 0x18, 0, 1, 28, 8, .RO, .fixed, 0x0⟩
  | .BASE_UNCORR_LOC_UNIT => ⟨.base, 0x18, 0, 1, 36, 2, .RO, .fixed, 0x0⟩
  | .BASE_KEEP_CFG_KEEP_WAYS => ⟨.base, 0x20, 0, 1, 0, 32, .RW, .pattern, 0x0⟩
  | .BASE_CORR => ⟨.base, 0x28, 0, 1, 0, 32, .RC, .fixed, 0x0⟩
  | .BASE_UNCORR => ⟨.base, 0x30, 0, 1, 0, 32, .RC, .fixed, 0x0⟩
  | .BASE_RETIRED => ⟨.base, 0x38, 0, 1, 0, 32, .RO, .firmware, 0x0⟩
  | .BASE_LANE_SWAP => ⟨.base, 0x40, 0, 1, 0, 32, .RC, .fixed, 0x0⟩
  | .BASE_HOT_CYC => ⟨.base, 0x48, 0, 1, 0, 32, .RC, .fixed, 0x0⟩
  | .BASE_HIT => ⟨.base, 0x50, 0, 1, 0, 32, .RC, .fixed, 0x0⟩
  | .BASE_MISS => ⟨.base, 0x58, 0, 1, 0, 32, .RC, .fixed, 0x0⟩
  | .BASE_DALU_DROP => ⟨.base, 0x60, 0, 1, 0, 32, .RC, .fixed, 0x0⟩
  | .BASE_SCRUB_PASS => ⟨.base, 0x68, 0, 1, 0, 32, .RC, .fixed, 0x0⟩
  | .RGN_PKT_STATUS_ZEROING => ⟨.rgn, 0x200, 0, 1, 0, 16, .RO, .fixed, 0x0⟩
  | .RGN_PKT_STATUS_PARITY_SEEN => ⟨.rgn, 0x200, 0, 1, 16, 1, .W1C, .fixed, 0x0⟩
  | .RGN_PKT_STATUS_FAULT_SEEN => ⟨.rgn, 0x200, 0, 1, 17, 1, .W1C, .fixed, 0x0⟩
  | .RGN_PKT_WAY_KIND => ⟨.rgn, 0x208, 8, 16, 0, 2, .RW, .pattern, 0x0⟩
  | .RGN_PKT_WAY_SWATCH => ⟨.rgn, 0x208, 8, 16, 2, 16, .RW, .pattern, 0x0⟩
  | .RGN_PKT_HIT => ⟨.rgn, 0x288, 0, 1, 0, 32, .RC, .fixed, 0x0⟩
  | .RGN_PKT_MISS => ⟨.rgn, 0x290, 0, 1, 0, 32, .RC, .fixed, 0x0⟩
  | .RGN_PKT_PARITY => ⟨.rgn, 0x298, 0, 1, 0, 32, .RC, .fixed, 0x0⟩
  | .TIER_CFG_STALL_LIMIT => ⟨.tier, 0x0, 0, 1, 0, 16, .RW, .pattern, 0x0⟩
  | .TIER_T3_BASE_BASE => ⟨.tier, 0x8, 0, 1, 16, 48, .RW, .fixed, 0x0⟩
  | .TIER_T3_SIZE_BOLTS => ⟨.tier, 0x10, 0, 1, 0, 32, .RW, .fixed, 0x0⟩
  | .TIER_FREE_T1 => ⟨.tier, 0x18, 0, 1, 0, 26, .RO, .firmware, 0x0⟩
  | .TIER_FREE_T2 => ⟨.tier, 0x18, 0, 1, 26, 26, .RO, .firmware, 0x0⟩
  | .TIER_STALL_LAST_SWATCH => ⟨.tier, 0x20, 0, 1, 0, 16, .RO, .fixed, 0x0⟩
  | .TIER_STALL_LAST_CAUSE => ⟨.tier, 0x20, 0, 1, 16, 3, .RO, .fixed, 0x0⟩
  | .TIER_STALL_LAST_FAILED => ⟨.tier, 0x20, 0, 1, 19, 1, .RO, .fixed, 0x0⟩
  | .TIER_STALL_LAST_DURATION => ⟨.tier, 0x20, 0, 1, 20, 32, .RO, .fixed, 0x0⟩
  | .TIER_STALL_FLASH => ⟨.tier, 0x28, 0, 1, 0, 32, .RC, .fixed, 0x0⟩
  | .TIER_STALL_HOT => ⟨.tier, 0x30, 0, 1, 0, 32, .RC, .fixed, 0x0⟩
  | .TIER_STALL_DIR => ⟨.tier, 0x38, 0, 1, 0, 32, .RC, .fixed, 0x0⟩
  | .TIER_STALL_QUOTA => ⟨.tier, 0x40, 0, 1, 0, 32, .RC, .fixed, 0x0⟩
  | .TIER_STALL_HOST => ⟨.tier, 0x48, 0, 1, 0, 32, .RC, .fixed, 0x0⟩
  | .TIER_STALL_SEAM => ⟨.tier, 0x50, 0, 1, 0, 32, .RC, .fixed, 0x0⟩
  | .TIER_STALL_FAIL => ⟨.tier, 0x58, 0, 1, 0, 32, .RC, .fixed, 0x0⟩
  | .TIER_MOVES => ⟨.tier, 0x60, 0, 1, 0, 32, .RC, .fixed, 0x0⟩
  | .TIER_CANCELS => ⟨.tier, 0x68, 0, 1, 0, 32, .RC, .fixed, 0x0⟩
  | .TIER_DEFERS => ⟨.tier, 0x70, 0, 1, 0, 32, .RC, .fixed, 0x0⟩
  | .TIER_CANCEL_FULL => ⟨.tier, 0x78, 0, 1, 0, 32, .RC, .fixed, 0x0⟩
  | .TIER_VOID => ⟨.tier, 0x80, 0, 1, 0, 32, .RC, .fixed, 0x0⟩
  | .DIR_CFG_ENTRIES => ⟨.dir, 0x0, 0, 1, 0, 28, .RO, .fixed, 0x8000000⟩
  | .DIR_CFG_SLICE => ⟨.dir, 0x0, 0, 1, 28, 2, .RO, .firmware, 0x0⟩
  | .DIR_HIT => ⟨.dir, 0x8, 0, 1, 0, 32, .RC, .fixed, 0x0⟩
  | .DIR_MISS => ⟨.dir, 0x10, 0, 1, 0, 32, .RC, .fixed, 0x0⟩
  | .DIR_DENIED => ⟨.dir, 0x18, 0, 1, 0, 32, .RC, .fixed, 0x0⟩
  | .DIR_FLIPS => ⟨.dir, 0x20, 0, 1, 0, 32, .RC, .fixed, 0x0⟩
  | .DIR_SCRUB_FIX => ⟨.dir, 0x28, 0, 1, 0, 32, .RC, .fixed, 0x0⟩
  | .DIR_SCRUB_PASS => ⟨.dir, 0x30, 0, 1, 0, 32, .RC, .fixed, 0x0⟩
  | .FLC_STATUS_STATE => ⟨.flc, 0x0, 0, 1, 0, 2, .RO, .fixed, 0x0⟩
  | .FLC_STATUS_BUDGET_HIT => ⟨.flc, 0x0, 0, 1, 2, 1, .W1C, .fixed, 0x0⟩
  | .FLC_STATUS_SPARE_LOW => ⟨.flc, 0x0, 0, 1, 3, 1, .W1C, .fixed, 0x0⟩
  | .FLC_WEAR_AVG_PE => ⟨.flc, 0x8, 0, 1, 0, 16, .RO, .firmware, 0x0⟩
  | .FLC_WEAR_MAX_PE => ⟨.flc, 0x8, 0, 1, 16, 16, .RO, .firmware, 0x0⟩
  | .FLC_WEAR_WA => ⟨.flc, 0x8, 0, 1, 32, 16, .RO, .firmware, 0x0⟩
  | .FLC_CAPACITY_SLOTS => ⟨.flc, 0x10, 0, 1, 0, 25, .RO, .firmware, 0x0⟩
  | .FLC_BUDGET_GIB_PER_DAY => ⟨.flc, 0x18, 0, 1, 0, 24, .RW, .pattern, 0x0⟩
  | .FLC_BUDGET_WRITTEN => ⟨.flc, 0x18, 0, 1, 24, 24, .RO, .firmware, 0x0⟩
  | .FLC_READS => ⟨.flc, 0x20, 0, 1, 0, 32, .RC, .fixed, 0x0⟩
  | .FLC_WRITES => ⟨.flc, 0x28, 0, 1, 0, 32, .RC, .fixed, 0x0⟩
  | .FLC_CORR => ⟨.flc, 0x30, 0, 1, 0, 32, .RC, .fixed, 0x0⟩
  | .FLC_UNCORR => ⟨.flc, 0x38, 0, 1, 0, 32, .RC, .fixed, 0x0⟩
  | .FLC_BUDGET_FALLBACK => ⟨.flc, 0x40, 0, 1, 0, 32, .RC, .fixed, 0x0⟩
  | .SEAM_STATUS_STATE => ⟨.seam, 0x0, 0, 1, 0, 3, .RO, .fixed, 0x0⟩
  | .SEAM_STATUS_GEN => ⟨.seam, 0x0, 0, 1, 3, 2, .RO, .fixed, 0x0⟩
  | .SEAM_STATUS_CLK_SRC => ⟨.seam, 0x0, 0, 1, 5, 1, .RO, .fixed, 0x0⟩
  | .SEAM_STATUS_HALF_SEEN => ⟨.seam, 0x0, 0, 1, 6, 1, .W1C, .fixed, 0x0⟩
  | .SEAM_STATUS_RETIRED_SEEN => ⟨.seam, 0x0, 0, 1, 7, 1, .W1C, .fixed, 0x0⟩
  | .SEAM_STATUS_PEER_PORT => ⟨.seam, 0x0, 0, 1, 8, 4, .RO, .fixed, 0x0⟩
  | .SEAM_STATUS_PEER_PLACE => ⟨.seam, 0x0, 0, 1, 12, 13, .RO, .fixed, 0x0⟩
  | .SEAM_STATUS_PEER_DEPTH => ⟨.seam, 0x0, 0, 1, 25, 5, .RO, .fixed, 0x1F⟩
  | .SEAM_LANES_UNUSED => ⟨.seam, 0x8, 0, 1, 0, 18, .RO, .fixed, 0x0⟩
  | .SEAM_LANES_SPARES => ⟨.seam, 0x8, 0, 1, 18, 2, .RO, .fixed, 0x0⟩
  | .SEAM_PEER_ID_PEER_ID => ⟨.seam, 0x10, 0, 1, 0, 64, .RO, .fixed, 0x0⟩
  | .SEAM_RTT_RTT => ⟨.seam, 0x18, 0, 1, 0, 16, .RO, .fixed, 0x0⟩
  | .SEAM_FEC_CORR => ⟨.seam, 0x20, 0, 1, 0, 32, .RC, .fixed, 0x0⟩
  | .SEAM_REPLAY => ⟨.seam, 0x28, 0, 1, 0, 32, .RC, .fixed, 0x0⟩
  | .SEAM_RETRAIN => ⟨.seam, 0x30, 0, 1, 0, 32, .RC, .fixed, 0x0⟩
  | .SEAM_TX_MFLITS => ⟨.seam, 0x38, 0, 1, 0, 32, .RC, .fixed, 0x0⟩
  | .SEAM_RX_MFLITS => ⟨.seam, 0x40, 0, 1, 0, 32, .RC, .fixed, 0x0⟩
  | .SEAM_CREDIT_WAIT => ⟨.seam, 0x48, 0, 1, 0, 32, .RC, .fixed, 0x0⟩
  | .COLL_STATUS_MEMBER => ⟨.coll, 0x0, 0, 1, 0, 16, .RO, .fixed, 0x0⟩
  | .COLL_STATUS_HALTED => ⟨.coll, 0x0, 0, 1, 16, 16, .RO, .fixed, 0x0⟩
  | .COLL_CMD_DOM => ⟨.coll, 0x8, 0, 1, 0, 4, .WO, .fixed, 0x0⟩
  | .COLL_CMD_OP => ⟨.coll, 0x8, 0, 1, 4, 3, .WO, .fixed, 0x0⟩
  | .COLL_CMD_PLACE => ⟨.coll, 0x8, 0, 1, 7, 13, .WO, .fixed, 0x0⟩
  | .COLL_DOM_CFG_ID => ⟨.coll, 0x100, 16, 16, 0, 32, .RW, .pattern, 0x0⟩
  | .COLL_DOM_CFG_ENABLE => ⟨.coll, 0x100, 16, 16, 32, 1, .RW, .pattern, 0x0⟩
  | .COLL_DOM_CFG_LINING => ⟨.coll, 0x100, 16, 16, 33, 1, .RW, .pattern, 0x0⟩
  | .COLL_DOM_CFG_EXPECT => ⟨.coll, 0x100, 16, 16, 34, 14, .RW, .pattern, 0x0⟩
  | .COLL_DOM_STATE_EPOCH => ⟨.coll, 0x108, 16, 16, 0, 32, .RO, .fixed, 0x0⟩
  | .COLL_DOM_STATE_MEMBERS => ⟨.coll, 0x108, 16, 16, 32, 13, .RO, .fixed, 0x0⟩
  | .COLL_DOM_STATE_POSITION => ⟨.coll, 0x108, 16, 16, 45, 13, .RO, .fixed, 0x0⟩
  | .COLL_DOM_STATE_STATE => ⟨.coll, 0x108, 16, 16, 58, 3, .RO, .fixed, 0x0⟩
  | .COLL_DOM_SEQ_NEXT => ⟨.coll, 0x200, 8, 16, 0, 32, .RO, .fixed, 0x0⟩
  | .COLL_DOM_SEQ_OPEN => ⟨.coll, 0x200, 8, 16, 32, 4, .RO, .fixed, 0x0⟩
  | .COLL_ISSUED => ⟨.coll, 0x10, 0, 1, 0, 32, .RC, .fixed, 0x0⟩
  | .COLL_EPOCHS => ⟨.coll, 0x18, 0, 1, 0, 32, .RC, .fixed, 0x0⟩
  | .COLL_PROPOSE_RETRY => ⟨.coll, 0x20, 0, 1, 0, 32, .RC, .fixed, 0x0⟩
  | .COLL_HOLD_TX => ⟨.coll, 0x28, 0, 1, 0, 32, .RC, .fixed, 0x0⟩
  | .COLL_HOLD_RX => ⟨.coll, 0x30, 0, 1, 0, 32, .RC, .fixed, 0x0⟩
  | .COLL_SEQ_DROP => ⟨.coll, 0x38, 0, 1, 0, 32, .RC, .fixed, 0x0⟩
  | .SWT_CFG_MAX_OUT => ⟨.swt, 0x0, 0, 1, 0, 16, .RW, .pattern, 0x0⟩
  | .SWT_CFG_PREEMPT => ⟨.swt, 0x0, 0, 1, 16, 1, .RW, .pattern, 0x0⟩
  | .SWT_STATUS_SWATCH => ⟨.swt, 0x8, 0, 1, 0, 16, .RO, .fixed, 0x0⟩
  | .SWT_STATUS_REASON => ⟨.swt, 0x8, 0, 1, 16, 4, .RO, .fixed, 0x0⟩
  | .SWT_STATUS_INVALID_SEEN => ⟨.swt, 0x8, 0, 1, 20, 1, .W1C, .fixed, 0x0⟩
  | .SWT_STATUS_PART_REJECT => ⟨.swt, 0x8, 0, 1, 21, 1, .W1C, .fixed, 0x0⟩
  | .SWT_CMD_SWATCH => ⟨.swt, 0x10, 0, 1, 0, 16, .WO, .fixed, 0x0⟩
  | .SWT_CMD_OP => ⟨.swt, 0x10, 0, 1, 16, 3, .WO, .fixed, 0x0⟩
  | .HUB_PART_CFG_REGIONS => ⟨.hub, 0x900, 16, 8, 0, 48, .RW, .pattern, 0x0⟩
  | .HUB_PART_CFG_ENABLE => ⟨.hub, 0x900, 16, 8, 48, 1, .RW, .pattern, 0x0⟩
  | .HUB_PART_SWT_FIRST => ⟨.hub, 0x908, 16, 8, 0, 16, .RW, .pattern, 0x0⟩
  | .HUB_PART_SWT_COUNT => ⟨.hub, 0x908, 16, 8, 16, 17, .RW, .pattern, 0x0⟩
  | .HUB_PART_SWT_PENDING => ⟨.hub, 0x908, 16, 8, 33, 1, .RO, .fixed, 0x0⟩
  | .SWT_SWITCHES => ⟨.swt, 0x18, 0, 1, 0, 32, .RC, .fixed, 0x0⟩
  | .SWT_PREEMPTS => ⟨.swt, 0x20, 0, 1, 0, 32, .RC, .fixed, 0x0⟩
  | .SWT_RETURNS => ⟨.swt, 0x28, 0, 1, 0, 32, .RC, .fixed, 0x0⟩
  | .SWT_INVALID => ⟨.swt, 0x30, 0, 1, 0, 32, .RC, .fixed, 0x0⟩
  | .SWT_SWITCH_MAX => ⟨.swt, 0x38, 0, 1, 0, 32, .RC, .fixed, 0x0⟩
  | .HST_ID_FUNCTION => ⟨.hst, 0x0, 0, 1, 0, 4, .RO, .firmware, 0x0⟩
  | .HST_ID_PARTITION => ⟨.hst, 0x0, 0, 1, 4, 3, .RO, .firmware, 0x0⟩
  | .HST_ID_GEN => ⟨.hst, 0x0, 0, 1, 7, 2, .RO, .fixed, 0x1⟩
  | .HST_LINK_RATE => ⟨.hst, 0x8, 0, 1, 0, 3, .RO, .fixed, 0x0⟩
  | .HST_LINK_WIDTH => ⟨.hst, 0x8, 0, 1, 3, 3, .RO, .fixed, 0x0⟩
  | .HST_LINK_FLIT => ⟨.hst, 0x8, 0, 1, 6, 1, .RO, .fixed, 0x0⟩
  | .HST_LINK_IDE_STREAMS => ⟨.hst, 0x8, 0, 1, 7, 3, .RO, .fixed, 0x0⟩
  | .HST_LINK_SLOW_SEEN => ⟨.hst, 0x8, 0, 1, 10, 1, .W1C, .fixed, 0x0⟩
  | .HST_STRAPS_BOARDPOS => ⟨.hst, 0x10, 0, 1, 0, 3, .RO, .firmware, 0x0⟩
  | .HST_STRAPS_PATSEL => ⟨.hst, 0x10, 0, 1, 3, 2, .RO, .firmware, 0x0⟩
  | .HST_INT_CAUSE_CAUSE => ⟨.hst, 0x18, 0, 1, 0, 8, .W1C, .fixed, 0x0⟩
  | .HST_INT_MASK_ENABLE => ⟨.hst, 0x20, 0, 1, 0, 8, .RW, .fixed, 0x0⟩
  | .HST_INT_VEC_VEC => ⟨.hst, 0x28, 0, 1, 0, 48, .RW, .fixed, 0x0⟩
  | .HST_JOB_NEXT_SEQ => ⟨.hst, 0x100, 8, 8, 0, 32, .RO, .fixed, 0x1⟩
  | .HST_JOB_STALLED => ⟨.hst, 0x100, 8, 8, 32, 1, .RO, .fixed, 0x0⟩
  | .HST_JOB_WHY => ⟨.hst, 0x100, 8, 8, 33, 2, .RO, .fixed, 0x0⟩
  | .HST_JOBS => ⟨.hst, 0x38, 0, 1, 0, 32, .RC, .fixed, 0x0⟩
  | .HST_EARLY_READS => ⟨.hst, 0x40, 0, 1, 0, 32, .RC, .fixed, 0x0⟩
  | .HST_SLOT_WAIT => ⟨.hst, 0x48, 0, 1, 0, 32, .RC, .fixed, 0x0⟩
  | .HST_BOARD_STALL => ⟨.hst, 0x50, 0, 1, 0, 32, .RC, .fixed, 0x0⟩
  | .HST_MMIO_DENIED => ⟨.hst, 0x58, 0, 1, 0, 32, .RC, .fixed, 0x0⟩
  | .DP_ADDR_ADDR => ⟨.dp, 0x0, 0, 1, 0, 52, .RW, .fixed, 0x0⟩
  | .DP_STRIDE_STRIDE => ⟨.dp, 0x8, 0, 1, 3, 37, .RW, .fixed, 0x0⟩
  | .DP_COUNT_COUNT => ⟨.dp, 0x10, 0, 1, 3, 29, .RW, .fixed, 0x0⟩
  | .DP_STATUS_ERR_SEEN => ⟨.dp, 0x18, 0, 1, 0, 1, .W1C, .fixed, 0x0⟩
  | .DP_STATUS_LAST_ERR => ⟨.dp, 0x18, 0, 1, 1, 3, .RO, .fixed, 0x0⟩
  | .DP_STATUS_READ_PENDING => ⟨.dp, 0x18, 0, 1, 4, 1, .RO, .fixed, 0x0⟩
  | .DP_DONE => ⟨.dp, 0x20, 0, 1, 0, 32, .RC, .fixed, 0x0⟩
  | .DP_ERR => ⟨.dp, 0x28, 0, 1, 0, 32, .RC, .fixed, 0x0⟩
  | .TXN_CTRL_OP => ⟨.txn, 0x0, 0, 1, 0, 2, .WO, .fixed, 0x0⟩
  | .TXN_STATUS_OPEN => ⟨.txn, 0x8, 0, 1, 0, 1, .RO, .fixed, 0x0⟩
  | .TXN_STATUS_RESULT => ⟨.txn, 0x8, 0, 1, 1, 3, .RO, .fixed, 0x0⟩
  | .TXN_STATUS_ENTRIES => ⟨.txn, 0x8, 0, 1, 4, 12, .RO, .fixed, 0x0⟩
  | .TXN_STATUS_OVERFLOW => ⟨.txn, 0x8, 0, 1, 16, 1, .RO, .fixed, 0x0⟩
  | .TXN_STATUS_HELD => ⟨.txn, 0x8, 0, 1, 17, 4, .RO, .fixed, 0x0⟩
  | .TXN_STATUS_LAST_COMMIT => ⟨.txn, 0x8, 0, 1, 32, 32, .RO, .fixed, 0x0⟩
  | .TXN_APPLIED_APPLIED => ⟨.txn, 0x10, 0, 1, 0, 32, .RO, .fixed, 0x0⟩
  | .PAT_STATUS_SELECTED => ⟨.pat, 0x0, 0, 1, 0, 2, .RO, .firmware, 0x0⟩
  | .PAT_STATUS_SOURCE => ⟨.pat, 0x0, 0, 1, 2, 2, .RO, .firmware, 0x0⟩
  | .PAT_STATUS_COPY => ⟨.pat, 0x0, 0, 1, 4, 1, .RO, .firmware, 0x0⟩
  | .PAT_STATUS_FALLBACK_WHY => ⟨.pat, 0x0, 0, 1, 5, 3, .RO, .firmware, 0x0⟩
  | .PAT_STATUS_NEXT_VALID => ⟨.pat, 0x0, 0, 1, 8, 1, .RO, .fixed, 0x0⟩
  | .PAT_STATUS_NEXT => ⟨.pat, 0x0, 0, 1, 9, 2, .RO, .fixed, 0x0⟩
  | .PAT_STATUS_BUSY => ⟨.pat, 0x0, 0, 1, 11, 1, .RO, .fixed, 0x0⟩
  | .PAT_STATUS_WRITE_RESULT => ⟨.pat, 0x0, 0, 1, 12, 3, .RO, .fixed, 0x0⟩
  | .PAT_STATUS_GEN => ⟨.pat, 0x0, 0, 1, 32, 32, .RO, .firmware, 0x0⟩
  | .PAT_CMD_OP => ⟨.pat, 0x8, 0, 1, 0, 3, .WO, .fixed, 0x0⟩
  | .PAT_CMD_NUMBER => ⟨.pat, 0x8, 0, 1, 3, 2, .WO, .fixed, 0x0⟩
  | .PAT_SRC_ADDR => ⟨.pat, 0x10, 0, 1, 0, 52, .RW, .fixed, 0x0⟩
  | .PAT_COPY_GEN => ⟨.pat, 0x40, 8, 8, 0, 32, .RO, .firmware, 0x0⟩
  | .PAT_COPY_STATE => ⟨.pat, 0x40, 8, 8, 32, 2, .RO, .firmware, 0x0⟩
  | .CLK_STATUS_STATE => ⟨.clk, 0x0, 0, 1, 0, 3, .RO, .fixed, 0x0⟩
  | .CLK_STATUS_ROLE => ⟨.clk, 0x0, 0, 1, 3, 2, .RO, .firmware, 0x0⟩
  | .CLK_STATUS_PORT => ⟨.clk, 0x0, 0, 1, 5, 4, .RO, .firmware, 0x0⟩
  | .CLK_STATUS_DEPTH => ⟨.clk, 0x0, 0, 1, 9, 5, .RO, .fixed, 0x1F⟩
  | .CLK_STATUS_ORPHANED => ⟨.clk, 0x0, 0, 1, 14, 1, .RO, .fixed, 0x0⟩
  | .CLK_STATUS_LOST_SEEN => ⟨.clk, 0x0, 0, 1, 15, 1, .W1C, .fixed, 0x0⟩
  | .CLK_STATUS_REF_LOST => ⟨.clk, 0x0, 0, 1, 16, 1, .W1C, .fixed, 0x0⟩
  | .CLK_STATUS_ARRAY_DIV => ⟨.clk, 0x0, 0, 1, 17, 5, .RO, .fixed, 0x10⟩
  | .CLK_STATUS_FABRIC_DIV => ⟨.clk, 0x0, 0, 1, 22, 4, .RO, .fixed, 0x8⟩
  | .CLK_STATUS_VECTOR_DIV => ⟨.clk, 0x0, 0, 1, 26, 4, .RO, .fixed, 0x8⟩
  | .CLK_STATUS_HBMC_DIV => ⟨.clk, 0x0, 0, 1, 30, 4, .RO, .fixed, 0xA⟩
  | .CLK_STATUS_CTRL_DIV => ⟨.clk, 0x0, 0, 1, 34, 5, .RO, .fixed, 0x18⟩
  | .CLK_CMD_OP => ⟨.clk, 0x8, 0, 1, 0, 2, .WO, .fixed, 0x0⟩
  | .CLK_TIME_TIME => ⟨.clk, 0x10, 0, 1, 0, 64, .RO, .fixed, 0x0⟩
  | .CLK_LOSSES => ⟨.clk, 0x18, 0, 1, 0, 32, .RC, .fixed, 0x0⟩
  | .CLK_SWITCHES => ⟨.clk, 0x20, 0, 1, 0, 32, .RC, .fixed, 0x0⟩
  | .PWR_STATUS_LEVEL => ⟨.pwr, 0x0, 0, 1, 0, 2, .RO, .fixed, 0x0⟩
  | .PWR_STATUS_PASS => ⟨.pwr, 0x0, 0, 1, 2, 7, .RO, .fixed, 0x3C⟩
  | .PWR_STATUS_LIMITING => ⟨.pwr, 0x0, 0, 1, 9, 1, .RO, .fixed, 0x0⟩
  | .PWR_STATUS_LIMIT_SEEN => ⟨.pwr, 0x0, 0, 1, 10, 1, .W1C, .fixed, 0x0⟩
  | .PWR_STATUS_FLOOR_SEEN => ⟨.pwr, 0x0, 0, 1, 11, 1, .W1C, .fixed, 0x0⟩
  | .PWR_CFG_LIMIT_W => ⟨.pwr, 0x8, 0, 1, 0, 12, .RW, .pattern, 0x0⟩
  | .PWR_INPUT_MV => ⟨.pwr, 0x10, 0, 1, 0, 16, .RO, .fixed, 0x0⟩
  | .PWR_INPUT_DW => ⟨.pwr, 0x10, 0, 1, 16, 32, .RO, .fixed, 0x0⟩
  | .PWR_GRADE_GRADE => ⟨.pwr, 0x18, 0, 1, 0, 2, .RO, .firmware, 0x0⟩
  | .PWR_GRADE_PASS_MAX => ⟨.pwr, 0x18, 0, 1, 2, 7, .RO, .firmware, 0x0⟩
  | .PWR_GRADE_GRADE_W => ⟨.pwr, 0x18, 0, 1, 9, 12, .RO, .firmware, 0x0⟩
  | .PWR_LIMIT_MS => ⟨.pwr, 0x20, 0, 1, 0, 32, .RC, .fixed, 0x0⟩
  | .PWR_FAST => ⟨.pwr, 0x28, 0, 1, 0, 32, .RC, .fixed, 0x0⟩
  | .HUB_BOOT_STEP => ⟨.hub, 0x0, 0, 1, 0, 4, .RO, .fixed, 0x0⟩
  | .HUB_BOOT_WARM => ⟨.hub, 0x0, 0, 1, 4, 1, .RO, .firmware, 0x0⟩
  | .HUB_BOOT_FAST => ⟨.hub, 0x0, 0, 1, 5, 1, .RO, .firmware, 0x0⟩
  | .HUB_BOOT_READY => ⟨.hub, 0x0, 0, 1, 6, 1, .RO, .fixed, 0x0⟩
  | .HUB_BOOT_DEGRADED => ⟨.hub, 0x0, 0, 1, 7, 1, .RO, .fixed, 0x0⟩
  | .HUB_BOOT_FAIL_WHY => ⟨.hub, 0x0, 0, 1, 8, 4, .RO, .fixed, 0x0⟩
  | .HUB_BOOT_MISSING => ⟨.hub, 0x0, 0, 1, 12, 16, .RO, .fixed, 0x0⟩
  | .HUB_BOOT_UNEXPECTED => ⟨.hub, 0x0, 0, 1, 28, 16, .RO, .fixed, 0x0⟩
  | .HUB_BOOT_FW_RESTART => ⟨.hub, 0x0, 0, 1, 44, 1, .RO, .firmware, 0x0⟩
  | .HUB_BOOT_MAP_REPLAYED => ⟨.hub, 0x0, 0, 1, 45, 1, .RO, .firmware, 0x0⟩
  | .HUB_BOOT_BOOT_MS => ⟨.hub, 0x0, 0, 1, 46, 18, .RO, .firmware, 0x0⟩
  | .HUB_CAPACITY_CORES => ⟨.hub, 0x8, 0, 1, 0, 9, .RO, .firmware, 0x0⟩
  | .HUB_CAPACITY_REGIONS_OUT => ⟨.hub, 0x8, 0, 1, 9, 6, .RO, .firmware, 0x0⟩
  | .HUB_CAPACITY_STACKS => ⟨.hub, 0x8, 0, 1, 15, 5, .RO, .firmware, 0x0⟩
  | .HUB_CAPACITY_FLASH_CTL => ⟨.hub, 0x8, 0, 1, 20, 2, .RO, .firmware, 0x0⟩
  | .HUB_CAPACITY_PORTS_UP => ⟨.hub, 0x8, 0, 1, 22, 5, .RO, .fixed, 0x0⟩
  | .HUB_CAPACITY_RETIRED => ⟨.hub, 0x8, 0, 1, 27, 24, .RO, .firmware, 0x0⟩
  | .HUB_RESET_OP => ⟨.hub, 0x10, 0, 1, 0, 2, .WO, .fixed, 0x0⟩
  | .HUB_RESET_PART => ⟨.hub, 0x10, 0, 1, 2, 3, .WO, .fixed, 0x0⟩
  | .HUB_ABSORBED => ⟨.hub, 0x18, 0, 1, 0, 32, .RC, .fixed, 0x0⟩
  | .RGN_STATUS_STATE => ⟨.rgn, 0x0, 0, 1, 0, 3, .RO, .fixed, 0x0⟩
  | .RGN_STATUS_SWATCH => ⟨.rgn, 0x0, 0, 1, 3, 16, .RO, .fixed, 0x0⟩
  | .RGN_STATUS_REMAP_SEEN => ⟨.rgn, 0x0, 0, 1, 19, 1, .W1C, .fixed, 0x0⟩
  | .RGN_STATUS_HOLE_SEEN => ⟨.rgn, 0x0, 0, 1, 20, 1, .W1C, .fixed, 0x0⟩
  | .RGN_CORE_MAP_PHYS => ⟨.rgn, 0x8, 0, 1, 0, 32, .RO, .firmware, 0x0⟩
  | .RGN_CORE_MAP_FUSED => ⟨.rgn, 0x8, 0, 1, 32, 9, .RO, .firmware, 0x0⟩
  | .RGN_CORE_MAP_FIELD => ⟨.rgn, 0x8, 0, 1, 41, 9, .RO, .firmware, 0x0⟩
  | .RGN_CORE_MAP_FIT_FAIL => ⟨.rgn, 0x8, 0, 1, 50, 9, .RO, .firmware, 0x0⟩
  | .RGN_LIMP_CARRIER => ⟨.rgn, 0x10, 0, 1, 0, 32, .RO, .fixed, 0xFFFFFFFF⟩
  | .RGN_FIT_CFG_INTERVAL => ⟨.rgn, 0x18, 0, 1, 0, 16, .RW, .pattern, 0x0⟩
  | .RGN_CMD_OP => ⟨.rgn, 0x20, 0, 1, 0, 2, .WO, .fixed, 0x0⟩
  | .RGN_CMD_K => ⟨.rgn, 0x20, 0, 1, 2, 3, .WO, .fixed, 0x0⟩
  | .RGN_SLICES => ⟨.rgn, 0x28, 0, 1, 0, 32, .RC, .fixed, 0x0⟩
  | .RGN_SLICE_FAIL => ⟨.rgn, 0x30, 0, 1, 0, 32, .RC, .fixed, 0x0⟩
  | .RGN_REMAPS => ⟨.rgn, 0x38, 0, 1, 0, 32, .RC, .fixed, 0x0⟩
  | .RGN_LIMP_SWAPS => ⟨.rgn, 0x40, 0, 1, 0, 32, .RC, .fixed, 0x0⟩
  | .RGN_ABSORBED => ⟨.rgn, 0x48, 0, 1, 0, 32, .RC, .fixed, 0x0⟩
  | .THM_STATUS_STATE => ⟨.thm, 0x0, 0, 1, 0, 3, .RO, .firmware, 0x0⟩
  | .THM_STATUS_SLOT => ⟨.thm, 0x0, 0, 1, 3, 1, .RO, .firmware, 0x0⟩
  | .THM_STATUS_KEY => ⟨.thm, 0x0, 0, 1, 4, 1, .RO, .firmware, 0x0⟩
  | .THM_STATUS_F0_REVOKED => ⟨.thm, 0x0, 0, 1, 5, 1, .RO, .firmware, 0x0⟩
  | .THM_STATUS_CLEAN => ⟨.thm, 0x0, 0, 1, 6, 1, .RO, .firmware, 0x0⟩
  | .THM_STATUS_REFURB_REQ => ⟨.thm, 0x0, 0, 1, 7, 1, .RO, .firmware, 0x0⟩
  | .THM_STATUS_MIN_SVN => ⟨.thm, 0x0, 0, 1, 8, 16, .RO, .firmware, 0x0⟩
  | .THM_STATUS_SVN => ⟨.thm, 0x0, 0, 1, 24, 16, .RO, .firmware, 0x0⟩
  | .THM_CMD_OP => ⟨.thm, 0x8, 0, 1, 0, 4, .WO, .fixed, 0x0⟩
  | .THM_CMD_SLOT => ⟨.thm, 0x8, 0, 1, 4, 1, .WO, .fixed, 0x0⟩
  | .THM_ARG_ADDR => ⟨.thm, 0x10, 0, 1, 0, 52, .RW, .fixed, 0x0⟩
  | .THM_RESULT_RESULT => ⟨.thm, 0x18, 0, 1, 0, 4, .RO, .fixed, 0x0⟩
  | .THM_RESULT_OP => ⟨.thm, 0x18, 0, 1, 4, 4, .RO, .fixed, 0x0⟩
  | .THM_NONCE_NONCE => ⟨.thm, 0x20, 0, 1, 0, 64, .RO, .firmware, 0x0⟩
  | .THM_RCV_DATA => ⟨.thm, 0x28, 0, 1, 0, 64, .WO, .fixed, 0x0⟩
  | .THM_VERIFY_FAIL => ⟨.thm, 0x30, 0, 1, 0, 32, .RC, .fixed, 0x0⟩
  | .LEDG_STATUS_SECTORS => ⟨.ledg, 0x0, 0, 1, 0, 10, .RO, .firmware, 0x0⟩
  | .LEDG_STATUS_FULL90 => ⟨.ledg, 0x0, 0, 1, 10, 1, .RO, .firmware, 0x0⟩
  | .LEDG_STATUS_ARCHIVED_SEEN => ⟨.ledg, 0x0, 0, 1, 11, 1, .W1C, .fixed, 0x0⟩
  | .LEDG_STATUS_QUEUE => ⟨.ledg, 0x0, 0, 1, 12, 7, .RO, .fixed, 0x0⟩
  | .LEDG_HEAD_SEQ => ⟨.ledg, 0x8, 0, 1, 0, 64, .RO, .firmware, 0x0⟩
  | .LEDG_TAIL_SEQ => ⟨.ledg, 0x10, 0, 1, 0, 64, .RO, .firmware, 0x0⟩
  | .LEDG_INDEX_SEQ => ⟨.ledg, 0x18, 0, 1, 0, 64, .RW, .fixed, 0x0⟩
  | .LEDG_CMD_OP => ⟨.ledg, 0x20, 0, 1, 0, 2, .WO, .fixed, 0x0⟩
  | .LEDG_CMD_COUNT => ⟨.ledg, 0x20, 0, 1, 2, 10, .WO, .fixed, 0x0⟩
  | .LEDG_WRITES => ⟨.ledg, 0x28, 0, 1, 0, 32, .RC, .fixed, 0x0⟩

/-- Part 1 of the list of all fields. -/
def fieldsPart1 : List FieldName :=
  [.CORE_ID_LOGICAL, .CORE_ID_PHYS_K, .CORE_ID_REGION, .CORE_ID_GEN,
   .CORE_STATUS_STATE, .CORE_STATUS_REFUSED, .CORE_STATUS_BROKEN, .CORE_STATUS_LAST_REFUSAL,
   .CORE_STATUS_SWATCH, .CORE_STATUS_REFUSAL_PC, .CORE_SHUTTLE_CFG_LOAD_DIST, .CORE_SHUTTLE_CFG_STAGE,
   .CORE_SHUTTLE_CFG_STAGE_BASE, .CORE_PROG_BASE, .CORE_PC_PC, .CORE_PC_DEPTH,
   .CORE_ISSUED, .CORE_BUSY, .CORE_FILL_BOUND, .CORE_STALL_ROW,
   .CORE_STALL_WEIGHT, .CORE_STALL_STORE, .CORE_EMPTY_ROWS, .CORE_REFUSALS,
   .ARR_STATUS_ACTIVE, .ARR_STATUS_MODE, .ARR_STATUS_FACE_VALID, .ARR_FAULT_VALID,
   .ARR_FAULT_ARRAY, .ARR_FAULT_COLUMN, .ARR_FAULT_SLOT, .ARR_COMP_INSTR,
   .ARR_SAT, .ARR_NONFINITE, .ARR_NAN_SCALE, .ARR_NUMERIC_SAT_SEEN,
   .ARR_NUMERIC_LAST_SAT_STAGE, .ARR_NUMERIC_LAST_SAT_TAG, .VEC_STATUS_BUSY, .VEC_STATUS_OP,
   .VEC_STATUS_SAT_SEEN, .VEC_STATUS_LAST_SAT_TAG, .VEC_BETA_BETA, .VEC_EPS_EPS,
   .VEC_POS_QBASE, .VEC_POS_KBASE, .VEC_POS_MASK, .VEC_BUSY,
   .VEC_STALL_SCRATCH, .VEC_SAT, .VEC_NONFINITE, .VEC_FIRST_USE,
   .VEC_EMPTY_NORM, .PRESS_STATUS_STATE, .PRESS_STATUS_BAD_SEEN, .PRESS_STATUS_UNCORR_SEEN,
   .PRESS_STATUS_SPAN, .PRESS_STATUS_SWATCH, .PRESS_QUEUE_DEPTH, .PRESS_QUEUE_PENDING_ROWS]

/-- Part 2 of the list of all fields. -/
def fieldsPart2 : List FieldName :=
  [.PRESS_BLOCKS, .PRESS_FAR, .PRESS_SAT, .PRESS_BAD_SPAN,
   .PRESS_ROW_SKIP, .PRESS_ROW_WAIT, .PRESS_PEND_FULL, .PRESS_RES_RESET,
   .PRESS_UPD_CYC, .HUB_TACK_LAST_VALID, .HUB_TACK_LAST_V, .HUB_TACK_LAST_W,
   .HUB_TACK_LAST_MM, .HUB_TACK_LAST_CAUSE, .HUB_TACK_LAST_SWATCH, .HUB_TACK_LAST_STEP_LO,
   .HUB_AGREE_STATUS_STATE, .HUB_AGREE_STATUS_SWATCH, .HUB_AGREE_STATUS_HALT_SEEN, .HUB_AGREE_STATUS_WITHDRAW_SEEN,
   .HUB_TACK_PASS, .HUB_TACK_FAIL, .HUB_TACK_STALE, .HUB_TACK_DISAGREE,
   .HUB_TACK_TIMEOUT, .HUB_AGREE_MISMATCH, .HUB_AGREE_REPAIR, .HUB_UNCORR,
   .BASE_STATUS_STATE, .BASE_STATUS_LEVEL, .BASE_STATUS_PRESSED, .BASE_STATUS_HOT_SEEN,
   .BASE_STATUS_CRIT_SEEN, .BASE_TEMP_CUR, .BASE_TEMP_PEAK, .BASE_TEMP_DIE,
   .BASE_SELVEDGE_SPARES, .BASE_UNCORR_LOC_VALID, .BASE_UNCORR_LOC_SLOT, .BASE_UNCORR_LOC_PCH,
   .BASE_UNCORR_LOC_GRANULE, .BASE_UNCORR_LOC_UNIT, .BASE_KEEP_CFG_KEEP_WAYS, .BASE_CORR,
   .BASE_UNCORR, .BASE_RETIRED, .BASE_LANE_SWAP, .BASE_HOT_CYC,
   .BASE_HIT, .BASE_MISS, .BASE_DALU_DROP, .BASE_SCRUB_PASS,
   .RGN_PKT_STATUS_ZEROING, .RGN_PKT_STATUS_PARITY_SEEN, .RGN_PKT_STATUS_FAULT_SEEN, .RGN_PKT_WAY_KIND,
   .RGN_PKT_WAY_SWATCH, .RGN_PKT_HIT, .RGN_PKT_MISS, .RGN_PKT_PARITY]

/-- Part 3 of the list of all fields. -/
def fieldsPart3 : List FieldName :=
  [.TIER_CFG_STALL_LIMIT, .TIER_T3_BASE_BASE, .TIER_T3_SIZE_BOLTS, .TIER_FREE_T1,
   .TIER_FREE_T2, .TIER_STALL_LAST_SWATCH, .TIER_STALL_LAST_CAUSE, .TIER_STALL_LAST_FAILED,
   .TIER_STALL_LAST_DURATION, .TIER_STALL_FLASH, .TIER_STALL_HOT, .TIER_STALL_DIR,
   .TIER_STALL_QUOTA, .TIER_STALL_HOST, .TIER_STALL_SEAM, .TIER_STALL_FAIL,
   .TIER_MOVES, .TIER_CANCELS, .TIER_DEFERS, .TIER_CANCEL_FULL,
   .TIER_VOID, .DIR_CFG_ENTRIES, .DIR_CFG_SLICE, .DIR_HIT,
   .DIR_MISS, .DIR_DENIED, .DIR_FLIPS, .DIR_SCRUB_FIX,
   .DIR_SCRUB_PASS, .FLC_STATUS_STATE, .FLC_STATUS_BUDGET_HIT, .FLC_STATUS_SPARE_LOW,
   .FLC_WEAR_AVG_PE, .FLC_WEAR_MAX_PE, .FLC_WEAR_WA, .FLC_CAPACITY_SLOTS,
   .FLC_BUDGET_GIB_PER_DAY, .FLC_BUDGET_WRITTEN, .FLC_READS, .FLC_WRITES,
   .FLC_CORR, .FLC_UNCORR, .FLC_BUDGET_FALLBACK, .SEAM_STATUS_STATE,
   .SEAM_STATUS_GEN, .SEAM_STATUS_CLK_SRC, .SEAM_STATUS_HALF_SEEN, .SEAM_STATUS_RETIRED_SEEN,
   .SEAM_STATUS_PEER_PORT, .SEAM_STATUS_PEER_PLACE, .SEAM_STATUS_PEER_DEPTH, .SEAM_LANES_UNUSED,
   .SEAM_LANES_SPARES, .SEAM_PEER_ID_PEER_ID, .SEAM_RTT_RTT, .SEAM_FEC_CORR,
   .SEAM_REPLAY, .SEAM_RETRAIN, .SEAM_TX_MFLITS, .SEAM_RX_MFLITS]

/-- Part 4 of the list of all fields. -/
def fieldsPart4 : List FieldName :=
  [.SEAM_CREDIT_WAIT, .COLL_STATUS_MEMBER, .COLL_STATUS_HALTED, .COLL_CMD_DOM,
   .COLL_CMD_OP, .COLL_CMD_PLACE, .COLL_DOM_CFG_ID, .COLL_DOM_CFG_ENABLE,
   .COLL_DOM_CFG_LINING, .COLL_DOM_CFG_EXPECT, .COLL_DOM_STATE_EPOCH, .COLL_DOM_STATE_MEMBERS,
   .COLL_DOM_STATE_POSITION, .COLL_DOM_STATE_STATE, .COLL_DOM_SEQ_NEXT, .COLL_DOM_SEQ_OPEN,
   .COLL_ISSUED, .COLL_EPOCHS, .COLL_PROPOSE_RETRY, .COLL_HOLD_TX,
   .COLL_HOLD_RX, .COLL_SEQ_DROP, .SWT_CFG_MAX_OUT, .SWT_CFG_PREEMPT,
   .SWT_STATUS_SWATCH, .SWT_STATUS_REASON, .SWT_STATUS_INVALID_SEEN, .SWT_STATUS_PART_REJECT,
   .SWT_CMD_SWATCH, .SWT_CMD_OP, .HUB_PART_CFG_REGIONS, .HUB_PART_CFG_ENABLE,
   .HUB_PART_SWT_FIRST, .HUB_PART_SWT_COUNT, .HUB_PART_SWT_PENDING, .SWT_SWITCHES,
   .SWT_PREEMPTS, .SWT_RETURNS, .SWT_INVALID, .SWT_SWITCH_MAX,
   .HST_ID_FUNCTION, .HST_ID_PARTITION, .HST_ID_GEN, .HST_LINK_RATE,
   .HST_LINK_WIDTH, .HST_LINK_FLIT, .HST_LINK_IDE_STREAMS, .HST_LINK_SLOW_SEEN,
   .HST_STRAPS_BOARDPOS, .HST_STRAPS_PATSEL, .HST_INT_CAUSE_CAUSE, .HST_INT_MASK_ENABLE,
   .HST_INT_VEC_VEC, .HST_JOB_NEXT_SEQ, .HST_JOB_STALLED, .HST_JOB_WHY,
   .HST_JOBS, .HST_EARLY_READS, .HST_SLOT_WAIT, .HST_BOARD_STALL]

/-- Part 5 of the list of all fields. -/
def fieldsPart5 : List FieldName :=
  [.HST_MMIO_DENIED, .DP_ADDR_ADDR, .DP_STRIDE_STRIDE, .DP_COUNT_COUNT,
   .DP_STATUS_ERR_SEEN, .DP_STATUS_LAST_ERR, .DP_STATUS_READ_PENDING, .DP_DONE,
   .DP_ERR, .TXN_CTRL_OP, .TXN_STATUS_OPEN, .TXN_STATUS_RESULT,
   .TXN_STATUS_ENTRIES, .TXN_STATUS_OVERFLOW, .TXN_STATUS_HELD, .TXN_STATUS_LAST_COMMIT,
   .TXN_APPLIED_APPLIED, .PAT_STATUS_SELECTED, .PAT_STATUS_SOURCE, .PAT_STATUS_COPY,
   .PAT_STATUS_FALLBACK_WHY, .PAT_STATUS_NEXT_VALID, .PAT_STATUS_NEXT, .PAT_STATUS_BUSY,
   .PAT_STATUS_WRITE_RESULT, .PAT_STATUS_GEN, .PAT_CMD_OP, .PAT_CMD_NUMBER,
   .PAT_SRC_ADDR, .PAT_COPY_GEN, .PAT_COPY_STATE, .CLK_STATUS_STATE,
   .CLK_STATUS_ROLE, .CLK_STATUS_PORT, .CLK_STATUS_DEPTH, .CLK_STATUS_ORPHANED,
   .CLK_STATUS_LOST_SEEN, .CLK_STATUS_REF_LOST, .CLK_STATUS_ARRAY_DIV, .CLK_STATUS_FABRIC_DIV,
   .CLK_STATUS_VECTOR_DIV, .CLK_STATUS_HBMC_DIV, .CLK_STATUS_CTRL_DIV, .CLK_CMD_OP,
   .CLK_TIME_TIME, .CLK_LOSSES, .CLK_SWITCHES, .PWR_STATUS_LEVEL,
   .PWR_STATUS_PASS, .PWR_STATUS_LIMITING, .PWR_STATUS_LIMIT_SEEN, .PWR_STATUS_FLOOR_SEEN,
   .PWR_CFG_LIMIT_W, .PWR_INPUT_MV, .PWR_INPUT_DW, .PWR_GRADE_GRADE,
   .PWR_GRADE_PASS_MAX, .PWR_GRADE_GRADE_W, .PWR_LIMIT_MS, .PWR_FAST]

/-- Part 6 of the list of all fields. -/
def fieldsPart6 : List FieldName :=
  [.HUB_BOOT_STEP, .HUB_BOOT_WARM, .HUB_BOOT_FAST, .HUB_BOOT_READY,
   .HUB_BOOT_DEGRADED, .HUB_BOOT_FAIL_WHY, .HUB_BOOT_MISSING, .HUB_BOOT_UNEXPECTED,
   .HUB_BOOT_FW_RESTART, .HUB_BOOT_MAP_REPLAYED, .HUB_BOOT_BOOT_MS, .HUB_CAPACITY_CORES,
   .HUB_CAPACITY_REGIONS_OUT, .HUB_CAPACITY_STACKS, .HUB_CAPACITY_FLASH_CTL, .HUB_CAPACITY_PORTS_UP,
   .HUB_CAPACITY_RETIRED, .HUB_RESET_OP, .HUB_RESET_PART, .HUB_ABSORBED,
   .RGN_STATUS_STATE, .RGN_STATUS_SWATCH, .RGN_STATUS_REMAP_SEEN, .RGN_STATUS_HOLE_SEEN,
   .RGN_CORE_MAP_PHYS, .RGN_CORE_MAP_FUSED, .RGN_CORE_MAP_FIELD, .RGN_CORE_MAP_FIT_FAIL,
   .RGN_LIMP_CARRIER, .RGN_FIT_CFG_INTERVAL, .RGN_CMD_OP, .RGN_CMD_K,
   .RGN_SLICES, .RGN_SLICE_FAIL, .RGN_REMAPS, .RGN_LIMP_SWAPS,
   .RGN_ABSORBED, .THM_STATUS_STATE, .THM_STATUS_SLOT, .THM_STATUS_KEY,
   .THM_STATUS_F0_REVOKED, .THM_STATUS_CLEAN, .THM_STATUS_REFURB_REQ, .THM_STATUS_MIN_SVN,
   .THM_STATUS_SVN, .THM_CMD_OP, .THM_CMD_SLOT, .THM_ARG_ADDR,
   .THM_RESULT_RESULT, .THM_RESULT_OP, .THM_NONCE_NONCE, .THM_RCV_DATA,
   .THM_VERIFY_FAIL, .LEDG_STATUS_SECTORS, .LEDG_STATUS_FULL90, .LEDG_STATUS_ARCHIVED_SEEN,
   .LEDG_STATUS_QUEUE, .LEDG_HEAD_SEQ, .LEDG_TAIL_SEQ, .LEDG_INDEX_SEQ]

/-- Part 7 of the list of all fields. -/
def fieldsPart7 : List FieldName :=
  [.LEDG_CMD_OP, .LEDG_CMD_COUNT, .LEDG_WRITES]

/-- All register fields, in the order of the manual. -/
def allFields : List FieldName :=
  fieldsPart1 ++ fieldsPart2 ++ fieldsPart3 ++ fieldsPart4 ++ fieldsPart5 ++ fieldsPart6 ++ fieldsPart7

end Sys2Proof.Machine
end

