-- ==== Sys2Proof/Machine/StMem.lean ====
section
/-! DEFINITION. State of the memories, the stacks' base dies and caches, the pockets, the tier directory, its
moves and the flash controllers (R226 to R304). -/

namespace Sys2Proof.Machine

/-- The stores, each one address space of bytes:
`hbm` (stack × 96 GiB + slot × 64 KiB + offset), `pocket` (region × 64 MiB + way × 4 MiB + offset),
`flash` (flash slot × 64 KiB + offset), `host` (host address), `scratch` ((9 × region + physical core) × 4 MiB +
offset), `cfg` (config flash, whose unlisted bytes read FFh as erased flash does), `sram` (the hubs' descriptor SRAM: 4 MiB × hub +
256 × (swatch div 4) + offset), `jobs` (40000h × partition + offset).
(DESIGN CHOICE, log 4.) -/
structure Stores where
  hbm     : Memory := []
  pocket  : Memory := []
  flash   : Memory := []
  host    : Memory := []
  scratch : Memory := []
  cfg     : Memory := []
  sram    : Memory := []
  jobs    : Memory := []
  deriving DecidableEq, Repr

/-- A directory entry (R268), GEN being 01b in every one. -/
structure DirEntry where
  /-- 0 FREE, 1 HOME, 2 MOVING_UP, 3 MOVING_DOWN. -/
  state      : Nat := 0
  tier       : Nat := 0
  dtier      : Nat := 0
  flipped    : Bool := false
  cancelled  : Bool := false
  share      : Nat := 0
  ilv        : Nat := 0
  pendEvict  : Bool := false
  pendFree   : Bool := false
  home       : Nat := 0
  dest       : Nat := 0
  generation : Nat := 0
  owner      : Nat := 0
  pins       : Nat := 0
  mrec       : Nat := 0
  deriving DecidableEq, Repr

/-- A tier request (R298) in a hub's queue: its 256 bits, bolts done, who posted it, and the generation it holds. -/
structure TierReq where
  bits : Nat
  done : Nat
  /-- 0: a run plan's; k + 1: the job record k of partition `part` (R405). -/
  job  : Nat
  part : Nat
  seq  : Nat
  slot : Nat
  irq  : Bool
  since : Nat
  gen  : Nat
  /-- SWATCH of the job record. -/
  recSw : Nat
  deriving DecidableEq, Repr

/-- A promote or evict held in a move record (R276): its tier, place, class and requester, the tier request that made it, if
one did, and the generation it was made under (R296). -/
structure HeldReq where
  evict : Bool
  tier  : Nat
  place : Nat
  cls   : Nat
  sw    : Nat
  req   : Option TierReq
  gen   : Nat := 0
  deriving DecidableEq, Repr

/-- The phases of a move (R272). -/
inductive MovePhase where
  | reserve | copy | recopy | hold | flipped
  deriving DecidableEq, Repr

/-- A move record (R272): its phase, target, class, dirty granules, passes and outstanding acknowledgements. -/
structure MoveRec where
  phase   : MovePhase
  up      : Bool
  dtier   : Nat
  /-- The region for T0; the stack of a retirement move's bolt is chosen afresh. -/
  place   : Nat
  cls     : Nat
  dirty   : List Nat
  passes  : Nat
  /-- Holders that have not yet acknowledged (R270 numbers 0 to 85). -/
  await   : List Nat
  held    : List HeldReq
  since   : Nat
  /-- The move passed its copy from a retired slot, or only within a tier (R240). -/
  inTier  : Bool
  /-- The cause of what its reservation waits for (R281, R288, R291), and the generation of its bolt (R296). -/
  obst    : Nat := 0
  gen     : Nat := 0
  /-- Its wait for the write budget has been counted (R288). -/
  tried   : Bool := false
  deriving DecidableEq, Repr

/-- A translation buffer entry (R270). -/
structure Trans where
  tier : Nat
  home : Nat
  share : Nat
  owner : Nat
  generation : Nat
  deriving DecidableEq, Repr

/-- A translation buffer: its entries, oldest use first; the bolts a hold stops; the latest notice per bolt.
(DESIGN CHOICE, log 12.) -/
structure Holder where
  entries : List (Nat × Trans) := []
  stopped : List Nat := []
  noticed : FMap (Option Nat) := []
  deriving DecidableEq, Repr

/-- A base cache line (R242 to R245): its granule, hint kind (0 normal, 1 keep, 2 counted), count, partition, dirt. -/
structure CLine where
  slot    : Nat
  granule : Nat
  kind    : Nat
  count   : Nat
  part    : Nat
  dirty   : Bool
  used    : Nat
  deriving DecidableEq, Repr

/-- A pocket line (R249, R250): way, tag, owner swatch, pocket stamp, use order and its 256 bytes as a number. -/
structure PLine where
  addr  : Nat
  sw    : Nat
  stamp : Nat
  used  : Nat
  data  : Nat
  deriving DecidableEq, Repr

/-- A request at a pseudo-channel controller (R231): class, arrival, port, 64 B unit, hint byte (R243) and partition; how
often an open-row request has passed it; and whether it has waited through a unit of a lower class (R376). -/
structure HbmReq where
  cls     : Nat
  arrival : Nat
  port    : Nat
  slot    : Nat
  granule : Nat
  unit    : Nat
  write   : Bool
  data    : Nat
  hint    : Nat
  part    : Nat
  passed  : Nat := 0
  through : Bool := false
  deriving DecidableEq, Repr

/-- A unit at an arbiter of the weave, a region router or a seam port (R25, R30, R375): class, the stop and the port it is
bound for, its tag, and whether it has waited through a unit of a lower class (R376). -/
structure Pkt where
  cls     : Nat
  stop    : Nat
  port    : Nat
  tag     : Nat
  through : Bool := false
  deriving DecidableEq, Repr

/-- A class arbiter (R376): its grant number, the classes whose floor offer has passed on to the next grant, and the units
that wait, oldest first (a pseudo-channel keeps its requests beside it). -/
structure Arb where
  grant   : Nat := 0
  owed    : List Nat := []
  queue   : List Pkt := []
  deriving DecidableEq, Repr

/-- A pseudo-channel controller (R227, R229, R231, R253, R376): its queue, the open row of each bank, its arbiter, the
current window of 1,024 HBMC cycles with the capped bursts granted in it, the refreshes done by bank, the activations of
each bank since its last refresh, and the HBMC cycle in which it last had a request. -/
structure Pch where
  queue   : List HbmReq := []
  rows    : FMap (Option Nat) := []
  arb     : Arb := {}
  window  : Nat := 0
  capped  : Nat := 0
  refresh : FMap Nat := []
  acts    : FMap Nat := []
  active  : Nat := 0
  deriving DecidableEq, Repr

/-- A stack's base die beyond its registers. -/
structure Stack where
  inService : Bool := true
  below82   : Option Nat := none
  pending   : Nat := 0
  pendingAt : Nat := 0
  /-- Retired slots and corrected units per slot (R240). -/
  retired   : List Nat := []
  corrected : FMap Nat := []
  /-- When the latest corrected symbols of a lane (channel × 72 + lane) were met, at most 64, newest first (R237). -/
  laneSyms  : FMap (List Nat) := []
  laneDue   : List Nat := []
  /-- Failed lanes replaced by selvedge lanes (channel × 72 + lane). -/
  lanesOut  : List Nat := []
  scrubAt   : Nat := 0
  /-- A sample has been taken since BASE_TEMP.PEAK was last read (R257). -/
  sampled   : Bool := false
  /-- All DRAM access has stopped at 115 °C (R252). -/
  stopped   : Bool := false
  deriving DecidableEq, Repr

/-- A flash controller beyond its registers (R286 to R289). -/
structure Flash where
  /-- Flash slots in the write buffer, oldest first. -/
  buffer  : List Nat := []
  /-- Bytes programmed for moves in each of the last 24 hours, newest first. -/
  hours   : List Nat := []
  spareGiB : Nat := 256
  withdrawn : List Nat := []
  fenced  : Bool := false
  deriving DecidableEq, Repr

/-- A wait (R292): its swatch (65,536: none, a data port's), its cause, the bolt or way it waits on, when it began, whether it
has passed the limit, and whether the swatch's step cannot leave it (R293). Where a move of the bolt is the obstacle, the
phase of the move gives the cause. -/
structure Waiter where
  sw    : Nat
  cause : Nat
  key   : Nat
  since : Nat
  past  : Bool
  stuck : Bool := false
  deriving DecidableEq, Repr

/-- The memory side of the state. -/
structure Mem where
  st      : Stores := {}
  dir     : FMap DirEntry := []
  /-- When a bolt's generation last advanced, plus one; 0: never (R295). -/
  advanced : FMap Nat := []
  /-- Directory entries in the reserved bolts of a stack fenced in service, by stack, as the stack keeps them (R254, R267). -/
  dirOut  : FMap (Option (FMap DirEntry)) := []
  moves   : FMap (Option MoveRec) := []
  /-- The tier a pending eviction asked for (R278). -/
  pendTier : FMap Nat := []
  /-- The stack that an allocation with ILV = ONE named, plus one (R234, R298). -/
  named   : FMap Nat := []
  /-- Bolts cancelled in a step and listed, hub by hub (R279). -/
  cancels : FMap (List Nat) := []
  /-- Directory cache: lines of hub h (set and use order), by entry (R265). -/
  dirCache : FMap (List Nat) := []
  holders : FMap Holder := []
  tierQ   : List TierReq := []
  tierWait : List TierReq := []
  waiters : List Waiter := []
  /-- Cache lines (key (stack × 8,192 + set) × 16 + way), and the tree bits of each set (R242). -/
  cache   : FMap (Option CLine) := []
  plru    : FMap Nat := []
  /-- Pocket lines (key (region × 16,384 + set) × 16 + way). -/
  lines   : FMap (Option PLine) := []
  /-- Way registers in force (key region × 16 + way): KIND + 4 × SWATCH (R247). -/
  ways    : FMap Nat := []
  /-- Ways being zeroed: key region × 16 + way, the time it began plus one. -/
  zeroing : FMap Nat := []
  /-- Pocket sweeps: sets visited since the sweep began, stamps advanced within it by swatch, per region. -/
  sweepAt : FMap Nat := []
  stampRun : FMap Nat := []
  stackDies : FMap Stack := []
  pchs    : FMap Pch := []
  flash   : FMap Flash := []
  /-- Reserved area: the stacks of RSV_SET, ascending (R267). -/
  rsvSet  : List Nat := []
  /-- A use counter, for replacement order; also what the free values are drawn with. -/
  tick    : Nat := 0
  deriving DecidableEq, Repr

end Sys2Proof.Machine
end

