-- ==== Sys2Proof/Machine/Fp.lean ====
section
/-! DEFINITION. Numbers of the matrix, vector and press paths: the element formats (R91, R92), the 22-bit
partial (R98), W48 (R99), E8M0 scales (R95), exact sums and products, and the one rounding to nearest
with ties to even (R108) that saturates (R110). -/

namespace Sys2Proof.Machine

/-- A floating-point value: NaN, an infinity, or exactly (-1)^neg × m × 2^e. -/
inductive Fv where
  | nan
  | inf (neg : Bool)
  | fin (neg : Bool) (m : Nat) (e : Int)
  deriving DecidableEq, Repr

/-- A binary format: exponent and fraction widths, bias, and how it spends its top exponent. -/
structure FpFmt where
  eb   : Nat
  mb   : Nat
  bias : Nat
  /-- 0: the top exponent is ordinary (FP6, FP4); 1: only all ones is NaN (E4M3); 2: IEEE. -/
  top  : Nat
  deriving DecidableEq, Repr

/-- R91, R92. -/
def fmtE4M3 : FpFmt := ⟨4, 3, 7, 1⟩
/-- R91, R92. -/
def fmtE5M2 : FpFmt := ⟨5, 2, 15, 2⟩
/-- R91. -/
def fmtE3M2 : FpFmt := ⟨3, 2, 3, 0⟩
/-- R91. -/
def fmtE2M3 : FpFmt := ⟨2, 3, 1, 0⟩
/-- R91. -/
def fmtE2M1 : FpFmt := ⟨2, 1, 1, 0⟩
/-- R91. -/
def fmtBF16 : FpFmt := ⟨8, 7, 127, 2⟩
/-- R91. -/
def fmtFP32 : FpFmt := ⟨8, 23, 127, 2⟩
/-- R98: the 22-bit partial. -/
def fmtP22 : FpFmt := ⟨8, 13, 127, 2⟩
/-- R99. -/
def fmtW48 : FpFmt := ⟨11, 36, 1023, 2⟩

/-- The value of zero with a sign. -/
def Fv.zero (neg : Bool) : Fv := .fin neg 0 0

/-- Is the value finite? -/
def Fv.isFinite : Fv → Bool
  | .fin _ _ _ => true
  | _ => false

/-- Is the value a zero? -/
def Fv.isZero : Fv → Bool
  | .fin _ m _ => m == 0
  | _ => false

/-- The sign of a non-NaN value. -/
def Fv.neg : Fv → Bool
  | .nan => false
  | .inf n => n
  | .fin n _ _ => n

/-- The value with its sign turned. -/
def Fv.negate : Fv → Fv
  | .nan => .nan
  | .inf n => .inf (!n)
  | .fin n m e => .fin (!n) m e

/-- The magnitude. -/
def Fv.abs : Fv → Fv
  | .nan => .nan
  | .inf _ => .inf false
  | .fin _ m e => .fin false m e

/-- The value of a pattern (R91), with the special patterns of R92. -/
def fpDecode (f : FpFmt) (bits : Nat) : Fv :=
  let frac := bits % 2 ^ f.mb
  let ex := (bits >>> f.mb) % 2 ^ f.eb
  let s := Nat.testBit bits (f.eb + f.mb)
  if f.top = 2 && ex = 2 ^ f.eb - 1 then (if frac = 0 then .inf s else .nan)
  else if f.top = 1 && ex = 2 ^ f.eb - 1 && frac = 2 ^ f.mb - 1 then .nan
  else if ex = 0 then .fin s frac (1 - f.bias - f.mb)
  else .fin s (2 ^ f.mb + frac) ((ex : Int) - f.bias - f.mb)

/-- The largest finite pattern without its sign. -/
def fpMaxBits (f : FpFmt) : Nat :=
  if f.top = 2 then 2 ^ (f.eb + f.mb) - 2 ^ f.mb - 1
  else if f.top = 1 then 2 ^ (f.eb + f.mb) - 2
  else 2 ^ (f.eb + f.mb) - 1

/-- The canonical NaN (R92): sign clear, exponent ones, top fraction bit set; 7Fh for E4M3 and E5M2.
The formats without NaN never receive one (R97, R111). -/
def fpNaN (f : FpFmt) : Nat :=
  if f.eb = 5 && f.mb = 2 then 0x7F
  else if f.top = 2 then (2 ^ f.eb - 1) * 2 ^ f.mb + 2 ^ (f.mb - 1)
  else if f.top = 1 then 2 ^ (f.eb + f.mb) - 1
  else 2 ^ (f.eb + f.mb) - 1

/-- The sign bit of a format in place. -/
def fpSign (f : FpFmt) (s : Bool) : Nat := if s then 2 ^ (f.eb + f.mb) else 0

/-- The bit length of a number. -/
def bitLen (m : Nat) : Nat := if m = 0 then 0 else Nat.log2 m + 1

/-- `m × 2^(-k)` rounded to nearest, ties to even. -/
def shiftRne (m k : Nat) : Nat :=
  let q := m >>> k
  let r := m % 2 ^ k
  if k = 0 then m
  else if 2 * r < 2 ^ k then q
  else if 2 ^ k < 2 * r then q + 1
  else if q % 2 = 0 then q else q + 1

/-- The lowest exponent of a format's last place. -/
def fpEmin (f : FpFmt) : Int := 1 - (f.bias : Int) - f.mb

/-- The magnitude pattern of m × 2^e rounded once (R108), not yet limited to the finite range. A carry out
of the fraction moves into the exponent because the fields are adjacent. -/
def fpRoundMag (f : FpFmt) (m : Nat) (e : Int) : Nat :=
  if m = 0 then 0 else
  let q0 := e + (bitLen m : Int) - (f.mb + 1 : Int)
  let q := if q0 < fpEmin f then fpEmin f else q0
  let r := if q ≤ e then m * 2 ^ (e - q).toNat else shiftRne m (q - e).toNat
  (q - fpEmin f).toNat * 2 ^ f.mb + r

/-- The pattern of a value in a format after one rounding, and whether a finite value overflowed and was
written at the largest finite magnitude (R110). An infinity becomes NaN where the format has none (R109). -/
def fpRound (f : FpFmt) : Fv → Nat × Bool
  | .nan => (fpNaN f, false)
  | .inf s => if f.top = 2 then (fpSign f s + (2 ^ f.eb - 1) * 2 ^ f.mb, false) else (fpNaN f, false)
  | .fin s m e =>
    let b := fpRoundMag f m e
    if b ≤ fpMaxBits f then (fpSign f s + b, false) else (fpSign f s + fpMaxBits f, true)

/-- The rounded pattern alone. -/
def fpBits (f : FpFmt) (v : Fv) : Nat := (fpRound f v).1

/-- Does rounding `v` into `f` saturate (R110)? -/
def fpSat (f : FpFmt) (v : Fv) : Bool := (fpRound f v).2

/-- A value rounded once into a format and read back. -/
def fpTo (f : FpFmt) (v : Fv) : Fv := fpDecode f (fpBits f v)

/-- `m × 2^e` brought to exponent `q ≤ e`. -/
def alignTo (m : Nat) (e q : Int) : Nat := m * 2 ^ (e - q).toNat

/-- The exact sum (IEEE 754 for non-finite values). An exact zero is +0 unless both terms are -0 (R112). -/
def Fv.add : Fv → Fv → Fv
  | .nan, _ => .nan
  | _, .nan => .nan
  | .inf a, .inf b => if a = b then .inf a else .nan
  | .inf a, .fin _ _ _ => .inf a
  | .fin _ _ _, .inf b => .inf b
  | .fin s m e, .fin t n g =>
    let q := if e ≤ g then e else g
    let a := alignTo m e q
    let b := alignTo n g q
    if s = t then .fin s (a + b) q
    else if b < a then .fin s (a - b) q
    else if a < b then .fin t (b - a) q
    else .fin (s && t) 0 0

/-- The exact difference. -/
def Fv.sub (a b : Fv) : Fv := Fv.add a b.negate

/-- The exact product (R103 for non-finite values). -/
def Fv.mul : Fv → Fv → Fv
  | .nan, _ => .nan
  | _, .nan => .nan
  | .inf a, .inf b => .inf (a != b)
  | .inf a, .fin t n _ => if n = 0 then .nan else .inf (a != t)
  | .fin s m _, .inf b => if m = 0 then .nan else .inf (s != b)
  | .fin s m e, .fin t n g => .fin (s != t) (m * n) (e + g)

/-- A quotient carried to 128 bits beyond the divisor with a sticky last bit, so that one later rounding
of it is the correct rounding of the exact quotient (IEEE 754 for zero and non-finite operands). -/
def Fv.div : Fv → Fv → Fv
  | .nan, _ => .nan
  | _, .nan => .nan
  | .inf _, .inf _ => .nan
  | .inf a, .fin t _ _ => .inf (a != t)
  | .fin s _ _, .inf b => .fin (s != b) 0 0
  | .fin s m e, .fin t n g =>
    if n = 0 then (if m = 0 then .nan else .inf (s != t))
    else
      let k := 128 + bitLen n
      let num := m * 2 ^ k
      let sticky := if num % n = 0 then 0 else 1
      .fin (s != t) (2 * (num / n) + sticky) (e - g - k - 1)

/-- Integer square root by bits from `2^(n-1)` down, above the root `r` found so far. -/
def sqrtBits (m : Nat) : Nat → Nat → Nat
  | 0, r => r
  | n + 1, r =>
    let c := r + 2 ^ n
    sqrtBits m n (if c * c ≤ m then c else r)

/-- The integer square root. -/
def natSqrt (m : Nat) : Nat := sqrtBits m (bitLen m / 2 + 1) 0

/-- A square root carried to more than 100 bits with a sticky last bit; NaN below zero, ±0 to itself. -/
def Fv.sqrt : Fv → Fv
  | .nan => .nan
  | .inf s => if s then .nan else .inf false
  | .fin s m e =>
    if m = 0 then .fin s 0 0
    else if s then .nan
    else
      let k : Nat := if (e - 256) % 2 = 0 then 256 else 257
      let n := m * 2 ^ k
      let r := natSqrt n
      let sticky := if r * r = n then 0 else 1
      .fin false (2 * r + sticky) ((e - (k : Int)) / 2 - 1)

/-- Exact comparison of finite or infinite values; false when either is NaN. -/
def Fv.lt : Fv → Fv → Bool
  | .nan, _ => false
  | _, .nan => false
  | .inf a, .inf b => a && !b
  | .inf a, .fin _ _ _ => a
  | .fin _ _ _, .inf b => !b
  | .fin s m e, .fin t n g =>
    let q := if e ≤ g then e else g
    let a := alignTo m e q
    let b := alignTo n g q
    if s then (if t then b < a else 0 < a || 0 < b) else (if t then false else a < b)

/-- `a ≤ b` for values that are not NaN. -/
def Fv.le (a b : Fv) : Bool := match a, b with
  | .nan, _ => false
  | _, .nan => false
  | x, y => !Fv.lt y x

/-- R133: the larger value; the non-NaN operand when exactly one is NaN; +0 over -0. -/
def Fv.maxNum (a b : Fv) : Fv := match a, b with
  | .nan, y => y
  | x, .nan => x
  | x, y => if Fv.lt x y then y else if Fv.lt y x then x else if x.neg then y else x

/-- R133: the smaller value; the non-NaN operand when exactly one is NaN; -0 under +0. -/
def Fv.minNum (a b : Fv) : Fv := match a, b with
  | .nan, y => y
  | x, .nan => x
  | x, y => if Fv.lt x y then x else if Fv.lt y x then y else if x.neg then x else y

/-- `v × 2^k`, exact. -/
def Fv.scale (v : Fv) (k : Int) : Fv := match v with
  | .fin s m e => .fin s m (e + k)
  | x => x

/-- An integer as a value. -/
def Fv.ofInt (x : Int) : Fv := .fin (x < 0) x.natAbs 0

/-- The exponent e with 2^e ≤ |v| < 2^(e+1) of a finite non-zero value (R149). -/
def Fv.expo : Fv → Int
  | .fin _ m e => e + (bitLen m : Int) - 1
  | _ => 0

/-- One rounding into FP32 (`round32` of R106, R129). -/
def round32 (v : Fv) : Fv := fpTo fmtFP32 v
/-- One rounding into W48 (`roundw` of R137). -/
def roundw (v : Fv) : Fv := fpTo fmtW48 v
/-- One rounding into BF16 (`roundbf` of R171). -/
def roundbf (v : Fv) : Fv := fpTo fmtBF16 v
/-- One rounding into the partial (`round22` of R104). -/
def round22 (v : Fv) : Fv := fpTo fmtP22 v

/-- The FP32 value of a bit pattern. -/
def f32 (bits : Nat) : Fv := fpDecode fmtFP32 bits
/-- The FP32 pattern of a value. -/
def toF32 (v : Fv) : Nat := fpBits fmtFP32 v

/-- The W48 value in the low 48 bits of its 64-bit container (R99). -/
def w48 (container : Nat) : Fv := fpDecode fmtW48 (container % 2 ^ 48)
/-- The 64-bit container of a W48 value: bits 63 to 48 are written zero (R99). -/
def toW48 (v : Fv) : Nat := fpBits fmtW48 v

/-- R95: the value of an E8M0 scale code; FFh is NaN. -/
def e8m0 (code : Nat) : Fv := if code = 0xFF then .nan else .fin false 1 ((code : Int) - 127)

/-- The element format of a format code (R78, R91); none for codes 7h to Fh. -/
def fmtOf : Nat → Option FpFmt
  | 0 => some fmtE4M3
  | 1 => some fmtE5M2
  | 2 => some fmtE3M2
  | 3 => some fmtE2M3
  | 4 => some fmtE2M1
  | 5 => some fmtBF16
  | 6 => some fmtFP32
  | _ => none

/-- The width in bits of an element of a format code (R78, R126); 0 for codes 9h to Fh. -/
def fmtWidth : Nat → Nat
  | 0 => 8
  | 1 => 8
  | 2 => 6
  | 3 => 6
  | 4 => 4
  | 5 => 16
  | 6 => 32
  | 7 => 64
  | 8 => 128
  | _ => 0

/-- The value of an element pattern of a format code (R91, R99). -/
def elemValue (code bits : Nat) : Fv :=
  match fmtOf code with
  | some f => fpDecode f bits
  | none => if code = 7 then w48 bits else .nan

/-- The largest magnitude E8M0-scaled narrowing aims at: 448 for E4M3, 57,344 for E5M2 (R111). -/
def narrowMax (code : Nat) : Fv := if code = 0 then .fin false 448 0 else .fin false 57344 0

/-- R111: the smallest integer x with amax / 2^x ≤ xmax. -/
def blockExp (code : Nat) (amax : Fv) : Int :=
  let x0 := amax.expo - (narrowMax code).expo
  if Fv.le (amax.scale (-x0)) (narrowMax code) then x0 else x0 + 1

/-- The largest magnitude of a list of finite values. -/
def amaxOf (vs : List Fv) : Fv := vs.foldl (fun a v => if Fv.lt a v.abs then v.abs else a) (Fv.zero false)

/-- Does a block hold a NaN or an infinity? -/
def anyNonFinite (vs : List Fv) : Bool := vs.any (fun v => !v.isFinite)

/-- R111 with the clamps that R154 may narrow: the scale code, the element patterns and how many elements
saturated. The scale's exponent is offset by `xt` (0 but for ACT, R154), for a block of zeros too. -/
def quantBlock (code : Nat) (xt lo hi : Int) (vs : List Fv) : Nat × List Nat × Nat :=
  let f := if code = 0 then fmtE4M3 else fmtE5M2
  let ws := vs.map (fun v => v.scale (-xt))
  if anyNonFinite ws then (0xFF, ws.map (fun _ => fpNaN f), 0)
  else
    let a := amaxOf ws
    if a.isZero then ((xt + 127).toNat, ws.map (fun v => fpBits f v), 0)
    else
      let x0 := blockExp code a
      let x := if x0 < lo then lo else if hi < x0 then hi else x0
      ((xt + x + 127).toNat, ws.map (fun v => fpBits f (v.scale (-x))),
        (ws.filter (fun v => fpSat f (v.scale (-x)))).length)

/-- R170, R173: `quantise_e5m2`, the block scale by R111. -/
def quantE5M2 (vs : List Fv) : Nat × List Nat :=
  let r := quantBlock 1 0 (-127) 127 vs
  (r.1, r.2.1)

/-- `deq`: the exact value of an E5M2 element under its block scale (R171, R172). -/
def deqE5M2 (scale q : Nat) : Fv := Fv.mul (fpDecode fmtE5M2 q) (e8m0 scale)

end Sys2Proof.Machine
end

