-- ==== Sys2Proof/Machine/StCore.lean ====
section
/-! DEFINITION. State of the needle cores: sequencer, queues, staged steps, arrays, edge banks and vector unit
(R40, R42 to R65, R101 to R106, R125 to R134, R356), and the tag counts of the running step (R121, R149). -/

namespace Sys2Proof.Machine

/-- What a sequencer waits for (R65, R74, R75); `seq` numbers the words issued before the wait. -/
inductive SeqWait where
  | none
  /-- The target queue is full: 0 matrix, 1 shuttle, 2 vector (R65, R125). -/
  | full (queue : Nat)
  | fence (ld st : Bool) (seq : Nat)
  /-- A SYNC: it first waits as FENCE with ST = 1 does, and has then reached its barrier. -/
  | sync (scope barrier seq : Nat)
  | stepend
  deriving DecidableEq, Repr

/-- An issued word in a queue with its descriptor copies and its copy of the vector registers (R64, R134). -/
structure QEnt where
  seq   : Nat := 0
  word  : Nat := 0
  /-- Descriptor images in the order of the word's slot fields: TA, TW, TC, TI, TS; TSRC, TDST; TX, TY, TZ, TR. -/
  descs : List Nat := []
  beta  : Nat := 0x3F800000
  eps   : Nat := 0x35800000
  qbase : Nat := 0
  kbase : Nat := 0
  mask  : Nat := 0
  /-- The wait of WST = 1 is over (R63, R128). -/
  go    : Bool := false
  /-- Steps staged of a matrix instruction (R60). -/
  staged : Nat := 0
  /-- Row blocks drained of a matrix instruction (R62). -/
  drained : Nat := 0
  deriving DecidableEq, Repr

/-- The flags of a half's non-finite products (R103). -/
structure HalfFlags where
  nan     : Bool := false
  posInf  : Bool := false
  negInf  : Bool := false
  deriving DecidableEq, Repr

/-- A half sum of a column (R101, R103, R105): an integer `h` in units of 2^`e`, its residue, the flags of
non-finite products, which are held twice, and whether the half has a live cell row. -/
structure Half where
  present : Bool := false
  h       : Int := 0
  e       : Int := -32
  residue : Nat := 0
  flags   : HalfFlags := {}
  /-- The second copy of the flags (R103). -/
  flags2  : HalfFlags := {}
  /-- Every term was a negative zero (R112). -/
  negZero : Bool := false
  /-- Product of the row scale and the column scale (R104). -/
  scale   : Fv := .fin false 1 0
  deriving DecidableEq, Repr

/-- A row in the pipeline of its array (R57): `age` ARRAY cycles since it entered, and its column halves. -/
structure PipeRow where
  age  : Nat
  seq  : Nat
  blk  : Nat
  tile : Nat
  pass : Nat
  row  : Nat
  cols : List (Half × Half)
  deriving DecidableEq, Repr

/-- A step (row block, K-tile) that the load shuttle has staged or is staging (R60): raw element patterns and scale codes.
Its weight tile stands staged; `aRows` grows as its A rows are staged. -/
structure Staged where
  seq    : Nat
  blk    : Nat
  tile   : Nat
  /-- One list of element patterns for each row of the block staged so far, ascending. -/
  aRows  : List (List Nat)
  aScale : List (Nat × Nat)
  /-- One list of element patterns for each output column. -/
  wCols  : List (List Nat)
  wScale : List (Nat × Nat)
  /-- Accumulate-in rows as FP32 patterns, read with the block's first K-tile. -/
  inRows : List (List Nat)
  /-- Saturations of `to_fp32` met in them (R109). -/
  inSat  : Nat
  /-- Ring bytes held by its weight tile and its A slice; 0 once its last row has entered the arrays (R60). -/
  bytes  : Nat
  /-- Ring bytes held by its accumulate-in rows (R60). -/
  inBytes : Nat
  deriving DecidableEq, Repr

/-- What the faces hold (R42, R46, R55): which K-tile, and for BF16 which pass runs. -/
structure Face where
  seq  : Nat
  blk  : Nat
  tile : Nat
  pass : Nat
  deriving DecidableEq, Repr

/-- Accumulate-in rows of a row block whose edge bank is not yet open (R50, R60): instruction and block, FP32 patterns,
their saturations and the ring bytes they hold. -/
structure AccRows where
  key   : Nat × Nat
  rows  : List (List Nat)
  sat   : Nat
  bytes : Nat
  deriving DecidableEq, Repr

/-- An edge bank whose row block is complete and waits for the store shuttle (R45, R62). -/
structure DrainJob where
  seq  : Nat
  blk  : Nat
  edge : FMap (Nat × Nat)
  deriving DecidableEq, Repr

/-- The arrays of a core (R42 to R59). Rows are numbered within their block; entry `64 × row + column`. -/
structure ArrSt where
  face    : Option Face := none
  /-- Next slot to enter each array, and ARRAY cycles since the swap. -/
  slot    : Nat := 0
  cyc     : Nat := 0
  /-- Fill cycles done for the tile in the bobbins. -/
  fill    : Nat := 0
  pipe    : List PipeRow := []
  /-- Rows whose partial is due for promotion, oldest first: instruction, block, row, last K-tile (R58). -/
  due     : List (Nat × Nat × Nat × Bool) := []
  /-- Accumulate-in rows of blocks whose edge bank is not yet open. -/
  accIn   : List AccRows := []
  /-- Partials: absent means clear (R44, R104). -/
  partials : FMap (Option Nat) := []
  /-- Edge entries: FP32 sum and correction word (R45). -/
  edge    : FMap (Nat × Nat) := []
  /-- The block (instruction, block) whose edge bank is open, once its bank is free. -/
  bank    : Option (Nat × Nat) := none
  /-- Rows of that block whose last promotion is done. -/
  closed  : Nat := 0
  drains  : List DrainJob := []
  staged  : List Staged := []
  deriving DecidableEq, Repr

/-- The vector word in progress (R130): row, chunk, pass over the row, running scalars and results. -/
structure VecSt where
  /-- A word is in progress (R157). -/
  busy   : Bool := false
  row    : Nat := 0
  chunk  : Nat := 0
  pass   : Nat := 0
  /-- Running sum, sum of squares, maximum or loss sum. -/
  acc    : Fv := .fin false 0 0
  /-- The row's mean (VNORM) or the scaled logit of the target (VLOSS). -/
  mu     : Fv := .fin false 0 0
  /-- The row's reciprocal root (VNORM). -/
  scale  : Fv := .fin false 0 0
  /-- Results of the current row, and the rows done, before conversion (R149). -/
  cur    : List Fv := []
  out    : List (List Fv) := []
  /-- Records written: row and bits (R140). -/
  recs   : List (Nat × Nat × Nat × Nat) := []
  sat    : Nat := 0
  nonfin : Nat := 0
  empty  : Nat := 0
  /-- The amax of the first read of VQNT (R155). -/
  amax   : Fv := .fin false 0 0
  deriving DecidableEq, Repr

/-- A logical core's context: everything that a switch saves (R356) and the arrays' and vector unit's work. -/
structure Core where
  /-- The 32 descriptor slots: images of 256 bits (R40, R76). -/
  slots  : FMap Nat := []
  /-- Open loops, innermost first: word offset of LOOP and runs still to do (R75). -/
  loops  : List (Nat × Nat) := []
  /-- LOOP words met in the step with the height of their nest (R75). -/
  nest   : List (Nat × Nat) := []
  issued : Nat := 0
  /-- LOAD_DIST, the ring's size and its place in core scratch, in force for the step (R60, R84, R87). -/
  dist   : Nat := 0
  ring   : Nat := 0
  ringBase : Nat := 0
  /-- Where in the ring the load shuttle writes next. -/
  ringAt : Nat := 0
  wait   : SeqWait := .none
  /-- When the wait began (R369). -/
  waitSince : Nat := 0
  matQ   : List QEnt := []
  shQ    : List QEnt := []
  vecQ   : List QEnt := []
  arr    : ArrSt := {}
  vec    : VecSt := {}
  /-- FABRIC cycle grants of scratch banks that the vector unit holds unused (R127, R28). -/
  grants : Nat := 0
  /-- Cycles waited on a bank: key 3 × bank + requester (0 store, 1 load, 2 vector) (R28). -/
  ages   : FMap Nat := []
  /-- Barriers passed in the step: scope × 256 + barrier (R75, R368). -/
  passed : List Nat := []
  /-- The core sleeps in limp or has been switched out (R363, R466). -/
  asleep : Bool := false
  /-- A hole's context has been on its carrier in the step (R466). -/
  entered : Bool := false
  /-- Why the physical core was marked faulty, as the field map codes it (R81, R453). -/
  faultCause : Nat := 0
  deriving DecidableEq, Repr

/-- What a core save record keeps (R356): the context and the core's registers of its sequencer and vector unit. -/
structure SaveRec where
  core  : Core
  state : Nat
  pc    : Nat
  depth : Nat
  beta  : Nat
  eps   : Nat
  qbase : Nat
  kbase : Nat
  mask  : Nat
  deriving DecidableEq, Repr

/-- A switch of a core (R363, R364): the incoming swatch (65,536: none), when it was asked for, whether the state has
begun to move, and the STATE the core takes once it has moved (R86). -/
structure SwitchRec where
  sw      : Nat
  since   : Nat
  moving  : Bool
  after   : Nat := 0
  /-- A later request that waits for this switch to complete. -/
  next    : Option Nat := none
  deriving DecidableEq, Repr

/-- A tag's counts in the running step of a swatch (R121, R149, R152). -/
structure TagAcc where
  sat      : Nat := 0
  comp     : Nat := 0
  firstUse : Nat := 0
  binned   : Bool := false
  bins     : FMap Nat := []
  /-- The largest finite magnitude, FP32 pattern. -/
  amax     : Nat := 0
  nonfinite : Bool := false
  deriving DecidableEq, Repr

/-- A tag's recipe in force during a step (R152, R153): KIND, CEIL, COUNT. -/
structure Recipe where
  kind  : Nat := 0
  ceil  : Nat := 0
  count : Nat := 0
  deriving DecidableEq, Repr

end Sys2Proof.Machine
end

