-- ==== Sys2Proof/Machine/StHub.lean ====
section
/-! DEFINITION. State of the swatches' running steps, their presses' work and their verdicts (R184 to R221,
R349 to R374). -/

namespace Sys2Proof.Machine

/-- A RUN record's remaining steps (R405): the record, its result place, and the checkpoint mark. -/
structure RunJob where
  seq     : Nat
  slot    : Nat
  part    : Nat
  irq     : Bool
  left    : Nat
  ckpt    : Bool
  done    : Nat := 0
  committed : Nat := 0
  lastStep : Nat := 0
  lastCause : Nat := 0
  lastV   : Bool := false
  deriving DecidableEq, Repr

/-- The fields of a fold or of a FINAL trailer (R200 to R203). -/
structure Fold where
  v      : Bool := true
  w      : Bool := false
  mm     : Bool := false
  dall   : Bool := true
  cause  : Nat := 0
  folded : Nat := 1
  deriving DecidableEq, Repr

/-- A job of the press (R182): 0 pack, 1 update, 2 foreign error pass, for one span of a swatch; 3 the application of a
pending-row entry, which stands in place of the span. -/
structure PressJob where
  kind : Nat
  sw   : Nat
  span : Nat
  deriving DecidableEq, Repr

/-- A sparse row that has passed its checks and waits for its entry of the pending-update ledger (R189, R191): swatch, span, row,
press, the entry's values as FP32 patterns, its norm, and the bolts of the row. -/
structure RowAppend where
  sw    : Nat
  span  : Nat
  row   : Nat
  press : Nat
  vals  : List Nat
  norm  : Nat
  bolts : List Nat
  deriving DecidableEq, Repr

/-- A host write held for a swatch's next step boundary (R351, R422): bytes at an address of the descriptor (`desc`), or
of device memory; and the function and number of the commit it belongs to, number 0 for none. -/
structure HeldWrite where
  sw   : Nat
  desc : Bool
  addr : Nat
  data : List Nat
  fn   : Nat
  num  : Nat
  deriving DecidableEq, Repr

/-- A step of a swatch and what the scheduler keeps about the swatch (R197 to R199, R358 to R370).
(DESIGN CHOICE, log 42.) -/
structure SwRun where
  /-- A step has started and has not reached its step boundary. -/
  started   : Bool := false
  step      : Nat := 0
  ckpt      : Bool := false
  /-- The step before this one was a checkpoint step (R215). -/
  prevCkpt  : Bool := false
  /-- The first matrix instruction has issued: the step is open until the latch (R197). -/
  opened    : Bool := false
  latched   : Bool := false
  /-- This member's bit for the step is 0, and for the next (R197, R198). -/
  bit0      : Bool := false
  nextBit0  : Bool := false
  /-- Causes recorded for the step and for the next; a cause alone changes no bit (R201). -/
  cause     : Nat := 0
  nextCause : Nat := 0
  withdraws : Bool := false
  broken    : Bool := false
  /-- This member found a digest mismatch (R214). -/
  mm        : Bool := false
  /-- Regions and domain in force for the step. -/
  regions   : Nat := 0
  domain    : Nat := 16
  /-- The next run plan entry, when the cutter came to it, and whether END has been passed (R368). -/
  plan      : Nat := 0
  planSince : Nat := 0
  ended     : Bool := false
  /-- The verdict applied to the step, whether its commit or skip is complete, and whether this member does not
  complete it (R184, R185, R207). -/
  final     : Option Fold := none
  settled   : Bool := false
  failed    : Bool := false
  /-- Foreign spans whose working planes have arrived (R184, step 3). -/
  planes    : List Nat := []
  /-- Presses and groups whose constants have been formed in the step (R169). -/
  formed    : List (Nat × Nat) := []
  /-- Groups whose bad span or group a press has counted in the step (R168). -/
  checked   : Bool := false
  /-- Rows skipped and blocks limited in the step, by group (R176, R186). -/
  rowSkips  : FMap Nat := []
  clipped   : FMap Nat := []
  /-- The scheduler has picked the swatch for its next step (R359). -/
  picked    : Bool := false
  /-- Preemption (R360, R361). -/
  outAt     : Option Nat := none
  returned  : Bool := false
  preempted : Bool := false
  /-- Save record not written or read in full, or no progress saved: the return reaches the boundary only (R364). -/
  lostSave  : Bool := false
  /-- Time of the last start plus one; 0: never (R359). -/
  lastStart : Nat := 0
  runs      : List RunJob := []
  /-- PARK and STOP wait for the boundary (R381, R405). -/
  parkDue   : Bool := false
  stopDue   : Bool := false
  /-- The run plan must be read and checked (R353), and what the last check found. -/
  planDirty : Bool := true
  planBad   : Bool := false
  /-- Results of the latest compared steps, newest first: was this member repaired (R219)? -/
  repairs   : List Bool := []
  /-- Localisation (R216): its stage, the odd positions, the reference, and the spans, leaves and blocks that differ. -/
  stage     : Nat := 0
  odd       : List Nat := []
  refPos    : Nat := 0
  oddSpans  : List Nat := []
  oddLeaves : List (Nat × Nat) := []
  oddBlocks : List (Nat × Nat) := []
  /-- A majority was found (R216), and this member's root has been sent. -/
  majority  : Bool := false
  rootSent  : Bool := false
  /-- The swatch is below its domain's highest committed step and awaits state transfer, whatever RUN shows (R208); what it
  holds is not to be trusted and comes by state transfer (R211, R218, R219). -/
  behind    : Bool := false
  lostState : Bool := false
  /-- Values in force since the last boundary: SWT_CFG (R381) and TIER_CFG (R301). -/
  maxOut    : Nat := 0
  preempt   : Nat := 0
  stallMs   : Nat := 0
  /-- Where uncorrectable data was read: device address and length (R211). -/
  lost      : List (Nat × Nat) := []
  /-- The stall limit has passed in the step (R293); when hold notices went out last (R206). -/
  limitHit  : Bool := false
  holdAt    : Nat := 0
  /-- Verdicts of the run's steps: V and CAUSE of the last, steps committed (R406). -/
  lastV     : Bool := false
  lastCause : Nat := 0
  deriving DecidableEq, Repr

end Sys2Proof.Machine
end

