-- ==== Sys2Proof/Machine/StColl.lean ====
section
/-! DEFINITION. State of the seam ports, of the collective domains and of the collectives (R305 to R341). -/

namespace Sys2Proof.Machine

/-- A flit held for replay (R310): its SEQ, header, payload, replays and the time it was last sent. -/
structure Flit where
  seq     : Nat
  header  : Nat
  payload : Nat
  replays : Nat
  sentAt  : Nat
  deriving DecidableEq, Repr

/-- A seam port beyond its registers (R309 to R316). -/
structure Port where
  /-- A peer's signal is there (R313). -/
  present  : Bool := false
  /-- Next SEQ to send and next SEQ expected. -/
  tx       : Nat := 0
  rx       : Nat := 0
  /-- Sent flits not yet acknowledged, and flits that wait for credit, oldest first. -/
  unacked  : List Flit := []
  waiting  : List (Nat × Nat) := []
  /-- Credits granted by the peer, by 2 × class + DL. -/
  credits  : FMap Nat := []
  /-- Credits to be returned to the peer, by 2 × class + DL. -/
  give     : FMap Nat := []
  /-- Bytes received on each STREAM of a flit sequence (R331). -/
  streams  : FMap (List Nat) := []
  /-- The peer's HELLO has come in, and whether it met the wiring rules (R320). -/
  hello    : Option Bool := none
  /-- A NAK is out for the next expected SEQ (R310). -/
  naked    : Bool := false
  /-- CTRL flits still to come of the message in progress (R324). -/
  ctrlLeft : Nat := 0
  /-- Times of the latest retrains (R316). -/
  retrains : List Nat := []
  /-- Flits sent and received beyond the last whole 2^20 (R344). -/
  txPart   : Nat := 0
  rxPart   : Nat := 0
  deriving DecidableEq, Repr

/-- A flit sequence received whole (R331): phase, shard, first block, sender's place and bytes. -/
structure Part where
  phase  : Nat
  shard  : Nat
  first  : Nat
  sender : Nat
  data   : List Nat
  deriving DecidableEq, Repr

/-- A collective asked for by a run plan (R368): kind 0 exchange reduce-scatter, 1 exchange all-gather, 2 reduce-scatter,
3 all-gather, 4 all-reduce, 5 broadcast, 6 a lining pair's closing collective. -/
structure CollReq where
  sw      : Nat
  kind    : Nat
  closing : Bool
  first   : Nat
  count   : Nat
  addr    : Nat
  root    : Nat
  deriving DecidableEq, Repr

/-- A collective this member has open (R329 to R335). -/
structure Coll where
  seq     : Nat
  step    : Nat
  req     : CollReq
  /-- When its 50 ms timer was last restarted (R206, R335). -/
  timer   : Nat
  /-- This member's contributions have been sent. -/
  contributed : Bool := false
  /-- Sequences whose bytes are here but whose trailer has not been taken for them, and sequences complete (R331). -/
  arrived : List Part := []
  parts   : List Part := []
  /-- Places whose sequence trailer has arrived, once for each. -/
  ended   : List Nat := []
  /-- Segments whose running sum this member has passed on: 2 × shard, plus 1 when it is not the chain's first (R332). -/
  passed  : List Nat := []
  /-- Running sums of this member's own shard: span, block and 32 FP32 patterns (R172). -/
  sums    : List (Nat × Nat × List Nat) := []
  /-- The running sums are complete. -/
  summed  : Bool := false
  /-- Closing hops done: span and block (R173). -/
  hops    : List (Nat × Nat) := []
  /-- Shards of a gather that stand at this member. -/
  holds   : List Nat := []
  /-- Places owed a gather trailer (R334). -/
  owed    : List Nat := []
  /-- Round trailers received and sent, and the folds that those of rounds 1, 2, … brought (R202). -/
  rin     : Nat := 0
  rout    : Nat := 0
  folds   : List Fold := []
  /-- The member's own fields as latched (R198, R202). -/
  own     : Option Fold := none
  /-- The FINAL trailer held (R204). -/
  final   : Option Nat := none
  deriving DecidableEq, Repr

/-- A proposal this module has sent (R325): epoch, places, when, and the ANNOUNCE of each place that has answered, as
(swatch, last committed step) pairs. -/
structure Proposal where
  epoch : Nat
  list  : List Nat
  since : Nat
  heard : List (Nat × List (Nat × Nat))
  deriving DecidableEq, Repr

/-- A proposal this module has accepted (R325). -/
structure Accepted where
  epoch     : Nat
  convener  : Nat
  list      : List Nat
  since     : Nat
  announced : Bool
  deriving DecidableEq, Repr

/-- An ADOPT (R324): epoch, places, HALT, and for each swatch its highest committed step, source place, interval. -/
structure Adopt where
  epoch : Nat
  list  : List Nat
  halt  : Bool
  sws   : List (Nat × Nat × Nat × Nat)
  deriving DecidableEq, Repr

/-- A domain beyond its registers (R322 to R330). -/
structure Dom where
  /-- The latest epoch seen, and the places of the current epoch, ascending (R323). -/
  seen     : Nat := 0
  members  : List Nat := []
  /-- JOIN messages received: place and latest epoch held. -/
  joins    : List (Nat × Nat) := []
  /-- Places to leave out of the next epoch: LEAVE, REMOVE, strikes (R327). -/
  leaving  : List Nat := []
  proposal : Option Proposal := none
  accepted : Option Accepted := none
  joinAt   : Nat := 0
  /-- When a trailer of each place came in last (R327). -/
  heardAt  : FMap Nat := []
  /-- LEAVE waits for the last open step (R345); a configuration waits for the epoch change; FORCE was given. -/
  leaveDue : Bool := false
  cfgDue   : Option Nat := none
  force    : Bool := false
  /-- The halted ADOPT that a FORCE would send again (R326). -/
  haltedBy : Option Adopt := none
  reqs     : List CollReq := []
  colls    : List Coll := []
  /-- Sequences and trailers of collectives not yet issued (R330): COLL_SEQ and sequence; trailer and sender. -/
  early    : List (Nat × Part) := []
  earlyTr  : List (Nat × Nat) := []
  /-- DIGEST_INTERVAL in force by swatch, and the transfer source's place plus one (R208, R212). -/
  interval : FMap Nat := []
  source   : FMap Nat := []
  /-- State transfer (R221): the last committed step whose blocks went out, plus one, by swatch; and the sequences of state
  transfer, of localisation (R216) and of foreign working planes (R184) that came in, with their header's first block. -/
  sent     : FMap Nat := []
  incoming : List (Nat × Part) := []
  deriving DecidableEq, Repr

end Sys2Proof.Machine
end

