-- ==== Sys2Proof/Machine/StSys.lean ====
section
/-! DEFINITION. State of bring-up and of the pattern in force (R412 to R418, R446 to R460). -/

namespace Sys2Proof.Machine

/-- The pattern copy in force (R412): bytes 0 to 63, bytes 64 to 127 and its DIGEST, as numbers. -/
structure PatForce where
  head   : Nat
  body   : Nat
  digest : Nat
  deriving DecidableEq, Repr

/-- The states of the root PLL (R442). -/
inductive RootState where
  | atLocal | acquiring | recovered | holdover | relocking | returning
  deriving DecidableEq, Repr

/-- The code of a root state in CLK_STATUS (R473). -/
def RootState.code : RootState → Nat
  | .atLocal => 0 | .acquiring => 1 | .recovered => 2 | .holdover => 3 | .relocking => 4 | .returning => 5

/-- The clocks and the array rail (R433 to R445): nothing but the clock, power and reset commands changes them. -/
structure Clk where
  root   : RootState := .atLocal
  /-- ACQUIRING: the reference is the source lane; and the root has locked to it. -/
  onLane : Bool := false
  locked : Bool := false
  /-- Domains ramp toward twice their nominal dividers, else toward nominal. -/
  up     : Bool := true
  /-- Dividers of ARRAY, FABRIC, VECTOR, HBMC and CTRL. -/
  array  : Nat := 16
  fabric : Nat := 8
  vector : Nat := 8
  hbmc   : Nat := 10
  ctrl   : Nat := 24
  /-- When each domain's divider in force began to be held, by domain 0 to 4. -/
  held   : FMap Nat := []
  /-- The depth this module reports (R337). -/
  depth  : Nat := 31
  /-- `CLKREF` is absent (R445). -/
  refGone : Bool := false
  /-- P, when it last changed, the P that the sequencer moves toward, the voltage level, and whether the rail is rising to
  the next level (R434, R437, R440). -/
  pass   : Nat := 60
  passAt : Nat := 0
  target : Nat := 60
  level  : Nat := 0
  rising : Bool := false
  /-- What the block's clock showed when the timestamp was last zero (R435). -/
  zeroAt : Nat := 0
  deriving DecidableEq, Repr

/-- The power limiter (R441): the latest 100 samples, newest first, in 0.1 W, and samples since the mean has been over the
limit, under 0.95 of it, and over it at P = 60. -/
structure Pwr where
  samples  : List Nat := []
  above    : Nat := 0
  under    : Nat := 0
  floor    : Nat := 0
  limiting : Nat := 0
  deriving DecidableEq, Repr

/-- An entry of the field bad-unit map (R453). -/
structure MapEnt where
  kind    : Nat
  unit    : Nat
  sub     : Nat := 0
  slot    : Nat := 0
  channel : Nat := 0
  lane    : Nat := 0
  cause   : Nat := 0
  seq     : Nat := 0
  deriving DecidableEq, Repr

/-- A partition's configuration: regions, enable bit, first swatch and count. -/
structure PartCfg where
  regions : Nat
  enable  : Bool
  first   : Nat
  count   : Nat
  deriving DecidableEq, Repr

/-- Bring-up beyond its registers. -/
structure Boot where
  pat : Option PatForce := none
  /-- The field map in force, the generation of its later copy and that copy (R452, R454). -/
  map     : List MapEnt := []
  mapGen  : Nat := 0
  mapCopy : Nat := 1
  /-- Acquisition is to be tried: the source port has come up (R444). -/
  acquireDue : Bool := false
  /-- The identity digest of R314 (MODULE_ID). -/
  moduleId : Nat := 0
  /-- `THERMTRIP#` is asserted (R387). -/
  tripped : Bool := false
  /-- `PERST#` is asserted (R386), and the drain of a module reset runs (R471). -/
  perst    : Bool := true
  draining : Bool := false
  /-- A bring-up has begun since `PWRGD` rose; this one is or continues as a cold one (R446). -/
  begun : Bool := false
  cold  : Bool := true
  /-- When the bring-up and its step in progress began. -/
  bootAt : Nat := 0
  stepAt : Nat := 0
  /-- The bring-up runs in refurbish mode (R493); it completes a wipe (R487, R488). -/
  refurb : Bool := false
  wiping : Bool := false
  /-- The image slots found valid at step 2, A and B; a channel trained in full, and every one did (R449, R450). -/
  imageOk   : Nat := 0
  fullTrain : Bool := false
  allFull   : Bool := false
  /-- Results of the fitting run (R451): per region the physical cores that failed, bit 9 the pocket, router or
  controller; the port loopbacks that failed. -/
  fit      : FMap Nat := []
  badPorts : Nat := 0
  /-- HUB_CAPACITY at the previous `READY` (R460). -/
  capacity : Option Nat := none
  /-- P fields as the register image gives them, by field key (R11, R413). -/
  image : FMap Nat := []
  /-- Resets of cores (0), regions (1) and partitions (2) not yet complete: scope and number (R467). -/
  resets : List (Nat × Nat) := []
  deriving DecidableEq, Repr

/-- The SMBus target's own state (R425, R426): alert causes, mask, ledger read index and the latest temperatures: stacks,
hottest compute die, hottest seam die, hubs, flash controllers' maximum, each an 8-bit pattern. -/
structure Smb where
  alerts : Nat := 0
  mask   : Nat := 0
  index  : Nat := 0
  temps  : List Nat := []
  deriving DecidableEq, Repr

/-- What the ledger counts from manufacture (R489, R490), which a loss of power does not clear.
(DESIGN CHOICE, log 123.) -/
structure Meters where
  boots   : Nat := 0
  /-- Timestamp counts with `PWRGD` asserted before it last rose, and when it rose. -/
  powered : Nat := 0
  onAt    : Nat := 0
  /-- Energy in 0.1 W for 100 µs. -/
  energy  : Nat := 0
  cycles  : Nat := 0
  /-- The hottest compute die has been above 80 °C since the last thermal cycle. -/
  above80 : Bool := false
  /-- Peaks since the last HOURS entry, °C. -/
  peakStack : Option Int := none
  peakDie   : Option Int := none
  /-- Corrected units, uncorrectable reads and lane swaps by stack; the sum of its counts in its last STACK entry. -/
  corr   : FMap Nat := []
  uncorr : FMap Nat := []
  swaps  : FMap Nat := []
  told   : FMap Nat := []
  /-- Retrains by port. -/
  retrains : FMap Nat := []
  /-- When the last HOURS, STACK and FLASH entries were written. -/
  hoursAt : Nat := 0
  stackAt : Nat := 0
  flashAt : Nat := 0
  deriving DecidableEq, Repr

/-- What the thimble keeps (R3, R477 to R495): its fuses, and what it reads from the ledger's programmed entries.
(DESIGN CHOICE, log 122.) -/
structure Thm where
  minSvn  : Nat := 0
  revoked : Bool := false
  /-- The grade in force: grade, ceiling of P, power limit in W, refurbish count; and the factory grade. -/
  grade   : Nat := 0
  ceil    : Nat := 120
  watts   : Nat := 2600
  refurbs : Nat := 0
  factory : Nat := 0
  /-- Newest and oldest entries. -/
  newest  : Nat := 1
  oldest  : Nat := 1
  /-- A WIPE BEGIN without END, the latest completed WIPE entry, a REFURBISH REQUEST that waits, and a refurbish begun that
  has not passed. -/
  wipeOpen   : Bool := false
  wipeSeq    : Nat := 0
  refurbDue  : Bool := false
  refurbOpen : Bool := false
  /-- Wiped, and no swatch has started since (R487). -/
  clean   : Bool := false
  /-- Digests of owner keys, from OWNER entries (R479). -/
  owners  : List Nat := []
  /-- Recovery write in progress: slot and next offset (R482). -/
  rcv : Option (Nat × Nat) := none
  /-- The pattern write in progress (R417): pattern number and copy. -/
  patWrite : Option (Nat × Nat) := none
  /-- Hourly GiB counts of the latest FLASH entry of each controller (R288). -/
  flash : FMap (List Nat) := []
  /-- Media keys generated (R487). -/
  media : FMap Nat := []
  deriving DecidableEq, Repr

/-- A staged write (R419): a BAR0 offset or, with `dev`, a device address, 8 B aligned; byte mask and data. -/
structure TxnEnt where
  dev  : Bool
  addr : Nat
  mask : Nat
  data : Nat
  deriving DecidableEq, Repr

/-- A function's transaction (R419 to R423): entries in order, the next commit number, and the targets that anyone has
written since BEGIN. -/
structure Txn where
  ents    : List TxnEnt := []
  next    : Nat := 1
  written : List (Bool × Nat) := []
  deriving DecidableEq, Repr

/-- An access to the data-port window that has not completed (R399): its unit values, or zeros for a read; the units read;
a partial access; and since when its front unit has waited. -/
structure DpReq where
  write : Bool
  units : List Nat
  got   : List Nat
  whole : Bool
  since : Nat
  deriving DecidableEq, Repr

/-- A function's data port (R399): row address A, row offset o, and its requests, oldest first (R379). -/
structure Dp where
  row : Nat := 0
  off : Nat := 0
  reqs : List DpReq := []
  deriving DecidableEq, Repr

end Sys2Proof.Machine
end

