-- ==== Sys2Proof/Machine/State.lean ====
section
/-! DEFINITION. The state of the module. -/

namespace Sys2Proof.Machine

/-- Why a command stops the block. -/
inductive Fault where
  /-- The command names a unit, register field or index that the module does not have. Raised by the range
  check in front of every meaning. Safe: the spec gives such a unit no existence. -/
  | noSuchUnit
  deriving DecidableEq, Repr

/-- Why a command has no meaning. -/
inductive Refusal where
  /-- No meaning written yet; raised by a row of exec only. Safe. -/
  | notModelled (mnemonic : String)
  deriving DecidableEq, Repr

/-- An entry waiting to be programmed into the service ledger (R489 to R491): type, payload bytes 64 to 127 as a
number, CLK_TIME when it was queued. -/
structure LedgEnt where
  type    : Nat
  payload : Nat
  time    : Nat
  deriving DecidableEq, Repr

/-- A result slot (R406 to R410): reserved by a record taken, and the 512 bits posted, if they are. -/
structure Slot where
  reserved : Bool := false
  posted   : Option Nat := none
  deriving DecidableEq, Repr

/-- What the block sends out or returns in the course of one command. -/
inductive Out where
  /-- Data returned by a read. -/
  | data (v : Nat)
  /-- An MSI-X message of a function with its vector (R392). -/
  | msix (fn vec : Nat)
  /-- A flip, ALLOC or FREE notice to every holder of a translation buffer (R270): bolt, generation, FREE. -/
  | notice (bolt gen : Nat) (freed : Bool)
  /-- Hold notices and release notices of a move (R272). -/
  | holdNotice (bolt : Nat)
  | release (bolt gen home tier : Nat)
  /-- A control message to a place, by its code and fields (R324). -/
  | message (dest code : Nat) (fields : List Nat)
  /-- A trailer to a place (R200). -/
  | trailer (dest raw : Nat)
  /-- The data of a flit sequence to a place: domain, COLL_SEQ, phase, shard, first block, bytes (R331). -/
  | sequence (dest dom seq phase shard first : Nat) (bytes : List Nat)
  /-- A flit on a port: header and payload (R308). -/
  | flit (port header payload : Nat)
  deriving DecidableEq, Repr

/-- The whole module. (DESIGN CHOICE, log 152.) -/
structure State where
  /-- Commands that wait, first in, first out: the model's own. -/
  pending : List Instr := []
  /-- Counts of 1.2 GHz since the start, from which the timestamp is taken (R435). -/
  now     : Nat := 0
  /-- What the last command sent or returned: the model's own. -/
  out     : List Out := []
  /-- The register fields, by `fieldKey` (R10, R11). -/
  regs    : FMap Nat := []
  /-- Memories, caches, pockets, directory and moves (R226 to R304). -/
  mem     : Mem := {}
  /-- The logical cores' contexts, by 8 × region + k (R40, R356). -/
  cores   : FMap Core := []
  /-- Switches of cores under way, by logical core (R363, R364). -/
  switches : FMap (Option SwitchRec) := []
  /-- Core save records, by 512 × swatch + logical core (R356). -/
  saved   : FMap (Option SaveRec) := []
  /-- The swatches' running steps (R197 to R199, R358 to R370). -/
  sws     : FMap SwRun := []
  /-- Counts by tag of a running step, and recipes in force, by 4,096 × swatch + tag (R121, R149, R152). -/
  tags    : FMap TagAcc := []
  /-- Recipes in force in a step (R152, R153). -/
  recipes : FMap Recipe := []
  /-- Hint bytes in force (key 4,096 × swatch + tag) (R243). -/
  hints   : FMap Nat := []
  /-- Entries queued for the service ledger, oldest first (R491). -/
  ledgQ   : List LedgEnt := []
  /-- Partition configurations that wait for idle swatches (R373). -/
  parts   : FMap (Option PartCfg) := []
  /-- Job records taken that have still to act: partition and 512 bits, oldest first (R404, R405). -/
  taken   : List (Nat × Nat) := []
  /-- Result slots, by 4,096 × partition + slot (R406 to R410). -/
  slots   : FMap Slot := []
  /-- Host writes held for a step boundary, oldest first (R351, R422). -/
  held    : List HeldWrite := []
  /-- Rows with a committed entry of the pending-update ledger, by swatch: entry, address, bytes, press (R190). -/
  rowsDue : FMap (List (Nat × Nat × Nat × Nat)) := []
  /-- Rows whose append waits for a free entry or for a pin, oldest first (R191). -/
  rowAppends : List RowAppend := []
  /-- Jobs of each stack's press, oldest first (R182). -/
  pressQ  : FMap (List PressJob) := []
  /-- Collective domains, by number (R322 to R330). -/
  doms    : FMap Dom := []
  /-- Seam ports, by number (R309 to R316). -/
  ports   : FMap Port := []
  /-- Bring-up, resets and the pattern in force (R412 to R418, R446 to R460). -/
  boot    : Boot := {}
  /-- The clocks and the array rail (R433 to R445). -/
  clk     : Clk := {}
  /-- The power limiter (R441). -/
  pwr     : Pwr := {}
  /-- The SMBus target (R425, R426). -/
  smb     : Smb := {}
  /-- What the ledger's entries count (R489, R490). -/
  meters  : Meters := {}
  /-- The thimble (R477 to R495). -/
  thm     : Thm := {}
  /-- Class arbiters other than the pseudo-channels' (R376). -/
  arbs    : FMap Arb := []
  /-- Transactions, by function (R419 to R423). -/
  txns    : FMap Txn := []
  /-- Data ports, by function (R399). -/
  dps     : FMap Dp := []
  /-- MSI-X tables, 8 B words by 512 × function + word (R392). -/
  msix    : FMap Nat := []
  /-- The module withdraws at the next step boundary, with the CAUSE byte of its WITHDRAW entries (R207, R502). -/
  withdraw : Option Nat := none
  /-- It withdraws only because a collective timer expired (R327). -/
  timedOut : Bool := false
  /-- What follows the withdrawal (R211, R218, R219): 0 nothing, 1 JOIN, 2 a fitting run and then JOIN; and the domains to be
  joined once that fitting run has passed. -/
  rejoin  : Nat := 0
  refit   : List Nat := []
  /-- The host link is up (R291, R386). -/
  hostLink : Bool := false
  /-- PWRGD is asserted (R385); PERST# holds the module in reset (R447). -/
  pwrgd   : Bool := true
  inReset : Bool := true
  deriving DecidableEq, Repr

/-- Bytes 0 to 141 of ledger entry 1, the factory's grade entry (R3, R489, R490): TYPE 01h, SEQ 1, then a payload of grade A,
ceiling 120, 2,600 W and no refurbish. (DESIGN CHOICE, log 121, 122.) -/
def factoryEntry : List Byte := [1, 1, 0, 0, 0, 0, 0, 0, 1] ++ fillBytes 55 0 ++ [0, 120, 0x28, 0x0A] ++ fillBytes 74 0

/-- The config flash with the ledger's first entry, which lies at its start (R411, R489). -/
def factoryFlash : Memory := factoryEntry.zipIdx.map (fun p => (0x5000000 + p.2, p.1))

/-- The module right after reset. (DESIGN CHOICE, log 121, 151.) -/
def State.reset : State := { mem := { st := { cfg := factoryFlash } } }

end Sys2Proof.Machine
end

