-- ==== Sys2Proof/Machine/Ops.lean ====
section
/-! DEFINITION. Operations over the state that every family of commands shares: the guard in front of a meaning,
register fields and counters (R10, R11, R84), swatch descriptors (R349, R350), interrupts (R392), the ledger queue
(R491), the causes that make a step's bit 0 (R197 to R199) and breaking a step (R67). -/

namespace Sys2Proof.Machine

/-! The guard in front of a meaning. -/

/-- A meaning of a command that may touch the clocks: a fault when the unit named does not exist, otherwise `f` on the
state with no output of an earlier command left. A command takes no time and leaves the queue alone.
(DESIGN CHOICE, log 150.) -/
def actAll (ok : Bool) (f : State → State) (s : State) : Host.Outcome State Fault Refusal :=
  if ok then .next { f { s with out := [] } with pending := s.pending, now := s.now } else .fault .noSuchUnit

/-- A meaning of a command that lies outside the clocks, which it leaves alone (R439). (DESIGN CHOICE, log 80.) -/
def act (ok : Bool) (f : State → State) (s : State) : Host.Outcome State Fault Refusal :=
  actAll ok (fun t => { f t with clk := t.clk }) s

/-- Runs `f` only while the module is powered (R386). (DESIGN CHOICE, log 2.) -/
def whenPowered (f : State → State) (s : State) : State := if s.pwrgd then f s else s

/-- Runs `f` only while the module is powered and not held in a module reset (R471). -/
def whenUp (f : State → State) (s : State) : State := if s.pwrgd && !s.inReset then f s else s

/-- Runs `f` when `c` holds; otherwise the event does not occur and nothing changes. -/
def whenever (c : Bool) (f : State → State) (s : State) : State := if c then f s else s

/-! Register fields. -/

/-- The key of field `n` of unit `i`. -/
def fieldKey (n : FieldName) (i : Nat) : Nat := 512 * i + n.ctorIdx

/-- A register field of unit `i`. -/
def State.f (s : State) (n : FieldName) (i : Nat) : Nat := FMap.get (fieldDesc n).reset s.regs (fieldKey n i)

/-- Writes a register field of unit `i`, kept to its width. -/
def State.setF (s : State) (n : FieldName) (i v : Nat) : State :=
  { s with regs := FMap.set (fieldDesc n).reset s.regs (fieldKey n i) (v % 2 ^ (fieldDesc n).width) }

/-- A counter of unit `i` advances by `k` and saturates (R84). -/
def State.tally (s : State) (n : FieldName) (i k : Nat) : State := s.setF n i (satAdd (s.f n i) k)

/-- A flag of unit `i` is set. -/
def State.raise (s : State) (n : FieldName) (i : Nat) : State := s.setF n i 1

/-- A field returns to its reset value (R11). -/
def State.clearF (s : State) (n : FieldName) (i : Nat) : State := s.setF n i (fieldDesc n).reset

/-- Bits `[lo + w - 1 : lo]` of a field that holds numbered subfields. -/
def State.sub (s : State) (n : FieldName) (i lo w : Nat) : Nat := bitField (s.f n i) lo w

/-- Writes such a subfield. -/
def State.setSub (s : State) (n : FieldName) (i lo w v : Nat) : State := s.setF n i (setBits (s.f n i) lo w v)

/-! Output. -/

/-- Sends or returns something. -/
def State.emit (s : State) (o : Out) : State := { s with out := s.out ++ [o] }

/-! Parts of the state. -/

/-- A logical core's context. -/
def State.core (s : State) (c : Nat) : Core := FMap.get {} s.cores c
/-- Replaces a logical core's context. -/
def State.setCore (s : State) (c : Nat) (k : Core) : State := { s with cores := FMap.set {} s.cores c k }
/-- A swatch's running step. -/
def State.sw (s : State) (w : Nat) : SwRun := FMap.get {} s.sws w
/-- Replaces a swatch's running step. -/
def State.setSw (s : State) (w : Nat) (r : SwRun) : State := { s with sws := FMap.set {} s.sws w r }
/-- Applies a function to a swatch's running step. -/
def State.updSw (s : State) (w : Nat) (f : SwRun → SwRun) : State := s.setSw w (f (s.sw w))
/-- Replaces the memory side. -/
def State.setMem (s : State) (m : Mem) : State := { s with mem := m }
/-- Replaces the stores. -/
def State.setStores (s : State) (t : Stores) : State := { s with mem := { s.mem with st := t } }

/-! Swatch descriptors: the copy in the hub's SRAM is the one read; every change is written through to the backing
copy, whose place in HBM the reserved area gives (R266, R349). -/

/-- The stack and slot of reserved bolt `j` over RSV_SET (R266). -/
def rsvPlace (set : List Nat) (j : Nat) : Nat × Nat :=
  (set.getD (j % natMax set.length 1) 0, 1572863 - j / natMax set.length 1)

/-- Bytes of one stack. -/
def stackBytes : Nat := 103079215104

/-- The `hbm` address of offset `o` of reserved bolt `j`. -/
def rsvAddr (s : State) (j o : Nat) : Nat :=
  let p := rsvPlace s.mem.rsvSet j
  stackBytes * p.1 + 65536 * p.2 + o

/-- Is the stack of reserved bolt `j` out of service, so that it reads zero and discards writes (R254, R267)? -/
def State.rsvDead (s : State) (j : Nat) : Bool := 3 ≤ s.f .BASE_STATUS_STATE (rsvPlace s.mem.rsvSet j).1

/-- Where descriptor `k` stands in SRAM: hub k mod 4 holds it, in a slice of 4 MiB (R22, R349). -/
def descAt (k : Nat) : Nat := 4194304 * (k % 4) + 256 * (k / 4)

/-- The swatch whose descriptor holds an SRAM byte. -/
def swatchAt (a : Nat) : Nat := 4 * (a % 4194304 / 256) + a / 4194304

/-- The `hbm` address of byte `o` of descriptor `k`'s backing copy (R266, R349). -/
def descBacking (s : State) (k o : Nat) : Nat := rsvAddr s (32768 + k / 256) (256 * (k % 256) + o)

/-- Field `[lo + w - 1 : lo]` of the descriptor of swatch `k` (R350). -/
def State.desc (s : State) (k lo w : Nat) : Nat :=
  bitField (leNat (Memory.bytes 0 s.mem.st.sram (descAt k + lo / 8) ((lo % 8 + w + 7) / 8))) (lo % 8) w

/-- Writes a descriptor field in the SRAM copy and in the backing copy, where its stack is in service (R254, R349). -/
def State.setDesc (s : State) (k lo w v : Nat) : State :=
  let a := descAt k + lo / 8
  let n := (lo % 8 + w + 7) / 8
  let bytes := leBytes (setBits (leNat (Memory.bytes 0 s.mem.st.sram a n)) (lo % 8) w v) n
  s.setStores { s.mem.st with
    sram := Memory.write 0 s.mem.st.sram a bytes
    hbm := if s.rsvDead (32768 + k / 256) then s.mem.st.hbm
      else Memory.write 0 s.mem.st.hbm (descBacking s k (lo / 8)) bytes }

/-- RUN of a swatch (R350). -/
def State.run (s : State) (k : Nat) : Nat := s.desc k 1945 3
/-- Writes RUN. -/
def State.setRun (s : State) (k v : Nat) : State := s.setDesc k 1945 3 v
/-- A swatch is idle when no step of it is open or waits for its boundary (R18). -/
def State.idle (s : State) (k : Nat) : Bool := !(s.sw k).started

/-- The partition that owns a region, if an enabled one does (R371). -/
def State.partOfRegion (s : State) (r : Nat) : Option Nat :=
  (List.range 8).find? (fun p => s.f .HUB_PART_CFG_ENABLE p = 1 && bitAt (s.f .HUB_PART_CFG_REGIONS p) r)

/-- Does partition `p` hold swatch number `k` (R371)? -/
def State.partHasSwatch (s : State) (p k : Nat) : Bool :=
  s.f .HUB_PART_SWT_FIRST p ≤ k && k < s.f .HUB_PART_SWT_FIRST p + s.f .HUB_PART_SWT_COUNT p

/-- The swatches that have something running or kept, ascending. -/
def State.swatches (s : State) : List Nat := s.sws.map Prod.fst

/-- The swatches with a step that has started and not reached its boundary. -/
def State.startedSws (s : State) : List Nat := s.swatches.filter (fun k => (s.sw k).started)

/-! Seam ports. -/

/-- Is a port up, at full or half width? -/
def State.portUp (s : State) (p : Nat) : Bool := s.f .SEAM_STATUS_STATE p = 2 || s.f .SEAM_STATUS_STATE p = 3

/-- Ports up, ascending. -/
def State.portsUp (s : State) : List Nat := (List.range 16).filter s.portUp

/-! Resets in progress (R467, R468). -/

/-- Does a reset in progress cover a region? Scopes: 0 a core, 1 a region, 2 and 3 a partition. -/
def State.regionInReset (s : State) (r : Nat) : Bool :=
  s.boot.resets.any (fun p => (p.1 = 1 && p.2 = r) || (2 ≤ p.1 && bitAt (s.f .HUB_PART_CFG_REGIONS p.2) r))

/-- Does a reset in progress cover a core? -/
def State.coreInReset (s : State) (c : Nat) : Bool := s.boot.resets.contains (0, c) || s.regionInReset (c / 8)

/-- Traffic that meets a region in reset is absorbed and counted. (DESIGN CHOICE, log 134.) -/
def State.absorb (s : State) (r : Nat) : State := s.tally .RGN_ABSORBED r 1

/-! Interrupts (R392, R428). -/

/-- The causes a virtual function receives: RESULT, BOARD, TXN, FAULT (R428). -/
def vfCauses : Nat := 0x27

/-- Sends the message of cause `c` of function `fn` when it is set and enabled; a vector beyond the function's table acts
as 0 (R428). -/
def sendCause (s : State) (fn c : Nat) : State :=
  if bitAt (s.f .HST_INT_CAUSE_CAUSE fn) c && bitAt (s.f .HST_INT_MASK_ENABLE fn) c then
    let v := s.sub .HST_INT_VEC_VEC fn (6 * c) 6
    s.emit (.msix fn (if fn ≠ 0 && 8 ≤ v then 0 else v))
  else s

/-- A cause is set for a function, and its message goes out when it is enabled (R392). -/
def State.interrupt (s : State) (fn c : Nat) : State :=
  if fn = 0 || bitAt vfCauses c then
    sendCause (s.setF .HST_INT_CAUSE_CAUSE fn (putBit (s.f .HST_INT_CAUSE_CAUSE fn) c true)) fn c
  else s

/-- A cause is set for the physical function and for the virtual function of a partition (R372). -/
def State.interruptPart (s : State) (p c : Nat) : State := (s.interrupt 0 c).interrupt (p + 1) c

/-- A cause is set for every function: a module-wide fault (R428). -/
def State.interruptAll (s : State) (c : Nat) : State :=
  (List.range 9).foldl (fun t fn => t.interrupt fn c) s

/-- An SMBus alert cause is set (R426): ALERT# follows it while it is not masked, and so does the interrupt.
(DEDUCED, log 77, 112.) -/
def State.alert (s : State) (c : Nat) : State :=
  let t := { s with smb := { s.smb with alerts := putBit s.smb.alerts c true } }
  if bitAt s.smb.mask c then t else t.interrupt 0 3

/-! The ledger queue (R491). -/

/-- CLK_TIME, the timestamp (R435). -/
def State.clkTime (s : State) : Nat := s.now - s.clk.zeroAt

/-- Queues a ledger entry: type and payload. -/
def State.ledger (s : State) (type payload : Nat) : State :=
  let s := { s with ledgQ := s.ledgQ ++ [({ type := type, payload := payload, time := s.clkTime } : LedgEnt)] }
  s.setF .LEDG_STATUS_QUEUE 0 (natMin s.ledgQ.length 127)

/-- Unit kinds of a UNIT entry (R490): the spec gives the byte no codes; these are the model's. -/
inductive UnitKind where
  | core | pocket | router | stack | baseDie | seamDie | hub | flash | lane | thermtrip
  deriving DecidableEq, Repr

/-- The code of a unit kind in a UNIT entry. (DESIGN CHOICE, log 7.) -/
def UnitKind.code : UnitKind → Nat
  | .core => 0 | .pocket => 1 | .router => 2 | .stack => 3 | .baseDie => 4
  | .seamDie => 5 | .hub => 6 | .flash => 7 | .lane => 8 | .thermtrip => 9

/-- The payload of a UNIT entry: unit kind, number, sub-unit, cause, swatch, step (R490). -/
def unitPayload (kind : UnitKind) (num sub cause sw step : Nat) : Nat :=
  kind.code + 2 ^ 8 * (num % 256) + 2 ^ 16 * (sub % 256) + 2 ^ 24 * (cause % 256)
    + 2 ^ 32 * (sw % 65536) + 2 ^ 48 * (step % 2 ^ 64)

/-! Results (R406 to R410). -/

/-- The words of a result (R406). -/
structure Result where
  seq       : Nat := 0
  status    : Nat := 0
  sw        : Nat := 0
  done      : Nat := 0
  committed : Nat := 0
  lastStep  : Nat := 0
  lastCause : Nat := 0
  lastV     : Nat := 0
  bolts     : Nat := 0
  entry     : Nat := 0
  deriving DecidableEq, Repr

/-- The 512 bits of a posted result, READY set. -/
def Result.bits (r : Result) : Nat :=
  r.seq % 2 ^ 32 + 2 ^ 32 + 2 ^ 40 * (r.status % 256) + 2 ^ 48 * (r.sw % 65536) + 2 ^ 64 * (r.done % 2 ^ 32)
    + 2 ^ 96 * (r.committed % 2 ^ 32) + 2 ^ 128 * (r.lastStep % 2 ^ 64) + 2 ^ 192 * (r.lastCause % 256)
    + 2 ^ 200 * (r.lastV % 2) + 2 ^ 256 * (r.bolts % 2 ^ 28) + 2 ^ 384 * (r.entry % 2 ^ 128)

/-- Hub 0 posts a result: it replaces the whole slot, and raises RESULT when IRQ asks for it (R403, R408). -/
def State.post (s : State) (part slot : Nat) (irq : Bool) (r : Result) : State :=
  let s := { s with slots := FMap.set {} s.slots (4096 * part + slot) ⟨true, some r.bits⟩ }
  if irq then s.interruptPart part 0 else s

/-! Waits (R292). -/

/-- A request of swatch `k` begins to wait on `key`; a wait already under way goes on. `stuck`: the step cannot leave it
(R293). (DESIGN CHOICE, log 27.) -/
def State.waitAs (s : State) (k cause key : Nat) (stuck : Bool) : State :=
  if s.mem.waiters.any (fun w => w.sw = k && w.key = key && w.stuck = stuck) then s
  else s.setMem { s.mem with waiters := s.mem.waiters ++
    [({ sw := k, cause := cause, key := key, since := s.now, past := false, stuck := stuck } : Waiter)] }

/-- A wait that ends with the step at the latest. -/
def State.waitOn (s : State) (k cause key : Nat) : State := s.waitAs k cause key false

/-- The key of a wait of a tier request that is held, or meets 255 pins, at bolt `b`. -/
def heldKey (b : Nat) : Nat := 2 ^ 31 + b

/-- The key of an append of swatch `k` at the press of stack `st` that waits for a free entry (R191). -/
def pendKey (k st : Nat) : Nat := 2 ^ 28 + 32 * k + st

/-- The key of reads that wait for committed entry `j` of swatch `k`, whose row the press of stack `st` holds (R190). -/
def rowKey (k j st : Nat) : Nat := 2 ^ 40 + 32 * (65536 * j + k) + st

/-- The cause of a wait on bolt `b` while move `m` of it goes on (R292): what the reservation waits for; the link or a T3
copy; a copy from T2, or a write buffer without room; otherwise the move itself, its spacing and its hold. -/
def State.moveCause (s : State) (b : Nat) (m : MoveRec) : Nat :=
  let e := FMap.get {} s.mem.dir b
  let t3 := e.tier = 3 || e.dtier = 3
  let down := t3 && !s.hostLink
  let full := e.dtier = 2 && 1024 ≤ (FMap.get {} s.mem.flash (e.dest % 2)).buffer.length
  match m.phase with
  | .reserve => m.obst
  | .copy => if t3 then 4 else if e.tier = 2 || full then 0 else 2
  | .recopy =>
    if m.dirty.isEmpty || 4 ≤ m.passes then (if down then 4 else 2) else if t3 then 4 else if e.tier = 2 then 0 else 2
  | .hold => if down then 4 else 2
  | .flipped => 2

/-- The cause of the obstacle in force of a wait (R292). -/
def State.causeNow (s : State) (w : Waiter) : Nat :=
  match FMap.get none s.mem.moves w.key with
  | none => w.cause
  | some m => s.moveCause w.key m

/-- TIER_STALL_LAST shows a wait of a swatch's request (R301). -/
def State.showStall (s : State) (w : Waiter) (failed : Bool) : State :=
  (((s.setF .TIER_STALL_LAST_SWATCH 0 w.sw).setF .TIER_STALL_LAST_CAUSE 0 (s.causeNow w)).setF
    .TIER_STALL_LAST_FAILED 0 (flagBit failed)).setF .TIER_STALL_LAST_DURATION 0 ((s.now - w.since) / usec 1)

/-- The waits on `key` end: TIER_STALL_LAST records a wait of 1 ms or more (R301). (DESIGN CHOICE, log 48.) -/
def State.endWaits (s : State) (key : Nat) : State :=
  let ended := s.mem.waiters.filter (fun w => w.key = key)
  let s := ended.foldl (fun t w =>
    if (t.now - w.since) / usec 1 < 1000 || 65536 ≤ w.sw then t else t.showStall w w.past) s
  s.setMem { s.mem with waiters := s.mem.waiters.filter (fun w => w.key ≠ key) }

/-- In each whole µs, every stall counter whose cause has a wait advances by one (R292). (DESIGN CHOICE, log 46.) -/
def State.stallTick (t : State) : State :=
  if t.now % usec 1 ≠ 0 then t
  else
    let causes := t.mem.waiters.map t.causeNow
    let n (c : Nat) := if causes.contains c then 1 else 0
    (((((t.tally .TIER_STALL_FLASH 0 (n 0)).tally .TIER_STALL_HOT 0 (n 1)).tally .TIER_STALL_DIR 0 (n 2)).tally
      .TIER_STALL_QUOTA 0 (n 3)).tally .TIER_STALL_HOST 0 (n 4)).tally .TIER_STALL_SEAM 0 (n 5)

/-! Causes and broken steps. -/

/-- CAUSE bits (R201). -/
def causeNonFinite : Nat := 0
/-- CAUSE bit BROKEN. -/
def causeBroken : Nat := 1
/-- CAUSE bit UNIT. -/
def causeUnit : Nat := 2
/-- CAUSE bit UNCORR. -/
def causeUncorr : Nat := 3
/-- CAUSE bit STALL. -/
def causeStall : Nat := 4
/-- CAUSE bit WITHDRAW. -/
def causeWithdraw : Nat := 5
/-- CAUSE bit DISAGREE. -/
def causeDisagree : Nat := 6

/-- The logical cores of the regions of a mask, ascending. -/
def coresOf (regions : Nat) : List Nat :=
  (setBitsOf regions 48).flatMap (fun r => (List.range 8).map (fun k => 8 * r + k))

/-- The physical core that carries logical core `k` of region `r`; 15 for a hole (R456). -/
def State.physK (s : State) (r k : Nat) : Nat := s.sub .RGN_CORE_MAP_PHYS r (4 * k) 4

/-- The logical cores that run swatch `k`'s step. -/
def State.swCores (s : State) (k : Nat) : List Nat :=
  (coresOf (s.sw k).regions).filter (fun c => s.f .CORE_STATUS_SWATCH c = k)

/-- A core whose step is broken: BROKEN is set; a core with no matrix instruction in progress abandons its program
at once, another at the next K-tile boundary (R67). A fenced core, a hole and a core already done stay so. -/
def breakCore (s : State) (c : Nat) : State :=
  let s := s.raise .CORE_STATUS_BROKEN c
  let st := s.f .CORE_STATUS_STATE c
  if (st = 1 || st = 2) && ((s.core c).arr.face.isNone && (s.core c).arr.pipe.isEmpty) then
    let k := s.core c
    ((s.setF .CORE_STATUS_STATE c 6).setF .VEC_STATUS_BUSY c 0).setCore c
      { k with matQ := [], shQ := [], vecQ := [], wait := .none, loops := [], arr := {}, vec := {} }
  else s

/-- An event makes swatch `k`'s bit 0 for cause `b` (R197): the current step before its latch, which is then broken
(R199), and otherwise the next step (R198). -/
def State.failStep (s : State) (k b : Nat) : State :=
  let r := s.sw k
  if r.started && !r.latched then
    let s := s.setSw k { r with cause := putBit r.cause b true, bit0 := true, broken := true }
    (s.swCores k).foldl breakCore s
  else s.setSw k { r with nextCause := putBit r.nextCause b true, nextBit0 := true }

/-- The module is set to withdraw at the next step boundary with a CAUSE byte (R207, R502): every step not yet
latched has its bit 0 with cause WITHDRAW and W set (R197). (DESIGN CHOICE, log 102.) -/
def State.setWithdraw (s : State) (cause : Nat) : State :=
  let s := match s.withdraw with
    | none => { s with withdraw := some cause, timedOut := false, rejoin := 0 }
    | some _ => { s with timedOut := false, rejoin := 0 }
  s.startedSws.foldl (fun t k =>
    if (t.sw k).latched then t
    else (t.failStep k causeWithdraw).updSw k (fun r => { r with withdraws := true })) s

/-- It is set to withdraw, and to ask to join again: at once (1), or after a fitting run (2); not where it withdraws for another
cause besides (R211, R218, R219). -/
def State.withdrawAgain (s : State) (cause how : Nat) : State :=
  let first := s.withdraw.isNone || s.rejoin ≠ 0
  { s.setWithdraw cause with rejoin := if first then natMax how s.rejoin else 0 }

/-- A unit fault of a core, pocket or region router: every swatch of the owning partition (R197). -/
def State.regionFault (s : State) (r : Nat) : State :=
  match s.partOfRegion r with
  | none => s
  | some p =>
    ((s.startedSws.filter (fun k => s.partHasSwatch p k)).foldl (fun t k => t.failStep k causeUnit) s).interruptPart p 5

/-- A unit fault of a stack, base die, seam die, hub or flash controller: every swatch on the module (R197). -/
def State.moduleFault (s : State) : State :=
  (s.startedSws.foldl (fun t k => t.failStep k causeUnit) s).interruptAll 5

end Sys2Proof.Machine
end

