-- ==== Sys2Proof/Machine/Net.lean ====
section
/-! DEFINITION. Places, routes and flits (R305 to R324): where this module stands in its fleet, which port a flit leaves
on, and sending flits, messages, trailers and flit sequences. -/

namespace Sys2Proof.Machine

/-! Places (R318, R319). -/

/-- A size or coordinate byte of the pattern in force, `k` bytes into its fields; without a pattern `d`. -/
def State.patByte (s : State) (k d : Nat) : Nat :=
  match s.boot.pat with
  | some p => bitField p.body (8 * k) 8
  | none => d

/-- Board coordinate of dimension `d`. -/
def State.coord (s : State) (d : Nat) : Nat := s.patByte d 0
/-- Torus size of dimension `d`; an absent dimension has size 1. -/
def State.tsize (s : State) (d : Nat) : Nat := natMax (s.patByte (3 + d) 1) 1
/-- BOARDPOS as sampled. -/
def State.bpos (s : State) : Nat := s.f .HST_STRAPS_BOARDPOS 0

/-- The snake index of board (x, y, z) (R319). -/
def snakeIndex (sx sy x y z : Nat) : Nat :=
  let l := sy * z + (if z % 2 = 0 then y else sy - 1 - y)
  sx * l + (if l % 2 = 0 then x else sx - 1 - x)

/-- The coordinates of board `r`. -/
def snakeCoords (sx sy r : Nat) : List Nat :=
  let l := r / sx
  let x := if l % 2 = 0 then r % sx else sx - 1 - r % sx
  let z := l / sy
  [x, if z % 2 = 0 then l % sy else sy - 1 - l % sy, z]

/-- The place of the module at a board and BOARDPOS. -/
def State.placeAt (s : State) (c : List Nat) (q : Nat) : Nat :=
  8 * snakeIndex (s.tsize 0) (s.tsize 1) (c.getD 0 0) (c.getD 1 0) (c.getD 2 0) + q

/-- This module's board coordinates. -/
def State.board (s : State) : List Nat := [s.coord 0, s.coord 1, s.coord 2]

/-- This module's place (R319). -/
def State.place (s : State) : Nat := s.placeAt s.board s.bpos

/-- The board coordinates of a place. -/
def State.boardOf (s : State) (p : Nat) : List Nat := snakeCoords (s.tsize 0) (s.tsize 1) (p / 8)

/-- Dimensions of the fleet's torus: 0 for a board outside any fleet (R318). -/
def State.dims (s : State) : Nat :=
  if 2 ≤ s.tsize 2 then 3 else if 2 ≤ s.tsize 1 then 2 else if 2 ≤ s.tsize 0 then 1 else 0

/-- The dimension of port set `j` (R318). -/
def State.setDim (s : State) (j : Nat) : Nat :=
  if s.dims ≤ 1 then 0 else if s.dims = 2 then j % 2 else j

/-- The board one step along dimension `d`. -/
def State.nextBoard (s : State) (d : Nat) (plus : Bool) : List Nat :=
  s.board.zipIdx.map (fun p =>
    if p.2 = d then (if plus then p.1 + 1 else p.1 + s.tsize d - 1) % s.tsize d else p.1)

/-- Does port 7 to 15 lead in the + direction, and in which set does it lie (R318)? -/
def State.torusPort (s : State) (p : Nat) : Nat × Bool :=
  if p ≤ 12 then ((p - 7) / 2, (p - 7) % 2 = 0) else (p - 13, s.bpos % 2 = 0)

/-- What a port is cabled to: board, BOARDPOS and port of the peer (R317, R318); none where nothing is. -/
def State.cabled (s : State) (p : Nat) : Option (List Nat × Nat × Nat) :=
  let q := s.bpos
  if p ≤ 6 then some (s.board, (q + p + 1) % 8, 6 - p)
  else if s.dims = 0 then none
  else
    let t := s.torusPort p
    let b := s.nextBoard (s.setDim t.1) t.2
    if p ≤ 12 then some (b, q, if t.2 then p + 1 else p - 1)
    else some (b, if q % 2 = 0 then q + 1 else q - 1, p)

/-- The place at the other end of a port, as the wiring rules give it. -/
def State.peerAt (s : State) (p : Nat) : Option Nat := (s.cabled p).map (fun c => s.placeAt c.1 c.2.1)

/-- The mesh port to BOARDPOS `q` of this board (R317). -/
def State.meshPort (s : State) (q : Nat) : Nat := (q + 7 - s.bpos) % 8

/-- The port on which a flit for place `dest` leaves (R321); none where no up port leads there.
(DESIGN CHOICE, log 58, 88.) -/
def State.route (s : State) (dest : Nat) (shard : Option Nat) : Option Nat :=
  let here := s.board
  let there := s.boardOf dest
  if dest / 8 = s.place / 8 then
    let p := s.meshPort (dest % 8)
    if dest ≠ s.place && s.portUp p then some p else none
  else
    match (List.range 3).find? (fun d => here.getD d 0 ≠ there.getD d 0) with
    | none => none
    | some d =>
      let ahead := (there.getD d 0 + s.tsize d - here.getD d 0) % s.tsize d
      let plus := ahead ≤ s.tsize d - ahead
      let ups := (s.portsUp.filter (fun p => 7 ≤ p && p ≤ 12)).filter (fun p =>
        s.setDim (s.torusPort p).1 = d && (s.torusPort p).2 = plus)
      match (s.portsUp.filter (fun p => 13 ≤ p)).find? (fun p => s.peerAt p = some dest) with
      | some p => some p
      | none =>
        match ups with
        | [] => (((List.range 8).filter (fun q => q ≠ s.bpos)).map s.meshPort).find? s.portUp
        | p :: _ =>
          match shard with
          | none => some p
          | some k => some (ups.getD (k % ups.length) p)

/-- Does a hop out of port `p` cross the dateline (R321)? -/
def State.crosses (s : State) (p : Nat) : Bool :=
  if p ≤ 6 then false
  else
    let t := s.torusPort p
    let d := s.setDim t.1
    if t.2 then s.coord d + 1 = s.tsize d else s.coord d = 0

/-- The dateline set of a flit that leaves on port `out`, having come in on port `inn` with set `dl` (R312, R321). -/
def State.datelineOf (s : State) (inn : Option Nat) (out : Nat) (dl : Bool) : Bool :=
  if out ≤ 6 then false
  else
    let d := s.setDim (s.torusPort out).1
    let kept := match inn with
      | none => false
      | some p => 7 ≤ p && s.setDim (s.torusPort p).1 = d && dl
    kept || s.crosses out

/-! Flits (R308 to R312). -/

/-- TYPE of a header. -/
def hType (h : Nat) : Nat := bitField h 0 4
/-- CLASS. -/
def hClass (h : Nat) : Nat := bitField h 4 3
/-- DL. -/
def hDl (h : Nat) : Bool := bitAt h 7
/-- SEQ. -/
def hSeq (h : Nat) : Nat := bitField h 8 12
/-- ACK. -/
def hAck (h : Nat) : Nat := bitField h 20 12
/-- CR_CLASS and CR_DL as the number of a virtual channel. -/
def hCredit (h : Nat) : Nat := 2 * bitField h 32 3 + bitField h 35 1
/-- CR_COUNT. -/
def hCount (h : Nat) : Nat := bitField h 36 8
/-- DEST. -/
def hDest (h : Nat) : Nat := bitField h 44 13
/-- STREAM. -/
def hStream (h : Nat) : Nat := bitField h 57 7

/-- The part of a header that the sender of a flit chooses. -/
def flitHead (type cls : Nat) (dl : Bool) (dest stream : Nat) : Nat :=
  type + 2 ^ 4 * cls + 2 ^ 7 * flagBit dl + 2 ^ 44 * dest + 2 ^ 57 * stream

/-- The virtual channel of a flit (R312). -/
def vcOf (h : Nat) : Nat := 2 * hClass h + flagBit (hDl h)

/-- A seam port beyond its registers. -/
def State.port (s : State) (p : Nat) : Port := FMap.get {} s.ports p
/-- Replaces it. -/
def State.setPort (s : State) (p : Nat) (v : Port) : State := { s with ports := FMap.set {} s.ports p v }

/-- A header with its ACK and the credits returned with it; the credits of one virtual channel go with each flit. -/
def ackHead (v : Port) (h : Nat) : Nat × Port :=
  let h := setBits h 20 12 (v.rx + 4095)
  match v.give with
  | [] => (h, v)
  | (c, n) :: rest =>
    let k := natMin n 255
    let h := setBits (setBits (setBits h 32 3 (c / 2)) 35 1 (c % 2)) 36 8 k
    (h, { v with give := if k = n then rest else (c, n - k) :: rest })

/-- A unit of 2^20 flits is counted each time one is full (R344). -/
def State.countTx (s : State) (p : Nat) : State :=
  let v := s.port p
  if v.txPart + 1 = 2 ^ 20 then (s.setPort p { v with txPart := 0 }).tally .SEAM_TX_MFLITS p 1
  else s.setPort p { v with txPart := v.txPart + 1 }

/-- A DATA or CTRL flit with credit goes out: it takes the next SEQ and stays in the replay buffer (R310, R312). -/
def State.launch (s : State) (p h payload : Nat) : State :=
  let v := s.port p
  let a := ackHead v (setBits h 8 12 v.tx)
  let c := vcOf h
  let s := s.setPort p { a.2 with
    tx := (v.tx + 1) % 4096
    credits := FMap.upd 0 v.credits c (fun n => n - 1)
    unacked := v.unacked ++
      [({ seq := v.tx, header := a.1, payload := payload, replays := 0, sentAt := s.now } : Flit)] }
  (s.countTx p).emit (.flit p a.1 payload)

/-- Flits that a full replay buffer holds back (R305). -/
def replayRoom : Nat := 2048

/-- The waiting flit that goes next: the first, in order of class and then age, whose virtual channel has credit.
(DEDUCED, log 59.) -/
def State.sendable (s : State) (p : Nat) : Option (Nat × Nat) :=
  let v := s.port p
  if !s.portUp p || replayRoom ≤ v.unacked.length then none
  else
    (List.range 6).findSome? (fun c => v.waiting.find? (fun w =>
      hClass w.1 = c && FMap.get 0 v.credits (vcOf w.1) ≠ 0))

/-- Sends what waits and has credit, at most `n` flits. -/
def State.pump (s : State) (p : Nat) : Nat → State
  | 0 => s
  | n + 1 =>
    match s.sendable p with
    | none => s
    | some w => ((s.setPort p { s.port p with waiting := (s.port p).waiting.erase w }).launch p w.1 w.2).pump p n

/-- A flit joins the port's queue and goes out when it can. -/
def State.sendFlit (s : State) (p h payload : Nat) : State :=
  (s.setPort p { s.port p with waiting := (s.port p).waiting ++ [(h, payload)] }).pump p 1

/-- A flit without SEQ: IDLE or NAK; it carries ACK and credits (R310, R311). -/
def State.sendBare (s : State) (p h : Nat) : State :=
  let a := ackHead (s.port p) h
  (s.setPort p a.2).emit (.flit p a.1 0)

/-- Cuts bytes into payloads of 228 (R308). -/
def payloads : Nat → List Byte → List Nat
  | 0, _ => []
  | n + 1, bs => leNat (bs.take 228) :: payloads n (bs.drop 228)

/-- The flits of some bytes out of one port. -/
def State.sendBytes (s : State) (p type cls : Nat) (dl : Bool) (dest stream : Nat) (bs : List Byte) : State :=
  (payloads (natMax (ceilDiv bs.length 228) 1) bs).foldl
    (fun t x => t.sendFlit p (flitHead type cls dl dest stream) x) s

/-- The bytes of a message: its code, the domain ID and its fields, each a number and its size in bytes (R324).
(DESIGN CHOICE, log 56.) -/
def msgBytes (code dom : Nat) (fields : List (Nat × Nat)) : List Byte :=
  leBytes code 1 ++ leBytes dom 4 ++ fields.flatMap (fun f => leBytes f.1 f.2)

/-- Sends bytes to a place in CTRL flits of class C0; with no up route nothing leaves. -/
def State.sendCtrl (s : State) (dest : Nat) (bs : List Byte) : State :=
  match s.route dest none with
  | none => s
  | some p => s.sendBytes p 2 0 (s.datelineOf none p false) dest 0 bs

/-- The ID of domain `d`. -/
def State.domId (s : State) (d : Nat) : Nat := s.f .COLL_DOM_CFG_ID d

/-- Sends a control message of domain `d` to a place (R324). -/
def State.message (s : State) (d dest code : Nat) (fields : List (Nat × Nat)) : State :=
  (s.emit (.message dest code (fields.map Prod.fst))).sendCtrl dest (msgBytes code (s.domId d) fields)

/-- A member list as a bitmap of 1,024 bytes (R324). -/
def listField (l : List Nat) : Nat × Nat := (maskOf l, 1024)

/-- Sends a trailer to a place in a TRAILER message (R200, R331). -/
def State.sendTrailer (s : State) (d dest raw : Nat) : State :=
  (s.emit (.trailer dest raw)).sendCtrl dest (msgBytes 8 (s.domId d) [(raw, 64)])

/-- The 32 B header of a flit sequence: domain ID, EPOCH, COLL_SEQ, phase, shard, first block and length (R331).
(DESIGN CHOICE, log 55.) -/
def seqHeader (dom epoch seq phase shard first len : Nat) : List Byte :=
  leBytes dom 4 ++ leBytes epoch 4 ++ leBytes seq 4 ++ leBytes phase 1 ++ leBytes shard 3 ++ leBytes first 8
    ++ leBytes len 8

/-- Sends the data of a flit sequence in DATA flits of class C1 (R331, R375). The STREAM is the sequence's shard and
phase modulo 128. -/
def State.sendData (s : State) (d dest seq phase shard first : Nat) (bs : List Byte) : State :=
  let s := s.emit (.sequence dest d seq phase shard first (bs.map BitVec.toNat))
  match s.route dest (some shard) with
  | none => s
  | some p =>
    s.sendBytes p 1 1 (s.datelineOf none p false) dest ((4 * shard + phase) % 128)
      (seqHeader (s.domId d) (s.f .COLL_DOM_STATE_EPOCH d) seq phase shard first bs.length ++ bs)

end Sys2Proof.Machine
end

