-- ==== Sys2Proof/Config.lean ====
section
/-! DEFINITION. The free values: what the manual leaves to the implementation or does not state, as constants with no
body, so that nothing can be proved about which value they take. -/

namespace Sys2Proof.Config

/-- The slot at which a controller's flash translation layer begins to look for a free one (R282). -/
opaque flashOffer (controller draw : Nat) : Nat

/-- The entry a full directory cache set or translation buffer gives up; the manual names no policy (R265, R270). -/
opaque victim (draw : Nat) : Nat

/-- Which of the results that meet the bounds of R136 a function of the vector path gives for an operand: the bounds
are the promise, the bits are the generation's (R136, R120). Functions: 0 exp2, 1 log2, 2 rsqrt, 3 expw, 4 lnw. -/
opaque withinBound (function operand : Nat) : Nat

/-- SHAKE256 as a function of the message bytes and the number of output bytes; its standard is outside the spec. -/
opaque shake256 (message : List Byte) (len : Nat) : List Byte

/-- Ed448 as a signing function of a private key and a message, its public key of a private key, and its check of a public
key, a message and a signature; the standard is outside the spec (R477). (DESIGN CHOICE, log 54.) -/
opaque ed448Sign (secret message : List Byte) : List Byte
/-- The public key of a private key. -/
opaque ed448Public (secret : List Byte) : List Byte
/-- Does a signature verify? -/
opaque ed448Verify (key message signature : List Byte) : Bool

/-- The 32 B seed fused at manufacture, from which the device key is derived (R477). -/
opaque deviceSeed : List Byte
/-- The public firmware keys F0 and F1, and the factory key (R477). -/
opaque firmwareKey (n : Nat) : List Byte
/-- The factory key. -/
opaque factoryKey : List Byte

/-- The part code of the SMBus identity block, two bytes, to which the manual gives no value (R425). -/
opaque partCode : Nat

/-- The scale code of a block that a copy between different block axes gathers from blocks of different scales: the manual
states none (R75, R77); a function of what R119 names, the format and the source scales in order. -/
opaque mixedScale (format : Nat) (scales : List Nat) : Nat

/-- A number of `w` bits that nothing constrains, drawn afresh for each counter value. -/
opaque freeValue (w : Nat) (draw : Nat) : BitVec w

end Sys2Proof.Config
end

