-- ==== Sys2Proof/Machine/Weave.lean ====
section
/-! DEFINITION. The weave and the class arbiters (R22 to R26, R30, R35, R374 to R378): the mesh of 10 by 10 stops, the dies
on it, the route of a packet, the queues at the weave links, at the 12 ports of each region router and at the seam ports,
and the grant of one unit. -/

namespace Sys2Proof.Machine

/-! The mesh (R23, R24). A stop is numbered 10 × row + column. -/

/-- What a weave stop hosts. -/
inductive Die where
  | none
  | region (r : Nat)
  | stack (st : Nat)
  | seamDie (d : Nat)
  | hub (h : Nat)
  | flash (n : Nat)
  deriving DecidableEq, Repr

/-- The die on the stop at `row`, `col` (R23), under its physical number (R24). -/
def dieAt (row col : Nat) : Die :=
  if row = 0 then
    if col = 1 then .hub 0 else if col = 4 then .hub 1 else if col = 7 then .flash 0 else .none
  else if row = 9 then
    if col = 1 then .hub 2 else if col = 4 then .hub 3 else if col = 7 then .flash 1 else .none
  else if col = 9 then .seamDie (row - 1)
  else if col % 3 = 1 then .stack (3 * (row - 1) + col / 3)
  else .region (6 * (row - 1) + (col - (col + 2) / 3))

/-- The die on a stop. -/
def stopDie (x : Nat) : Die := dieAt (x / 10) (x % 10)

/-- The stop of region `r` (R24). -/
def regionStop (r : Nat) : Nat := 10 * (r / 6 + 1) + [0, 2, 3, 5, 6, 8].getD (r % 6) 0
/-- The stop of stack `st`. -/
def stackStop (st : Nat) : Nat := 10 * (st / 3 + 1) + (3 * (st % 3) + 1)
/-- The stop of seam die `d`. -/
def seamStop (d : Nat) : Nat := 10 * (d + 1) + 9
/-- The seam die of a physical port: die `d` has the ports 2d and 2d + 1 (R24). -/
def seamDieOf (port : Nat) : Nat := port / 2
/-- The stop of hub `h`. -/
def hubStop (h : Nat) : Nat := [1, 4, 91, 94].getD h 0
/-- The stop of flash controller `n`. -/
def flashStop (n : Nat) : Nat := if n = 0 then 7 else 97

/-- The stack near to a region, whose near regions are 2s and 2s + 1 (R24). -/
def nearStack (r : Nat) : Nat := r / 2

/-- The cutters of a hub, of the 16 of the module (R22). -/
def cuttersOf (h : Nat) : List Nat := (List.range 4).map (fun i => 4 * h + i)

/-! Routes (R25). -/

/-- The direction of a link that leaves a stop. -/
inductive Dir where
  | west | east | north | south
  deriving DecidableEq, Repr

/-- The code of a direction in a link's number. -/
def Dir.code : Dir → Nat
  | .west => 0 | .east => 1 | .north => 2 | .south => 3

/-- The link that a packet at stop `x` takes to stop `y`: along its weft row to the column, then along that warp column to
the row; none once it is there. -/
def nextLink (x y : Nat) : Option Dir :=
  if y % 10 < x % 10 then some .west
  else if x % 10 < y % 10 then some .east
  else if y / 10 < x / 10 then some .north
  else if x / 10 < y / 10 then some .south
  else none

/-- The stop at the other end of a link. -/
def linkEnd (x : Nat) : Dir → Nat
  | .west => x - 1 | .east => x + 1 | .north => x - 10 | .south => x + 10

/-- The links of a route of at most `n` links. -/
def route : Nat → Nat → Nat → List (Nat × Dir)
  | 0, _, _ => []
  | n + 1, x, y =>
    match nextLink x y with
    | none => []
    | some d => (x, d) :: route n (linkEnd x d) y

/-- The number of links between two stops. -/
def hops (x y : Nat) : Nat := (route 18 x y).length

/-! The arbiters (R376): numbers 0 to 399 are weave links, 4 × stop + direction; 400 to 975 the router ports, 400 +
12 × region + port; 976 to 991 the seam ports. -/

/-- Does a stop have a link in a direction? -/
def linkExists (x d : Nat) : Bool :=
  if d = 0 then x % 10 ≠ 0 else if d = 1 then x % 10 ≠ 9 else if d = 2 then 10 ≤ x else x < 90

/-- Is there an arbiter with this number? -/
def arbOk (i : Nat) : Bool := i < 992 && (400 ≤ i || linkExists (i / 4) (i % 4))

/-- The arbiter of a weave link. -/
def linkArb (x : Nat) (d : Dir) : Nat := 4 * x + d.code
/-- Ports of a region router (R30): 0 to 8 the physical cores, 9 the pocket, 10 the region controller, 11 the weave stop. -/
def routerArb (r port : Nat) : Nat := 400 + 12 * r + port
/-- The arbiter of a physical seam port. -/
def seamArb (port : Nat) : Nat := 976 + port

/-- The class that grant `g` is offered to first. -/
def floorClass (g : Nat) : List Nat :=
  if g % 8 = 7 then [2] else if g % 16 = 3 then [3] else if g % 32 = 5 then [4] else if g % 64 = 1 then [5] else []

/-- A unit at an arbiter: class, whether it may be granted now, and whether it has waited through a lower class. -/
structure ArbUnit where
  cls     : Nat
  ready   : Bool
  through : Bool
  deriving DecidableEq, Repr

/-- The oldest ready unit of a class, by its place in the list. -/
def oldestOf (us : List ArbUnit) (c : Nat) : Option Nat :=
  ((us.zipIdx).find? (fun p => p.1.ready && p.1.cls = c)).map Prod.snd

/-- The choice by priority and age. -/
def byPriority (us : List ArbUnit) : Option Nat := (List.range 6).findSome? (oldestOf us)

/-- One grant among units listed oldest first: the place of the unit granted, whether it took a floor offer, and the offers
that pass on to the next grant. -/
def arbPick (a : Arb) (us : List ArbUnit) : Option Nat × Bool × List Nat :=
  let offers := sortAsc (a.owed ++ floorClass a.grant)
  if us.any (fun u => u.cls < 2 && u.through) then (byPriority us, false, offers)
  else
    match offers.findSome? (oldestOf us) with
    | some i => (some i, true, [])
    | none => (byPriority us, false, [])

/-! Packets. -/

/-- An arbiter of the weave, a router or a seam port. -/
def State.arb (s : State) (i : Nat) : Arb := FMap.get {} s.arbs i

/-- A unit joins the queue of an arbiter, behind those that are there. -/
def State.enqueue (s : State) (i : Nat) (p : Pkt) : State :=
  { s with arbs := FMap.set {} s.arbs i { s.arb i with queue := (s.arb i).queue ++ [{ p with through := false }] } }

/-- The arbiter at which a unit that stands at stop `x` waits next: that of the next link of its route; at the stop of its
region the router port it asks for, at the stop of its seam die the seam port; none where its die takes it. -/
def nextArb (x : Nat) (p : Pkt) : Option Nat :=
  match nextLink x p.stop with
  | some d => some (linkArb x d)
  | none =>
    match stopDie x with
    | .region r => if p.port < 11 then some (routerArb r p.port) else none
    | .seamDie d => if p.port < 2 then some (seamArb (2 * d + p.port)) else none
    | _ => none

/-- A unit arrives at a stop of the weave. -/
def State.arriveAt (s : State) (x : Nat) (p : Pkt) : State :=
  match nextArb x p with
  | some i => s.enqueue i p
  | none => s

/-- Units that arrive, four numbers for each: class, stop and port they are bound for, tag. -/
def readUnits : List Nat → List Pkt
  | c :: stop :: port :: tag :: rest =>
    let more := readUnits rest
    if c < 6 && stop < 100 && port < 12 then { cls := c, stop := stop, port := port, tag := tag : Pkt } :: more else more
  | _ => []

/-- A unit comes to an arbiter: at a weave link it enters the weave there, and waits at the link of its route. -/
def State.comeTo (s : State) (i : Nat) (p : Pkt) : State := if i < 400 then s.arriveAt (i / 4) p else s.enqueue i p

/-- Where a unit goes once arbiter `i` has granted it: over the link to the next stop, through the weave-stop port into the
weave, or out. -/
def State.passArb (s : State) (i : Nat) (p : Pkt) : State :=
  if i < 400 then
    match nextLink (i / 4) p.stop with
    | some d => s.arriveAt (linkEnd (i / 4) d) p
    | none => s
  else if i < 976 && (i - 400) % 12 = 11 then s.arriveAt (regionStop ((i - 400) / 12)) p
  else s

/-- ARBITER_GRANT (R25, R30, R35, R376): the units that arrive join their queues, and the arbiter grants one unit of its
queue, which is returned as class and tag. (DESIGN CHOICE, log 161.) -/
def arbiterGrant (i : Nat) (arrivals : List Nat) (s : State) : State :=
  let s := (readUnits arrivals).foldl (fun t p => t.comeTo i p) s
  let a := s.arb i
  let r := arbPick a (a.queue.map (fun p => ({ cls := p.cls, ready := true, through := p.through } : ArbUnit)))
  match r.1.bind (fun j => (a.queue[j]?).map (fun p => (j, p))) with
  | none => s
  | some (j, p) =>
    let rest := (a.queue.eraseIdx j).map (fun x => { x with through := x.through || (x.cls < 2 && 2 ≤ p.cls) })
    let s := { s with arbs := FMap.set {} s.arbs i { grant := a.grant + 1, owed := r.2.2, queue := rest } }
    (s.passArb i p).emit (.data (p.cls + 256 * p.tag))

/-- ARBITER_GRANT. -/
def execArbiterGrant (arb : Nat) (arrivals : List Nat) (s : State) : Host.Outcome State Fault Refusal :=
  act (arbOk arb) (whenUp (arbiterGrant arb arrivals)) s

end Sys2Proof.Machine
end

