-- ==== Sys2Proof/Machine/TierOps.lean ====
section
/-! DEFINITION. The tier directory and its operations (R262 to R299): locations, quotas, placement, denials,
generations, the bolt state table and the start of moves. -/

namespace Sys2Proof.Machine

/-- The directory entry of bolt `b`. -/
def State.dirE (s : State) (b : Nat) : DirEntry := FMap.get {} s.mem.dir b
/-- Writes the entry of bolt `b`. -/
def State.setDir (s : State) (b : Nat) (e : DirEntry) : State :=
  s.setMem { s.mem with dir := FMap.set {} s.mem.dir b e }
/-- The hub that owns bolt `b` (R265). -/
def hubOf (b : Nat) : Nat := b % 4
/-- The move record of bolt `b`. -/
def State.moveOf (s : State) (b : Nat) : Option MoveRec := FMap.get none s.mem.moves b
/-- Writes the move record of bolt `b`. -/
def State.setMove (s : State) (b : Nat) (m : Option MoveRec) : State :=
  s.setMem { s.mem with moves := FMap.set none s.mem.moves b m }

/-- The 128 bits of an entry (R268). -/
def DirEntry.bits (e : DirEntry) : Nat :=
  1 + 2 ^ 2 * (e.state % 4) + 2 ^ 4 * (e.tier % 4) + 2 ^ 6 * (e.dtier % 4) + 2 ^ 8 * flagBit e.flipped
    + 2 ^ 9 * flagBit e.cancelled + 2 ^ 10 * (e.share % 4) + 2 ^ 12 * (e.ilv % 4) + 2 ^ 14 * flagBit e.pendEvict
    + 2 ^ 15 * flagBit e.pendFree + 2 ^ 16 * (e.home % 2 ^ 32) + 2 ^ 48 * (e.dest % 2 ^ 32)
    + 2 ^ 80 * (e.generation % 2 ^ 16) + 2 ^ 96 * (e.owner % 2 ^ 16) + 2 ^ 112 * (e.pins % 256)
    + 2 ^ 120 * (e.mrec % 256)

/-- Reads an entry back from its 128 bits (R268). -/
def DirEntry.ofBits (v : Nat) : DirEntry where
  state := bitField v 2 2
  tier := bitField v 4 2
  dtier := bitField v 6 2
  flipped := bitAt v 8
  cancelled := bitAt v 9
  share := bitField v 10 2
  ilv := bitField v 12 2
  pendEvict := bitAt v 14
  pendFree := bitAt v 15
  home := bitField v 16 32
  dest := bitField v 48 32
  generation := bitField v 80 16
  owner := bitField v 96 16
  pins := bitField v 112 8
  mrec := bitField v 120 8

/-- Do the fields of an entry fit their widths? -/
def DirEntry.fits (e : DirEntry) : Bool :=
  e.state < 4 && e.tier < 4 && e.dtier < 4 && e.share < 4 && e.ilv < 4 && e.home < 2 ^ 32 && e.dest < 2 ^ 32
    && e.generation < 2 ^ 16 && e.owner < 2 ^ 16 && e.pins < 256 && e.mrec < 256

/-! Locations (R269). -/

/-- A stack's location code for a slot. -/
def t1Loc (stack slot : Nat) : Nat := stack + 32 * slot
/-- The stack of a T1 location. -/
def t1Stack (loc : Nat) : Nat := loc % 32
/-- The slot of a T1 location. -/
def t1Slot (loc : Nat) : Nat := loc / 32 % 2 ^ 21
/-- A T0 location code for a window position. -/
def t0Loc (region pos : Nat) : Nat := region + 64 * pos
/-- The region of a T0 location. -/
def t0Region (loc : Nat) : Nat := loc % 64
/-- The window position of a T0 location. -/
def t0Pos (loc : Nat) : Nat := loc / 64 % 1024

/-- The way register in force of way `w` of region `r`: KIND and SWATCH (R247). -/
def State.way (s : State) (r w : Nat) : Nat × Nat :=
  let v := FMap.get 0 s.mem.ways (16 * r + w)
  (v % 4, v / 4)

/-- The ways of a region with a KIND and an owner swatch, ascending. -/
def State.waysOf (s : State) (r kind k : Nat) : List Nat :=
  (List.range 16).filter (fun w => (s.way r w).1 = kind && ((s.way r w).2 = k || kind = 1))

/-- The size of a swatch's scratch window in a region (R248). -/
def State.window (s : State) (r k : Nat) : Nat := 4194304 * (s.waysOf r 3 k).length

/-- The `pocket` address of byte `o` of a swatch's scratch window (R248). -/
def State.windowAddr (s : State) (r k o : Nat) : Nat :=
  67108864 * r + 4194304 * ((s.waysOf r 3 k).getD (o / 4194304) 0) + o % 4194304

/-- Is the way of byte `o` of a swatch's scratch window being zeroed (R247)? -/
def State.windowZeroing (s : State) (r k o : Nat) : Bool :=
  FMap.get 0 s.mem.zeroing (16 * r + (s.waysOf r 3 k).getD (o / 4194304) 0) ≠ 0

/-- Is a bolt at home in a way that is being zeroed (R247)? -/
def State.homeZeroing (s : State) (e : DirEntry) : Bool :=
  e.tier = 0 && s.windowZeroing (t0Region e.home) e.owner (65536 * t0Pos e.home)

/-- A byte address within one of the stores. -/
inductive Place where
  | hbm (a : Nat)
  | pocket (a : Nat)
  | flash (a : Nat)
  | host (a : Nat)
  deriving DecidableEq, Repr

/-- The place of byte `o` of a location of tier `t`; T0 lies in the window of the owner swatch. -/
def State.placeOf (s : State) (t loc owner o : Nat) : Place :=
  if t = 0 then .pocket (s.windowAddr (t0Region loc) owner (65536 * t0Pos loc + o))
  else if t = 1 then .hbm (stackBytes * t1Stack loc + 65536 * t1Slot loc + o)
  else if t = 2 then .flash (65536 * loc + o)
  else .host (65536 * s.f .TIER_T3_BASE_BASE 0 + 65536 * loc + o)

/-- Reads bytes at a place. -/
def Stores.read (t : Stores) (p : Place) (n : Nat) : List Byte :=
  match p with
  | .hbm a => Memory.bytes 0 t.hbm a n
  | .pocket a => Memory.bytes 0 t.pocket a n
  | .flash a => Memory.bytes 0 t.flash a n
  | .host a => Memory.bytes 0 t.host a n

/-- Writes bytes at a place. -/
def Stores.write (t : Stores) (p : Place) (bs : List Byte) : Stores :=
  match p with
  | .hbm a => { t with hbm := Memory.write 0 t.hbm a bs }
  | .pocket a => { t with pocket := Memory.write 0 t.pocket a bs }
  | .flash a => { t with flash := Memory.write 0 t.flash a bs }
  | .host a => { t with host := Memory.write 0 t.host a bs }

/-- The cells of a stretch at a place, moved to address 0. -/
def Stores.cut (t : Stores) (p : Place) (len : Nat) : Memory :=
  match p with
  | .hbm a => Memory.slice t.hbm a len 0
  | .pocket a => Memory.slice t.pocket a len 0
  | .flash a => Memory.slice t.flash a len 0
  | .host a => Memory.slice t.host a len 0

/-- Zeroes `len` bytes at a place. -/
def Stores.zero (t : Stores) (p : Place) (len : Nat) : Stores :=
  match p with
  | .hbm a => { t with hbm := FMap.clearRange t.hbm a (a + len) }
  | .pocket a => { t with pocket := FMap.clearRange t.pocket a (a + len) }
  | .flash a => { t with flash := FMap.clearRange t.flash a (a + len) }
  | .host a => { t with host := FMap.clearRange t.host a (a + len) }

/-- Lays cells that start at address 0 over a stretch at a place. -/
def Stores.paste (t : Stores) (p : Place) (len : Nat) (cs : Memory) : Stores :=
  match p with
  | .hbm a => { t with hbm := Memory.overlay 0 (FMap.clearRange t.hbm a (a + len)) (Memory.slice cs 0 len a) }
  | .pocket a => { t with pocket := Memory.overlay 0 (FMap.clearRange t.pocket a (a + len)) (Memory.slice cs 0 len a) }
  | .flash a => { t with flash := Memory.overlay 0 (FMap.clearRange t.flash a (a + len)) (Memory.slice cs 0 len a) }
  | .host a => { t with host := Memory.overlay 0 (FMap.clearRange t.host a (a + len)) (Memory.slice cs 0 len a) }

/-- Copies `len` bytes from place to place. -/
def Stores.move (t : Stores) (src dst : Place) (len : Nat) : Stores := t.paste dst len (t.cut src len)

/-! Usage, quotas and free locations (R280 to R282). -/

/-- The locations that an entry holds in tier `t`: its home, and the destination or source of a move. -/
def DirEntry.locs (e : DirEntry) (t : Nat) : List Nat :=
  (if e.state ≠ 0 && e.tier = t then [e.home] else []) ++ (if 2 ≤ e.state && e.dtier = t then [e.dest] else [])

/-- The locations that entries hold in tier `t`. -/
def State.usedLocs (s : State) (t : Nat) : List Nat := s.mem.dir.flatMap (fun p => p.2.locs t)
/-- Those of the bolts of swatch `k`: T0 positions are counted in the window of each swatch. -/
def State.usedBy (s : State) (t k : Nat) : List Nat :=
  (s.mem.dir.filter (fun p => p.2.owner = k)).flatMap (fun p => p.2.locs t)

/-- The usage of a swatch in tier `t`: a bolt in a move counts twice (R280). -/
def State.usage (s : State) (k t : Nat) : Nat :=
  s.mem.dir.foldl (fun n p =>
    let e := p.2
    if e.owner ≠ k then n
    else n + (if e.state ≠ 0 && e.tier = t then 1 else 0) + (if 2 ≤ e.state && e.dtier = t then 1 else 0)) 0

/-- The quota of a swatch in tier `t` (R350). -/
def State.quota (s : State) (k t : Nat) : Nat := s.desc k (192 + 32 * t) 32

/-- How many reserved bolts lie in a stack (R266). -/
def rsvCount (set : List Nat) (st : Nat) : Nat :=
  match set.findIdx? (fun x => x = st) with
  | none => 0
  | some i => (82176 + set.length - 1 - i) / natMax set.length 1

/-- A stack's base die state beyond its registers. -/
def State.stack (s : State) (st : Nat) : Stack := FMap.get {} s.mem.stackDies st
/-- Writes it. -/
def State.setStack (s : State) (st : Nat) (v : Stack) : State :=
  s.setMem { s.mem with stackDies := FMap.set {} s.mem.stackDies st v }
/-- Is a stack fenced or at the critical level (R238, R254, R282)? -/
def State.stackFenced (s : State) (st : Nat) : Bool :=
  3 ≤ s.f .BASE_STATUS_STATE st || s.f .BASE_STATUS_LEVEL st = 3

/-- The lowest free slot of a stack (R282). -/
def State.freeSlot (s : State) (st : Nat) : Option Nat :=
  let used := ((s.usedLocs 1).filter (fun l => t1Stack l = st)).map t1Slot ++ (s.stack st).retired
  let j := firstFree used
  if j < 1572864 - rsvCount s.mem.rsvSet st then some j else none

/-- The near stacks of a mask of regions, ascending (R234). -/
def nearStacks (regions : Nat) : List Nat := sortAsc ((setBitsOf regions 48).map nearStack)

/-- The stacks tried for bolt `b`, in order (R234): the chosen one, then the next of the set, wrapping round. -/
def stackOrder (set : List Nat) (b : Nat) : List Nat :=
  let n := natMax set.length 1
  set.drop (b % n) ++ set.take (b % n)

/-- The stack set of an interleave code for a swatch; `near` is the stack that ONE names. -/
def State.stackSet (s : State) (k ilv near : Nat) : List Nat :=
  if ilv = 0 then [near]
  else if ilv = 1 then nearStacks (s.desc k 64 48)
  else List.range 24

/-- The stack that ONE names by the descriptor, or the near stack of the allocating region (R234, R350).
(DESIGN CHOICE, log 10.) -/
def State.oneStack (s : State) (k region : Nat) : Nat :=
  let v := s.desc k 15 5
  if v ≤ 23 then v else region / 2

/-- The stack of bolt `b` with ILV = ONE at home in T1: the one its allocation named, else the default. -/
def State.nearOf (s : State) (b k region : Nat) : Nat :=
  let n := FMap.get 0 s.mem.named b
  if n = 0 then s.oneStack k region else n - 1

/-- A flash controller beyond its registers. -/
def State.flc (s : State) (c : Nat) : Flash := FMap.get {} s.mem.flash c
/-- Writes it. -/
def State.setFlc (s : State) (c : Nat) (v : Flash) : State :=
  s.setMem { s.mem with flash := FMap.set {} s.mem.flash c v }

/-- The slot that controller `c` offers: its free slots are tried from the place its translation layer names.
(DESIGN CHOICE, log 5.) -/
def State.flashSlot (s : State) (c : Nat) : Option Nat :=
  let used := s.usedLocs 2 ++ (s.flc c).withdrawn
  let first := Config.flashOffer c s.mem.tick % 25165824
  if (s.flc c).fenced || s.f .FLC_STATUS_STATE c = 2 then none
  else ((List.range (used.length + 1)).map (fun i => 2 * ((first + i) % 25165824) + c)).find?
    (fun l => !used.contains l)

/-- The free location of tier `t` that the placement rules give bolt `b` of swatch `k` (R282). `place` is the region
for T0; `near` the stack that ONE names. -/
def State.choose (s : State) (b t k ilv place near : Nat) : Option Nat :=
  if t = 0 then
    let n := s.window place k / 65536
    let used := ((s.usedBy 0 k).filter (fun l => t0Region l = place)).map t0Pos
    (lastFree used n).map (t0Loc place)
  else if t = 1 then
    ((stackOrder (s.stackSet k ilv near) b).filter (fun st => !s.stackFenced st)).findSome?
      (fun st => (s.freeSlot st).map (t1Loc st))
  else if t = 2 then
    match s.flashSlot (b % 2) with
    | some l => some l
    | none => s.flashSlot (1 - b % 2)
  else
    let j := firstFree (s.usedLocs 3)
    if j < s.f .TIER_T3_SIZE_BOLTS 0 then some j else none

/-- The region from which placement takes ONE's default stack: the lowest region of the swatch. -/
def State.firstRegion (s : State) (k : Nat) : Nat := ((setBitsOf (s.desc k 64 48) 48).head?).getD 0

/-! Generations and notices (R270, R295). -/

/-- At least 16 µs since bolt `b`'s previous advance. -/
def State.spaced (s : State) (b : Nat) : Bool :=
  let t := FMap.get 0 s.mem.advanced b
  t = 0 || t + usec 16 ≤ s.now + 1

/-- The directory entry's generation advances, with a notice to every holder. -/
def State.advance (s : State) (b : Nat) (freed : Bool) : State :=
  let e := s.dirE b
  let g := (e.generation + 1) % 65536
  let s := s.setDir b { e with generation := g }
  let s := s.setMem { s.mem with advanced := FMap.set 0 s.mem.advanced b (s.now + 1) }
  (s.tally .DIR_FLIPS (hubOf b) 1).emit (.notice b g freed)

/-! Denials (R271). -/

/-- Does SHARE let swatch `k` read or write a bolt (R268)? -/
def State.shareAllows (s : State) (e : DirEntry) (k : Nat) (write : Bool) : Bool :=
  e.owner = k
    || (e.share = 1 && s.desc k 3 3 = s.desc e.owner 3 3)
    || (e.share = 2 && (s.desc k 3 3 = s.desc e.owner 3 3 || !write))

/-- How an access to bolt `b` is served (R271, R277). -/
inductive Served where
  | denied
  | waits (demand : Bool)
  | at (tier loc owner : Nat)
  deriving DecidableEq, Repr

/-- R277, for a requester to whom SHARE allows the access (`allow`). -/
def State.serve (s : State) (b : Nat) (allow : DirEntry → Bool) : Served :=
  let e := s.dirE b
  if e.state = 0 || !allow e then .denied
  else
    let held : Bool := match s.moveOf b with
      | some m => decide (m.phase = .hold)
      | none => false
    if held || s.homeZeroing e then .waits false
    else if e.tier ≤ 1 then .at e.tier e.home e.owner
    else .waits (e.state = 1 || e.flipped)

/-- A denied access: counted, and the requesting swatch's step is broken (R271). -/
def State.deny (s : State) (b k : Nat) : State := (s.tally .DIR_DENIED (hubOf b) 1).failStep k causeBroken

/-! Freeing locations (R273). -/

/-- The base cache loses the lines of a slot; dirty lines are written back first, the data being held once (R246). -/
def State.dropCacheSlot (s : State) (st slot : Nat) : State :=
  s.setMem { s.mem with cache := s.mem.cache.filter (fun p =>
    p.1 / 131072 ≠ st || (match p.2 with
      | some l => decide (l.slot ≠ slot)
      | none => true)) }

/-- Every pocket loses its lines of a bolt's address range, which has been freed (R249). -/
def State.dropPocketBolt (s : State) (b : Nat) : State :=
  s.setMem { s.mem with lines := s.mem.lines.filter (fun p =>
    match p.2 with
    | some l => l.addr / 65536 ≠ b
    | none => false) }

/-- A location is freed (R273): the pocket lines of the bolt at home there, tagged by device address, outlive a move (R249). -/
def State.freeLoc (s : State) (t loc : Nat) : State :=
  if t = 1 then s.dropCacheSlot (t1Stack loc) (t1Slot loc)
  else if t = 2 then
    let c := loc % 2
    let s := s.setFlc c { s.flc c with buffer := (s.flc c).buffer.filter (fun l => l ≠ loc) }
    s.setStores (s.mem.st.zero (.flash (65536 * loc)) 65536)
  else s

/-- TIER_FREE follows the free T1 and flash slots (R301). -/
def State.countFree (s : State) : State :=
  let t1 := (List.range 24).foldl (fun n st =>
    if s.stackFenced st then n
    else n + 1572864 - rsvCount s.mem.rsvSet st - (s.stack st).retired.length
      - ((s.usedLocs 1).filter (fun l => t1Stack l = st)).length) 0
  let t2 := s.f .FLC_CAPACITY_SLOTS 0 + s.f .FLC_CAPACITY_SLOTS 1 - (s.usedLocs 2).length
  (s.setF .TIER_FREE_T1 0 t1).setF .TIER_FREE_T2 0 t2

/-- What a request does to one bolt: it acts, waits under a cause, fails with a status of R299, or
is held in the move record. -/
inductive TierAct where
  | ok (s : State)
  | wait (s : State) (cause : Nat)
  | fail (s : State) (status : Nat)
  | held (s : State)

/-- Status codes (R407). -/
def tsOK : Nat := 0x20
/-- Status ILLEGAL. -/
def tsIllegal : Nat := 0x21
/-- Status STATE. -/
def tsState : Nat := 0x22
/-- Status QUOTA. -/
def tsQuota : Nat := 0x23
/-- Status DENIED. -/
def tsDenied : Nat := 0x24
/-- Status RANGE. -/
def tsRange : Nat := 0x25
/-- Status PIN_FULL. -/
def tsPinFull : Nat := 0x26

/-- The use counter advances: the next draw of a victim and the order of uses. -/
def State.use (s : State) : State := s.setMem { s.mem with tick := s.mem.tick + 1 }

/-! Tier requests (R298, R299): their fields and results. -/

/-- OP of a tier request. -/
def trOp (v : Nat) : Nat := bitField v 2 4
/-- TIER. -/
def trTier (v : Nat) : Nat := bitField v 6 2
/-- ILV. -/
def trIlv (v : Nat) : Nat := bitField v 8 2
/-- SHARE. -/
def trShare (v : Nat) : Nat := bitField v 10 2
/-- PLACE. -/
def trPlace (v : Nat) : Nat := bitField v 12 6
/-- SWATCH. -/
def trSwatch (v : Nat) : Nat := bitField v 32 16
/-- FIRST. -/
def trFirst (v : Nat) : Nat := bitField v 64 27
/-- COUNT. -/
def trCount (v : Nat) : Nat := bitField v 96 28

/-- The 256 bits of a request of the device's own making. -/
def trMake (op tier place sw first count : Nat) : Nat :=
  1 + 2 ^ 2 * op + 2 ^ 6 * tier + 2 ^ 12 * place + 2 ^ 32 * sw + 2 ^ 64 * first + 2 ^ 96 * count

/-- Posts a request's result, when a job record posted it (R299, R405). (DESIGN CHOICE, log 26.) -/
def State.tierResult (s : State) (q : TierReq) (status entry : Nat) : State :=
  if q.job = 0 then s
  else s.post q.part q.slot q.irq
    { seq := q.seq, status := status, sw := q.recSw, bolts := q.done, entry := entry }

/-- A held promote or evict of a tier request fails at its bolt with STATE, any other is dropped (R276). -/
def State.heldFail (s : State) (h : HeldReq) : State :=
  match h.req with
  | none => s
  | some q => (s.endWaits (heldKey (trFirst q.bits + q.done))).tierResult q tsState 0

/-- A free of an unpinned HOME bolt whose spacing has passed (R276, row HOME, FREE): what the table does not name stays.
(DEDUCED, log 160.) -/
def State.freeBolt (s : State) (b : Nat) : State :=
  let e := s.dirE b
  let held := match s.moveOf b with
    | some m => m.held
    | none => []
  let s := s.advance b true
  let g := (s.dirE b).generation
  let s := (s.freeLoc e.tier e.home).dropPocketBolt b
  let s := s.setMem { s.mem with pendTier := FMap.erase s.mem.pendTier b, named := FMap.erase s.mem.named b }
  let s := s.setDir b { e with state := 0, pendFree := false, pendEvict := false, generation := g }
  held.foldl State.heldFail (s.setMove b none).countFree

/-! Moves (R272): their start. -/

/-- How many move records hub `h` has in use (R272). -/
def State.movesOf (s : State) (h : Nat) : List MoveRec :=
  (s.mem.moves.filter (fun p => hubOf p.1 = h)).filterMap Prod.snd

/-- The window total of a controller is at or above its budget (R288). -/
def State.overBudget (s : State) (c : Nat) : Bool :=
  let g := s.f .FLC_BUDGET_GIB_PER_DAY c
  g ≠ 0 && g * 2 ^ 30 ≤ ((s.flc c).hours).foldl (· + ·) 0

/-- The tier an eviction goes to once the write budget has had its say, or none while it waits (R288). -/
def State.budgetTier (s : State) (b owner dtier loc : Nat) : Option Nat :=
  if dtier ≠ 2 || !s.overBudget (loc % 2) then some dtier
  else if s.quota owner 3 ≠ 0 && s.f .TIER_T3_SIZE_BOLTS 0 ≠ 0 && b < 2 ^ 27 then some 3
  else none

/-- The host link carries T3 traffic only while it is up (R291). -/
def State.linkUp (s : State) : Bool := s.hostLink

/-- A pending eviction with its tier (R278). (DESIGN CHOICE, log 25.) -/
def State.deferEvict (s : State) (b t : Nat) : State :=
  let s := s.setDir b { s.dirE b with pendEvict := true }
  (s.setMem { s.mem with pendTier := FMap.insert s.mem.pendTier b t }).tally .TIER_DEFERS 0 1

/-- The reservation of move `m` of bolt `b` waits for an obstacle of a cause (R281, R292). -/
def State.reserveWaits (s : State) (b : Nat) (m : MoveRec) (cause : Nat) : State :=
  (s.setMove b (some { m with obst := cause })).waitOn (s.dirE b).owner cause b

/-- The reserve phase: a destination is taken and charged, or the move goes on waiting under its cause (R272, R281,
R288, R291, R292). An eviction whose bolt has been pinned since waits for the pins (R276, R278); the budget concerns
evictions alone. -/
def moveReserve (b : Nat) (s : State) : State :=
  match s.moveOf b with
  | none => s
  | some m =>
    if m.phase ≠ .reserve then s
    else
      let e := s.dirE b
      let k := e.owner
      let near := s.nearOf b k (if m.place < 48 && m.cls = 2 then m.place else s.firstRegion k)
      let take (t : State) (dt loc : Nat) : State :=
        let up := m.inTier || dt < e.tier
        let used := (t.mem.dir.filter (fun p => hubOf p.1 = hubOf b && 2 ≤ p.2.state)).map (fun p => p.2.mrec)
        let t := t.setDir b { e with
          state := if up then 2 else 3, dtier := dt, dest := loc, mrec := firstFree used }
        (t.setMove b (some { m with phase := .copy, dtier := dt, gen := e.generation })).use.countFree
      let try1 (t : State) (dt : Nat) : State :=
        let m := { m with dtier := dt }
        if t.quota k dt ≤ t.usage k dt then t.reserveWaits b m 3
        else match t.choose b dt k e.ilv m.place near with
          | none => t.reserveWaits b m 3
          | some loc =>
            if dt = 0 && t.windowZeroing (t0Region loc) k (65536 * t0Pos loc) then t.reserveWaits b m 3 else take t dt loc
      if !m.up && 0 < e.pins then (if e.pendEvict then s else s.deferEvict b m.dtier).reserveWaits b m 2
      else if m.dtier = 2 && !m.up then
        match s.choose b 2 k e.ilv m.place near with
        | none => s.reserveWaits b m 3
        | some loc =>
          match s.budgetTier b k 2 loc with
          | some 2 => try1 s 2
          | some dt => try1 (s.tally .FLC_BUDGET_FALLBACK (loc % 2) 1) dt
          | none =>
            if m.obst = 0 && m.tried then s
            else (s.tally .FLC_BUDGET_FALLBACK (loc % 2) 1).reserveWaits b { m with tried := true } 0
      else if m.dtier = 3 && !s.linkUp then s.reserveWaits b m 4
      else try1 s m.dtier

/-- Starts a move of bolt `b`: it takes a move record, and a destination where there is room (R272, R276). (DEDUCED,
log 156.) -/
def State.startMove (s : State) (b : Nat) (up : Bool) (dtier place cls : Nat) (inTier : Bool) : TierAct :=
  if 256 ≤ (s.movesOf (hubOf b)).length then .wait s 2
  else
    let m : MoveRec :=
      { phase := .reserve, up := up, dtier := dtier, place := place, cls := cls, dirty := [], passes := 0,
        await := [], held := [], since := s.now, inTier := inTier, gen := (s.dirE b).generation }
    .ok (moveReserve b (s.setMove b (some m)))

/-- Puts a request into the move record of bolt `b`. -/
def State.holdReq (s : State) (b : Nat) (h : HeldReq) : TierAct :=
  match s.moveOf b with
  | none => .ok s
  | some m => .held (s.setMove b (some { m with held := m.held ++ [h] }))

/-- An unflipped move ends: the destination and its charge are released, the entry returns to HOME (R275). -/
def State.abandonMove (s : State) (b : Nat) : State :=
  let e := s.dirE b
  let s := s.setMove b none
  if e.state < 2 || e.flipped then s
  else (s.freeLoc e.dtier e.dest).setDir b { e with state := 1, dtier := 0, dest := 0, mrec := 0 }

/-- A cancel: the eviction is abandoned and the bolt listed at its hub (R279). -/
def State.cancelMove (s : State) (b : Nat) : State :=
  let s := s.abandonMove b
  let e := s.dirE b
  let l := FMap.get [] s.mem.cancels (hubOf b)
  let s := s.setMem { s.mem with cancels := FMap.set [] s.mem.cancels (hubOf b) (l ++ [b]) }
  let s := s.setDir b { e with cancelled := true }
  s.tally .TIER_CANCELS 0 1

/-- A request for a bolt whose entry is HOME while move `m` of it waits for a destination: where there is room for the
request it goes first and the waiting move is held behind it, otherwise it is held itself. (DEDUCED, log 15.) -/
def State.overtake (s : State) (b : Nat) (m : MoveRec) (h : HeldReq) : TierAct :=
  let w : HeldReq :=
    { evict := !m.up, tier := m.dtier, place := m.place, cls := m.cls, sw := (s.dirE b).owner, req := none, gen := m.gen }
  let t := moveReserve b (s.setMove b (some { m with
    up := !h.evict, dtier := h.tier, place := h.place, cls := h.cls, inTier := false, held := w :: m.held }))
  match t.moveOf b with
  | some x => if x.phase = .copy then .ok t else s.holdReq b h
  | none => .ok t

/-- A promote of a bolt on the move: merged, when the move goes up to a tier not above it, or held. -/
def State.joinUp (s : State) (b : Nat) (h : HeldReq) : TierAct :=
  match s.moveOf b with
  | some m =>
    if m.up && m.dtier ≤ h.tier then .ok (s.setMove b (some { m with cls := natMin m.cls h.cls }))
    else if m.phase = .reserve then s.overtake b m h
    else s.holdReq b h
  | none => .ok s

/-- A promote of bolt `b` to tier `t` but for the cancel of an eviction (R276). (DESIGN CHOICE, log 9; DEDUCED, log
15.) -/
def State.promoteAt (s : State) (b t place cls k : Nat) (req : Option TierReq) : TierAct :=
  let e := s.dirE b
  let h : HeldReq := { evict := false, tier := t, place := place, cls := cls, sw := k, req := req, gen := e.generation }
  if e.state = 0 then .fail s tsState
  else if e.state = 1 then
    if e.tier ≤ t then .ok s
    else
      match s.moveOf b with
      | some _ => s.joinUp b h
      | none => s.startMove b true t place cls false
  else s.joinUp b h

/-- An evict of a bolt on the move down: merged, when the move goes to the same tier, or held. -/
def State.joinDown (s : State) (b : Nat) (h : HeldReq) : TierAct :=
  match s.moveOf b with
  | some m =>
    if !m.up && m.dtier = h.tier then .ok s
    else if m.phase = .reserve then s.overtake b m h
    else s.holdReq b h
  | none => .ok s

/-- An evict of bolt `b` to tier `t` (R276). (DEDUCED, log 15.) -/
def State.evict (s : State) (b t cls k : Nat) (req : Option TierReq) : TierAct :=
  let e := s.dirE b
  let h : HeldReq := { evict := true, tier := t, place := 0, cls := cls, sw := k, req := req, gen := e.generation }
  if e.state = 0 then .fail s tsState
  else if e.state = 1 then
    if t ≤ e.tier then .ok s
    else if 0 < e.pins then .ok (s.deferEvict b t)
    else if (s.moveOf b).isSome then s.joinDown b h
    else s.startMove b false t 0 cls false
  else if e.state = 2 then .ok (s.deferEvict b t)
  else s.joinDown b h

/-- The state an act leaves, where nobody waits for its status. -/
def TierAct.state (a : TierAct) : State :=
  match a with
  | .ok t => t
  | .wait t _ => t
  | .fail t _ => t
  | .held t => t

/-- An act whose state goes on through `f`. -/
def TierAct.andThen (a : TierAct) (f : State → State) : TierAct :=
  match a with
  | .ok t => .ok (f t)
  | .wait t c => .wait (f t) c
  | .fail t c => .fail (f t) c
  | .held t => .held (f t)

/-- A pending free, then a pending eviction, is acted on when the entry is HOME and unpinned (R272, R276); while no move
record is free the eviction stays pending. -/
def State.settleBolt (s : State) (b : Nat) : State :=
  let e := s.dirE b
  if e.state ≠ 1 || e.pins ≠ 0 then s
  else if e.pendFree then (if s.spaced b then s.freeBolt b else s)
  else if e.pendEvict then
    let t := FMap.get 2 s.mem.pendTier b
    let u := s.setDir b { e with pendEvict := false }
    match (u.setMem { u.mem with pendTier := FMap.erase u.mem.pendTier b }).evict b t 3 e.owner none with
    | .wait _ _ => s
    | a => a.state
  else s

/-- Tier requests and pending evictions that a free move record of bolt `b`'s hub, or its freeing, may let go on: the requests
return to the queue (R276). -/
def State.wake (s : State) (b : Nat) : State :=
  let can (q : TierReq) : Bool := hubOf (trFirst q.bits + q.done) = hubOf b
  let s := s.setMem { s.mem with tierQ := s.mem.tierWait.filter can ++ s.mem.tierQ,
                                 tierWait := s.mem.tierWait.filter (fun q => !can q) }
  ((s.mem.dir.filter (fun p => hubOf p.1 = hubOf b && p.2.pendEvict && (s.moveOf p.1).isNone)).map Prod.fst).foldl
    State.settleBolt s

/-- A held request is acted on as from HOME (R276); a tier request whose bolts are not all done goes on from the front of
its hub's queue. -/
def State.heldOne (b : Nat) (s : State) (h : HeldReq) : State :=
  let a := if h.evict then s.evict b h.tier h.cls h.sw h.req else s.promoteAt b h.tier h.place h.cls h.sw h.req
  match h.req, a with
  | none, a => a.state
  | some q, .ok t =>
    let q := { q with done := q.done + 1, gen := (t.dirE (trFirst q.bits + q.done + 1)).generation }
    let t := t.endWaits (heldKey b)
    if trCount q.bits ≤ q.done then t.tierResult q tsOK 0 else t.setMem { t.mem with tierQ := q :: t.mem.tierQ }
  | some q, .fail t status => (t.endWaits (heldKey b)).tierResult q status 0
  | some q, .wait t _ => t.setMem { t.mem with tierWait := t.mem.tierWait ++ [{ q with gen := (t.dirE b).generation }] }
  | some _, .held t => t

/-- The entry has returned to HOME: the pending free, then the pending eviction, then the requests the move held; where a
pending free proceeds they meet the bolt FREE (R272, R276). (DEDUCED, log 157.) -/
def State.afterMove (s : State) (b : Nat) (held : List HeldReq) : State :=
  let e := s.dirE b
  if e.state = 1 && e.pins = 0 && e.pendFree then held.foldl State.heldFail (s.settleBolt b)
  else held.foldl (State.heldOne b) (s.settleBolt b)

/-- A promote of bolt `b` to tier `t`: it cancels an eviction that has not flipped, where R276 lets it, and is then acted
on as from HOME (R279). -/
def State.promote (s : State) (b t place cls k : Nat) (req : Option TierReq) : TierAct :=
  let e := s.dirE b
  if e.state ≠ 3 || e.flipped then s.promoteAt b t place cls k req
  else if !e.cancelled && (FMap.get [] s.mem.cancels (hubOf b)).length < 4096 then
    let held := match s.moveOf b with
      | some m => m.held
      | none => []
    ((s.cancelMove b).promoteAt b t place cls k req).andThen (fun u => u.afterMove b held)
  else
    let s := s.tally .TIER_DEFERS 0 1
    let s := if e.cancelled then s else s.tally .TIER_CANCEL_FULL 0 1
    s.holdReq b { evict := false, tier := t, place := place, cls := cls, sw := k, req := req, gen := e.generation }

/-- The unflipped moves to destinations that `p` picks end without a flip (R275). (DEDUCED, log 158.) -/
def State.abandonTo (s : State) (p : DirEntry → Bool) : State :=
  s.mem.moves.foldl (fun t x =>
    match x.2 with
    | none => t
    | some m =>
      let e := t.dirE x.1
      if 2 ≤ e.state && !e.flipped && p e then ((t.abandonMove x.1).afterMove x.1 m.held).wake x.1 else t) s

/-- A promote or evict of the device's own making: where no move record is free it waits as a request (R292). -/
def TierAct.orQueue (a : TierAct) (op tier place k b : Nat) : State :=
  match a with
  | .wait t _ =>
    let q : TierReq :=
      { bits := trMake op tier place k b 1, done := 0, job := 0, part := 0, seq := 0, slot := 0, irq := false,
        since := t.now, gen := (t.dirE b).generation, recSw := k }
    t.setMem { t.mem with tierWait := t.mem.tierWait ++ [q] }
  | a => a.state

/-- The traffic of a move that a demand request meets goes on in class C2 at the least (R274). -/
def State.raiseMove (s : State) (b : Nat) : State :=
  match s.moveOf b with
  | some m => s.setMove b (some { m with cls := natMin m.cls 2 })
  | none => s

/-- A demand promote: to T1 in class C2; a move under way is raised to C2 (R264, R274, R285). -/
def State.promoteNow (s : State) (b k region : Nat) : State := ((s.raiseMove b).promote b 1 region 2 k none).state

/-- A request that bolt `b` makes wait (R247, R264, R274, R277, R292): a demand request starts a demand promote, and one that meets
a move from T2 or T3 raises it to C2. -/
def State.await (s : State) (b k region : Nat) (demand stuck : Bool) : State :=
  if (s.moveOf b).isNone && s.homeZeroing (s.dirE b) then s.waitAs k 3 (2 ^ 27 + t0Region (s.dirE b).home) stuck
  else
  let t := if demand then s.promoteNow b k region else if 2 ≤ (s.dirE b).tier then s.raiseMove b else s
  t.waitAs k 2 b stuck

end Sys2Proof.Machine
end

