-- ==== Sys2Proof/Machine/Words.lean ====
section
/-! DEFINITION. The 64-bit words of a needle core's program (R70 to R75, R131 to R134): what a word says, or that it
is illegal by itself, and the encoding of every legal word. -/

namespace Sys2Proof.Machine

/-- A legal program word. Vector words but VPOS and VSETF share one layout (R131). -/
inductive CoreWord where
  | nop
  | mma (ta tw tc ti ts : Nat) (acc fuse : Bool) (pi : Nat) (wst : Bool) (n : Nat)
  | tdld (slot off : Nat)
  | tdadd (slot : Nat) (scale : Bool) (delta : Nat)
  | cpy (src dst : Nat) (eng wst : Bool) (rows : Nat)
  | fence (ld st : Bool)
  | sync (scope barrier : Nat)
  | loop (count back : Nat)
  | vec (op tx ty tz tr fn : Nat) (wst : Bool) (n : Nat)
  | vpos (qbase kbase mask : Nat)
  | vsetf (reg value : Nat)
  | stepend
  deriving DecidableEq, Repr

/-- The opcode of a word (R70). -/
def opOf (w : Nat) : Nat := bitField w 58 6

/-- The FN codes of a vector opcode (R133). For VSMAX, bits 0 and 1; for VSBWD, bits 1 and 2. -/
def fnLegal (op fn : Nat) : Bool :=
  if op = 0x28 then fn ≤ 0xC
  else if op = 0x2A then fn ≤ 3
  else if op = 0x2B then fn ≤ 1
  else if op = 0x2C then fn ≤ 3
  else if op = 0x2D then fn ≤ 2
  else if op = 0x30 then fn % 2 = 0 && fn ≤ 6
  else fn = 0

/-- Are bits `[lo + w - 1 : lo]` all zero? -/
def zeroBits (v lo w : Nat) : Bool := bitField v lo w = 0

/-- Reads a word; none when it is refused with ILLEGAL by itself (R70, R71, R133). (DEDUCED, log 17.) -/
def decodeWord (w : Nat) : Option CoreWord :=
  let op := opOf w
  if op = 0x00 then (if zeroBits w 0 58 then some .nop else none)
  else if op = 0x01 then
    if zeroBits w 21 7 && bitField w 29 2 ≠ 3 then
      some (.mma (bitField w 53 5) (bitField w 48 5) (bitField w 43 5) (bitField w 38 5) (bitField w 33 5)
        (bitAt w 32) (bitAt w 31) (bitField w 29 2) (bitAt w 28) (bitField w 0 21))
    else none
  else if op = 0x08 then
    if zeroBits w 17 36 then some (.tdld (bitField w 53 5) (bitField w 0 17)) else none
  else if op = 0x09 then
    if zeroBits w 40 12 then some (.tdadd (bitField w 53 5) (bitAt w 52) (bitField w 0 40)) else none
  else if op = 0x10 then
    if zeroBits w 25 21 then
      some (.cpy (bitField w 53 5) (bitField w 48 5) (bitAt w 47) (bitAt w 46) (bitField w 0 25))
    else none
  else if op = 0x18 then
    if zeroBits w 0 56 then some (.fence (bitAt w 57) (bitAt w 56)) else none
  else if op = 0x19 then
    if zeroBits w 0 48 && bitField w 56 2 ≠ 3 then some (.sync (bitField w 56 2) (bitField w 48 8)) else none
  else if op = 0x20 then
    if zeroBits w 16 20 && bitField w 36 22 ≠ 0 && bitField w 0 16 ≠ 0 then
      some (.loop (bitField w 36 22) (bitField w 0 16))
    else none
  else if 0x28 ≤ op && op ≤ 0x32 then
    if zeroBits w 29 5 && zeroBits w 21 7 && fnLegal op (bitField w 34 4) then
      some (.vec op (bitField w 53 5) (bitField w 48 5) (bitField w 43 5) (bitField w 38 5) (bitField w 34 4)
        (bitAt w 28) (bitField w 0 21))
    else none
  else if op = 0x33 then
    if zeroBits w 0 12 && bitField w 12 2 ≤ 1 then
      some (.vpos (bitField w 36 22) (bitField w 14 22) (bitField w 12 2))
    else none
  else if op = 0x34 then
    if zeroBits w 32 24 && bitField w 56 2 ≤ 1 then some (.vsetf (bitField w 56 2) (bitField w 0 32)) else none
  else if op = 0x3F then (if zeroBits w 0 58 then some .stepend else none)
  else none

/-- The operands of a word fit their fields and are not refused by themselves. -/
def CoreWord.ok : CoreWord → Bool
  | .nop => true
  | .mma ta tw tc ti ts _ _ pi _ n =>
    ta < 32 && tw < 32 && tc < 32 && ti < 32 && ts < 32 && pi < 3 && n < 2 ^ 21
  | .tdld slot off => slot < 32 && off < 2 ^ 17
  | .tdadd slot _ delta => slot < 32 && delta < 2 ^ 40
  | .cpy src dst _ _ rows => src < 32 && dst < 32 && rows < 2 ^ 25
  | .fence _ _ => true
  | .sync scope barrier => scope < 3 && barrier < 256
  | .loop count back => 0 < count && count < 2 ^ 22 && 0 < back && back < 2 ^ 16
  | .vec op tx ty tz tr fn _ n =>
    0x28 ≤ op && op ≤ 0x32 && tx < 32 && ty < 32 && tz < 32 && tr < 32 && fn < 16 && fnLegal op fn && n < 2 ^ 21
  | .vpos q k m => q < 2 ^ 22 && k < 2 ^ 22 && m < 2
  | .vsetf r v => r < 2 && v < 2 ^ 32
  | .stepend => true

/-- The bits of a word: the opcode at 58 and each field at its place. -/
def encodeWord : CoreWord → Nat
  | .nop => 0
  | .mma ta tw tc ti ts acc fuse pi wst n =>
    0x01 * 2 ^ 58 + ta * 2 ^ 53 + tw * 2 ^ 48 + tc * 2 ^ 43 + ti * 2 ^ 38 + ts * 2 ^ 33 + flagBit acc * 2 ^ 32
      + flagBit fuse * 2 ^ 31 + pi * 2 ^ 29 + flagBit wst * 2 ^ 28 + n
  | .tdld slot off => 0x08 * 2 ^ 58 + slot * 2 ^ 53 + off
  | .tdadd slot scale delta => 0x09 * 2 ^ 58 + slot * 2 ^ 53 + flagBit scale * 2 ^ 52 + delta
  | .cpy src dst eng wst rows =>
    0x10 * 2 ^ 58 + src * 2 ^ 53 + dst * 2 ^ 48 + flagBit eng * 2 ^ 47 + flagBit wst * 2 ^ 46 + rows
  | .fence ld st => 0x18 * 2 ^ 58 + flagBit ld * 2 ^ 57 + flagBit st * 2 ^ 56
  | .sync scope barrier => 0x19 * 2 ^ 58 + scope * 2 ^ 56 + barrier * 2 ^ 48
  | .loop count back => 0x20 * 2 ^ 58 + count * 2 ^ 36 + back
  | .vec op tx ty tz tr fn wst n =>
    op * 2 ^ 58 + tx * 2 ^ 53 + ty * 2 ^ 48 + tz * 2 ^ 43 + tr * 2 ^ 38 + fn * 2 ^ 34 + flagBit wst * 2 ^ 28 + n
  | .vpos q k m => 0x33 * 2 ^ 58 + q * 2 ^ 36 + k * 2 ^ 14 + m * 2 ^ 12
  | .vsetf r v => 0x34 * 2 ^ 58 + r * 2 ^ 56 + v
  | .stepend => 0x3F * 2 ^ 58

/-! Tensor descriptors (R76). -/

/-- GEN of a descriptor image. -/
def dGen (d : Nat) : Nat := bitField d 0 2
/-- FMT. -/
def dFmt (d : Nat) : Nat := bitField d 2 4
/-- SCALED. -/
def dScaled (d : Nat) : Bool := bitAt d 6
/-- BAXIS: blocks run down a column. -/
def dBaxis (d : Nat) : Bool := bitAt d 7
/-- TAG. -/
def dTag (d : Nat) : Nat := bitField d 8 12
/-- SPACE. -/
def dSpace (d : Nat) : Nat := bitField d 20 2
/-- BASE. -/
def dBase (d : Nat) : Nat := bitField d 32 52
/-- STRIDE. -/
def dStride (d : Nat) : Nat := bitField d 96 32
/-- ROWS. -/
def dRows (d : Nat) : Nat := bitField d 128 25
/-- COLS. -/
def dCols (d : Nat) : Nat := bitField d 153 25
/-- SCALE_BASE. -/
def dScaleBase (d : Nat) : Nat := bitField d 192 52

/-- Are the reserved bits of an image zero? -/
def dReservedZero (d : Nat) : Bool :=
  zeroBits d 22 10 && zeroBits d 84 12 && zeroBits d 178 14 && zeroBits d 244 12

/-- The bytes of a tensor's elements from BASE (R79); records are dense (R140). -/
def dExtent (d : Nat) : Nat :=
  if dRows d = 0 then 0
  else if dFmt d = 8 then 16 * dRows d
  else dStride d * (dRows d - 1) + (dCols d * fmtWidth (dFmt d) + 7) / 8

/-- The bytes of a tensor's block scales from SCALE_BASE (R77). -/
def dScaleExtent (d : Nat) : Nat :=
  if !dScaled d then 0
  else if dBaxis d then ceilDiv (dRows d) 32 * dCols d
  else dRows d * ceilDiv (dCols d) 32

/-- The address of a block scale: of the block that holds element (i, j) (R77). -/
def dScaleAddr (d i j : Nat) : Nat :=
  if dBaxis d then dScaleBase d + (i / 32) * dCols d + j
  else dScaleBase d + i * ceilDiv (dCols d) 32 + j / 32

/-- The address of the byte in which element (i, j) begins. -/
def dRowAddr (d i : Nat) : Nat := if dFmt d = 8 then dBase d + 16 * i else dBase d + i * dStride d

end Sys2Proof.Machine
end

