-- ==== Sys2Proof/Machine/Access.lean ====
section
/-! DEFINITION. Access to memory (R41, R61, R76, R230, R242 to R251, R265, R354, R396): the base cache and the
pocket in front of a home, device addresses through the directory, core scratch and the pocket window. -/

namespace Sys2Proof.Machine

/-! The base cache (R242 to R245). -/

/-- Follows the tree bits from node `node` over the ways from `lo`, `2 ^ depth` of them, into a half that holds an
allowed way. (DEDUCED, log 24.) -/
def plruPick (bits : Nat) (allowed : Nat → Bool) : Nat → Nat → Nat → Nat
  | 0, _, lo => lo
  | d + 1, node, lo =>
    let half := 2 ^ d
    let inLow := (List.range half).any (fun i => allowed (lo + i))
    let inHigh := (List.range half).any (fun i => allowed (lo + half + i))
    if inHigh && (bitAt bits node || !inLow) then plruPick bits allowed d (2 * node + 1) (lo + half)
    else plruPick bits allowed d (2 * node) lo

/-- The tree bits after a use of way `w`: each node on its path points away from it. -/
def plruTouch (w : Nat) : Nat → Nat → Nat → Nat → Nat
  | 0, _, _, bits => bits
  | d + 1, node, lo, bits =>
    let half := 2 ^ d
    if w < lo + half then plruTouch w d (2 * node) lo (putBit bits node true)
    else plruTouch w d (2 * node + 1) (lo + half) (putBit bits node false)

/-- A use of a way: the tree bits and the line's place in the order of uses. -/
def touchWay (s : State) (set w : Nat) (l : CLine) : State :=
  let l := { l with used := s.mem.tick + 1 }
  (s.setMem { s.mem with cache := FMap.set none s.mem.cache (16 * set + w) (some l),
                         plru := FMap.set 0 s.mem.plru set (plruTouch w 4 1 0 (FMap.get 0 s.mem.plru set)) }).use

/-- The keep limit of a partition in force (R258). -/
def State.keepWays (s : State) (st part : Nat) : Nat := natMin 12 (s.sub .BASE_KEEP_CFG_KEEP_WAYS st (4 * part) 4)

/-- The least recently used keep line of a partition in a set (R245). -/
def lruKeep (lines : List (Nat × CLine)) (part : Nat) : Option Nat :=
  (lines.filter (fun p => p.2.kind = 1 && p.2.part = part)).foldl (fun best p =>
    match best with
    | none => some p.1
    | some w => if p.2.used < ((lines.find? (fun q => q.1 = w)).map (fun q => q.2.used)).getD 0 then some p.1
      else some w) none

/-- Allocates a line in a set (R245); nothing is allocated where R245 serves the request as stream-through. -/
def State.allocLine (s : State) (st set : Nat) (l : CLine) : State :=
  let lines := (List.range 16).filterMap (fun w => (FMap.get none s.mem.cache (16 * set + w)).map (fun x => (w, x)))
  let free := (List.range 16).find? (fun w => !lines.any (fun p => p.1 = w))
  let ordinary := lines.filter (fun p => p.2.kind ≠ 1)
  let keeps := (lines.filter (fun p => p.2.kind = 1 && p.2.part = l.part)).length
  let pick (ok : Nat → Bool) := plruPick (FMap.get 0 s.mem.plru set) ok 4 1 0
  if l.kind = 1 && (s.keepWays st l.part ≤ keeps || (free.isNone && ordinary.isEmpty)) then
    match lruKeep lines l.part with
    | some w => touchWay s set w l
    | none => s
  else
    match free with
    | some w => touchWay s set w l
    | none =>
      if ordinary.isEmpty then touchWay s set (pick (fun _ => true)) l
      else touchWay s set (pick (fun w => ordinary.any (fun p => p.1 = w))) l

/-- One request at the base cache for a granule under a hint (R244): 0 normal, 1 stream-through, 2 keep, 3
discard-after-last-use. A line counts in the keep limit of the partition that allocated it, and every hit is a use for the
replacement order. (DEDUCED, log 23; DESIGN CHOICE, log 168.) -/
def State.cacheAccess (s : State) (st slot granule hint uses part : Nat) (write : Bool) : State :=
  let set := 8192 * st + (granule + 256 * slot) % 8192
  let n := natMax uses 1
  let hit := (List.range 16).findSome? (fun w =>
    match FMap.get none s.mem.cache (16 * set + w) with
    | some l => if l.slot = slot && l.granule = granule then some (w, l) else none
    | none => none)
  match hit with
  | some (w, l) =>
    let s := s.tally .BASE_HIT st 1
    let keeps := ((List.range 16).filter (fun v =>
      match FMap.get none s.mem.cache (16 * set + v) with
      | some x => x.kind = 1 && x.part = l.part
      | none => false)).length
    let l := if hint = 2 && l.kind = 0 && keeps < s.keepWays st l.part then { l with kind := 1 } else l
    let l := if write && hint ≠ 1 then { l with dirty := true } else l
    let l := if hint = 3 && l.kind = 2 then { l with count := if write then n else l.count - 1 } else l
    if l.kind = 2 && l.count = 0 then
      (s.setMem { s.mem with cache := FMap.erase s.mem.cache (16 * set + w) }).tally .BASE_DALU_DROP st 1
    else touchWay s set w l
  | none =>
    let s := s.tally .BASE_MISS st 1
    if hint = 1 then s
    else
      let count := if hint = 3 then (if write then n else n - 1) else 0
      let kind := if hint = 2 then 1 else if hint = 3 then 2 else 0
      if kind = 2 && count = 0 then s.tally .BASE_DALU_DROP st 1
      else s.allocLine st set
        { slot := slot, granule := granule, kind := kind, count := count, part := part, dirty := write, used := 0 }

/-- A lookup of entry `b` in its hub's directory cache slice of 32,768 sets of 8 ways; a miss reads the entry from its
reserved bolt, through the base cache under the normal hint (R243, R265, R266, R303). (DESIGN CHOICE, log 6.) -/
def State.lookup (s : State) (b : Nat) : State :=
  let h := hubOf b
  let key := 32768 * h + b / 4 % 32768
  let l := FMap.get [] s.mem.dirCache key
  if l.contains b then s.tally .DIR_HIT h 1
  else
    let l := if l.length < 8 then l else l.eraseIdx (Config.victim s.mem.tick % 8)
    let s := ((s.setMem { s.mem with dirCache := FMap.set [] s.mem.dirCache key (l ++ [b]) }).tally .DIR_MISS h 1).use
    let p := rsvPlace s.mem.rsvSet (b / 4096)
    if s.rsvDead (b / 4096) then s else s.cacheAccess p.1 p.2 (b % 4096 / 16) 0 0 0 false

/-! Device addresses. -/

/-- The place of byte `a` of the tiered space: at its bolt's home, whatever the tier. -/
def State.homePlace (s : State) (a : Nat) : Place :=
  let e := s.dirE (a / 65536)
  s.placeOf e.tier e.home e.owner (a % 65536)

/-- Does the store of a home answer (R254)? A fenced stack returns zeros and discards writes. -/
def State.homeLive (s : State) (a : Nat) : Bool :=
  let e := s.dirE (a / 65536)
  e.state ≠ 0 && !(e.tier = 1 && 3 ≤ s.f .BASE_STATUS_STATE (t1Stack e.home))

/-- A request of an engine of the device at one home, stream-through at the base cache (R242, R243). -/
def State.streamHome (s : State) (loc o n : Nat) (write : Bool) : State :=
  if 3 ≤ s.f .BASE_STATUS_STATE (t1Stack loc) then s
  else (List.range ((o % 256 + n + 255) / 256)).foldl (fun t i =>
    t.cacheAccess (t1Stack loc) (t1Slot loc) (o / 256 + i) 1 0 0 write) s

/-- `n` bytes at device address `a` as their homes hold them; a FREE bolt or a fenced stack reads zero. The first
argument bounds the bolts crossed. -/
def State.devBytes (s : State) : Nat → Nat → Nat → List Byte
  | 0, _, n => fillBytes n 0
  | fuel + 1, a, n =>
    let here := natMin n (65536 - a % 65536)
    let bs := if s.homeLive a then s.mem.st.read (s.homePlace a) here else fillBytes here 0
    if here < n then bs ++ State.devBytes s fuel (a + here) (n - here) else bs

/-- `n` bytes at device address `a`. -/
def State.dev (s : State) (a n : Nat) : List Byte := s.devBytes (n / 65536 + 2) a n

/-- A little-endian number of `n` bytes at device address `a`. -/
def State.devNat (s : State) (a n : Nat) : Nat := leNat (s.dev a n)

/-- Granules written while a move that has copied the bolt has not flipped are dirty (R272). -/
def State.markDirty (s : State) (b : Nat) (gs : List Nat) : State :=
  match s.moveOf b with
  | none => s
  | some m =>
    if m.phase = .recopy || m.phase = .hold then s.setMove b (some { m with dirty := sortAsc (m.dirty ++ gs) }) else s

/-- Writes bytes at device address `a` to their homes. -/
def State.devPut (s : State) (a : Nat) (bs : List Byte) : Nat → State
  | 0 => s
  | fuel + 1 =>
    let here := natMin bs.length (65536 - a % 65536)
    let s' := if s.homeLive a then
        (s.setStores (s.mem.st.write (s.homePlace a) (bs.take here))).markDirty (a / 65536)
          ((List.range ((a % 256 + here + 255) / 256)).map (fun i => a % 65536 / 256 + i))
      else s
    if here < bs.length then State.devPut s' (a + here) (bs.drop here) fuel else s'

/-- Writes bytes at device address `a`. -/
def State.putDev (s : State) (a : Nat) (bs : List Byte) : State := s.devPut a bs (bs.length / 65536 + 2)

/-- Writes a little-endian number of `n` bytes at device address `a`. -/
def State.putDevNat (s : State) (a v n : Nat) : State := s.putDev a (leBytes v n)

/-- The granules of a range of device addresses that are at home in a stack pass through its base cache, stream-through:
requests of the press and the collective engines (R243). The first argument bounds the bolts crossed. -/
def State.streamOver (s : State) (write : Bool) : Nat → Nat → Nat → State
  | 0, _, _ => s
  | fuel + 1, a, n =>
    let here := natMin n (65536 - a % 65536)
    let e := s.dirE (a / 65536)
    let t := if e.state ≠ 0 && e.tier = 1 then s.streamHome e.home (a % 65536) here write else s
    if here < n then State.streamOver t write fuel (a + here) (n - here) else t

/-- An engine of the device reads `n` bytes at device address `a`. -/
def State.streamRead (s : State) (a n : Nat) : State := s.streamOver false (n / 65536 + 2) a n

/-- An engine's reads and writes of ranges, as the base caches see them (R242, R243). -/
def State.streams (s : State) (rd wr : List (Nat × Nat)) : State :=
  let go (write : Bool) (t : State) (r : Nat × Nat) : State := if r.2 = 0 then t else t.streamOver write (r.2 / 65536 + 2) r.1 r.2
  wr.foldl (go true) (rd.foldl (go false) s)

/-- The bolts that `n` bytes at `a` touch. -/
def boltsOf (a n : Nat) : List Nat :=
  if n = 0 then [] else (List.range ((a + n - 1) / 65536 + 1 - a / 65536)).map (fun i => a / 65536 + i)

/-! Engines that work for a swatch: the presses, the collective engines, the cutters and the tier engine (R264, R271, R277). -/

/-- Does a bolt make a request of swatch `k` wait? -/
def State.boltWaits (s : State) (k b : Nat) (write : Bool) : Bool :=
  match s.serve b (fun e => s.shareAllows e k write) with
  | .waits _ => true
  | _ => false

/-- Is a bolt denied to swatch `k` (R271)? -/
def State.boltDenied (s : State) (k b : Nat) (write : Bool) : Bool :=
  match s.serve b (fun e => s.shareAllows e k write) with
  | .denied => true
  | _ => false

/-- The bolts of a list of ranges, ascending. -/
def rangeBolts (l : List (Nat × Nat)) : List Nat := sortAsc (l.flatMap (fun r => boltsOf r.1 r.2))

/-- The engine's request waits on the bolts that are not served, which are promoted on demand (R264, R277). -/
def State.awaitAll (s : State) (k : Nat) (rd wr : List Nat) (stuck : Bool) : State :=
  let go (write : Bool) (t : State) (b : Nat) : State :=
    match t.serve b (fun e => t.shareAllows e k write) with
    | .waits demand => t.await b k (t.firstRegion k) demand stuck
    | _ => t
  wr.foldl (go true) (rd.foldl (go false) s)

/-- Is every bolt that an engine reads or writes served at once? -/
def State.boltsServed (s : State) (k : Nat) (rd wr : List Nat) : Bool :=
  !(rd.any (fun b => s.boltWaits k b false) || wr.any (fun b => s.boltWaits k b true))

/-- What `f` does with the bolts it reads and writes for swatch `k`: a bolt that is denied is counted and breaks the step, reads
as zero, and keeps its contents (R271). -/
def State.withShare (s : State) (k : Nat) (rd wr : List Nat) (f : State → State) : State :=
  let noRead := rd.filter (fun b => s.boltDenied k b false)
  let noWrite := wr.filter (fun b => s.boltDenied k b true)
  let s := (sortAsc (noRead ++ noWrite)).foldl (fun t b => t.deny b k) s
  let hidden := (noRead ++ noWrite.filter (fun b => s.boltDenied k b false)).map (fun b => (b, s.dirE b))
  let kept := (noWrite.filter (fun b => !s.boltDenied k b false)).map (fun b =>
    let e := s.dirE b
    let p := s.placeOf e.tier e.home e.owner 0
    (p, s.mem.st.cut p 65536))
  let t := f (hidden.foldl (fun u p => u.setDir p.1 {}) s)
  let t := hidden.foldl (fun u p => u.setDir p.1 p.2) t
  kept.foldl (fun u p => u.setStores (u.mem.st.paste p.1 65536 p.2)) t

/-- An engine's work for swatch `k` on the ranges it reads and writes: it waits while a bolt of them is not served. `stuck`: a
wait that the swatch's step cannot leave (R293). -/
def State.engineAs (s : State) (k : Nat) (rd wr : List (Nat × Nat)) (stuck : Bool) (f : State → State) : State :=
  let r := rangeBolts rd
  let w := rangeBolts wr
  if s.boltsServed k r w then s.withShare k r w (fun t => f (t.streams rd wr)) else s.awaitAll k r w stuck

/-- Such work that the step can leave. -/
def State.engine (s : State) (k : Nat) (rd wr : List (Nat × Nat)) (f : State → State) : State := s.engineAs k rd wr false f

/-! The pocket (R248 to R251). -/

/-- The pocket stamp of a swatch (R250, R350). -/
def State.stamp (s : State) (k : Nat) : Nat := s.desc k 1936 8

/-- The ways that serve PCACHE reads of a swatch in a region: its KIND 2 ways, else the KIND 1 ways (R249). -/
def State.cacheWays (s : State) (r k : Nat) : List Nat :=
  let own := s.waysOf r 2 k
  if own.isEmpty then s.waysOf r 1 k else own

/-- Is one of those ways still being zeroed (R247)? -/
def State.cacheZeroing (s : State) (r k : Nat) : Bool :=
  (s.cacheWays r k).any (fun w => FMap.get 0 s.mem.zeroing (16 * r + w) ≠ 0)

/-- The key of a pocket line. -/
def lineKey (r a w : Nat) : Nat := 16 * (16384 * r + a / 256 % 16384) + w

/-- Writes the pocket line at a key. -/
def State.setLine (s : State) (key : Nat) (l : Option PLine) : State :=
  s.setMem { s.mem with lines := FMap.set none s.mem.lines key l }

/-- Is a line present for a swatch: its address, and in a shared way its swatch's stamp (R250)? A line serves the swatch that
allocated it. (DESIGN CHOICE, log 169.) -/
def State.lineLive (s : State) (r w k a : Nat) : Option PLine :=
  match FMap.get none s.mem.lines (lineKey r a w) with
  | none => none
  | some l =>
    if l.addr = 256 * (a / 256) && (l.sw = k || (s.way r w).1 = 2)
        && ((s.way r w).1 = 2 || l.stamp = s.stamp k) then some l
    else none

/-- The line that a PCACHE read finds in the pocket. -/
def State.pocketHit (s : State) (r k a : Nat) : Option PLine := (s.cacheWays r k).findSome? (fun w => s.lineLive r w k a)

/-- A PCACHE read of one line that the pocket does not hold: counted, and the line allocated, when the swatch has ways, with
the bytes `mem` (R249, R261). -/
def State.pocketMiss (s : State) (r k a : Nat) (mem : List Byte) : State :=
  let ways := s.cacheWays r k
  let s := s.tally .RGN_PKT_MISS r 1
  if ways.isEmpty then s
  else
    let free := ways.find? (fun w => (FMap.get none s.mem.lines (lineKey r a w)).isNone)
    let w := free.getD (ways.getD (Config.victim s.mem.tick % natMax ways.length 1) 0)
    let l : PLine :=
      { addr := 256 * (a / 256), sw := k, stamp := s.stamp k, used := s.mem.tick, data := leNat mem }
    (s.setLine (lineKey r a w) (some l)).use

/-- A write by the region's own cores updates every present line of the address (R249). -/
def State.pocketUpdate (s : State) (r a : Nat) (bs : List Byte) : State :=
  (List.range 16).foldl (fun t w =>
    match FMap.get none t.mem.lines (lineKey r a w) with
    | none => t
    | some l =>
      if l.addr ≠ 256 * (a / 256) then t
      else
        let d := Memory.write 0 ((leBytes l.data 256).zipIdx.map (fun p => (p.2, p.1))) (a % 256) bs
        t.setLine (lineKey r a w) (some { l with data := leNat (Memory.bytes 0 d 0 256) })) s

/-! Requests of the shuttles (R61). -/

/-- Who asks: swatch, region, tag. -/
structure Rq where
  sw     : Nat
  region : Nat
  tag    : Nat
  deriving DecidableEq, Repr

/-- The hint byte of a request (R243). -/
def State.hint (s : State) (q : Rq) : Nat := FMap.get 0 s.hints (4096 * q.sw + q.tag)

/-- Splits `n` bytes at `a` at the granules' borders: (address, bytes) pairs. -/
def granulesOf : Nat → Nat → Nat → List (Nat × Nat)
  | 0, _, _ => []
  | fuel + 1, a, n =>
    let here := natMin n (256 - a % 256)
    if n = 0 then [] else (a, here) :: granulesOf fuel (a + here) (n - here)

/-- The pieces of a request. -/
def pieces (a n : Nat) : List (Nat × Nat) := granulesOf (n / 256 + 2) a n

/-- The base cache sees one piece of a request, when its home is a stack. -/
def State.throughCache (s : State) (q : Rq) (a : Nat) (write : Bool) : State :=
  let e := s.dirE (a / 65536)
  let h := s.hint q
  if e.tier = 1 && s.homeLive a then
    s.cacheAccess (t1Stack e.home) (t1Slot e.home) (a % 65536 / 256) (h % 4) (bitField h 2 4) (s.desc q.sw 3 3) write
  else s

/-- Does a request ask for the pocket's caching (R243, R249)? -/
def State.pcache (s : State) (q : Rq) : Bool := bitAt (s.hint q) 6

/-- Reads one piece of a shuttle's request: from the pocket, which sends nothing to the stack, or from its home. -/
def State.shuttlePiece (s : State) (q : Rq) (a n : Nat) : State × List Byte :=
  let b := a / 65536
  let s := s.lookup b
  match s.serve b (fun e => s.shareAllows e q.sw false) with
  | .at t _ _ =>
    if t = 1 && s.pcache q then
      match s.pocketHit q.region q.sw a with
      | some l => (s.tally .RGN_PKT_HIT q.region 1, ((leBytes l.data 256).drop (a % 256)).take n)
      | none =>
        ((s.pocketMiss q.region q.sw a (s.dev (256 * (a / 256)) 256)).throughCache q a false, s.dev a n)
    else (s.throughCache q a false, s.dev a n)
  | _ => (s.deny b q.sw, fillBytes n 0)

/-- Writes one piece of a shuttle's request. -/
def State.shuttlePut (s : State) (q : Rq) (a : Nat) (bs : List Byte) : State :=
  let b := a / 65536
  let s := s.lookup b
  match s.serve b (fun e => s.shareAllows e q.sw true) with
  | .at _ _ _ => ((s.throughCache q a true).putDev a bs).pocketUpdate q.region a bs
  | _ => s.deny b q.sw

/-- The committed entry, and its press, whose row a read of a range would meet (R190). -/
def State.rowAhead (s : State) (k a n : Nat) : Option (Nat × Nat) :=
  ((FMap.get [] s.rowsDue k).find? (fun r => r.2.1 < a + n && a < r.2.1 + r.2.2.1)).map (fun r => (r.1, r.2.2.2))

/-- A read waits for a committed row, charged to flash busy. -/
def State.rowWait (s : State) (k : Nat) (r : Nat × Nat) : State := s.waitOn k 0 (rowKey k r.1 r.2)

/-- Does any bolt of a range make the request wait? Starts the demand promotes (R264, R277). A read of a row waits while
an entry for it is committed (R190), and one that asks for caching while a way that would serve it is zeroed (R247). -/
def State.rangeWaits (s : State) (q : Rq) (a n : Nat) (write : Bool) : Option State :=
  let bs := boltsOf a n
  if bs.any (fun b =>
      match s.serve b (fun e => s.shareAllows e q.sw write) with
      | .waits _ => true
      | _ => false) then
    some (bs.foldl (fun t b =>
      match t.serve b (fun e => t.shareAllows e q.sw write) with
      | .waits demand => t.await b q.sw q.region demand false
      | _ => t) s)
  else if write then none
  else if s.pcache q && s.cacheZeroing q.region q.sw then some (s.waitOn q.sw 3 (2 ^ 27 + q.region))
  else (s.rowAhead q.sw a n).map (s.rowWait q.sw)

/-! Core scratch (R41, R354). -/

/-- The physical core that carries logical core `c`: its own, or for a hole its carrier's (R466). -/
def State.physOf (s : State) (c : Nat) : Nat :=
  let r := c / 8
  let p := s.sub .RGN_CORE_MAP_PHYS r (4 * (c % 8)) 4
  let carrier := s.sub .RGN_LIMP_CARRIER r (4 * (c % 8)) 4
  9 * r + (if p ≠ 15 then p else s.sub .RGN_CORE_MAP_PHYS r (4 * (carrier % 8)) 4)

/-- The `scratch` address of byte `a` of a logical core's scratch. -/
def State.scrAddr (s : State) (c a : Nat) : Nat := 4194304 * s.physOf c + a % 4194304

/-- Reads core scratch. -/
def State.scr (s : State) (c a n : Nat) : List Byte := Memory.bytes 0 s.mem.st.scratch (s.scrAddr c a) n

/-- Writes core scratch. -/
def State.putScr (s : State) (c a : Nat) (bs : List Byte) : State :=
  s.setStores { s.mem.st with scratch := Memory.write 0 s.mem.st.scratch (s.scrAddr c a) bs }

/-- Does a stretch lie in the swatch's core scratch window (R354)? An empty stretch does. -/
def State.inWindow (s : State) (k a n : Nat) : Bool :=
  n = 0 || (65536 * s.desc k 128 6 ≤ a && a + n ≤ 65536 * (s.desc k 128 6 + s.desc k 134 7))

/-- Is an operand's extent within its space (R73, R79, R248, R354)? -/
def State.inSpace (s : State) (k region sp a n : Nat) : Bool :=
  if sp = 0 then s.inWindow k a n
  else if sp = 1 then n = 0 || a + n ≤ s.window region k
  else true

/-- Does a stretch of a pocket window touch a way that is being zeroed (R247)? -/
def State.zeroingAt (s : State) (r k a n : Nat) : Bool :=
  (List.range ((a % 4194304 + n + 4194303) / 4194304)).any (fun i => s.windowZeroing r k (a + 4194304 * i))

/-- The stretches of `n` bytes at `a` within the ways of a window, each of 4 MiB (R248). -/
def windowPieces (a n : Nat) : List (Nat × Nat) :=
  (List.range ((a % 4194304 + n + 4194303) / 4194304)).map (fun i =>
    let lo := natMax a (4194304 * (a / 4194304 + i))
    (lo, natMin (a + n) (4194304 * (a / 4194304 + i + 1)) - lo))

/-- Reads a pocket window. -/
def State.windowRead (s : State) (r k a n : Nat) : List Byte :=
  (windowPieces a n).flatMap (fun p => Memory.bytes 0 s.mem.st.pocket (s.windowAddr r k p.1) p.2)

/-- Writes a pocket window. -/
def State.windowWrite (s : State) (r k a : Nat) (bs : List Byte) : State :=
  s.setStores { s.mem.st with
    pocket := (windowPieces a bs.length).foldl (fun m p =>
      Memory.write 0 m (s.windowAddr r k p.1) ((bs.drop (p.1 - a)).take p.2)) s.mem.st.pocket }

/-- Reads an operand for core `c`: none where the request must wait, with what it has started. (DEDUCED, log 11.) -/
def State.operand (s : State) (c : Nat) (q : Rq) (sp a n : Nat) : State × Option (List Byte) :=
  if sp = 0 then (s, some (s.scr c a n))
  else if sp = 1 then
    if s.zeroingAt q.region q.sw a n then (s.waitOn q.sw 3 (2 ^ 27 + q.region), none)
    else (s, some (s.windowRead q.region q.sw a n))
  else
    match s.rangeWaits q a n false with
    | some t => (t, none)
    | none =>
      let r := (pieces a n).foldl (fun (acc : State × List Byte) p =>
        let x := acc.1.shuttlePiece q p.1 p.2
        (x.1, acc.2 ++ x.2)) (s, [])
      (r.1, some r.2)

/-- Writes an operand for core `c`; false where the write must wait. -/
def State.putOperand (s : State) (c : Nat) (q : Rq) (sp a : Nat) (bs : List Byte) : State × Bool :=
  if sp = 0 then (s.putScr c a bs, true)
  else if sp = 1 then
    if s.zeroingAt q.region q.sw a bs.length then (s.waitOn q.sw 3 (2 ^ 27 + q.region), false)
    else (s.windowWrite q.region q.sw a bs, true)
  else
    match s.rangeWaits q a bs.length true with
    | some t => (t, false)
    | none =>
      ((pieces a bs.length).foldl (fun t p => t.shuttlePut q p.1 ((bs.drop (p.1 - a)).take p.2)) s, true)

end Sys2Proof.Machine
end

