-- ==== Sys2Proof/Machine/Settings.lean ====
section
/-! DEFINITION. The settings that a swatch's step runs under (R18, R84, R152, R153, R243, R350, R351, R355, R381, R422):
recipes, hint bytes, shuttle settings, and the host's writes that wait for a step boundary. -/

namespace Sys2Proof.Machine

/-! Recipes and hints. -/

/-- The tag recipes in force for a step (R152, R153): a KIND that differs from the one in force starts with an empty
history and no ceiling. (DESIGN CHOICE, log 98.) -/
def State.loadRecipes (s : State) (k : Nat) : State :=
  let base := s.desc k 576 52
  let image := s.desc k 896 52
  if base = 0 then s
  else
    (List.range 4096).foldl (fun t g =>
      let h := t.devNat (base + 512 * g) 8
      let kind := bitField h 0 4
      let inForce := bitField (t.devNat (image + 3 * g / 2) 2) (4 * (g % 2)) 4
      let h2 := if kind = inForce then h else setBits (setBits h 8 5 0) 24 8 0x80
      let t := if h2 = h then t else t.putDevNat (base + 512 * g) h2 8
      let r : Recipe := { kind := kind, ceil := bitField h2 24 8, count := bitField h2 8 5 }
      { t with recipes := FMap.set {} t.recipes (4096 * k + g) r }) s

/-- The hint bytes in force for a step (R243). -/
def State.loadHints (s : State) (k : Nat) : State :=
  let base := s.desc k 640 52
  if base = 0 then { s with hints := FMap.clearRange s.hints (4096 * k) (4096 * k + 4096) }
  else
    let bs := s.dev base 4096
    (List.range 4096).foldl (fun t g =>
      { t with hints := FMap.set 0 t.hints (4096 * k + g) ((bs.getD g 0).toNat) }) s

/-- A number clamped to a range; 0 acts as the lower end. -/
def clampTo (v hi : Nat) : Nat := natMin (natMax v 1) hi

/-- The recipe image of the save area (R355): KIND and CEIL of two tags in every 3 bytes. -/
def State.putImage (s : State) (k : Nat) : State :=
  let stat := s.desc k 576 52
  if stat = 0 then s
  else
    let code (g : Nat) : Nat := let h := s.devNat (stat + 512 * g) 8; bitField h 0 4 + 16 * bitField h 24 8
    s.putDev (s.desc k 896 52) ((List.range 2048).flatMap (fun i => leBytes (code (2 * i) + 4096 * code (2 * i + 1)) 3))

/-! Host writes that come into force at a step boundary. -/

/-- The bits of word `w` of a descriptor that only the device writes (R350). -/
def deviceBits (w : Nat) : Nat := if w = 28 || w = 29 then 64 else if w = 30 then 28 else 0

/-- RUN returns to 0, or to 6 for a swatch that awaits state transfer (R208). -/
def State.runAgain (s : State) (k : Nat) : State := s.setRun k (if (s.sw k).behind then 6 else 0)

/-- A host write to word `w` of a descriptor comes into force: device fields keep their values; an invalid swatch is
checked again at its next step, its run plan with it (R350, R352, R353). -/
def State.putDescWord (s : State) (k w v : Nat) : State :=
  let n := deviceBits w
  let keep := s.desc k (64 * w) 64 % 2 ^ n
  let s := s.setDesc k (64 * w) 64 (keep + (v >>> n) % 2 ^ (64 - n) * 2 ^ n)
  let s := if s.run k = 7 then (s.runAgain k).updSw k (fun r => { r with planDirty := true }) else s
  if w = 5 || w = 15 then s.updSw k (fun r => { r with planDirty := true }) else s

/-- A held write is applied (R351, R422). -/
def State.applyHeld (s : State) (h : HeldWrite) : State :=
  if h.desc then s.putDescWord h.sw (h.addr / 8 % 32) (leNat (h.data.map (BitVec.ofNat 8)))
  else s.putDev h.addr (h.data.map (BitVec.ofNat 8))

/-- A commit's last held write has been applied. (DESIGN CHOICE, log 120.) -/
def State.commitDone (s : State) (fn num : Nat) : State :=
  if num = 0 || s.held.any (fun h => h.fn = fn && h.num = num) then s
  else
    let s := (s.setF .TXN_APPLIED_APPLIED fn num).setF .TXN_STATUS_HELD fn (s.f .TXN_STATUS_HELD fn - 1)
    s.interrupt fn 2

/-- The writes held for a swatch's boundary come into force, in order. -/
def State.applyHelds (s : State) (k : Nat) : State :=
  let mine := s.held.filter (fun h => h.sw = k)
  let s := mine.foldl State.applyHeld { s with held := s.held.filter (fun h => h.sw ≠ k) }
  let commits := (mine.map (fun h => (h.fn, h.num))).eraseDups
  commits.foldl (fun t c => t.commitDone c.1 c.2) s

/-- A swatch's tables of tag counters and tag statistics, and its recipe image (R121, R150, R355). -/
def State.tagTables (s : State) (k : Nat) : List (Nat × Nat) :=
  (if s.desc k 512 52 = 0 then [] else [(s.desc k 512 52, 32768)])
    ++ (if s.desc k 576 52 = 0 then [] else [(s.desc k 576 52, 2097152), (s.desc k 896 52, 6144)])

/-- The swatch whose step holds back a host write to a byte until its boundary: one of its tag counter table, or the KIND of
a tag (R18, R121, R153). (DESIGN CHOICE, log 98.) -/
def State.tagHolder (s : State) (a : Nat) : Option Nat :=
  s.startedSws.find? (fun k =>
    (s.desc k 512 52 ≠ 0 && s.desc k 512 52 ≤ a && a < s.desc k 512 52 + 32768)
      || (s.desc k 576 52 ≠ 0 && s.desc k 576 52 ≤ a && a < s.desc k 576 52 + 2097152
        && (a - s.desc k 576 52) % 512 = 0))

/-- A host write of bytes to the tiered space: at once, but for the bytes that a running step holds back. -/
def State.hostPut (s : State) (a : Nat) (bs : List Byte) : State :=
  if (List.range bs.length).all (fun i => (s.tagHolder (a + i)).isNone) then s.putDev a bs
  else bs.zipIdx.foldl (fun t p =>
    match s.tagHolder (a + p.2) with
    | none => t.putDev (a + p.2) [p.1]
    | some k => { t with held := t.held ++
        [({ sw := k, desc := false, addr := a + p.2, data := [p.1.toNat], fn := 0, num := 0 } : HeldWrite)] }) s

/-! What a step takes (R18). -/

/-- The shuttle settings in force for a core: LOAD_DIST, the ring's size and its place, cut at the end of scratch (R60,
R84, R87). -/
def State.takeShuttle (s : State) (c : Nat) : State :=
  let stage := 16384 * clampTo (s.f .CORE_SHUTTLE_CFG_STAGE c) 48
  let base := 16384 * s.f .CORE_SHUTTLE_CFG_STAGE_BASE c
  s.setCore c { s.core c with
    dist := clampTo (s.f .CORE_SHUTTLE_CFG_LOAD_DIST c) 32, ring := natMin stage (4194304 - base), ringBase := base
    ringAt := 0 }

/-- The settings of a swatch as they stand are those its step runs under: the writes held for it are applied, recipes, hint
bytes and the limits of SWT_CFG and TIER_CFG are taken. -/
def State.takeSettings (s : State) (k : Nat) : State :=
  let s := (((s.applyHelds k).loadRecipes k).putImage k).loadHints k
  s.updSw k (fun r => { r with
    maxOut := s.f .SWT_CFG_MAX_OUT 0, preempt := s.f .SWT_CFG_PREEMPT 0, stallMs := s.f .TIER_CFG_STALL_LIMIT 0 })

/-- A change accepted before the first matrix instruction of a step issues takes effect for that step (R18): at that
instruction the settings are taken anew. (DEDUCED, log 42.) -/
def State.openStep (s : State) (k : Nat) : State :=
  if (s.sw k).opened || !(s.sw k).started then s
  else
    let s := (s.takeSettings k).updSw k (fun r => { r with opened := true })
    (s.swCores k).foldl State.takeShuttle s

end Sys2Proof.Machine
end

