-- ==== Sys2Proof/Machine/Operands.lean ====
section
/-! DEFINITION. Operands of the core's words: descriptor slots, the recipe of a tag, and every check that refuses a
word at issue (R71 to R80, R97, R126, R131 to R135, R140, R141, R153). -/

namespace Sys2Proof.Machine

/-- The image in descriptor slot `i` of core `c`. -/
def State.slot (s : State) (c i : Nat) : Nat := FMap.get 0 (s.core c).slots i

/-- The swatch that core `c` runs. -/
def State.swOf (s : State) (c : Nat) : Nat := s.f .CORE_STATUS_SWATCH c

/-- The recipe in force of a swatch's tag (R152, R153). -/
def State.recipe (s : State) (k tag : Nat) : Recipe := FMap.get {} s.recipes (4096 * k + tag)

/-- Does the recipe's KIND allow an output of this format and scaling (R97, R153)? -/
def outputOk (kind fmt : Nat) (scaled : Bool) : Bool :=
  let wide := fmt = 6 || fmt = 7
  if kind ≤ 1 then (if scaled then fmt ≤ 1 else fmt ≤ 1 || fmt = 5 || wide)
  else if kind = 2 then (fmt = 0 && scaled) || (!scaled && (wide || fmt = 5))
  else if kind = 3 || kind = 4 then (fmt = 1 && scaled) || (!scaled && (wide || fmt = 5))
  else if kind = 5 then (fmt = 0 && scaled) || (!scaled && fmt = 6)
  else if kind = 6 then !scaled && wide
  else false

/-- Is an operand's extent, elements and scales, within its space for core `c` (R79)? (DEDUCED, log 16.) -/
def State.inBounds (s : State) (c d : Nat) : Bool :=
  s.inSpace (s.swOf c) (c / 8) (dSpace d) (dBase d) (dExtent d)
    && s.inSpace (s.swOf c) (c / 8) (dSpace d) (dScaleBase d) (dScaleExtent d)

/-- Refusal codes (R79). -/
def rfIllegal : Nat := 1
/-- K_TOO_LONG. -/
def rfKTooLong : Nat := 2
/-- N_TOO_LONG. -/
def rfNTooLong : Nat := 3
/-- SHAPE. -/
def rfShape : Nat := 4
/-- FORMAT. -/
def rfFormat : Nat := 5
/-- BOUNDS. -/
def rfBounds : Nat := 6
/-- GEN. -/
def rfGen : Nat := 7

/-- The first check that fails, by its code; 0 when none does. -/
def firstFail : List (Bool × Nat) → Nat
  | [] => 0
  | (bad, code) :: rest => if bad then code else firstFail rest

/-- Are the formats of A and W allowed together (R56, R78)? -/
def pairOk (a w : Nat) : Bool := (a ≤ 4 && w ≤ 4) || (a = 5 && w = 5)

/-- May a code be an output or an accumulate-in format of the matrix path (R78)? -/
def matOutFmt (f : Nat) : Bool := f ≤ 1 || f = 5 || f = 6

/-- The checks of an MMA in the order of R73; the descriptors are A, W, C, I, S. -/
def State.mmaCheck (s : State) (c : Nat) (a w o i r : Nat) (acc fuse : Bool) (n : Nat) : Nat :=
  let used := [a, w, o] ++ (if acc then [i] else []) ++ (if fuse then [r] else [])
  firstFail
    [(used.any (fun d => dSpace d = 3), rfIllegal),
     (used.any (fun d => dGen d ≠ 1), rfGen),
     (2 ^ 20 < n, rfNTooLong),
     (2 ^ 24 < dRows w, rfKTooLong),
     (dCols a ≠ dRows w || dCols w = 0 || 64 < dCols w || dRows a < n || dRows o < n || dCols o ≠ dCols w
        || (acc && (dRows i ≠ dRows o || dCols i ≠ dCols o)) || (fuse && (dRows r < n || dCols r ≠ 1)), rfShape),
     (!pairOk (dFmt a) (dFmt w) || (dScaled a && (dFmt a = 5 || dBaxis a)) || (dScaled w && (dFmt w = 5 || !dBaxis w))
        || !matOutFmt (dFmt o) || !outputOk (s.recipe (s.swOf c) (dTag o)).kind (dFmt o) (dScaled o)
        || (acc && (!matOutFmt (dFmt i) || (dScaled i && 1 < dFmt i)))
        || (fuse && (dFmt r ≠ 8 || dScaled r)), rfFormat),
     (used.any (fun d => !s.inBounds c d), rfBounds)]

/-- The checks of a CPY in the order of R75. -/
def State.cpyCheck (s : State) (c a b rows : Nat) : Nat :=
  firstFail
    [(dSpace a = 3 || dSpace b = 3, rfIllegal),
     (dGen a ≠ 1 || dGen b ≠ 1, rfGen),
     (dRows a < rows || dRows b < rows || dCols b < dCols a, rfShape),
     (dFmt a ≠ dFmt b || dScaled a ≠ dScaled b || 8 < dFmt a || (dScaled a && 4 < dFmt a), rfFormat),
     (!s.inBounds c a || !s.inBounds c b, rfBounds)]

/-- Which of the slots TX, TY, TZ, TR a vector word uses (R132, R133). VRSC CLOSE, which leaves Z untouched, uses its
slot as R132 says of the opcode. (DEDUCED, log 153.) -/
def vecUses (op fn : Nat) : Bool × Bool × Bool × Bool :=
  if op = 0x28 then (true, 1 ≤ fn && fn ≤ 5, true, false)
  else if op = 0x29 then (true, true, true, false)
  else if op = 0x2A then (true, false, true, false)
  else if op = 0x2B then (true, true, true, false)
  else if op = 0x2C then (true, false, true, true)
  else if op = 0x2D then (false, false, true, true)
  else if op = 0x2E then (false, false, false, true)
  else if op = 0x2F then (true, true, false, true)
  else if op = 0x30 then (true, true, true, true)
  else if op = 0x31 then (true, true, true, true)
  else (true, false, true, false)

/-- Does a vector word write Z transposed (R133)? -/
def vecT (op fn : Nat) : Bool := (op = 0x2C || op = 0x30) && bitAt fn 1

/-- The checks of a vector word in the order of R135. X of VSBWD holds probabilities and no scores, and
Z of VLOSS is one value, so it needs one row and one column and not N. (DEDUCED, log 154.) -/
def State.vecCheck (s : State) (c op fn n : Nat) (x y z r : Nat) : Nat :=
  let u := vecUses op fn
  let used := (if u.1 then [x] else []) ++ (if u.2.1 then [y] else []) ++ (if u.2.2.1 then [z] else [])
    ++ (if u.2.2.2 then [r] else [])
  let oneRow := op ≠ 0x31 && dRows y = 1 && dCols y = dCols x
  let holdsRow := [0x28, 0x29, 0x2B, 0x2C, 0x30, 0x32].contains op
  firstFail
    [(used.any (fun d => dSpace d = 3), rfIllegal),
     (used.any (fun d => dGen d ≠ 1), rfGen),
     (2 ^ 20 < n, rfNTooLong),
     ((u.1 && dRows x < n) || (u.2.1 && !oneRow && dRows y < n)
        || (u.2.1 && op ≠ 0x31 && !oneRow && !(dRows y = dRows x && dCols y = dCols x))
        || (holdsRow && !vecT op fn && (dRows z < n || dCols z < dCols x))
        || (holdsRow && vecT op fn && (dCols z < n || dRows z < dCols x))
        || (op = 0x2A && (dRows z < n || dCols z ≠ 1))
        || (op = 0x2D && u.2.2.1 && dRows z < n)
        || (op = 0x31 && (dRows z = 0 || dCols z = 0))
        || (u.2.2.2 && dRows r < n)
        || (op = 0x31 && dCols y ≠ 1), rfShape),
     ((u.2.2.2 && dFmt r ≠ 8)
        || ((op = 0x2C || op = 0x31) && dFmt x ≠ 6) || (op = 0x30 && dFmt y ≠ 6)
        || (op = 0x31 && dFmt z ≠ 7)
        || (u.1 && 7 < dFmt x) || (u.2.1 && 7 < dFmt y)
        || (u.2.2.1 && !outputOk (s.recipe (s.swOf c) (dTag z)).kind (dFmt z) (dScaled z))
        || used.any (fun d => dScaled d && 4 < dFmt d), rfFormat),
     (used.any (fun d => dSpace d ≠ 0 || !s.inBounds c d), rfBounds)]

end Sys2Proof.Machine
end

