-- ==== Sys2Proof/Machine/Seq.lean ====
section
/-! DEFINITION. The sequencer of a needle core (R63 to R75, R82, R125, R128, R134): one command for each word it
issues, and the ends of its waits. -/

namespace Sys2Proof.Machine

/-- A logical core number (R38). -/
def coreOk (c : Nat) : Bool := c < 384

/-- Does core `c`'s sequencer issue: running, not waiting, its step not broken, no switch asked for (R29, R65, R363)? -/
def State.issues (s : State) (c : Nat) : Bool :=
  s.f .CORE_STATUS_STATE c = 1 && (s.core c).wait = .none && s.f .CORE_STATUS_BROKEN c = 0
    && (FMap.get none s.switches c).isNone && !(s.core c).asleep

/-- A refusal (R67): the code and the place are recorded, the event counted and the swatch's step broken. The word
counts as issued (R89). -/
def State.refuse (s : State) (c code : Nat) : State :=
  let s := (s.setF .CORE_STATUS_LAST_REFUSAL c code).setF .CORE_STATUS_REFUSAL_PC c (s.f .CORE_PC_PC c)
  let s := ((s.raise .CORE_STATUS_REFUSED c).tally .CORE_REFUSALS c 1).tally .CORE_ISSUED c 1
  s.failStep (s.swOf c) causeBroken

/-- The word counts as issued and the next one follows it. -/
def State.issued (s : State) (c : Nat) : State :=
  let s := (s.tally .CORE_ISSUED c 1).setF .CORE_PC_PC c (s.f .CORE_PC_PC c + 1)
  s.setCore c { s.core c with issued := (s.core c).issued + 1 }

/-- The word at the core's issue position. -/
def State.wordAt (s : State) (c : Nat) : Nat := leNat (s.scr c (8 * s.f .CORE_PC_PC c) 8)

/-- The sequencer's step for a word that `is` recognises: a fetch outside the window is refused (R354), a word of
another kind is none of this command's, an illegal one is refused (R66), a legal one is acted on. -/
def issueWord (c : Nat) (is : Nat → Bool) (f : CoreWord → State → State) (s : State) : State :=
  if !s.issues c then s
  else if !s.inWindow (s.swOf c) (8 * s.f .CORE_PC_PC c) 8 then s.refuse c rfBounds
  else
    let w := s.wordAt c
    if !is w then s
    else
      match decodeWord w with
      | none => s.refuse c rfIllegal
      | some x => f x s

/-- A queue entry with the core's descriptor copies and vector registers (R64, R134). -/
def State.entry (s : State) (c word : Nat) (descs : List Nat) : QEnt where
  seq := (s.core c).issued
  word := word
  descs := descs
  beta := s.f .VEC_BETA_BETA c
  eps := s.f .VEC_EPS_EPS c
  qbase := s.f .VEC_POS_QBASE c
  kbase := s.f .VEC_POS_KBASE c
  mask := s.f .VEC_POS_MASK c

/-- The sequencer waits. -/
def State.setWait (s : State) (c : Nat) (w : SeqWait) : State :=
  s.setCore c { s.core c with wait := w, waitSince := s.now }

/-- A tag's counts in the running step. (DESIGN CHOICE, log 38.) -/
def State.tag (s : State) (k t : Nat) : TagAcc := FMap.get {} s.tags (4096 * k + t)
/-- Writes them. -/
def State.setTag (s : State) (k t : Nat) (v : TagAcc) : State :=
  { s with tags := FMap.set {} s.tags (4096 * k + t) v }

/-- Does a word with opcode `op` stand there? -/
def isOp (op w : Nat) : Bool := opOf w = op

/-- NOP (R70). -/
def issueNop (c : Nat) : State → State := issueWord c (isOp 0x00) (fun _ s => s.issued c)

/-- NOP. -/
def execNop (c : Nat) (s : State) : Host.Outcome State Fault Refusal := act (coreOk c) (whenUp (issueNop c)) s

/-- MMA (R72, R73): checked, and queued with copies of its descriptors; N = 0 retires at once (R80); K beyond 2^20
counts as compensated (R107); the swatch's step is open from its first matrix instruction (R197), under the settings that
stand then (R18). (DEDUCED, log 43.) -/
def issueMma (c : Nat) : State → State :=
  issueWord c (isOp 0x01) (fun x s =>
    match x with
    | .mma ta tw tc ti ts acc fuse _ _ n =>
      let a := s.slot c ta
      let w := s.slot c tw
      let o := s.slot c tc
      let i := s.slot c ti
      let r := s.slot c ts
      let s := s.openStep (s.swOf c)
      let code := s.mmaCheck c a w o i r acc fuse n
      if code ≠ 0 then s.refuse c code
      else if n ≠ 0 && 16 ≤ ((s.core c).matQ).length then s.setWait c (.full 0)
      else
        let k := s.swOf c
        let s := if 2 ^ 20 < dRows w then
            (s.tally .ARR_COMP_INSTR c 1).setTag k (dTag o)
              { s.tag k (dTag o) with comp := satAdd (s.tag k (dTag o)).comp 1 }
          else s
        let e := s.entry c (s.wordAt c) [a, w, o, i, r]
        if n = 0 then s.issued c
        else (s.setCore c { s.core c with matQ := (s.core c).matQ ++ [e] }).issued c
    | _ => s)

/-- MMA. -/
def execMma (c : Nat) (s : State) : Host.Outcome State Fault Refusal := act (coreOk c) (whenUp (issueMma c)) s

/-- TDLD (R75): the image is read, checked and put into its slot. -/
def issueTdld (c : Nat) : State → State :=
  issueWord c (isOp 0x08) (fun x s =>
    match x with
    | .tdld slot off =>
      let d := leNat (s.scr c (32 * off) 32)
      let code := firstFail [(!s.inWindow (s.swOf c) (32 * off) 32, rfBounds), (!dReservedZero d, rfIllegal),
        (dGen d ≠ 1, rfGen)]
      if code ≠ 0 then s.refuse c code
      else (s.setCore c { s.core c with slots := FMap.set 0 (s.core c).slots slot d }).issued c
    | _ => s)

/-- TDLD. -/
def execTdld (c : Nat) (s : State) : Host.Outcome State Fault Refusal := act (coreOk c) (whenUp (issueTdld c)) s

/-- An image whose BASE or SCALE_BASE moves by a signed 40-bit offset, modulo 2^52 (R74). -/
def dMoved (d : Nat) (scale : Bool) (delta : Nat) : Nat :=
  let v := if scale then dScaleBase d else dBase d
  setBits d (if scale then 192 else 32) 52 (ofSigned (Int.ofNat v + signedOf delta 40) 52)

/-- TDADD (R74). -/
def issueTdadd (c : Nat) : State → State :=
  issueWord c (isOp 0x09) (fun x s =>
    match x with
    | .tdadd slot scale delta =>
      let d := dMoved (s.slot c slot) scale delta
      (s.setCore c { s.core c with slots := FMap.set 0 (s.core c).slots slot d }).issued c
    | _ => s)

/-- TDADD. -/
def execTdadd (c : Nat) (s : State) : Host.Outcome State Fault Refusal := act (coreOk c) (whenUp (issueTdadd c)) s

/-- CPY (R75): checked, and queued for the shuttle that ENG names. -/
def issueCpy (c : Nat) : State → State :=
  issueWord c (isOp 0x10) (fun x s =>
    match x with
    | .cpy src dst _ _ rows =>
      let a := s.slot c src
      let b := s.slot c dst
      let code := s.cpyCheck c a b rows
      if code ≠ 0 then s.refuse c code
      else if 16 ≤ ((s.core c).shQ).length then s.setWait c (.full 1)
      else
        let e := s.entry c (s.wordAt c) [a, b]
        (s.setCore c { s.core c with shQ := (s.core c).shQ ++ [e] }).issued c
    | _ => s)

/-- CPY. -/
def execCpy (c : Nat) (s : State) : Host.Outcome State Fault Refusal := act (coreOk c) (whenUp (issueCpy c)) s

/-- The words queued before word number `seq` have all left their queues: their writes are complete. -/
def Core.clearBefore (k : Core) (seq : Nat) : Bool :=
  (k.matQ ++ k.shQ ++ k.vecQ).all (fun e => seq ≤ e.seq)

/-- The steps of a queued matrix instruction: row blocks times K-tiles; with K = 0 one staging per row block. -/
def QEnt.steps (e : QEnt) : Nat :=
  ceilDiv (bitField e.word 0 21) 256 * natMax (ceilDiv (dRows (e.descs.getD 1 0)) 64) 1

/-- The load shuttle has finished the work of the words before `seq` (R74). -/
def Core.loadedBefore (k : Core) (seq : Nat) : Bool :=
  k.matQ.all (fun e => seq ≤ e.seq || e.steps ≤ e.staged)
    && k.shQ.all (fun e => seq ≤ e.seq || bitAt e.word 47)

/-- FENCE (R74). -/
def issueFence (c : Nat) : State → State :=
  issueWord c (isOp 0x18) (fun x s =>
    match x with
    | .fence ld st =>
      let seq := (s.core c).issued
      let s := s.issued c
      if ld || st then s.setWait c (.fence ld st seq) else s
    | _ => s)

/-- FENCE. -/
def execFence (c : Nat) (s : State) : Host.Outcome State Fault Refusal := act (coreOk c) (whenUp (issueFence c)) s

/-- SYNC (R75): the core waits at the barrier. -/
def issueSync (c : Nat) : State → State :=
  issueWord c (isOp 0x19) (fun x s =>
    match x with
    | .sync scope barrier =>
      let seq := (s.core c).issued
      ((s.issued c).setWait c (.sync scope barrier seq)).setF .CORE_STATUS_STATE c 2
    | _ => s)

/-- SYNC. -/
def execSync (c : Nat) (s : State) : Host.Outcome State Fault Refusal := act (coreOk c) (whenUp (issueSync c)) s

/-- The height of the nest that a LOOP at `pc` with a body of `back` words closes. (DESIGN CHOICE, log 44.) -/
def Core.nestAt (k : Core) (pc back : Nat) : Nat :=
  1 + (k.nest.filter (fun p => pc ≤ p.1 + back && p.1 < pc)).foldl (fun n p => natMax n p.2) 0

/-- LOOP (R75): the body before it runs COUNT times in total; a fifth level is refused. -/
def issueLoop (c : Nat) : State → State :=
  issueWord c (isOp 0x20) (fun x s =>
    match x with
    | .loop count back =>
      let k := s.core c
      let pc := s.f .CORE_PC_PC c
      let again (t : State) : State := t.setF .CORE_PC_PC c (pc + 2 ^ 19 - back)
      match k.loops with
      | (p, left) :: rest =>
        if p = pc then
          if left ≤ 1 then
            let s := (s.issued c).setF .CORE_PC_DEPTH c rest.length
            s.setCore c { s.core c with loops := rest }
          else again ((s.issued c).setCore c { (s.issued c).core c with loops := (p, left - 1) :: rest })
        else if 4 < k.nestAt pc back || (count ≠ 1 && 4 ≤ k.loops.length) then s.refuse c rfIllegal
        else
          let s := (s.issued c).setCore c { (s.issued c).core c with nest := (pc, k.nestAt pc back) :: k.nest }
          if count = 1 then s
          else again ((s.setCore c { s.core c with loops := (pc, count - 1) :: k.loops }).setF .CORE_PC_DEPTH c
            (k.loops.length + 1))
      | [] =>
        if 4 < k.nestAt pc back then s.refuse c rfIllegal
        else
          let s := (s.issued c).setCore c { (s.issued c).core c with nest := (pc, k.nestAt pc back) :: k.nest }
          if count = 1 then s
          else again ((s.setCore c { s.core c with loops := [(pc, count - 1)] }).setF .CORE_PC_DEPTH c 1)
    | _ => s)

/-- LOOP. -/
def execLoop (c : Nat) (s : State) : Host.Outcome State Fault Refusal := act (coreOk c) (whenUp (issueLoop c)) s

/-- STEPEND (R75, R128): the program of the step ends, and the core waits for its shuttles and vector unit. -/
def issueStepend (c : Nat) : State → State :=
  issueWord c (isOp 0x3F) (fun _ s => (s.issued c).setWait c .stepend)

/-- STEPEND. -/
def execStepend (c : Nat) (s : State) : Host.Outcome State Fault Refusal := act (coreOk c) (whenUp (issueStepend c)) s

/-- Opcodes that no word has (R70, R132). -/
def unassigned (w : Nat) : Bool :=
  let op := opOf w
  !(op = 0x00 || op = 0x01 || op = 0x08 || op = 0x09 || op = 0x10 || op = 0x18 || op = 0x19 || op = 0x20
    || (0x28 ≤ op && op ≤ 0x34) || op = 0x3F)

/-- A word with an unassigned opcode is refused (R70). -/
def issueIllegal (c : Nat) : State → State := issueWord c unassigned (fun _ s => s)

/-- ILLEGAL_WORD. -/
def execIllegalWord (c : Nat) (s : State) : Host.Outcome State Fault Refusal :=
  act (coreOk c) (whenUp (issueIllegal c)) s

/-! Vector words. -/

/-- A vector word of the layout of R131 (R135): checked and queued; N = 0 performs nothing and retires. -/
def issueVec (c : Nat) (is : Nat → Bool) : State → State :=
  issueWord c is (fun x s =>
    match x with
    | .vec op tx ty tz tr fn _ n =>
      let dx := s.slot c tx
      let dy := s.slot c ty
      let dz := s.slot c tz
      let dr := s.slot c tr
      let code := s.vecCheck c op fn n dx dy dz dr
      if code ≠ 0 then s.refuse c code
      else if n = 0 then s.issued c
      else if 16 ≤ ((s.core c).vecQ).length then s.setWait c (.full 2)
      else
        let e := s.entry c (s.wordAt c) [dx, dy, dz, dr]
        (s.setCore c { s.core c with vecQ := (s.core c).vecQ ++ [e] }).issued c
    | _ => s)

/-- VRSC words, told apart by FN (R133); FN codes that none has go with RESCALE. -/
def isVrsc (f : Nat → Bool) (w : Nat) : Bool := opOf w = 0x2D && f (bitField w 34 4)

/-- VMAP. -/
def execVmap (c : Nat) (s : State) : Host.Outcome State Fault Refusal :=
  act (coreOk c) (whenUp (issueVec c (isOp 0x28))) s
/-- VFMA. -/
def execVfma (c : Nat) (s : State) : Host.Outcome State Fault Refusal :=
  act (coreOk c) (whenUp (issueVec c (isOp 0x29))) s
/-- VROW. -/
def execVrow (c : Nat) (s : State) : Host.Outcome State Fault Refusal :=
  act (coreOk c) (whenUp (issueVec c (isOp 0x2A))) s
/-- VNORM. -/
def execVnorm (c : Nat) (s : State) : Host.Outcome State Fault Refusal :=
  act (coreOk c) (whenUp (issueVec c (isOp 0x2B))) s
/-- VSMAX. -/
def execVsmax (c : Nat) (s : State) : Host.Outcome State Fault Refusal :=
  act (coreOk c) (whenUp (issueVec c (isOp 0x2C))) s
/-- VRSC RESCALE. -/
def execVrscRescale (c : Nat) (s : State) : Host.Outcome State Fault Refusal :=
  act (coreOk c) (whenUp (issueVec c (isVrsc (fun f => f = 0 || 2 < f)))) s
/-- VRSC FINAL. -/
def execVrscFinal (c : Nat) (s : State) : Host.Outcome State Fault Refusal :=
  act (coreOk c) (whenUp (issueVec c (isVrsc (fun f => f = 1)))) s
/-- VRSC CLOSE. -/
def execVrscClose (c : Nat) (s : State) : Host.Outcome State Fault Refusal :=
  act (coreOk c) (whenUp (issueVec c (isVrsc (fun f => f = 2)))) s
/-- VSTI. -/
def execVsti (c : Nat) (s : State) : Host.Outcome State Fault Refusal :=
  act (coreOk c) (whenUp (issueVec c (isOp 0x2E))) s
/-- VDOT. -/
def execVdot (c : Nat) (s : State) : Host.Outcome State Fault Refusal :=
  act (coreOk c) (whenUp (issueVec c (isOp 0x2F))) s
/-- VSBWD. -/
def execVsbwd (c : Nat) (s : State) : Host.Outcome State Fault Refusal :=
  act (coreOk c) (whenUp (issueVec c (isOp 0x30))) s
/-- VLOSS. -/
def execVloss (c : Nat) (s : State) : Host.Outcome State Fault Refusal :=
  act (coreOk c) (whenUp (issueVec c (isOp 0x31))) s
/-- VQNT. -/
def execVqnt (c : Nat) (s : State) : Host.Outcome State Fault Refusal :=
  act (coreOk c) (whenUp (issueVec c (isOp 0x32))) s

/-- VPOS (R134): the positions and the mask mode for later words. -/
def issueVpos (c : Nat) : State → State :=
  issueWord c (isOp 0x33) (fun x s =>
    match x with
    | .vpos q k m =>
      (((s.setF .VEC_POS_QBASE c q).setF .VEC_POS_KBASE c k).setF .VEC_POS_MASK c m).issued c
    | _ => s)

/-- VPOS. -/
def execVpos (c : Nat) (s : State) : Host.Outcome State Fault Refusal := act (coreOk c) (whenUp (issueVpos c)) s

/-- VSETF (R134): BETA or EPS takes the FP32 bits given. -/
def issueVsetf (c : Nat) : State → State :=
  issueWord c (isOp 0x34) (fun x s =>
    match x with
    | .vsetf r v => (if r = 0 then s.setF .VEC_BETA_BETA c v else s.setF .VEC_EPS_EPS c v).issued c
    | _ => s)

/-- VSETF. -/
def execVsetf (c : Nat) (s : State) : Host.Outcome State Fault Refusal := act (coreOk c) (whenUp (issueVsetf c)) s

/-! The ends of waits. -/

/-- The WST bit of a queued word: bit 28 of MMA and vector words, bit 46 of CPY. -/
def QEnt.wst (e : QEnt) : Bool := if opOf e.word = 0x10 then bitAt e.word 46 else bitAt e.word 28

/-- Lets the first waiting word of a queue begin, once nothing before it is left (R63, R128). -/
def Core.release (k : Core) (l : List QEnt) : List QEnt :=
  match l.findIdx? (fun e => e.wst && !e.go) with
  | none => l
  | some i =>
    match l[i]? with
    | none => l
    | some e => if k.clearBefore e.seq then l.set i { e with go := true } else l

/-- A word with WST = 1 in queue `q` (0 matrix, 1 shuttle, 2 vector) begins (R63, R128). -/
def wstRelease (c q : Nat) (s : State) : State :=
  let k := s.core c
  s.setCore c (if q = 0 then { k with matQ := k.release k.matQ }
    else if q = 1 then { k with shQ := k.release k.shQ }
    else { k with vecQ := k.release k.vecQ })

/-- WST_RELEASE. -/
def execWstRelease (c q : Nat) (s : State) : Host.Outcome State Fault Refusal :=
  act (coreOk c && q < 3) (whenUp (wstRelease c q)) s

/-- A waiting FENCE completes (R74, R128). (DEDUCED, log 22.) -/
def fenceComplete (c : Nat) (s : State) : State :=
  let k := s.core c
  match k.wait with
  | .fence ld st seq =>
    if (!ld || k.loadedBefore seq) && (!st || k.clearBefore seq) then s.setWait c .none else s
  | _ => s

/-- FENCE_COMPLETE. -/
def execFenceComplete (c : Nat) (s : State) : Host.Outcome State Fault Refusal :=
  act (coreOk c) (whenUp (fenceComplete c)) s

/-- Has core `c` reached the barrier in the step, or passed it? A core switched out has not reached it (R364). -/
def State.atBarrier (s : State) (scope barrier c : Nat) : Bool :=
  (s.core c).passed.contains (256 * scope + barrier) ||
    (match (s.core c).wait with
      | .sync sc b seq => sc = scope && b = barrier && (s.core c).clearBefore seq
      | _ => false)

/-- The cores of a barrier's scope that run the swatch: those of the region, of the partition or of the swatch. -/
def State.scopeCores (s : State) (k scope region : Nat) : List Nat :=
  if scope = 0 then (s.swCores k).filter (fun c => c / 8 = region)
  else if scope = 1 then
    (s.swCores k).filter (fun c => bitAt (s.f .HUB_PART_CFG_REGIONS (s.desc k 3 3)) (c / 8))
  else s.swCores k

/-- A core goes on from a barrier. -/
def passBarrier (scope barrier : Nat) (s : State) (c : Nat) : State :=
  match (s.core c).wait with
  | .sync sc b _ =>
    if sc = scope && b = barrier then
      (s.setCore c { s.core c with
        wait := .none, passed := (256 * scope + barrier) :: (s.core c).passed }).setF .CORE_STATUS_STATE c 1
    else s
  | _ => s

/-- A barrier is released once every core of its scope has reached it (R75); no barrier of a broken step holds (R67).
(DEDUCED, log 45.) -/
def syncRelease (k scope barrier region : Nat) (s : State) : State :=
  let cs := s.scopeCores k scope region
  if cs.all (s.atBarrier scope barrier) || (s.sw k).broken then cs.foldl (passBarrier scope barrier) s else s

/-- SYNC_RELEASE. -/
def execSyncRelease (k scope barrier region : Nat) (s : State) : Host.Outcome State Fault Refusal :=
  act (k < 65536 && scope < 3 && barrier < 256 && region < 48) (whenUp (syncRelease k scope barrier region)) s

/-- At STEPEND with every queue empty the core reports itself done (R75, R128). -/
def stependDone (c : Nat) (s : State) : State :=
  let k := s.core c
  if k.wait = .stepend && k.matQ.isEmpty && k.shQ.isEmpty && k.vecQ.isEmpty then
    (s.setWait c .none).setF .CORE_STATUS_STATE c 5
  else s

/-- STEPEND_DONE. -/
def execStependDone (c : Nat) (s : State) : Host.Outcome State Fault Refusal :=
  act (coreOk c) (whenUp (stependDone c)) s

/-- The full queue has room again, and the sequencer goes on (R65). -/
def issueResume (c : Nat) (s : State) : State :=
  let k := s.core c
  match k.wait with
  | .full q =>
    let len := if q = 0 then k.matQ.length else if q = 1 then k.shQ.length else k.vecQ.length
    if len < 16 then s.setWait c .none else s
  | _ => s

/-- ISSUE_RESUME. -/
def execIssueResume (c : Nat) (s : State) : Host.Outcome State Fault Refusal :=
  act (coreOk c) (whenUp (issueResume c)) s

end Sys2Proof.Machine
end

