-- ==== Sys2Proof/Machine/Flags.lean ====
section
/-! DEFINITION. What the numeric path records (R110, R121 to R124, R129, R149, R155): saturations, non-finite
elements, histograms; and the conversion of results into their output format under the recipe of their tag
(R93, R109, R111, R153, R154). -/

namespace Sys2Proof.Machine

/-- `n` saturations at a stage of the matrix path (R110, R124). -/
def State.satAt (s : State) (c k tag stage n : Nat) : State :=
  if n = 0 then s
  else
    let s := (s.tally .ARR_SAT c n).setTag k tag { s.tag k tag with sat := satAdd (s.tag k tag).sat n }
    ((s.raise .ARR_NUMERIC_SAT_SEEN c).setF .ARR_NUMERIC_LAST_SAT_STAGE c stage).setF .ARR_NUMERIC_LAST_SAT_TAG c tag

/-- `n` saturations of the vector unit (R129). (DEDUCED, log 36.) -/
def State.satVec (s : State) (c k tag n : Nat) : State :=
  if n = 0 then s
  else
    let s := (s.tally .VEC_SAT c n).setTag k tag { s.tag k tag with sat := satAdd (s.tag k tag).sat n }
    (s.raise .VEC_STATUS_SAT_SEEN c).setF .VEC_STATUS_LAST_SAT_TAG c tag

/-- The bin of a value (R149). -/
def binOf : Fv → Nat
  | .nan => 83
  | .inf _ => 83
  | v =>
    if v.isZero then 82
    else if v.expo < -64 then 80
    else if 15 < v.expo then 81
    else (v.expo + 64).toNat

/-- A magnitude rounded once to FP32, never beyond the largest finite value (R149). -/
def amaxBits (v : Fv) : Nat := toF32 v.abs

/-- One value is binned under a tag (R149). FP32 patterns of magnitudes order as their values do. -/
def TagAcc.bin (a : TagAcc) (v : Fv) : TagAcc :=
  let b := binOf v
  { a with
    binned := true
    bins := FMap.set 0 a.bins b (satAdd (FMap.get 0 a.bins b) 1)
    amax := if v.isFinite then natMax a.amax (amaxBits v) else a.amax
    nonfinite := a.nonfinite || !v.isFinite }

/-- Values binned under a tag of a swatch. -/
def State.binAll (s : State) (k tag : Nat) (vs : List Fv) : State :=
  if vs.isEmpty then s else s.setTag k tag (vs.foldl TagAcc.bin (s.tag k tag))

/-- A first-use event (R155). -/
def State.firstUse (s : State) (c k tag : Nat) : State :=
  (s.tally .VEC_FIRST_USE c 1).setTag k tag { s.tag k tag with firstUse := satAdd (s.tag k tag).firstUse 1 }

/-- Does a scaled write into descriptor `z` fall under the first-use rule: E4M3 under ACT with COUNT = 0 (R155)? -/
def State.atFirstUse (s : State) (k z : Nat) : Bool :=
  let r := s.recipe k (dTag z)
  dScaled z && r.kind = 2 && r.count = 0

/-- A block of a scaled output: scale code, element patterns, saturations (R111, R153, R154). -/
def blockOut (r : Recipe) (fmt : Nat) (vs : List Fv) : Nat × List Nat × Nat :=
  if r.kind = 5 then
    let ws := vs.map (fun v => v.scale 8)
    (0x77, ws.map (fpBits fmtE4M3), (ws.filter (fpSat fmtE4M3)).length)
  else if r.kind = 2 && r.count ≠ 0 && r.ceil ≠ 0x80 then
    let xt := signedOf r.ceil 8
    quantBlock fmt xt (-127 - xt) 0 vs
  else quantBlock fmt 0 (-127) 127 vs

/-- An element of an unscaled output: its pattern, and whether it saturated (R109). -/
def elemOut (fmt : Nat) (v : Fv) : Nat × Bool :=
  if fmt = 7 then fpRound fmtW48 v
  else match fmtOf fmt with
    | some f => fpRound f v
    | none => (0, false)

/-- A result being written: rows of patterns, (address, scale code) pairs, saturations, non-finite elements. -/
structure Written where
  rows   : List (Nat × List Nat) := []
  scales : List (Nat × Nat) := []
  sat    : Nat := 0
  nonfin : Nat := 0
  deriving DecidableEq, Repr

/-- How many patterns of a format are infinite or NaN. -/
def nonFinites (fmt : Nat) (ps : List Nat) : Nat := (ps.filter (fun p => !(elemValue fmt p).isFinite)).length

/-- A list cut into pieces of 32. -/
def chunks32 {α : Type} : Nat → List α → List (List α)
  | 0, _ => []
  | n + 1, l => if l.isEmpty then [] else l.take 32 :: chunks32 n (l.drop 32)

/-- A row of an output whose blocks run along rows, or that is unscaled. -/
def rowOut (r : Recipe) (z : Nat) (w : Written) (p : Nat × List Fv) : Written :=
  let fmt := dFmt z
  if dScaled z then
    let bs := (chunks32 (p.2.length / 32 + 1) p.2).map (blockOut r fmt)
    let ps := bs.flatMap (fun b => b.2.1)
    let bad := (bs.filter (fun b => b.1 = 0xFF)).length
    { rows := w.rows ++ [(p.1, ps)]
      scales := w.scales ++ bs.zipIdx.map (fun b => (dScaleAddr z p.1 (32 * b.2), b.1.1))
      sat := w.sat + bs.foldl (fun n b => n + b.2.2) 0
      nonfin := w.nonfin + nonFinites fmt ps + bad }
  else
    let es := p.2.map (elemOut fmt)
    { w with
      rows := w.rows ++ [(p.1, es.map Prod.fst)]
      sat := w.sat + (es.filter Prod.snd).length
      nonfin := w.nonfin + nonFinites fmt (es.map Prod.fst) }

/-- A group of rows of one block row of an output whose blocks run down columns: column by column, then row by row. -/
def columnOut (r : Recipe) (z : Nat) (w : Written) (g : List (Nat × List Fv)) : Written :=
  let fmt := dFmt z
  let cols := ((g.head?).map (fun p => p.2.length)).getD 0
  let i0 := ((g.head?).map Prod.fst).getD 0
  let bs := (List.range cols).map (fun j => blockOut r fmt (g.map (fun p => p.2.getD j .nan)))
  let rows := g.zipIdx.map (fun p => (p.1.1, bs.map (fun b => b.2.1.getD p.2 0)))
  { rows := w.rows ++ rows
    scales := w.scales ++ bs.zipIdx.map (fun b => (dScaleAddr z i0 b.2, b.1.1))
    sat := w.sat + bs.foldl (fun n b => n + b.2.2) 0
    nonfin := w.nonfin + rows.foldl (fun n p => n + nonFinites fmt p.2) 0 + (bs.filter (fun b => b.1 = 0xFF)).length }

/-- Rows, ascending, gathered by their block of 32 rows. -/
def groupRows {α : Type} (rows : List (Nat × α)) : List (List (Nat × α)) :=
  let keys := sortAsc (rows.map (fun p => p.1 / 32))
  keys.map (fun b => rows.filter (fun p => p.1 / 32 = b))

/-- Results in the output format of descriptor `z`. -/
def convertRows (r : Recipe) (z : Nat) (rows : List (Nat × List Fv)) : Written :=
  if dScaled z && dBaxis z then (groupRows rows).foldl (columnOut r z) {}
  else rows.foldl (rowOut r z) {}

/-- A row of patterns as bytes: packed from bit 0 upward (R93). -/
def packRow (w : Nat) (ps : List Nat) : List Byte :=
  leBytes (ps.zipIdx.foldl (fun n p => n + (p.1 % 2 ^ w) * 2 ^ (w * p.2)) 0) ((w * ps.length + 7) / 8)

/-- Writes converted rows and scales into the tensor of descriptor `z` for core `c`. -/
def State.putRows (s : State) (c : Nat) (q : Rq) (z : Nat) (w : Written) : State :=
  let s := w.rows.foldl (fun t p =>
    (t.putOperand c q (dSpace z) (dRowAddr z p.1) (packRow (fmtWidth (dFmt z)) p.2)).1) s
  w.scales.foldl (fun t p => (t.putOperand c q (dSpace z) p.1 [BitVec.ofNat 8 p.2]).1) s

/-- Must an access of rows of a tensor wait? Rows `0` to `n - 1` and the scales; what it has started. -/
def State.tensorWaits (s : State) (q : Rq) (d n : Nat) (write : Bool) : Option State :=
  if dSpace d = 1 then
    if s.zeroingAt q.region q.sw (dBase d) (dExtent d) then some (s.waitOn q.sw 3 (2 ^ 27 + q.region)) else none
  else if dSpace d = 2 && n ≠ 0 then
    match s.rangeWaits q (dBase d) (dExtent (setBits d 128 25 n)) write with
    | some t => some t
    | none => if dScaled d then s.rangeWaits q (dScaleBase d) (dScaleExtent (setBits d 128 25 n)) write else none
  else none

end Sys2Proof.Machine
end

