-- ==== Sys2Proof/Machine/Array.lean ====
section
/-! DEFINITION. The matrix arrays and the shuttles (R27, R42 to R62, R80, R81, R100 to R106, R112, R141 to R143). -/

namespace Sys2Proof.Machine

/-! Shapes of a queued matrix instruction. -/

/-- Its A descriptor. -/
def QEnt.a (e : QEnt) : Nat := e.descs.getD 0 0
/-- Its W descriptor. -/
def QEnt.w (e : QEnt) : Nat := e.descs.getD 1 0
/-- Its C descriptor. -/
def QEnt.c (e : QEnt) : Nat := e.descs.getD 2 0
/-- Its accumulate-in descriptor. -/
def QEnt.i (e : QEnt) : Nat := e.descs.getD 3 0
/-- Its row-statistics descriptor. -/
def QEnt.r (e : QEnt) : Nat := e.descs.getD 4 0
/-- N of the word (matrix and vector words). -/
def QEnt.n (e : QEnt) : Nat := bitField e.word 0 21
/-- K. -/
def QEnt.k (e : QEnt) : Nat := dRows e.w
/-- NC. -/
def QEnt.nc (e : QEnt) : Nat := dCols e.w
/-- Its K-tiles. -/
def QEnt.kt (e : QEnt) : Nat := ceilDiv e.k 64
/-- ACC. -/
def QEnt.acc (e : QEnt) : Bool := bitAt e.word 32
/-- FUSE. -/
def QEnt.fuse (e : QEnt) : Bool := bitAt e.word 31
/-- PI in K-tiles. -/
def QEnt.pi (e : QEnt) : Nat := 2 ^ bitField e.word 29 2
/-- Compensated mode (R50, R107). -/
def QEnt.comp (e : QEnt) : Bool := 2 ^ 20 < e.k
/-- Rows of row block `b` (R48). -/
def QEnt.rows (e : QEnt) (b : Nat) : Nat := natMin e.n (256 * b + 256) - 256 * b
/-- Rows in the fullest array of row block `b` (R59). -/
def QEnt.q (e : QEnt) (b : Nat) : Nat := ceilDiv (e.rows b) 4
/-- Does the instruction run as BF16 passes (R55)? -/
def QEnt.bf16 (e : QEnt) : Bool := dFmt e.a = 5
/-- The width at which it runs: that of the wider operand (R56). -/
def QEnt.width (e : QEnt) : Nat := natMax (fmtWidth (dFmt e.a)) (fmtWidth (dFmt e.w))
/-- Rows per array and cycle (R42, R59). -/
def QEnt.rho (e : QEnt) : Nat := if e.width = 4 then 4 else if e.width = 6 then 2 else 1
/-- Fill cycles of a tile or of a BF16 piece (R53). -/
def QEnt.fillTime (e : QEnt) : Nat := if e.width = 4 then 16 else if e.width = 6 then 32 else 64
/-- Does K-tile `t` end a promotion interval (R50)? -/
def QEnt.ends (e : QEnt) (t : Nat) : Bool := (t + 1) % e.pi = 0 || t + 1 = e.kt
/-- The cycles that promotions add to K-tile `t` in compensated mode (R58, R59). -/
def QEnt.promTime (e : QEnt) (b t : Nat) : Nat :=
  if e.comp && e.ends t && !e.bf16 then ceilDiv (e.q b) 2 else 0
/-- The tag of the output. -/
def QEnt.tag (e : QEnt) : Nat := dTag e.c

/-! Column sums (R100 to R105). -/

/-- One product: its sign, integer significand and exponent; or a flag. -/
inductive Prod1 where
  | none
  | nan
  | inf (neg : Bool)
  | fin (neg : Bool) (m : Nat) (q : Int)
  deriving DecidableEq, Repr

/-- The product of two elements (R100, R103). -/
def prodOf (x y : Fv) : Prod1 :=
  match Fv.mul x y with
  | .nan => .nan
  | .inf s => .inf s
  | .fin s m e => .fin s m e

/-- Piece `p` of a finite BF16 value: the upper or the lower four significand bits (R105). -/
def piece (p : Nat) : Fv → Fv
  | .fin s m e => if p = 0 then .fin s (m / 16) (e + 4) else .fin s (m % 16) e
  | v => v

/-- The product that a pair contributes in BF16 pass `p` (R105): a pair with a non-finite element is not split. -/
def prodPass (p : Nat) (x y : Fv) : Prod1 :=
  if x.isFinite && y.isFinite then prodOf (piece (p % 2) x) (piece (p / 2) y)
  else if p = 0 then prodOf x y else .none

/-- The exponent of a finite non-zero product, for the choice of Qmax (R105). -/
def qOf : Prod1 → Option Int
  | .fin _ m q => if m = 0 then none else some q
  | _ => none

/-- The largest of a list of exponents; 0 when there is none. -/
def qMax (ps : List Prod1) : Int :=
  (ps.filterMap qOf).foldl (fun (b : Option Int) q =>
    match b with
    | none => some q
    | some x => some (if x < q then q else x)) none |>.getD 0

/-- A product in a frame whose unit is 2^`e`: bits below the frame are truncated toward zero. -/
def inFrame (e : Int) : Prod1 → Nat
  | .fin _ m q => if e ≤ q then m * 2 ^ (q - e).toNat else m / 2 ^ (e - q).toNat
  | _ => 0

/-- Is the product negative? -/
def Prod1.neg : Prod1 → Bool
  | .fin s _ _ => s
  | .inf s => s
  | _ => false

/-- The residue of a product's units modulo 255, as the cell forms it (R102). -/
def cellResidue (e : Int) (p : Prod1) : Nat :=
  let r := inFrame e p % 255
  if p.neg then (255 - r) % 255 else r

/-- A half-column (R101, R103, R105): the exact sum of its products, the residue tree's value and its two copies of the
flags. `bf16` frames are 64 bits below Qmax; other halves count units of 2^-32. A BF16 half sum beyond 72 bits, of which
the rule says nothing, is kept whole. (DESIGN CHOICE, log 163.) -/
def halfSum (bf16 : Bool) (ea ew : Nat) (ps : List Prod1) : Half :=
  let live := ps.filter (fun p => p ≠ .none)
  let e : Int := if bf16 then qMax live - 64 else -32
  let h := live.foldl (fun (n : Int) p => if p.neg then n - Int.ofNat (inFrame e p) else n + Int.ofNat (inFrame e p)) 0
  let flags : HalfFlags :=
    { nan := live.any (fun p => p = .nan) || ea = 0xFF || ew = 0xFF
      posInf := live.any (fun p => p = .inf false), negInf := live.any (fun p => p = .inf true) }
  { present := !live.isEmpty
    h := h
    e := e
    residue := live.foldl (fun n p => (n + cellResidue e p) % 255) 0
    flags := flags
    flags2 := flags
    negZero := live.all (fun p => p.neg && inFrame e p = 0)
    scale := Fv.mul (e8m0 ea) (e8m0 ew) }

/-- The residue of a half sum at the column edge (R102). -/
def edgeResidue (h : Int) : Nat := (h % 255).toNat

/-- The value of a half with its scales (R103, R104). -/
def Half.value (x : Half) : Fv :=
  if x.flags.nan || (x.flags.posInf && x.flags.negInf) then .nan
  else if x.flags.posInf then .inf false
  else if x.flags.negInf then .inf true
  else Fv.mul x.scale (if x.h = 0 then .fin x.negZero 0 0 else .fin (decide (x.h < 0)) x.h.natAbs x.e)

/-- Does the check at the column edge fail: the residue, or the two copies of the flags (R102, R103)? -/
def Half.miss (x : Half) : Bool := edgeResidue x.h ≠ x.residue || x.flags ≠ x.flags2

/-- Flags with one of them turned over: 0 NaN, 1 POS_INF, 2 NEG_INF. -/
def HalfFlags.turn (f : HalfFlags) (i : Nat) : HalfFlags :=
  if i = 0 then { f with nan := !f.nan } else if i = 1 then { f with posInf := !f.posInf } else { f with negInf := !f.negInf }

/-- A half with a bit error: bits 0 to 71 of the half sum, then the flags' first and second copies. -/
def Half.upset (x : Half) : Option Nat → Half
  | none => x
  | some b =>
    if b < 72 then { x with h := x.h + Int.ofNat (2 ^ b) }
    else if b < 75 then { x with flags := x.flags.turn (b - 72) }
    else { x with flags2 := x.flags2.turn (b - 75) }

/-- `sum22` (R104) for the halves of one column: the new partial and whether the tile sum and the join saturated; none
when neither half has a term (R112). -/
def sum22 (p : Option Nat) (x y : Half) : Option Nat × Bool × Bool :=
  if !x.present && !y.present then (p, false, false)
  else
    let v := if !y.present then x.value else if !x.present then y.value else Fv.add x.value y.value
    let t := fpRound fmtP22 v
    match p with
    | none => (some t.1, t.2, false)
    | some old =>
      let j := fpRound fmtP22 (Fv.add (fpDecode fmtP22 old) (fpDecode fmtP22 t.1))
      (some j.1, t.2, j.2)

/-- `promote` (R106): the new sum and correction word, and whether the sum saturated. -/
def promoteEdge (comp : Bool) (e : Nat × Nat) (p : Nat) : Nat × Nat × Bool :=
  let es := f32 e.1
  let pv := fpDecode fmtP22 p
  let s := fpRound fmtFP32 (Fv.add es pv)
  if !comp then (s.1, e.2, s.2)
  else if !es.isFinite || !pv.isFinite then (s.1, 0, s.2)
  else if s.2 then (s.1, 0, true)
  else
    let sv := f32 s.1
    let z := fpRound fmtFP32 (Fv.sub sv es)
    let t1 := fpRound fmtFP32 (Fv.sub sv (f32 z.1))
    let t2 := fpRound fmtFP32 (Fv.sub es (f32 t1.1))
    let t3 := fpRound fmtFP32 (Fv.sub pv (f32 z.1))
    let t4 := fpRound fmtFP32 (Fv.add (f32 t2.1) (f32 t3.1))
    let err := if z.2 || t1.2 || t2.2 || t3.2 || t4.2 then 0 else t4.1
    let c := fpRound fmtFP32 (Fv.add (f32 e.2) (f32 err))
    (s.1, if c.2 then 0 else c.1, false)

/-- `drain` (R106): the FP32 pattern of an edge entry, and whether the final sum saturated. -/
def drainEdge (comp : Bool) (e : Nat × Nat) : Nat × Bool :=
  if comp then fpRound fmtFP32 (Fv.add (f32 e.1) (f32 e.2)) else (e.1, false)

/-! The load shuttle (R60, R61, R63). -/

/-- The request of core `c` under a descriptor's tag. -/
def State.rq (s : State) (c d : Nat) : Rq := { sw := s.swOf c, region := c / 8, tag := dTag d }

/-- Elements of width `w` packed in bytes, from bit 0 upward (R93). -/
def unpack (w n : Nat) (bs : List Byte) : List Nat :=
  let v := leNat bs
  (List.range n).map (fun j => bitField v (w * j) w)

/-- Elements `j0` to `j0 + n - 1` of row `i` of a tensor, `j0` a multiple of 32. -/
def State.readElems (s : State) (c d i j0 n : Nat) : State × List Nat :=
  let w := fmtWidth (dFmt d)
  let r := s.operand c (s.rq c d) (dSpace d) (dRowAddr d i + w * j0 / 8) ((w * n + 7) / 8)
  (r.1, unpack w n (r.2.getD []))

/-- The scale code of the block of element (i, j): 2^0 for an unscaled tensor (R46, R95). -/
def State.readScale (s : State) (c d i j : Nat) : State × Nat :=
  if dScaled d then
    let r := s.operand c (s.rq c d) (dSpace d) (dScaleAddr d i j) 1
    (r.1, leNat (r.2.getD []))
  else (s, 127)

/-- Threads a state through a list of readings. -/
def gather {α β : Type} (f : State → α → State × β) (s : State) (l : List α) : State × List β :=
  l.foldl (fun acc x =>
    let r := f acc.1 x
    (r.1, acc.2 ++ [r.2])) (s, [])

/-- The two scale codes of a row or a column of K-tile `t`; a half beyond K has none, and stands at 2^0. -/
def State.readScales (s : State) (c d x t k : Nat) (col : Bool) : State × (Nat × Nat) :=
  let one (s : State) (h : Nat) : State × Nat :=
    if 64 * t + 32 * h < k then
      (if col then s.readScale c d (64 * t + 32 * h) x else s.readScale c d x (64 * t + 32 * h))
    else (s, 127)
  let r0 := one s 0
  let r1 := one r0.1 1
  (r1.1, (r0.2, r1.2))

/-- The FP32 pattern of an accumulate-in element, and whether it saturated (R109). -/
def toFp32 (fmt bits scale : Nat) : Nat × Bool := fpRound fmtFP32 (Fv.mul (elemValue fmt bits) (e8m0 scale))

/-- An accumulate-in row as FP32 patterns with its saturations. -/
def State.readIn (s : State) (c d i n : Nat) : State × (List Nat × Nat) :=
  let r := s.readElems c d i 0 n
  let sc := gather (fun t j => t.readScale c d i j) r.1 (List.range n)
  let xs := (r.2.zip sc.2).map (fun p => toFp32 (dFmt d) p.1 p.2)
  (sc.1, (xs.map Prod.fst, (xs.filter Prod.snd).length))

/-- Bytes of a row of `m` elements of a row-major operand with its scales, and of `n` such rows; operands in core scratch
take none in the ring (R60). -/
def rowsBytes (d n m : Nat) : Nat :=
  if dSpace d = 0 then 0 else n * ((fmtWidth (dFmt d) * m + 7) / 8 + (if dScaled d then ceilDiv m 32 else 0))

/-- K-rows of K-tile `t`. -/
def QEnt.tileRows (e : QEnt) (t : Nat) : Nat := natMin e.k (64 * t + 64) - 64 * t

/-- Ring bytes of the weight tile of K-tile `t` with its column scales (R60). -/
def QEnt.tileBytes (e : QEnt) (t : Nat) : Nat :=
  let len := e.tileRows t
  if dSpace e.w = 0 then 0
  else len * ((fmtWidth (dFmt e.w) * e.nc + 7) / 8) + (if dScaled e.w then ceilDiv len 32 * e.nc else 0)

/-- Ring bytes of the accumulate-in rows that step (b, t) stages: those of the block, with its first K-tile. -/
def QEnt.inBytes (e : QEnt) (b t : Nat) : Nat := if t = 0 && e.acc then rowsBytes e.i (e.rows b) e.nc else 0

/-- Ring bytes of the weight tile and the A slice of step (b, t). -/
def QEnt.ringBytes (e : QEnt) (b t : Nat) : Nat := rowsBytes e.a (e.rows b) (e.tileRows t) + e.tileBytes t

/-- The instruction whose step is staged next: the first not yet staged whole, if nothing holds it back. -/
def Core.stageNext (k : Core) : Option QEnt :=
  match k.matQ.find? (fun e => e.staged < e.steps) with
  | none => none
  | some e =>
    if (bitAt e.word 28 && !e.go) || k.shQ.any (fun x => x.seq < e.seq && !bitAt x.word 47) then none else some e

/-- Is a staged step the one whose tile the faces hold? -/
def ArrSt.isFace (r : ArrSt) (x : Staged) : Bool :=
  match r.face with
  | some f => x.seq = f.seq && x.blk = f.blk && x.tile = f.tile
  | none => false

/-- Steps staged ahead of the one the arrays are running (R60). -/
def ArrSt.ahead (r : ArrSt) : Nat := (r.staged.filter (fun x => !r.isFace x)).length

/-- Ring bytes in use (R60). -/
def ArrSt.ringHeld (r : ArrSt) : Nat :=
  r.staged.foldl (fun n x => n + x.bytes + x.inBytes) 0 + r.accIn.foldl (fun n x => n + x.bytes) 0

/-- Is an edge bank free for another row block (R45)? -/
def ArrSt.bankFree (r : ArrSt) : Bool := r.drains.length < (if r.bank.isSome then 1 else 2)

/-- Marks a queued matrix instruction. -/
def Core.markMat (k : Core) (seq : Nat) (f : QEnt → QEnt) : Core :=
  { k with matQ := k.matQ.map (fun e => if e.seq = seq then f e else e) }

/-! Staging (R60). A step is staged in parts: its weight tile with the column scales, and with a block's first K-tile the
accumulate-in rows; then its A rows, ascending. -/

/-- The reads of elements `j0` to `j0 + n - 1` of row `i` of a row-major operand: address and bytes of elements and scales. -/
def rowReads (d i j0 n : Nat) : List (Nat × Nat) :=
  (dRowAddr d i + fmtWidth (dFmt d) * j0 / 8, (fmtWidth (dFmt d) * n + 7) / 8)
    :: (if dScaled d then
          (if dBaxis d then [(dScaleAddr d i j0, n)] else [(dScaleAddr d i j0, ceilDiv n 32)])
        else [])

/-- Must one of the reads of an operand wait? Every promote that they need is started. -/
def State.readsWait (s : State) (q : Rq) (d : Nat) (l : List (Nat × Nat)) : Option State :=
  if dSpace d = 0 then none
  else
    let r := l.foldl (fun (acc : State × Bool) x =>
      if x.2 = 0 then acc
      else if dSpace d = 1 then
        (if acc.1.zeroingAt q.region q.sw x.1 x.2 then (acc.1.waitOn q.sw 3 (2 ^ 27 + q.region), true) else acc)
      else
        match acc.1.rangeWaits q x.1 x.2 false with
        | some t => (t, true)
        | none => acc) (s, false)
    if r.2 then some r.1 else none

/-- Bytes are placed in the staging ring, in the order in which the load shuttle stages them, running on from the ring's end
to its start. (DESIGN CHOICE, log 20.) -/
def State.ringPut (s : State) (c d : Nat) (bs : List Byte) : State :=
  let k := s.core c
  if dSpace d = 0 || bs.isEmpty then s
  else
    let here := natMin bs.length (k.ring - k.ringAt)
    let s := (s.putScr c (k.ringBase + k.ringAt) (bs.take here)).putScr c k.ringBase (bs.drop here)
    s.setCore c { s.core c with ringAt := (k.ringAt + bs.length) % natMax k.ring 1 }

/-- The scale codes of a row or column that its descriptor holds. -/
def codesOf (d : Nat) (x : Nat × Nat) (two : Bool) : List Byte :=
  if dScaled d then BitVec.ofNat 8 x.1 :: (if two then [BitVec.ofNat 8 x.2] else []) else []

/-- The reads of step (b, t)'s weight tile. -/
def QEnt.tileReads (e : QEnt) (t : Nat) : List (Nat × Nat) :=
  (List.range (e.tileRows t)).flatMap (fun i =>
    let l := rowReads e.w (64 * t + i) 0 e.nc
    if i % 32 = 0 then l else l.take 1)

/-- Must the first part of step (b, t) wait on memory? What it has started. -/
def State.tileWaits (s : State) (c : Nat) (e : QEnt) (b t : Nat) : Option State :=
  match s.readsWait (s.rq c e.w) e.w (e.tileReads t) with
  | some x => some x
  | none =>
    if t = 0 && e.acc then
      s.readsWait (s.rq c e.i) e.i ((List.range (e.rows b)).flatMap (fun i => rowReads e.i (256 * b + i) 0 e.nc))
    else none

/-- The accumulate-in rows of block `b` with their saturations. -/
def State.readIns (s : State) (c : Nat) (e : QEnt) (b : Nat) : State × List (List Nat × Nat) :=
  gather (fun x i => x.readIn c e.i (256 * b + i) e.nc) s (List.range (e.rows b))

/-- The first part of step (b, t) is staged. -/
def State.stageTile (s : State) (c : Nat) (e : QEnt) (b t : Nat) : State :=
  let rw := gather (fun x i => x.readElems c e.w (64 * t + i) 0 e.nc) s (List.range (e.tileRows t))
  let ws := gather (fun x j => x.readScales c e.w j t e.k true) rw.1 (List.range e.nc)
  let ri := if t = 0 && e.acc then ws.1.readIns c e b else (ws.1, [])
  let x : Staged :=
    { seq := e.seq, blk := b, tile := t, aRows := [], aScale := []
      wCols := (List.range e.nc).map (fun j => rw.2.map (fun r => r.getD j 0))
      wScale := ws.2, inRows := ri.2.map Prod.fst, inSat := ri.2.foldl (fun n p => n + p.2) 0
      bytes := e.ringBytes b t, inBytes := e.inBytes b t }
  let s := ri.1
  let s := rw.2.foldl (fun y r => y.ringPut c e.w (packRow (fmtWidth (dFmt e.w)) r)) s
  let s := s.ringPut c e.w (ws.2.flatMap (fun p => codesOf e.w p (32 < e.tileRows t)))
  let s := x.inRows.foldl (fun y r => y.ringPut c e.i (packRow 32 r)) s
  s.setCore c { s.core c with arr := { (s.core c).arr with staged := (s.core c).arr.staged ++ [x] } }

/-- Applies a function to the staged step (b, t) of an instruction. -/
def Core.updStaged (k : Core) (seq b t : Nat) (f : Staged → Staged) : Core :=
  { k with arr := { k.arr with
      staged := k.arr.staged.map (fun x => if x.seq = seq && x.blk = b && x.tile = t then f x else x) } }

/-- A rows of step (b, t) are staged, ascending, up to the first that must wait. -/
def State.stageRows (s : State) (c : Nat) (e : QEnt) (b t : Nat) : List Nat → State
  | [] => s.setCore c ((s.core c).markMat e.seq (fun x => { x with staged := x.staged + 1 }))
  | i :: rest =>
    match s.readsWait (s.rq c e.a) e.a (rowReads e.a (256 * b + i) (64 * t) (e.tileRows t)) with
    | some x => x
    | none =>
      let ra := s.readElems c e.a (256 * b + i) (64 * t) (e.tileRows t)
      let rs := ra.1.readScales c e.a (256 * b + i) t e.k false
      let s := (rs.1.ringPut c e.a (packRow (fmtWidth (dFmt e.a)) ra.2)).ringPut c e.a (codesOf e.a rs.2 (32 < e.tileRows t))
      let s := s.setCore c ((s.core c).updStaged e.seq b t (fun x =>
        { x with aRows := x.aRows ++ [ra.2], aScale := x.aScale ++ [rs.2] }))
      State.stageRows s c e b t rest

/-- The edge of a block as it starts: accumulate-in, or +0 (R50). -/
def edgeStart (rows : List (List Nat)) : FMap (Nat × Nat) :=
  rows.zipIdx.foldl (fun m p => p.1.zipIdx.foldl (fun n x => FMap.set (0, 0) n (64 * p.2 + x.2) (x.1, 0)) m) []

/-- A row block of an instruction with K = 0 goes to the store shuttle as it stands, in instruction order, and its rows are
counted (R80). -/
def State.stageEmpty (s : State) (c : Nat) (e : QEnt) (b : Nat) : State :=
  let k := s.core c
  if (k.matQ.head?).map (fun x => x.seq) ≠ some e.seq || !k.arr.bankFree then s
  else
    match s.tileWaits c e b 0 with
    | some x => x
    | none =>
      let r := if e.acc then s.readIns c e b else (s, [])
      let s := (r.1.tally .CORE_EMPTY_ROWS c (e.rows b)).satAt c (s.swOf c) e.tag 6 (r.2.foldl (fun n p => n + p.2) 0)
      let k := (s.core c).markMat e.seq (fun x => { x with staged := x.staged + 1 })
      let job : DrainJob := { seq := e.seq, blk := b, edge := edgeStart (r.2.map Prod.fst) }
      s.setCore c { k with arr := { k.arr with drains := k.arr.drains ++ [job] } }

/-- The load shuttle goes on with the step to be staged next (R60, R63): a step is begun, with its weight tile, only within
LOAD_DIST and when the ring has room for it; then its A rows follow. (DESIGN CHOICE, log 19, 20, 28, 29, 39.) -/
def loadShuttleStage (c : Nat) (s : State) : State :=
  let k := s.core c
  if !(s.f .CORE_STATUS_STATE c = 1 || s.f .CORE_STATUS_STATE c = 2) || k.asleep then s
  else
    match k.stageNext with
    | none => s
    | some e =>
      let t := e.staged % natMax e.kt 1
      let b := e.staged / natMax e.kt 1
      if e.k = 0 then s.stageEmpty c e b
      else
        match k.arr.staged.find? (fun x => x.seq = e.seq && x.blk = b && x.tile = t) with
        | some x => s.stageRows c e b t ((List.range (e.rows b)).drop x.aRows.length)
        | none =>
          let held := k.arr.ringHeld
          if k.dist ≤ k.arr.ahead || !(held = 0 || held + e.ringBytes b t + e.inBytes b t ≤ k.ring) then s
          else
            match s.tileWaits c e b t with
            | some x => x
            | none => s.stageTile c e b t

/-- LOAD_SHUTTLE_STAGE. -/
def execLoadShuttleStage (c : Nat) (s : State) : Host.Outcome State Fault Refusal :=
  act (coreOk c) (whenUp (loadShuttleStage c)) s

/-! An ARRAY cycle (R49, R54, R57 to R59). -/

/-- The matrix instruction with number `seq`. -/
def Core.mat (k : Core) (seq : Nat) : Option QEnt := k.matQ.find? (fun e => e.seq = seq)

/-- A row's column halves: row `i` of a staged step in pass `p` (R104, R105). -/
def rowHalves (e : QEnt) (st : Staged) (i p : Nat) : List (Half × Half) :=
  let a := (st.aRows.getD i []).map (elemValue (dFmt e.a))
  let sa := st.aScale.getD i (127, 127)
  (st.wCols.zip st.wScale).map (fun col =>
    let w := col.1.map (elemValue (dFmt e.w))
    let ps := (a.zip w).map (fun x => if e.bf16 then prodPass p x.1 x.2 else prodOf x.1 x.2)
    (halfSum e.bf16 sa.1 col.2.1 (ps.take 32),
     if ps.length ≤ 32 then ({} : Half) else halfSum e.bf16 sa.2 col.2.2 (ps.drop 32)))

/-- Half-tiles of a row made NaN by a scale of FFh (R123). -/
def nanScales (e : QEnt) (st : Staged) (i : Nat) : Nat :=
  let sa := st.aScale.getD i (127, 127)
  let two := 32 < (st.aRows.getD i []).length
  if e.bf16 then 0
  else st.wScale.foldl (fun n w =>
    n + (if sa.1 = 0xFF || w.1 = 0xFF then 1 else 0) + (if two && (sa.2 = 0xFF || w.2 = 0xFF) then 1 else 0)) 0

/-- The bit error, if any, of one half of a column of an array in this cycle, `u` being 0 for none and otherwise
1 + ((64 × array + column) × 2 + half) × 78 + bit. -/
def upsetAt (u array col : Nat) (second : Bool) : Option Nat :=
  if u = 0 then none
  else if (u - 1) / 156 = 64 * array + col && ((u - 1) / 78 % 2 = 1) = second then some ((u - 1) % 78) else none

/-- What a cycle's joins leave: partials, saturations of the tile sums and of the joins, and the first mismatch as
array, column, slot. -/
structure Joined where
  partials : FMap (Option Nat)
  tileSat : Nat := 0
  joinSat : Nat := 0
  bad     : List (Nat × Nat × Nat) := []

/-- One column of a row in cycle c + 7: residues and flags are compared, then the sum joins the partial (R27, R57, R102). -/
def joinColumn (upset row : Nat) (j : Joined) (p : (Half × Half) × Nat) : Joined :=
  let a := row % 4
  let col := p.2
  if (p.1.1.upset (upsetAt upset a col false)).miss || (p.1.2.upset (upsetAt upset a col true)).miss then { j with bad := j.bad ++ [(a, col, row / 4)] }
  else
    let key := 64 * row + col
    let r := sum22 (FMap.get none j.partials key) p.1.1 p.1.2
    { j with
      partials := FMap.set none j.partials key r.1
      tileSat := j.tileSat + flagBit r.2.1
      joinSat := j.joinSat + flagBit r.2.2 }

/-- The lowest of the mismatches: array, then column, then slot (R90). -/
def firstBad (l : List (Nat × Nat × Nat)) : Option (Nat × Nat × Nat) :=
  l.foldl (fun b x =>
    match b with
    | none => some x
    | some y => if x.1 < y.1 || (x.1 = y.1 && (x.2.1 < y.2.1 || (x.2.1 = y.2.1 && x.2.2 < y.2.2))) then some x
      else some y) none

/-- A promotion of all columns of a row: the edge, the partials cleared, saturations (R44, R106). -/
def promoteRow (e : QEnt) (row : Nat) (x : FMap (Nat × Nat) × FMap (Option Nat) × Nat) :
    FMap (Nat × Nat) × FMap (Option Nat) × Nat :=
  (List.range e.nc).foldl (fun acc col =>
    let key := 64 * row + col
    match FMap.get none acc.2.1 key with
    | none => acc
    | some p =>
      let r := promoteEdge e.comp (FMap.get (0, 0) acc.1 key) p
      (FMap.set (0, 0) acc.1 key (r.1, r.2.1), FMap.set none acc.2.1 key none, acc.2.2 + flagBit r.2.2)) x

/-- Opens the edge bank of a block when one is free, with its accumulate-in rows, which leave the ring (R45, R60, R62); the
saturations of those rows. -/
def ArrSt.openBank (r : ArrSt) (seq blk : Nat) : Option (ArrSt × Nat) :=
  if r.bank = some (seq, blk) then some (r, 0)
  else if r.bank.isSome || 2 ≤ r.drains.length then none
  else
    let mine := r.accIn.find? (fun p => p.key = (seq, blk))
    some ({ r with
      bank := some (seq, blk), closed := 0, edge := edgeStart ((mine.map AccRows.rows).getD [])
      accIn := r.accIn.filter (fun p => p.key ≠ (seq, blk)) }, (mine.map AccRows.sat).getD 0)

/-- The rows due first that may be promoted in one cycle: at most `n` of each array, of one row block (R58). -/
def dueNow (n : Nat) (due : List (Nat × Nat × Nat × Bool)) : List (Nat × Nat × Nat × Bool) :=
  match due with
  | [] => []
  | d :: _ =>
    let same := due.takeWhile (fun x => x.1 = d.1 && x.2.1 = d.2.1)
    (List.range 4).flatMap (fun a => (same.filter (fun x => x.2.2.1 % 4 = a)).take n)

/-- The promotions of a cycle; a block whose last rows are promoted goes to the store shuttle. -/
def State.promotions (s : State) (c : Nat) : State :=
  let k := s.core c
  match k.arr.due with
  | [] => s
  | (seq, blk, _, _) :: _ =>
    match k.mat seq with
    | none => s
    | some e =>
      match k.arr.openBank seq blk with
      | none => s.tally .CORE_STALL_STORE c 1
      | some (r, sat6) =>
        let now := dueNow (if e.comp then 2 else 4) r.due
        let x := now.foldl (fun acc d => promoteRow e d.2.2.1 acc) (r.edge, r.partials, 0)
        let closed := r.closed + (now.filter (fun d => d.2.2.2)).length
        let r := { r with
          edge := x.1, partials := x.2.1, due := r.due.filter (fun d => !now.contains d), closed := closed }
        let r := if closed = e.rows blk then
            { r with bank := none, edge := [], closed := 0, drains := r.drains ++ [DrainJob.mk seq blk x.1] }
          else r
        ((s.setCore c { k with arr := r }).satAt c (s.swOf c) e.tag 3 x.2.2).satAt c (s.swOf c) e.tag 6 sat6

/-- The staged step that the faces work on. -/
def ArrSt.current (r : ArrSt) : Option Staged := r.staged.find? r.isFace

/-- Does a matrix instruction have K-tiles (R59)? -/
def QEnt.tiled (e : QEnt) : Bool := e.n ≠ 0 && e.k ≠ 0

/-- The fill time of the tile or piece that follows the faces' one, 0 when none is queued (R53, R55, R59). -/
def Core.nextFill (k : Core) : Nat :=
  let after (seq : Nat) : Nat := ((k.matQ.find? (fun x => seq < x.seq && x.tiled)).map QEnt.fillTime).getD 0
  match k.arr.face with
  | none => ((k.matQ.find? QEnt.tiled).map QEnt.fillTime).getD 0
  | some f =>
    match k.mat f.seq with
    | none => after f.seq
    | some e =>
      if (e.bf16 && f.pass < 3) || e.kt * f.blk + f.tile + 1 < e.steps then e.fillTime else after f.seq

/-- Does the weight tile that follows the faces' one stand staged; for BF16 the second piece of the faces' tile does? -/
def Core.nextStaged (k : Core) : Bool :=
  0 < k.arr.ahead || (match k.arr.face with
    | none => false
    | some f => f.pass < 3 && ((k.mat f.seq).map QEnt.bf16).getD false)

/-- A cycle in which the faces have no further row: it is charged to the fill of the next tile, or to a long promotion, up to
`bound` cycles after the swap, and then to that tile's staging (R54, R59, R89). -/
def State.idleEntry (s : State) (c bound : Nat) : State :=
  let k := s.core c
  if k.nextFill = 0 then s
  else if k.arr.cyc ≤ bound then s.tally .CORE_FILL_BOUND c 1
  else if k.nextStaged then s else s.tally .CORE_STALL_WEIGHT c 1

/-- The rows of the faces' tile that enter in this cycle: none while one of them is not staged, a row stall, or while a
partial of theirs is still to be promoted (R49, R58). A step whose last row has entered frees its ring bytes (R60). -/
def State.enterRows (s : State) (c : Nat) (e : QEnt) (f : Face) (st : Staged) : State :=
  let k := s.core c
  let r := k.arr
  let rows := ((List.range (4 * e.rho)).map (fun i => 4 * r.slot + i)).filter (fun i => i < e.rows f.blk)
  if rows.any (fun i => st.aRows.length ≤ i) then s.tally .CORE_STALL_ROW c 1
  else if rows.any (fun i => r.due.any (fun d => d.2.2.1 = i)) then
    s.tally .CORE_FILL_BOUND c (if e.comp && r.bank.isSome then 1 else 0)
  else
    let news := rows.map (fun i => PipeRow.mk 0 f.seq f.blk f.tile f.pass i (rowHalves e st i f.pass))
    let nans := rows.foldl (fun n i => n + nanScales e st i) 0
    let slot := r.slot + e.rho
    let all := e.q f.blk ≤ slot
    let more := all && e.bf16 && f.pass % 2 = 0
    let k := { k with arr := { r with
      pipe := r.pipe ++ news, slot := if more then 0 else slot
      face := some (if more then { f with pass := f.pass + 1 } else f) } }
    let k := if all && (!e.bf16 || f.pass = 3) then k.updStaged f.seq f.blk f.tile (fun x => { x with bytes := 0 }) else k
    ((s.setCore c k).tally .CORE_BUSY c 1).tally .ARR_NAN_SCALE c nans

/-- The entries of an ARRAY cycle, and the advance of the bobbins' fill. With empty faces the first tile's fill begins with
the first cycle in which an instruction with a K-tile is queued. (DESIGN CHOICE, log 164.) -/
def State.entries (s : State) (c : Nat) : State :=
  let k := s.core c
  let run := k.arr.face.isSome || k.nextFill ≠ 0
  let k := { k with arr := { k.arr with
    cyc := if run then k.arr.cyc + 1 else k.arr.cyc, fill := if run then k.arr.fill + 1 else k.arr.fill } }
  let s := s.setCore c k
  match k.arr.face with
  | none => s.idleEntry c k.nextFill
  | some f =>
    match k.mat f.seq with
    | none => s
    | some e =>
      if e.q f.blk ≤ k.arr.slot then s.idleEntry c (natMax k.nextFill (e.promTime f.blk f.tile))
      else
        match k.arr.current with
        | none => s
        | some st => s.enterRows c e f st

/-- ARR_STATUS follows the arrays (R90). -/
def State.showArr (s : State) (c : Nat) : State :=
  let k := s.core c
  let act := (List.range 4).filter (fun a => k.arr.pipe.any (fun p => p.row % 4 = a))
  let mode := match k.arr.face with
    | none => 0
    | some f => match k.mat f.seq with
      | none => 0
      | some e => if e.bf16 then 3 else if e.comp then 2 else 1
  ((s.setF .ARR_STATUS_ACTIVE c (maskOf act)).setF .ARR_STATUS_MODE c mode).setF .ARR_STATUS_FACE_VALID c
    (flagBit k.arr.face.isSome)

/-- VEC_STATUS.BUSY follows the vector word in progress (R157). -/
def State.showVec (s : State) (c : Nat) : State := s.setF .VEC_STATUS_BUSY c (flagBit (s.core c).vec.busy)

/-- A core's program is given up (R67): nothing of it goes on, the writes the shuttles have accepted being complete. -/
def State.abandon (s : State) (c : Nat) : State :=
  (((s.setF .CORE_STATUS_STATE c 6).setCore c
    { s.core c with matQ := [], shQ := [], vecQ := [], wait := .none, loops := [], arr := {}, vec := {} }).showArr c).showVec c

/-- The contexts of a carrier, ascending: its own and those of the holes it carries (R465, R466). -/
def State.contexts (s : State) (r carrier : Nat) : List Nat :=
  (List.range 8).filter (fun k => k = carrier || (s.physK r k = 15 && s.sub .RGN_LIMP_CARRIER r (4 * k) 4 = carrier))

/-- The logical core whose physical core runs the context of logical core `c`: its own, or for a hole its carrier (R466). -/
def State.carrierOf (s : State) (c : Nat) : Nat :=
  if s.physK (c / 8) (c % 8) = 15 then 8 * (c / 8) + s.sub .RGN_LIMP_CARRIER (c / 8) (4 * (c % 8)) 4 % 8 else c

/-- The physical core that runs a context is faulty. Its logical core is fenced (R29, R81), every context on it stops, its
step is broken as R67 and R82 state, and a ledger entry is queued. -/
def State.fenceCore (s : State) (c cause : Nat) : State :=
  let own := s.carrierOf c
  let k := s.swOf own
  if s.f .CORE_STATUS_STATE own = 4 then s
  else
    let on := ((s.contexts (own / 8) (own % 8)).map (fun x => 8 * (own / 8) + x)).filter (fun x =>
      x ≠ own && !(s.core x).asleep)
    let s := (on.foldl State.abandon s).abandon own
    let s := (s.setF .CORE_STATUS_STATE own 4).setCore own { s.core own with faultCause := cause + 1 }
    let s := s.ledger 0x06 (unitPayload .core (own / 8) (own % 8) cause k (s.sw k).step)
    let s := if (s.sw k).started then s.failStep k causeBroken else s
    (s.regionFault (own / 8)).setF .CORE_STATUS_STATE own 4

/-- One passed ARRAY pulse of core `c` (R57): rows age, residues are compared and sums joined at c + 7, rows at the end
of a promotion interval fall due at c + 8, due rows are promoted, and new rows enter. -/
def arrayCycle (c upset : Nat) (s : State) : State :=
  let st := s.f .CORE_STATUS_STATE c
  if !(st = 1 || st = 2) || (s.core c).asleep then s
  else
    let k := s.core c
    let aged := k.arr.pipe.map (fun p => { p with age := p.age + 1 })
    let at7 := aged.filter (fun p => p.age = 7)
    let j := at7.foldl (fun acc p => p.cols.zipIdx.foldl (joinColumn upset p.row) acc)
      ({ partials := k.arr.partials } : Joined)
    let at8 := aged.filter (fun p => p.age = 8)
    let due := at8.filterMap (fun p =>
      match k.mat p.seq with
      | some e => if e.ends p.tile && (!e.bf16 || p.pass = 3) then some (p.seq, p.blk, p.row, decide (p.tile + 1 = e.kt))
        else none
      | none => none)
    let tag := ((at7.head?).bind (fun p => k.mat p.seq)).map QEnt.tag
    let s := s.setCore c { k with arr := { k.arr with
      partials := j.partials, pipe := aged.filter (fun p => p.age < 8), due := k.arr.due ++ due } }
    let s := (s.satAt c (s.swOf c) (tag.getD 0) 1 j.tileSat).satAt c (s.swOf c) (tag.getD 0) 2 j.joinSat
    match firstBad j.bad with
    | some (a, col, slot) =>
      let s := if s.f .ARR_FAULT_VALID c = 0 then
          (((s.raise .ARR_FAULT_VALID c).setF .ARR_FAULT_ARRAY c a).setF .ARR_FAULT_COLUMN c col).setF
            .ARR_FAULT_SLOT c slot
        else s
      s.fenceCore c 0
    | none => ((s.promotions c).entries c).showArr c

/-- ARRAY_CYCLE. -/
def execArrayCycle (c upset : Nat) (s : State) : Host.Outcome State Fault Refusal :=
  act (coreOk c && upset ≤ 39936) (whenUp (arrayCycle c upset)) s

/-! Bobbin and faces (R42, R46, R47, R54, R55). -/

/-- Have all rows of the faces' tile entered, for BF16 those of the pair of passes? -/
def Core.tileDone (k : Core) : Bool :=
  match k.arr.face with
  | none => true
  | some f => match k.mat f.seq with
    | none => true
    | some e => e.q f.blk ≤ k.arr.slot && (!e.bf16 || f.pass % 2 = 1)

/-- Is the core at a K-tile boundary: for BF16 after the last of the four passes (R50, R55)? -/
def Core.kTileDone (k : Core) : Bool :=
  k.tileDone && (match k.arr.face with
    | none => true
    | some f => match k.mat f.seq with
      | none => true
      | some e => !e.bf16 || f.pass = 3)

/-- The step after the faces' one, if the load shuttle has staged it: for BF16 first the second weight piece. -/
def Core.nextFace (k : Core) : Option Face :=
  match k.arr.face with
  | none => (k.arr.staged.head?).map (fun x => { seq := x.seq, blk := x.blk, tile := x.tile, pass := 0 })
  | some f =>
    let bf := match k.mat f.seq with
      | some e => e.bf16
      | none => false
    if bf && f.pass < 3 then some { f with pass := f.pass + 1 }
    else
      ((k.arr.staged.filter (fun x => !k.arr.isFace x)).head?).map
        (fun x => { seq := x.seq, blk := x.blk, tile := x.tile, pass := 0 })

/-- The staged steps once face `g` is in place: the one the faces leave is gone with its last pass. -/
def ArrSt.stagedAfter (r : ArrSt) (g : Face) : List Staged :=
  if g.pass ≠ 0 then r.staged else r.staged.filter (fun x => !r.isFace x)

/-- The faces take tile `g` of instruction `e`: with a block's first tile its accumulate-in rows come to stand for the edge
bank. -/
def ArrSt.swapIn (r : ArrSt) (e : QEnt) (g : Face) : ArrSt :=
  let first := g.tile = 0 && g.pass = 0 && e.acc
  let mine (x : Staged) : Bool := x.seq = g.seq && x.blk = g.blk && x.tile = 0
  let staged := r.stagedAfter g
  { r with
    face := some g, slot := 0, cyc := 0, fill := 0
    staged := if first then staged.map (fun x => if mine x then { x with inBytes := 0 } else x) else staged
    accIn := if first then
        r.accIn ++ (staged.filter mine).map (fun x => { key := (g.seq, g.blk), rows := x.inRows, sat := x.inSat, bytes := x.inBytes })
      else r.accIn }

/-- The faces of all four arrays take the bobbins' tile (R47, R54): the rows of the tile in the faces have entered, the
next one is filled and its weights are staged. At a K-tile boundary of a broken step the program is abandoned instead
(R67), and at one where a switch is asked for nothing is swapped in (R69). -/
def bobbinSwap (c : Nat) (s : State) : State :=
  let k := s.core c
  let st := s.f .CORE_STATUS_STATE c
  if !(st = 1 || st = 2) || k.asleep || !k.tileDone then s
  else if k.kTileDone && s.f .CORE_STATUS_BROKEN c = 1 then s.abandon c
  else if k.kTileDone && (FMap.get none s.switches c).isSome then s
  else
    match k.nextFace with
    | none => s
    | some g =>
      match k.mat g.seq with
      | none => s
      | some e =>
        let wait := match k.arr.face with
          | none => false
          | some f => match k.mat f.seq with
            | none => false
            | some o => decide (k.arr.cyc < o.promTime f.blk f.tile)
        if k.arr.fill < e.fillTime || wait then s
        else (s.setCore c { k with arr := k.arr.swapIn e g }).showArr c

/-- BOBBIN_SWAP. -/
def execBobbinSwap (c : Nat) (s : State) : Host.Outcome State Fault Refusal :=
  act (coreOk c) (whenUp (bobbinSwap c)) s

end Sys2Proof.Machine
end

