-- ==== Sys2Proof/Machine/Capacity.lean ====
section
/-! DEFINITION. The field bad-unit map, the module's capacity and the retirement of stack slots (R240, R452 to R454,
R460). -/

namespace Sys2Proof.Machine

/-! The field bad-unit map (R452 to R454). -/

/-- The 128 bits of an entry (R453). -/
def MapEnt.bits (e : MapEnt) : Nat :=
  1 + 2 ^ 2 * (e.kind % 16) + 2 ^ 6 * (e.unit % 64) + 2 ^ 12 * (e.sub % 16) + 2 ^ 16 * (e.slot % 2 ^ 21)
    + 2 ^ 37 * (e.channel % 32) + 2 ^ 42 * (e.lane % 128) + 2 ^ 49 * (e.cause % 16) + 2 ^ 64 * (e.seq % 2 ^ 64)

/-- Reads an entry from its 128 bits. -/
def MapEnt.ofBits (v : Nat) : MapEnt where
  kind := bitField v 2 4
  unit := bitField v 6 6
  sub := bitField v 12 4
  slot := bitField v 16 21
  channel := bitField v 37 5
  lane := bitField v 42 7
  cause := bitField v 49 4
  seq := bitField v 64 64

/-- Do the fields of an entry fit their widths? -/
def MapEnt.fits (e : MapEnt) : Bool :=
  e.kind < 16 && e.unit < 64 && e.sub < 16 && e.slot < 2 ^ 21 && e.channel < 32 && e.lane < 128 && e.cause < 16
    && e.seq < 2 ^ 64

/-- The sequence number that the next ledger entry takes when it is programmed (R489, R491). -/
def State.nextEntry (s : State) : Nat := s.thm.newest + s.ledgQ.length + 1

/-- A field-map addition: its ledger entry comes first, and the copy in flash follows when that has been programmed
(R454). An addition beyond 32,000 entries stands in the ledger alone. -/
def State.mapAdd (s : State) (e : MapEnt) : State :=
  let e := { e with seq := s.nextEntry }
  let s := s.ledger 0x07 (2 ^ 8 * ({ e with seq := 0 } : MapEnt).bits)
  if s.boot.map.length < 32000 then { s with boot := { s.boot with map := s.boot.map ++ [e] } } else s

/-- Is a unit of a kind in the field map? -/
def State.inMap (s : State) (kind unit sub : Nat) : Bool :=
  s.boot.map.any (fun e => e.kind = kind && e.unit = unit && e.sub = sub)

/-! Capacity (R460, R475). -/

/-- The logical cores of a region that are carried, ascending. -/
def State.carriedOf (s : State) (r : Nat) : List Nat := (List.range 8).filter (fun k => s.physK r k ≠ 15)

/-- The holes of a region, ascending. -/
def State.holesOf (s : State) (r : Nat) : List Nat := (List.range 8).filter (fun k => s.physK r k = 15)

/-- Is a region out (R457)? -/
def State.regionOut (s : State) (r : Nat) : Bool := s.f .RGN_STATUS_STATE r = 4

/-- Is a stack in service (R254)? -/
def State.stackServes (s : State) (st : Nat) : Bool := s.f .BASE_STATUS_STATE st < 3 && !(s.stack st).stopped

/-- Does a flash controller serve? -/
def State.flashServes (s : State) (c : Nat) : Bool := !(s.flc c).fenced && s.f .FLC_STATUS_STATE c ≠ 2

/-- HUB_CAPACITY and DEGRADED follow the units in service (R460). -/
def State.showCapacity (s : State) : State :=
  let rs := (List.range 48).filter (fun r => !s.regionOut r)
  let cores := rs.foldl (fun n r => n + (s.carriedOf r).length) 0
  let serving := ((List.range 24).filter s.stackServes).length
  let ctl := ((List.range 2).filter s.flashServes).length
  let retired := (List.range 24).foldl (fun n st => n + (s.stack st).retired.length) 0
  let lost := (List.range 2).foldl (fun n c => n + (s.flc c).withdrawn.length) 0
  let expected := match s.boot.pat with
    | some p => bitField p.body 68 16
    | none => 0
  let short := (List.range 16).any (fun p => bitAt expected p && !s.portUp p)
  let s := ((s.setF .HUB_CAPACITY_CORES 0 cores).setF .HUB_CAPACITY_REGIONS_OUT 0 (48 - rs.length)).setF
    .HUB_CAPACITY_STACKS 0 serving
  let s := (s.setF .HUB_CAPACITY_FLASH_CTL 0 ctl).setF .HUB_CAPACITY_RETIRED 0 retired
  s.setF .HUB_BOOT_DEGRADED 0
    (flagBit (s.f .HUB_BOOT_READY 0 = 1 && (cores < 384 || serving < 24 || ctl < 2 || 0 < retired || 0 < lost || short)))

/-- Capacity lost in service is shown at once and raises FAULT (R460). -/
def State.loseCapacity (s : State) : State := s.showCapacity.interruptAll 5

/-! Uncorrectable reads and retired slots (R210, R228, R240). -/

/-- A slot is retired: it takes an entry of the field map (cause 4 corrected errors, 5 an uncorrectable read), is counted,
and is never allocated again. -/
def State.retireSlot (s : State) (st slot cause : Nat) : State :=
  if (s.stack st).retired.contains slot then s
  else
    let s := s.setStack st { s.stack st with retired := insertAsc slot (s.stack st).retired }
    ((s.mapAdd { kind := 2, unit := st, slot := slot, cause := cause }).tally .BASE_RETIRED st 1).countFree.loseCapacity

/-- The base die's part of an uncorrectable read: the location while none is recorded, the count, and the retirement of the
slot. -/
def State.baseUncorr (s : State) (st slot g unit : Nat) : State :=
  let s := if s.f .BASE_UNCORR_LOC_VALID st = 0 then
      ((((s.raise .BASE_UNCORR_LOC_VALID st).setF .BASE_UNCORR_LOC_SLOT st slot).setF .BASE_UNCORR_LOC_PCH st
        ((g + slot) % 64)).setF .BASE_UNCORR_LOC_GRANULE st g).setF .BASE_UNCORR_LOC_UNIT st unit
    else s
  let s := { s with meters := { s.meters with uncorr := FMap.upd 0 s.meters.uncorr st (fun n => n + 1) } }
  (s.tally .BASE_UNCORR st 1).retireSlot st slot 5

end Sys2Proof.Machine
end

