-- ==== Sys2Proof/Machine/Tier.lean ====
section
/-! DEFINITION. The tier commands (R262 to R299): tier requests, the phases of a move, notices and translation
buffers, layer marks, stalls, the scrubber, the flash controllers and the T3 window. -/

namespace Sys2Proof.Machine

/-! Tier requests (R298, R299). -/

/-- The ILLEGAL causes of R299. -/
def State.trIllegal (s : State) (v : Nat) : Bool :=
  bitField v 0 2 ≠ 1 || !zeroBits v 18 14 || !zeroBits v 48 16 || !zeroBits v 91 5 || !zeroBits v 124 132
    || 6 < trOp v || trCount v = 0
    || (trOp v = 0 && (trIlv v = 3 || trShare v = 3
        || (2 ≤ trTier v && s.quota (trSwatch v) (trTier v) = 0)
        || (trTier v = 1 && trIlv v = 0 && 23 < trPlace v)))
    || ((trOp v = 0 || trOp v = 2) && trTier v = 0 && 47 < trPlace v)

/-- ALLOC of one bolt (R276, R281, R282). (DESIGN CHOICE, log 47.) -/
def State.allocBolt (s : State) (v b : Nat) : TierAct :=
  let e := s.dirE b
  let k := trSwatch v
  let t := trTier v
  if e.state ≠ 0 then .fail s tsState
  else if s.quota k t ≤ s.usage k t then .fail s tsQuota
  else
    match s.choose b t k (trIlv v) (trPlace v) (trPlace v) with
    | none => .fail s tsQuota
    | some loc =>
      if !s.spaced b then .wait s 2
      else
        let s := s.setStores (if t = 3 then s.mem.st else s.mem.st.zero (s.placeOf t loc k 0) 65536)
        let one := if trIlv v ≠ 0 then 0 else if t = 1 then trPlace v + 1
          else if t = 0 then s.oneStack k (trPlace v) + 1 else 0
        let s := s.setMem { s.mem with named := FMap.set 0 s.mem.named b one }
        let s := s.setDir b { ({} : DirEntry) with
          state := 1, tier := t, share := trShare v, ilv := trIlv v, home := loc, generation := e.generation,
          owner := k, cancelled := e.cancelled }
        .ok ((s.advance b false).use.countFree)

/-- One bolt of a tier request (R276, R299). -/
def State.tierOne (s : State) (q : TierReq) (b : Nat) : TierAct :=
  let v := q.bits
  let e := s.dirE b
  let k := trSwatch v
  let s := s.lookup b
  if trOp v = 0 then s.allocBolt v b
  else if trOp v ≠ 6 && e.state = 0 then .fail s tsState
  else if e.state ≠ 0 && !s.shareAllows e k (trOp v = 1) then .fail (s.deny b k) tsDenied
  else if trOp v = 6 then .ok s
  else if trOp v = 1 then
    (if e.state = 1 && e.pins = 0 then (if s.spaced b then .ok (s.freeBolt b) else .wait s 2)
     else .ok (s.setDir b { e with pendFree := true }))
  else if trOp v = 2 then s.promote b (trTier v) (trPlace v) 3 k (some q)
  else if trOp v = 3 then s.evict b (trTier v) 3 k (some q)
  else if trOp v = 4 then
    (if e.pins < 255 then .ok (s.setDir b { e with pins := e.pins + 1 })
     else if q.job ≠ 0 then .fail s tsPinFull else .wait s 2)
  else if e.pins = 0 then .fail s tsState
  else .ok (((s.setDir b { e with pins := e.pins - 1 }).settleBolt b).wake b)

/-- The bolts of a request, one at a time, in ascending order (R299). -/
def State.tierLoop (s : State) (q : TierReq) : Nat → State
  | 0 => s.tierResult q tsOK 0
  | n + 1 =>
    let b := trFirst q.bits + q.done
    match s.tierOne q b with
    | .ok t => State.tierLoop (t.endWaits (heldKey b)) { q with done := q.done + 1 } n
    | .fail t status => (t.endWaits (heldKey b)).tierResult q status 0
    | .held t => t.waitOn (trSwatch q.bits) 2 (heldKey b)
    | .wait t cause =>
      let t := t.waitOn (trSwatch q.bits) cause (heldKey b)
      t.setMem { t.mem with tierWait := t.mem.tierWait ++ [{ q with gen := (t.dirE b).generation }] }

/-- The front request of the hubs' queue is carried out, when its OP is `op`. -/
def tierRun (op : Nat) (s : State) : State :=
  match s.mem.tierQ with
  | [] => s
  | q :: rest =>
    if trOp q.bits ≠ op then s
    else
      let s := s.setMem { s.mem with tierQ := rest }
      if s.trIllegal q.bits then s.tierResult q tsIllegal 0
      else if 2 ^ 27 < trFirst q.bits + trCount q.bits then s.tierResult q tsRange 0
      else if op = 6 then
        let b := trFirst q.bits
        match s.tierOne q b with
        | .ok t => t.tierResult { q with done := 1 } tsOK (t.dirE b).bits
        | .fail t status => t.tierResult q status 0
        | .wait t _ => t
        | .held t => t
      else s.tierLoop q (trCount q.bits - q.done)

/-- Posts a tier request: a bad OP fails at once, any other waits in the hubs' queue, with the generation of its first bolt
(R296, R298, R299). -/
def State.postTier (s : State) (q : TierReq) : State :=
  if 6 < trOp q.bits then s.tierResult q tsIllegal 0
  else s.setMem { s.mem with tierQ := s.mem.tierQ ++ [{ q with gen := (s.dirE (trFirst q.bits)).generation }] }

/-- ALLOC. -/
def execAlloc (s : State) : Host.Outcome State Fault Refusal := act true (whenUp (tierRun 0)) s
/-- FREE. -/
def execFree (s : State) : Host.Outcome State Fault Refusal := act true (whenUp (tierRun 1)) s
/-- PROMOTE_REQUEST. -/
def execPromoteRequest (s : State) : Host.Outcome State Fault Refusal := act true (whenUp (tierRun 2)) s
/-- EVICT. -/
def execEvict (s : State) : Host.Outcome State Fault Refusal := act true (whenUp (tierRun 3)) s
/-- PIN. -/
def execPin (s : State) : Host.Outcome State Fault Refusal := act true (whenUp (tierRun 4)) s
/-- UNPIN. -/
def execUnpin (s : State) : Host.Outcome State Fault Refusal := act true (whenUp (tierRun 5)) s
/-- QUERY. -/
def execQuery (s : State) : Host.Outcome State Fault Refusal := act true (whenUp (tierRun 6)) s

/-! Moves (R272 to R275). -/

/-- A bolt number the directory manages (R263). -/
def boltOk (b : Nat) : Bool := b < 2 ^ 27
/-- A holder of a translation buffer (R270): regions 0 to 47, base dies 48 to 71, seam dies 72 to 79, flash
controllers 80 and 81, hubs 82 to 85. -/
def holderOk (h : Nat) : Bool := h < 86

/-- MOVE_RESERVE. -/
def execMoveReserve (b : Nat) (s : State) : Host.Outcome State Fault Refusal :=
  act (boltOk b) (whenUp (moveReserve b)) s

/-- The place of granule `g` of a location. -/
def State.granulePlace (s : State) (t loc owner g : Nat) : Place := s.placeOf t loc owner (256 * g)

/-- Copies `n` bytes from offset `o` of the old home to the destination (R272): through the base caches, stream-through (R243,
R246); a stack out of service reads zero (R254). -/
def State.copyRange (s : State) (e : DirEntry) (o n : Nat) : State :=
  let s := if e.tier = 1 then s.streamHome e.home o n false else s
  let s := if e.dtier = 1 then s.streamHome e.dest o n true else s
  let src := s.placeOf e.tier e.home e.owner o
  let dst := s.placeOf e.dtier e.dest e.owner o
  s.setStores (if e.tier = 1 && 3 ≤ s.f .BASE_STATUS_STATE (t1Stack e.home) then s.mem.st.zero dst n
    else s.mem.st.move src dst n)

/-- Copies the granules listed from the old home to the destination. -/
def State.copyGranules (s : State) (e : DirEntry) (gs : List Nat) : State :=
  gs.foldl (fun t g => t.copyRange e (256 * g) 256) s

/-- An uncorrectable read of `n` bytes at offset `o` of bolt `b` (R210): counted, noted for the boundary, with a ledger
entry. -/
def State.noteUncorr (s : State) (b o n : Nat) (kind : UnitKind) (num : Nat) : State :=
  let k := (s.dirE b).owner
  let s := (s.tally .HUB_UNCORR 0 1).updSw k (fun r => { r with lost := r.lost ++ [(65536 * b + o, n)] })
  (s.ledger 0x06 (unitPayload kind num 0 causeUncorr k (s.sw k).step)).interruptAll 5

/-- Such a read with cause UNCORR for the owner's step (R197). -/
def State.uncorrBolt (s : State) (b o n : Nat) (kind : UnitKind) (num : Nat) : State :=
  (s.failStep (s.dirE b).owner causeUncorr).noteUncorr b o n kind num

/-- Which of the four units of a granule an uncorrectable read of a stack met: the event does not say (R240).
(DESIGN CHOICE, log 108.) -/
def State.badUnit (s : State) : Nat := (Config.freeValue 2 s.mem.tick).toNat

/-- An uncorrectable read of granule `g` of a bolt at home in a stack, as the base die sees it. -/
def State.uncorrHbm (s : State) (b g : Nat) : State :=
  let h := (s.dirE b).home
  if (s.dirE b).tier ≠ 1 then s
  else s.use.baseUncorr (t1Stack h) (t1Slot h) g s.use.badUnit

/-- What a copy could not read at granule `g` of bolt `b` goes to the destination as read, which the spec leaves open (R210,
R275): a unit of a stack, a codeword of a flash slot (R286), a granule of a pocket. (DESIGN CHOICE, log 171.) -/
def State.copyBad (e : DirEntry) (b : Nat) (s : State) (g : Nat) : State :=
  let s := s.use
  let o := if e.tier = 1 then 256 * g + 64 * s.badUnit else if e.tier = 2 then 4096 * (g / 16) else 256 * g
  let n := if e.tier = 1 then 64 else if e.tier = 2 then 4096 else 256
  let t := s.setStores (s.mem.st.write (s.placeOf e.dtier e.dest e.owner o)
    (leBytes (Config.freeValue (8 * n) s.mem.tick).toNat n))
  if e.tier = 1 then (t.baseUncorr (t1Stack e.home) (t1Slot e.home) g s.badUnit).uncorrBolt b o n .stack (t1Stack e.home)
  else if e.tier = 2 then (t.tally .FLC_UNCORR (e.home % 2) 1).uncorrBolt b o n .flash (e.home % 2)
  else if e.tier = 0 then t.uncorrBolt b o n .pocket (t0Region e.home)
  else s

/-- A copy or recopy pass ends (R272); `bad`: granules that could not be read. A move into T2 needs room in the write buffer,
a T3 copy the host link. -/
def moveCopyDone (b : Nat) (bad : List Nat) (s : State) : State :=
  match s.moveOf b with
  | none => s
  | some m =>
    let e := s.dirE b
    let c := e.dest % 2
    if m.phase ≠ .copy && m.phase ≠ .recopy then s
    else if (e.tier = 3 || e.dtier = 3) && !s.linkUp then s.waitOn e.owner 4 b
    else if m.phase = .copy && e.dtier = 2 && 1024 ≤ ((s.flc c).buffer).length then s.waitOn e.owner 0 b
    else if m.phase = .copy then
      let s := bad.foldl (State.copyBad e b) (s.copyRange e 0 65536)
      let s := if e.dtier = 2 then s.setFlc c { s.flc c with buffer := (s.flc c).buffer ++ [e.dest] } else s
      let s := if e.tier = 2 then s.tally .FLC_READS (e.home % 2) 1 else s
      s.setMove b (some { m with phase := .recopy, dirty := [], passes := 0 })
    else
      ((bad.filter m.dirty.contains).foldl (State.copyBad e b) (s.copyGranules e m.dirty)).setMove b
        (some { m with dirty := [], passes := m.passes + 1 })

/-- MOVE_COPY_DONE. -/
def execMoveCopyDone (b : Nat) (bad : List Nat) (s : State) : Host.Outcome State Fault Refusal :=
  act (boltOk b && bad.all (fun g => g < 256)) (whenUp (moveCopyDone b bad)) s

/-- May move traffic of an entry pass: a T3 home needs the host link (R291)? -/
def State.moveLink (s : State) (e : DirEntry) : Bool := (e.tier ≠ 3 && e.dtier ≠ 3) || s.linkUp

/-- The hold begins: no dirty granule or four passes, and 16 µs since the previous advance (R272). -/
def moveHold (b : Nat) (s : State) : State :=
  match s.moveOf b with
  | none => s
  | some m =>
    if m.phase ≠ .recopy || !(m.dirty.isEmpty || 4 ≤ m.passes) then s
    else if !s.moveLink (s.dirE b) then s.waitOn (s.dirE b).owner 4 b
    else if !s.spaced b then s.waitOn (s.dirE b).owner 2 b
    else (s.setMove b (some { m with phase := .hold, await := List.range 86 })).emit (.holdNotice b)

/-- MOVE_HOLD. -/
def execMoveHold (b : Nat) (s : State) : Host.Outcome State Fault Refusal := act (boltOk b) (whenUp (moveHold b)) s

/-- A holder's translation buffer. -/
def State.holder (s : State) (h : Nat) : Holder := FMap.get {} s.mem.holders h
/-- Writes it. -/
def State.setHolder (s : State) (h : Nat) (v : Holder) : State :=
  s.setMem { s.mem with holders := FMap.set {} s.mem.holders h v }

/-- A holder receives the hold notice and stops issuing to the bolt (R272). -/
def moveHoldNotice (h b : Nat) (s : State) : State :=
  match s.moveOf b with
  | none => s
  | some m =>
    if m.phase ≠ .hold || (s.holder h).stopped.contains b then s
    else
      let s := if h < 48 && s.regionInReset h then s.absorb h else s
      s.setHolder h { s.holder h with stopped := (s.holder h).stopped ++ [b] }

/-- MOVE_HOLD_NOTICE. -/
def execMoveHoldNotice (h b : Nat) (s : State) : Host.Outcome State Fault Refusal :=
  act (holderOk h && boltOk b) (whenUp (moveHoldNotice h b)) s

/-- A holder that has stopped acknowledges (R272): its requests complete within the commands that made them. -/
def holdAck (b h : Nat) (s : State) : State :=
  match s.moveOf b with
  | none => s
  | some m =>
    if m.phase ≠ .hold || !(s.holder h).stopped.contains b then s
    else s.setMove b (some { m with await := m.await.filter (fun x => x ≠ h) })

/-- HOLD_ACK. -/
def execHoldAck (b h : Nat) (s : State) : Host.Outcome State Fault Refusal :=
  act (holderOk h && boltOk b) (whenUp (holdAck b h)) s

/-- The flip at the end of the hold (R272): HOME and DEST swap, TIER takes DTIER, DTIER keeps the source's tier.
(DEDUCED, log 8.) -/
def moveFlip (b : Nat) (s : State) : State :=
  match s.moveOf b with
  | none => s
  | some m =>
    let e := s.dirE b
    if m.phase ≠ .hold || !m.await.isEmpty then s
    else if !s.moveLink e then s.waitOn e.owner 4 b
    else
      let s := s.copyGranules e m.dirty
      let s := s.setDir b { e with home := e.dest, dest := e.home, tier := e.dtier, dtier := e.tier, flipped := true }
      let s := (s.advance b false).tally .TIER_MOVES 0 1
      let s := s.setMem { s.mem with holders := (s.mem.holders.map (fun p =>
        (p.1, { p.2 with stopped := p.2.stopped.filter (fun x => x ≠ b) }))).filter (fun p => p.2 ≠ {}) }
      let s := (s.setMove b (some { m with phase := .flipped, dirty := [], gen := (s.dirE b).generation })).emit
        (.release b (s.dirE b).generation e.dest e.dtier)
      if e.dtier ≤ 1 then s.endWaits b else s

/-- MOVE_FLIP. -/
def execMoveFlip (b : Nat) (s : State) : Host.Outcome State Fault Refusal := act (boltOk b) (whenUp (moveFlip b)) s

/-- The source of a flipped move is freed (R272, R273). -/
def moveFreeSource (b : Nat) (s : State) : State :=
  match s.moveOf b with
  | none => s
  | some m =>
    let e := s.dirE b
    if m.phase ≠ .flipped then s
    else
      let s := s.freeLoc e.dtier e.dest
      let s := s.setDir b { e with state := 1, dtier := 0, dest := 0, mrec := 0, flipped := false }
      (((s.setMove b none).afterMove b m.held).wake b).countFree

/-- MOVE_FREE_SOURCE. -/
def execMoveFreeSource (b : Nat) (s : State) : Host.Outcome State Fault Refusal :=
  act (boltOk b) (whenUp (moveFreeSource b)) s

/-- The 16 µs since a bolt's previous advance have passed: its pending free or the requests waiting on it go on
(R276, R295). -/
def generationSpacingEnd (b : Nat) (s : State) : State :=
  if !s.spaced b then s else ((s.settleBolt b).wake b).endWaits b

/-- GENERATION_SPACING_END. -/
def execGenerationSpacingEnd (b : Nat) (s : State) : Host.Outcome State Fault Refusal :=
  act (boltOk b) (whenUp (generationSpacingEnd b)) s

/-! Notices and translation buffers (R270). -/

/-- A holder applies a notice to an entry of an earlier generation; the notice of a FREE removes it. A region in reset
absorbs it (R468). -/
def dirNotice (h b gen : Nat) (freed : Bool) (s : State) : State :=
  if h < 48 && s.regionInReset h then s.absorb h
  else
  let v := s.holder h
  let stale (t : Trans) : Bool := isEarlier 16 t.generation gen
  let keep := v.entries.filter (fun p => !(p.1 = b && freed && stale p.2))
  let e := s.dirE b
  let upd := keep.map (fun p => if p.1 = b && stale p.2 then
    (p.1, { p.2 with generation := gen, home := e.home, tier := e.tier }) else p)
  s.setHolder h { v with entries := upd, noticed := FMap.set none v.noticed b (some gen) }

/-- DIR_NOTICE. -/
def execDirNotice (h b gen : Nat) (freed : Bool) (s : State) : Host.Outcome State Fault Refusal :=
  act (holderOk h && boltOk b && gen < 65536) (whenUp (dirNotice h b gen freed)) s

/-- Entries a holder's buffer has room for: a region's holds 8,192 (R270); the others' sizes the spec leaves open, and
the model takes the same. -/
def holderRoom : Nat := 8192

/-- A miss is filled from the owning hub, unless a later notice has been applied (R270); an access that is not allowed
is denied (R271), and a bolt homed in T2 or T3 is promoted on demand (R264). (DESIGN CHOICE, log 13.) -/
def translationFill (b h k : Nat) (write : Bool) (s : State) : State :=
  let s := s.lookup b
  let e := s.dirE b
  match s.serve b (fun x => s.shareAllows x k write) with
  | .denied => s.deny b k
  | .waits demand => s.await b k (if h < 48 then h else s.firstRegion k) demand false
  | .at t loc owner =>
    let v := s.holder h
    let stale := match FMap.get none v.noticed b with
      | some g => isEarlier 16 e.generation g
      | none => false
    if stale then s
    else
      let rest := v.entries.filter (fun p => p.1 ≠ b)
      let rest := if rest.length < holderRoom then rest else rest.eraseIdx (Config.victim s.mem.tick % holderRoom)
      let x : Trans := { tier := t, home := loc, share := e.share, owner := owner, generation := e.generation }
      (s.setHolder h { v with entries := rest ++ [(b, x)] }).use

/-- TRANSLATION_FILL. -/
def execTranslationFill (b h k : Nat) (write : Bool) (s : State) : Host.Outcome State Fault Refusal :=
  act (holderOk h && boltOk b && k < 65536) (whenUp (translationFill b h k write)) s

/-- Is a stored generation of bolt `b` to be rewritten by the scrubber: it lags by 2^14 or more, or is later or unordered
(R295, R297)? -/
def State.lagging (s : State) (b g : Nat) : Bool :=
  let cur := (s.dirE b).generation
  g ≠ cur && (!isEarlier 16 g cur || 2 ^ 14 ≤ (cur + 65536 - g) % 65536)

/-- The bolt at which a tier request stands. -/
def TierReq.bolt (q : TierReq) : Nat := trFirst q.bits + q.done

/-- A waiting request re-resolved, where its generation lags. -/
def State.reResolve (s : State) (q : TierReq) : TierReq :=
  if s.lagging q.bolt q.gen then { q with gen := (s.dirE q.bolt).generation } else q

/-- A request held in a move record of bolt `b`, re-resolved. -/
def State.reHeld (s : State) (b : Nat) (h : HeldReq) : HeldReq :=
  { h with gen := if s.lagging b h.gen then (s.dirE b).generation else h.gen, req := h.req.map s.reResolve }

/-- The scrubber's visit of every translation buffer entry and every waiting tier request: queued, waiting or held (R295,
R297). -/
def dirScrub (s : State) : State :=
  let hits := s.mem.holders.flatMap (fun p => (p.2.entries.filter (fun x => s.lagging x.1 x.2.generation)).map Prod.fst)
  let waits := ((s.mem.tierQ ++ s.mem.tierWait).filter (fun q => s.lagging q.bolt q.gen)).map TierReq.bolt
  let helds := s.mem.moves.flatMap (fun p =>
    match p.2 with
    | some m => (m.held.filter (fun h => s.lagging p.1 h.gen)).map (fun _ => p.1)
    | none => [])
  let s1 := s.setMem { s.mem with
    holders := (s.mem.holders.map (fun p =>
      (p.1, { p.2 with entries := p.2.entries.filter (fun x => !s.lagging x.1 x.2.generation) }))).filter (fun p => p.2 ≠ {}),
    tierQ := s.mem.tierQ.map s.reResolve, tierWait := s.mem.tierWait.map s.reResolve,
    moves := s.mem.moves.map (fun p => (p.1, p.2.map (fun m => { m with held := m.held.map (s.reHeld p.1) }))) }
  let s2 := (hits ++ waits ++ helds).foldl (fun t b => t.tally .DIR_SCRUB_FIX (hubOf b) 1) s1
  (List.range 4).foldl (fun t h => t.tally .DIR_SCRUB_PASS h 1) s2

/-- DIR_SCRUB. -/
def execDirScrub (s : State) : Host.Outcome State Fault Refusal := act true (whenUp dirScrub) s

/-! Prefetch (R283, R284). -/

/-- Is a prefetch entry void (R283)? -/
def prefVoid (v : Nat) : Bool :=
  bitField v 27 13 = 0 || 4096 < bitField v 27 13 || 2 ≤ bitField v 72 2 || bitField v 74 2 = 0
    || (bitField v 72 2 = 0 && 47 < bitField v 76 6) || !zeroBits v 82 46

/-- One prefetch or release request of a pass: the act, or, where no move record is free, a waiting request. One for a FREE
bolt, or a bolt that SHARE bars, is dropped without a count and breaks nothing. (DESIGN CHOICE, log 172.) -/
def State.passOne (s : State) (k op tier place b : Nat) : State :=
  let e := s.dirE b
  if e.state = 0 || !s.shareAllows e k false then s
  else
    (if op = 2 then s.promote b tier place 3 k none else s.evict b tier 3 k none).orQueue op tier place k b

/-- Where the prefetch list of swatch `k` lies (R283, R350). -/
def State.prefRange (s : State) (k : Nat) : Nat × Nat := (s.desc k 832 52, 16 * s.desc k 994 17)

/-- The prefetch list of swatch `k`, entry by entry (R283). -/
def State.prefList (s : State) (k : Nat) : List Nat :=
  (List.range (s.desc k 994 17)).map (fun i => s.devNat ((s.prefRange k).1 + 16 * i) 16)

/-- One pass over the list at layer `l` (R284). -/
def State.prefPass (s : State) (k l : Nat) (release : Bool) : State :=
  (s.prefList k).foldl (fun t v =>
    if prefVoid v then t.tally .TIER_VOID 0 1
    else
      let bolts := (List.range (bitField v 27 13)).map (fun i => bitField v 0 27 + i)
      let layer := bitField v 40 16
      let rel := bitField v 56 16
      if release then
        if rel ≠ 0xFFFF && rel < l then bolts.foldl (fun u b => u.passOne k 3 (bitField v 74 2) 0 b) t else t
      else if l ≤ layer && layer ≤ l + s.desc k 20 8 then
        bolts.foldl (fun u b => u.passOne k 2 (bitField v 72 2) (bitField v 76 6) b) t
      else t) s

/-- L changes, and the list is walked twice (R284). -/
def State.layerTo (s : State) (k l : Nat) : State :=
  (((s.streamRead (s.prefRange k).1 (s.prefRange k).2).setDesc k 1920 16 l).prefPass k l true).prefPass k l false

/-- A layer mark sets L; a mark not above L changes nothing (R284). -/
def State.layerSet (s : State) (k l : Nat) : State := if l ≤ s.desc k 1920 16 then s else s.layerTo k l

/-- L returns to 0 at the step boundary (R284). -/
def State.layerZero (s : State) (k : Nat) : State := if s.desc k 1920 16 = 0 then s else s.layerTo k 0

/-! Stalls (R293). -/

/-- The stall limit in force for a swatch, in ms: an idle one takes the register as it stands (R18, R301). -/
def State.stallMs (s : State) (k : Nat) : Nat :=
  natMin (natMax (if s.idle k then s.f .TIER_CFG_STALL_LIMIT 0 else (s.sw k).stallMs) 1) 10000

/-- The waiting request of swatch `k` on `w` is abandoned; the moves it started go on (R293). -/
def State.abandonWait (s : State) (w : Waiter) : State :=
  let mine (q : TierReq) : Bool := trSwatch q.bits = w.sw && heldKey q.bolt = w.key
  let heldMine (h : HeldReq) : Bool := h.req.any mine
  s.setMem { s.mem with
    waiters := s.mem.waiters.filter (fun x => x ≠ w), tierWait := s.mem.tierWait.filter (fun q => !mine q)
    moves := s.mem.moves.map (fun p => (p.1, p.2.map (fun m => { m with held := m.held.filter (fun h => !heldMine h) }))) }

/-- A request of swatch `k` under a cause has waited longer than the limit (R293). One of a press update after the final
verdict, of an append or of the step boundary the step cannot leave: the member does not complete it (R207).
(DEDUCED, log 173.) -/
def stallLimit (k cause : Nat) (s : State) : State :=
  let late (w : Waiter) : Bool := w.sw = k && s.causeNow w = cause && !w.past && msec (s.stallMs k) < s.now - w.since
  match s.mem.waiters.find? late with
  | none => s
  | some w =>
    let s := s.showStall w true
    let r := s.sw k
    let past (t : State) : State :=
      t.setMem { t.mem with waiters := t.mem.waiters.map (fun x => if x = w then { x with past := true } else x) }
    if r.started && !r.latched then
      let s := if r.limitHit then s else s.tally .TIER_STALL_FAIL 0 1
      ((s.abandonWait w).failStep k causeStall).updSw k (fun x => { x with limitHit := true })
    else if r.started && w.stuck then
      ((past s).updSw k (fun x => { x with limitHit := true, failed := true })).setWithdraw (2 ^ causeStall)
    else past s

/-- STALL_LIMIT. -/
def execStallLimit (k cause : Nat) (s : State) : Host.Outcome State Fault Refusal :=
  act (k < 65536 && cause < 6) (whenUp (stallLimit k cause)) s

/-! The flash controllers (R286 to R289) and the T3 window (R290). -/

/-- FLC_BUDGET.WRITTEN shows the window's total in GiB (R304). (DEDUCED, log 113.) -/
def State.showBudget (s : State) (c : Nat) : State :=
  s.setF .FLC_BUDGET_WRITTEN c (((s.flc c).hours).foldl (· + ·) 0 / 2 ^ 30)

/-- The payload of a FLASH entry (R490). -/
def State.flashPayload (s : State) (c : Nat) : Nat :=
  let hs := (s.flc c).hours
  c + 2 ^ 8 * s.f .FLC_WEAR_AVG_PE c + 2 ^ 24 * s.f .FLC_WEAR_MAX_PE c + 2 ^ 40 * s.f .FLC_WEAR_WA c
    + 2 ^ 56 * (((s.flc c).withdrawn).length % 2 ^ 32)
    + (List.range 24).foldl (fun n i => n + 2 ^ (88 + 16 * i) * (hs.getD i 0 / 2 ^ 30 % 65536)) 0

/-- A unit of 1 GiB of slots is withdrawn: the highest-numbered free slots of the controller (R289). -/
def State.withdrawSlots (s : State) (c : Nat) : State :=
  let used := s.usedLocs 2 ++ (s.flc c).withdrawn
  let free := ((List.range (16384 + used.length)).map (fun i => 2 * (25165823 - i) + c)).filter
    (fun l => !used.contains l)
  let s := s.setFlc c { s.flc c with withdrawn := (s.flc c).withdrawn ++ free.take 16384,
                                     spareGiB := (s.flc c).spareGiB + 1 }
  let s := (s.setF .FLC_CAPACITY_SLOTS c (s.f .FLC_CAPACITY_SLOTS c - 16384)).raise .FLC_STATUS_SPARE_LOW c
  (s.ledger 0x04 (s.flashPayload c)).countFree

/-- A controller programs the oldest bolt of its write buffer, which frees room; `lost` GiB of spare area have been
used up by bad blocks since the last program (R286, R288, R289). -/
def flashProgram (c lost : Nat) (s : State) : State :=
  match (s.flc c).buffer with
  | [] => s
  | _ :: rest =>
    let v := s.flc c
    let hours := match v.hours with
      | [] => [65536]
      | h :: hs => (h + 65536) :: hs
    let s := s.setFlc c { v with buffer := rest, hours := hours, spareGiB := v.spareGiB - lost }
    let s := (s.tally .FLC_WRITES c 1).showBudget c
    let s := if s.overBudget c then s.raise .FLC_STATUS_BUDGET_HIT c else s
    if (s.flc c).spareGiB < 64 then s.withdrawSlots c else s

/-- FLASH_PROGRAM. -/
def execFlashProgram (c lost : Nat) (s : State) : Host.Outcome State Fault Refusal :=
  act (c < 2) (whenUp (flashProgram c lost)) s

/-- An hour passes: the rolling window of 24 hourly counts moves on (R288). -/
def flashBudgetHour (c : Nat) (s : State) : State :=
  let v := s.flc c
  (s.setFlc c { v with hours := 0 :: v.hours.take 23 }).showBudget c

/-- FLASH_BUDGET_HOUR. -/
def execFlashBudgetHour (c : Nat) (s : State) : Host.Outcome State Fault Refusal :=
  act (c < 2) (whenUp (flashBudgetHour c)) s

/-- Is a bolt homed in T3 or in a move to or from it (R290)? -/
def State.t3Used (s : State) : Bool :=
  s.mem.dir.any (fun p => p.2.state ≠ 0 && (p.2.tier = 3 || (2 ≤ p.2.state && p.2.dtier = 3)))

/-- A write of TIER_T3_BASE or TIER_T3_SIZE (R290). -/
def tierT3Write (size : Bool) (v : Nat) (s : State) : State :=
  if s.t3Used then s
  else if size then s.setF .TIER_T3_SIZE_BOLTS 0 v
  else s.setF .TIER_T3_BASE_BASE 0 (v / 65536)

end Sys2Proof.Machine
end

