-- ==== Sys2Proof/Machine/Spans.lean ====
section
/-! DEFINITION. Spans, record blocks and parameter groups (R160 to R168), and the domain of a swatch's step
(R174, R370). -/

namespace Sys2Proof.Machine

/-! The domain of a step. -/

/-- A domain beyond its registers. -/
def State.dom (s : State) (d : Nat) : Dom := FMap.get {} s.doms d
/-- Replaces it. -/
def State.setDom (s : State) (d : Nat) (v : Dom) : State := { s with doms := FMap.set {} s.doms d v }

/-- A domain of the configuration registers that counts as a lining pair (R340). -/
def State.lining (s : State) (d : Nat) : Bool :=
  d < 16 && s.f .COLL_DOM_CFG_LINING d = 1 && s.f .COLL_DOM_CFG_EXPECT d = 2

/-- Members of the domain in force for a swatch's step; a swatch of no domain runs as a domain of one (R370). -/
def State.members (s : State) (k : Nat) : List Nat :=
  let d := (s.sw k).domain
  if d < 16 then (s.dom d).members else []

/-- Does the step run as in a domain of one member (R174, R370)? -/
def State.alone (s : State) (k : Nat) : Bool := (s.members k).length ≤ 1

/-- Does the press write the reduced plane directly: alone, or in a lining pair (R174, R368)? -/
def State.packsReduced (s : State) (k : Nat) : Bool := s.alone k || s.lining (s.sw k).domain

/-! Groups (R167). -/

/-- The descriptor of group `g` of swatch `k`. -/
def State.group (s : State) (k g : Nat) : Nat := s.devNat (s.desc k 448 52 + 128 * g) 128
/-- RULE: 0 MOM, 1 ADM, 2 SGN, 3 ROW. -/
def gRule (v : Nat) : Nat := bitField v 2 2
/-- FORM: true for Form W. -/
def gWide (v : Nat) : Bool := bitAt v 4
/-- NESTEROV. -/
def gNesterov (v : Nat) : Bool := bitAt v 5
/-- ACTIVE, in a group of this generation (R167, R496). (DEDUCED, log 155.) -/
def gActive (v : Nat) : Bool := bitAt v 6 && bitField v 0 2 = 1
/-- STEP. -/
def gStep (v : Nat) : Nat := bitField v 64 64
/-- LR. -/
def gLr (v : Nat) : Fv := f32 (bitField v 128 32)
/-- B1. -/
def gB1 (v : Nat) : Fv := f32 (bitField v 160 32)
/-- B2. -/
def gB2 (v : Nat) : Fv := f32 (bitField v 192 32)
/-- EPS. -/
def gEps (v : Nat) : Fv := f32 (bitField v 224 32)
/-- DECAY. -/
def gDecay (v : Nat) : Fv := f32 (bitField v 256 32)
/-- NORM_LIMIT. -/
def gNorm (v : Nat) : Fv := f32 (bitField v 288 32)
/-- GRAD_MUL. -/
def gMul (v : Nat) : Fv := f32 (bitField v 320 32)
/-- B1POW. -/
def gB1Pow (v : Nat) : Fv := f32 (bitField v 352 32)
/-- B2POW. -/
def gB2Pow (v : Nat) : Fv := f32 (bitField v 384 32)

/-- Negative or not finite; -0 is not negative. -/
def badFactor (v : Fv) : Bool := !v.isFinite || Fv.lt v (.zero false)
/-- At least one. -/
def atLeastOne (v : Fv) : Bool := Fv.le (.fin false 1 0) v

/-- Is a group invalid (R168)? -/
def groupBad (v : Nat) : Bool :=
  let r := gRule v
  bitField v 0 2 ≠ 1 || (gActive v && (!zeroBits v 7 25 || !zeroBits v 448 576))
    || [gLr v, gB1 v, gB2 v, gEps v, gDecay v, gNorm v, gMul v].any badFactor
    || (r ≤ 2 && atLeastOne (gB1 v)) || ((r = 1 || r = 2) && atLeastOne (gB2 v))
    || ((r = 1 || r = 3) && (gEps v).isZero)

/-! Spans (R164). -/

/-- The descriptor of span `i` of swatch `k`. -/
def State.span (s : State) (k i : Nat) : Nat := s.devNat (s.desc k 384 52 + 128 * i) 128
/-- SPAN_COUNT. -/
def State.spanCount (s : State) (k : Nat) : Nat := s.desc k 977 17
/-- AXIS: blocks run along a row. -/
def spAxis (v : Nat) : Bool := bitAt v 2
/-- ROLE: 0 replicated, 1 owned, 2 foreign. -/
def spRole (v : Nat) : Nat := bitField v 3 2
/-- GROUP. -/
def spGroup (v : Nat) : Nat := bitField v 5 12
/-- STACK. -/
def spStack (v : Nat) : Nat := bitField v 17 5
/-- ROWS. -/
def spRows (v : Nat) : Nat := bitField v 32 25
/-- COLS. -/
def spCols (v : Nat) : Nat := bitField v 64 25
/-- REC_BASE. -/
def spRec (v : Nat) : Nat := bitField v 128 52
/-- WORK_BASE. -/
def spWork (v : Nat) : Nat := bitField v 192 52
/-- WSCALE_BASE. -/
def spWscale (v : Nat) : Nat := bitField v 256 52
/-- GRAD_BASE. -/
def spGrad (v : Nat) : Nat := bitField v 320 52
/-- RED_BASE. -/
def spRed (v : Nat) : Nat := bitField v 384 52
/-- SEND_BASE. -/
def spSend (v : Nat) : Nat := bitField v 448 52
/-- RES_BASE. -/
def spRes (v : Nat) : Nat := bitField v 512 52

/-- Blocks of 32 along a row of the tensor. -/
def spRowBlocks (v : Nat) : Nat := ceilDiv (spCols v) 32
/-- How many record blocks a span has. -/
def spBlocks (v : Nat) : Nat := if spAxis v then spRows v * spRowBlocks v else ceilDiv (spRows v) 32 * spCols v

/-- The tensor element in slot `i` of block `b`. -/
def spElem (v b i : Nat) : Nat × Nat :=
  if spAxis v then (b / natMax (spRowBlocks v) 1, 32 * (b % natMax (spRowBlocks v) 1) + i)
  else (32 * (b / natMax (spCols v) 1) + i, b % natMax (spCols v) 1)

/-- Is a slot a padding slot (R162)? -/
def spPad (v b i : Nat) : Bool := let e := spElem v b i; spRows v ≤ e.1 || spCols v ≤ e.2

/-- Where a span's record block `b` lies (R162). -/
def recAt (wide : Bool) (v b : Nat) : Nat :=
  if wide then spRec v + 512 * b else spRec v + 65536 * (b / 170) + 384 * (b % 170)

/-- Bytes of a record block. -/
def recSize (wide : Bool) : Nat := if wide then 512 else 384
/-- Bytes that the digest trees cover (R166). -/
def recCovered (wide : Bool) : Nat := if wide then 384 else 256
/-- Where the error terms stand in a record block. -/
def recErr (wide : Bool) : Nat := if wide then 384 else 256

/-- Where the error terms of a block lie: in its record, or for ROLE foreign in the error plane (R166). -/
def errAt (wide : Bool) (v b : Nat) : Nat :=
  if spRole v = 2 then spRec v + 64 * b else recAt wide v b + recErr wide

/-- Where the local gradient of an element lies. -/
def gradAt (v : Nat) (e : Nat × Nat) : Nat := spGrad v + 4 * (e.1 * spCols v + e.2)
/-- Where the working element lies. -/
def workAt (v : Nat) (e : Nat × Nat) : Nat := spWork v + e.1 * spCols v + e.2

/-- Is the domain of a swatch's step within one board, with 8 members or fewer (R166)? -/
def State.oneBoard (s : State) (k : Nat) : Bool :=
  let ms := s.members k
  ms.length ≤ 8 && (ms.all (fun p => p / 8 = ms.headD 0 / 8))

/-- Is a span itself invalid (R168)? -/
def State.spanBad (s : State) (k v : Nat) : Bool :=
  let g := s.group k (spGroup v)
  spRole v = 3 || bitField v 0 2 ≠ 1
    || !(zeroBits v 22 10 && zeroBits v 57 7 && zeroBits v 89 39 && zeroBits v 180 12 && zeroBits v 244 12
      && zeroBits v 308 12 && zeroBits v 372 12 && zeroBits v 436 12 && zeroBits v 500 12 && zeroBits v 564 460)
    || 23 < spStack v || (spRole v ≤ 1 && spRec v % 65536 ≠ 0)
    || (gRule g = 3 && (!spAxis v || spRole v ≠ 1)) || (spRole v ≠ 0 && !s.oneBoard k)

/-- The stack whose press has charge of a span: one above 23 falls to stack 0 (R168). -/
def spPress (v : Nat) : Nat := if 23 < spStack v then 0 else spStack v

/-- The spans of a swatch with their numbers. -/
def State.spans (s : State) (k : Nat) : List (Nat × Nat) :=
  (List.range (s.spanCount k)).map (fun i => (i, s.span k i))

/-- The check of every span and of every group that a span names, once in a step (R168): a press that finds one invalid
counts it once, and the swatch's bit is 0. -/
def State.checkSpans (s : State) (k : Nat) : State :=
  if (s.sw k).checked then s
  else
    let bad := (s.spans k).filter (fun p => s.spanBad k p.2 || groupBad (s.group k (spGroup p.2)))
    let s := s.updSw k (fun r => { r with checked := true })
    if bad.isEmpty then s
    else
      let s := (sortAsc (bad.map (fun p => spPress p.2))).foldl (fun t st =>
        (t.raise .PRESS_STATUS_BAD_SEEN st).tally .PRESS_BAD_SPAN st 1) s
      s.failStep k causeNonFinite

/-! Reading and writing blocks. -/

/-- `n` little-endian numbers of `w` bytes at a device address. -/
def State.devNats (s : State) (a w n : Nat) : List Nat :=
  let bs := s.dev a (w * n)
  (List.range n).map (fun i => leNat ((bs.drop (w * i)).take w))

/-- The BF16 error terms of a block. -/
def State.errTerms (s : State) (wide : Bool) (v b : Nat) : List Fv :=
  (s.devNats (errAt wide v b) 2 32).map (fpDecode fmtBF16)

/-- A 33 B block of a reduced or send plane: scale code and elements. -/
def State.planeBlock (s : State) (base b : Nat) : Nat × List Nat :=
  let xs := s.devNats (base + 33 * b) 1 33
  (xs.getD 32 0, xs.take 32)

/-- Writes such a block. -/
def State.putPlane (s : State) (base b : Nat) (p : Nat × List Nat) : State :=
  s.putDev (base + 33 * b) ((p.2 ++ [p.1]).map (BitVec.ofNat 8))

/-- The values v of R170 for a block: the local gradient plus the error terms, padding +0; with the saturations. -/
def State.packValues (s : State) (wide : Bool) (v b : Nat) : List Fv × Nat :=
  let es := s.errTerms wide v b
  let xs := (List.range 32).map (fun i =>
    if spPad v b i then (Fv.zero false, 0)
    else
      let r := fpRound fmtFP32 (Fv.add (f32 (s.devNat (gradAt v (spElem v b i)) 4)) (es.getD i (.zero false)))
      (f32 r.1, flagBit r.2))
  (xs.map Prod.fst, xs.foldl (fun n x => n + x.2) 0)

/-- The new error terms of R171 as BF16 patterns. -/
def newErrors (vs : List Fv) : List Nat :=
  let q := quantE5M2 vs
  (vs.zip q.2).map (fun p => fpBits fmtBF16 (Fv.sub p.1 (deqE5M2 q.1 p.2)))

/-- The working plane of a block from its master values, and its scale (R181). -/
def State.putWork (s : State) (v b : Nat) (ws : List Fv) : State :=
  let padded := ws.zipIdx.map (fun p => if spPad v b p.2 then .zero false else p.1)
  let q := quantBlock 0 0 (-127) 127 padded
  let s := (List.range 32).foldl (fun t i =>
    if spPad v b i then t else t.putDevNat (workAt v (spElem v b i)) (q.2.1.getD i 0) 1) s
  s.putDevNat (spWscale v + b) q.1 1

/-- The master values of a record block. -/
def State.masters (s : State) (wide : Bool) (v b : Nat) : List Fv := (s.devNats (recAt wide v b) 4 32).map f32

/-- Every block's working plane is written from its master values again (R181). -/
def State.rebuildWork (s : State) (k v : Nat) : State :=
  let wide := gWide (s.group k (spGroup v))
  (List.range (spBlocks v)).foldl (fun t b => t.putWork v b (t.masters wide v b)) s

/-- Blocks that one member can own of a span of `m` members (R172). -/
def shardLen (v m : Nat) : Nat := ceilDiv (spBlocks v) (natMax m 1)

/-- The blocks of shard `p` of `m` (R172). -/
def shardBlocks (v m p : Nat) : List Nat :=
  let n := shardLen v m
  (List.range (natMin (spBlocks v) ((p + 1) * n) - natMin (spBlocks v) (p * n))).map (fun i => p * n + i)

/-- The blocks of a span that a member can own, for each of which a residual half has 64 B (R172): those of a shard, or every
block of an owned span, all of which reduce toward their owner (R166). (DESIGN CHOICE, log 174.) -/
def resLen (v m : Nat) : Nat := if spRole v = 1 then spBlocks v else shardLen v m

/-- Bytes of the records, or of the error plane, of a span. -/
def State.recRange (s : State) (k v : Nat) : Nat × Nat :=
  let wide := gWide (s.group k (spGroup v))
  let n := spBlocks v
  if spRole v = 2 then (spRec v, 64 * n)
  else (spRec v, if n = 0 then 0 else recAt wide v (n - 1) + recSize wide - spRec v)

/-- What every job of a span reads: its descriptor and its group's, its records or error plane, its local gradient. -/
def State.spanReads (s : State) (k i v : Nat) : List (Nat × Nat) :=
  [(s.desc k 384 52 + 128 * i, 128), (s.desc k 448 52 + 128 * spGroup v, 128), s.recRange k v,
    (spGrad v, 4 * spRows v * spCols v)]

/-- The working plane of a span and its scales. -/
def spWorkRanges (v : Nat) : List (Nat × Nat) := [(spWork v, spRows v * spCols v), (spWscale v, spBlocks v)]

/-- The shard residuals of a swatch's spans return to +0 in both halves, for a domain of `m` members (R175). -/
def State.zeroResiduals (s : State) (k m : Nat) : State :=
  (s.spans k).foldl (fun t p =>
    if spRole p.2 ≤ 1 then t.putDev (spRes p.2) (fillBytes (128 * resLen p.2 m) 0) else t) s

end Sys2Proof.Machine
end

