-- ==== Sys2Proof/Machine/Verdict.lean ====
section
/-! DEFINITION. The step verdict at this member (R33, R184, R185, R189, R197 to R207): its bit, its latch, and what a
final verdict sets going. -/

namespace Sys2Proof.Machine

/-! Pending rows (R189). -/

/-- The largest row of the swatch's ROW spans, in columns: it gives the ledger's entries their common size. -/
def State.pendCols (s : State) (k : Nat) : Nat :=
  (s.spans k).foldl (fun n p => if gRule (s.group k (spGroup p.2)) = 3 then natMax n (spCols p.2) else n) 0

/-- Bytes of a pending-update entry: header and values, to a multiple of 32. -/
def State.pendSize (s : State) (k : Nat) : Nat := 32 + 32 * ceilDiv (4 * s.pendCols k) 32

/-- Where entry `j` of swatch `k`'s ledger lies. -/
def State.pendAt (s : State) (k j : Nat) : Nat := s.desc k 704 52 + s.pendSize k * j

/-- The header of an entry. -/
def State.pendHead (s : State) (k j : Nat) : Nat := s.devNat (s.pendAt k j) 32

/-- STATE of a header: 0 free, 1 awaiting verdict, 2 committed. -/
def phState (v : Nat) : Nat := bitField v 2 2
/-- SPAN. -/
def phSpan (v : Nat) : Nat := bitField v 8 16
/-- ROW. -/
def phRow (v : Nat) : Nat := bitField v 24 25
/-- STEP. -/
def phStep (v : Nat) : Nat := bitField v 64 64

/-- The entries of a ledger that are not free, with their headers; none for a swatch without ROW spans. -/
def State.pendEntries (s : State) (k : Nat) : List (Nat × Nat) :=
  if s.pendCols k = 0 then []
  else ((List.range (s.desc k 1024 32)).map (fun j => (j, s.pendHead k j))).filter (fun p => phState p.2 ≠ 0)

/-- A row's record blocks, its working elements and their scales. -/
def rowRanges (wide : Bool) (v row : Nat) : List (Nat × Nat) :=
  let n := spRowBlocks v
  (List.range n).map (fun i => (recAt wide v (row * n + i), recSize wide))
    ++ [(workAt v (row, 0), spCols v), (spWscale v + row * n, n)]

/-- The bolts of a row. -/
def rowBolts (wide : Bool) (v row : Nat) : List Nat := rangeBolts (rowRanges wide v row)

/-- The bolts of an entry's row. -/
def State.pendBolts (s : State) (k h : Nat) : List Nat :=
  let v := s.span k (phSpan h)
  rowBolts (gWide (s.group k (spGroup v))) v (phRow h)

/-- A pin of a bolt is dropped. -/
def State.unpinBolt (s : State) (b : Nat) : State :=
  let e := s.dirE b
  if e.pins = 0 then s else ((s.setDir b { e with pins := e.pins - 1 }).settleBolt b).wake b

/-- Reads of a committed entry's row wait from now on (R190): its working elements and their scales. -/
def State.holdRow (s : State) (k j h : Nat) : State :=
  let v := s.span k (phSpan h)
  let n := spRowBlocks v
  let rs := [(j, workAt v (phRow h, 0), spCols v, spPress v), (j, spWscale v + phRow h * n, n, spPress v)]
  { s with rowsDue := FMap.set [] s.rowsDue k (FMap.get [] s.rowsDue k ++ rs) }

/-- PRESS_QUEUE.PENDING_ROWS of every press: committed entries of its spans, of every swatch, that await landing (R195). -/
def State.showRows (s : State) : State :=
  let all := (s.rowsDue.flatMap (fun p => p.2.map (fun r => (p.1, r.1, r.2.2.2)))).eraseDups
  (List.range 24).foldl (fun t st =>
    t.setF .PRESS_QUEUE_PENDING_ROWS st ((all.filter (fun x => x.2.2 = st)).length)) s

/-- Is every bolt of a row at home in T1, in a stack that serves? -/
def State.allInT1 (s : State) (bs : List Nat) : Bool :=
  bs.all (fun b => (s.dirE b).state ≠ 0 && (s.dirE b).tier = 1 && !s.stackFenced (t1Stack (s.dirE b).home))

/-! Appends (R189, R191). -/

/-- An append takes a free entry: the header and the values are written, each bolt of the row is pinned, and those outside T1
are promoted. The entry of a step whose verdict has come is committed at once, or not made. With no free entry, or
at 255 pins, the append waits. -/
def State.appendRow (s : State) (a : RowAppend) : State × Bool :=
  let k := a.sw
  let v1 := (s.sw k).final.map Fold.v
  let free := (List.range (s.desc k 1024 32)).find? (fun j => phState (s.pendHead k j) = 0)
  let full := a.bolts.filter (fun b => (s.dirE b).state ≠ 0 && 255 ≤ (s.dirE b).pins)
  if v1 = some false then (s, true)
  else match free with
  | none => (s.waitAs k 0 (pendKey k a.press) true, false)
  | some j =>
    if !full.isEmpty then (full.foldl (fun t b => t.waitAs k 2 (heldKey b) true) s, false)
    else
      let g := s.group k (spGroup (s.span k a.span))
      let st := if v1 = some true then 2 else 1
      let h := 1 + 2 ^ 2 * st + 2 ^ 8 * a.span + 2 ^ 24 * a.row + 2 ^ 64 * (bitField g 64 64 + 1) + 2 ^ 128 * a.norm
      let s := s.putDev (s.pendAt k j) (leBytes h 32 ++ a.vals.flatMap (fun x => leBytes x 4))
      let s := (a.bolts.filter (fun b => (s.dirE b).state ≠ 0)).foldl (fun t b =>
        t.setDir b { t.dirE b with pins := (t.dirE b).pins + 1 }) s
      let s := a.bolts.foldl (fun t b =>
        if 1 < (t.dirE b).tier then (t.promote b 1 (t.firstRegion k) 2 k none).orQueue 2 1 0 k b else t) s
      (if st = 2 then (s.holdRow k j h).showRows else s, true)

/-- The appends of swatch `k` that wait are tried again, oldest first. -/
def State.retryAppends (s : State) (k : Nat) : State :=
  let mine := s.rowAppends.filter (fun a => a.sw = k)
  let t := mine.foldl (fun (t : State) a =>
    let x := t.appendRow a
    if x.2 then { x.1 with rowAppends := x.1.rowAppends.erase a } else x.1) s
  (List.range 24).foldl (fun u st =>
    if u.rowAppends.any (fun a => a.sw = k && a.press = st) then u else u.endWaits (pendKey k st)) t

/-- An entry becomes free and its pins are dropped; reads that wait for its row and appends that wait for an entry go on. -/
def State.pendFree (s : State) (k j : Nat) : State :=
  let h := s.pendHead k j
  let st := spPress (s.span k (phSpan h))
  let s := (s.pendBolts k h).foldl State.unpinBolt s
  let s := { s with rowsDue := FMap.set [] s.rowsDue k ((FMap.get [] s.rowsDue k).filter (fun r => r.1 ≠ j)) }
  (((s.putDevNat (s.pendAt k j) (setBits h 2 2 0) 32).endWaits (rowKey k j st)).showRows).retryAppends k

/-! The press queue (R182). -/

/-- The jobs of a stack's press. -/
def State.jobs (s : State) (st : Nat) : List PressJob := FMap.get [] s.pressQ st

/-- The span of a job. -/
def State.jobSpan (s : State) (j : PressJob) : Nat := if j.kind = 3 then phSpan (s.pendHead j.sw j.span) else j.span

/-- Replaces them. PRESS_STATUS names the front job, which is in progress, or the last one; PRESS_QUEUE.DEPTH counts it with
those behind it (R194, R195). (DESIGN CHOICE, log 176.) -/
def State.setJobs (s : State) (st : Nat) (l : List PressJob) : State :=
  let s := { s with pressQ := FMap.set [] s.pressQ st l }.setF .PRESS_QUEUE_DEPTH st (natMin l.length 1023)
  match l with
  | [] => s.setF .PRESS_STATUS_STATE st 0
  | j :: _ =>
    ((s.setF .PRESS_STATUS_STATE st (j.kind + 1)).setF .PRESS_STATUS_SPAN st (s.jobSpan j)).setF .PRESS_STATUS_SWATCH st j.sw

/-- A job enters its press's queue. -/
def State.queueJob (s : State) (st : Nat) (j : PressJob) : State := s.setJobs st (s.jobs st ++ [j])

/-- Jobs of a swatch, of one kind, that are not yet complete. -/
def State.jobsOf (s : State) (k kind : Nat) : List PressJob :=
  (s.pressQ.flatMap Prod.snd).filter (fun j => j.sw = k && j.kind = kind)

/-- The jobs of a swatch's step leave every queue; pending-row applications stay. -/
def State.dropJobs (s : State) (k : Nat) : State :=
  (List.range 24).foldl (fun t st =>
    let l := (t.jobs st).filter (fun j => j.sw ≠ k || j.kind = 3)
    if l = t.jobs st then t else t.setJobs st l) s

/-- Is the application of entry `j` due: committed, its row landed, and no earlier entry of the row before it (R189)? -/
def State.rowDue (s : State) (k : Nat) (p : Nat × Nat) : Bool :=
  phState p.2 = 2 && s.allInT1 (s.pendBolts k p.2)
    && !(s.pendEntries k).any (fun q => phState q.2 = 2 && phSpan q.2 = phSpan p.2 && phRow q.2 = phRow p.2
      && phStep q.2 < phStep p.2)

/-- The applications that are due enter the queues of their presses (R182). -/
def State.queueRows (s : State) (k : Nat) : State :=
  ((s.pendEntries k).filter (s.rowDue k)).foldl (fun t p =>
    let j : PressJob := ⟨3, k, p.1⟩
    if (t.jobsOf k 3).contains j then t else t.queueJob (spPress (t.span k (phSpan p.2))) j) s

/-! The member's bit. -/

/-- This member's bit for the step of swatch `k` (R33, R197). -/
def State.bit (s : State) (k : Nat) : Bool := !(s.sw k).bit0 && s.withdraw.isNone

/-- Is the digest tree valid for the step before this one (R214, R215)? -/
def State.dig (s : State) (k : Nat) : Bool :=
  let h := s.devNat (s.desc k 768 52) 64
  s.desc k 768 52 ≠ 0 && bitField h 0 2 = 1 && bitField h 2 2 = 1 && bitField h 64 64 + 1 = (s.sw k).step

/-- The member's own fields of a fold (R202). -/
def State.ownFold (s : State) (k : Nat) : Fold :=
  { v := s.bit k, w := (s.sw k).withdraws, mm := (s.sw k).mm, dall := s.dig k, cause := (s.sw k).cause, folded := 1 }

/-- The fold of an incoming trailer with the member's own fields (R202). -/
def Fold.join (a b : Fold) : Fold :=
  { v := a.v && b.v, w := a.w || b.w, mm := a.mm || b.mm, dall := a.dall && b.dall, cause := a.cause ||| b.cause
    folded := a.folded + b.folded }

/-- The step's pending-row entries are discarded, and its appends that wait (R185, R189). -/
def State.dropRows (s : State) (k : Nat) : State :=
  let s := (List.range 24).foldl (fun t st => t.endWaits (pendKey k st))
    { s with rowAppends := s.rowAppends.filter (fun a => a.sw ≠ k) }
  ((s.pendEntries k).filter (fun p => phState p.2 = 1)).foldl (fun t p => t.pendFree k p.1) s

/-- The member does not complete the step (R207): its pending-row entries are discarded, and it is set to withdraw, with the
CAUSE byte given. -/
def State.notComplete (s : State) (k cause : Nat) : State :=
  ((s.updSw k (fun r => { r with failed := true })).dropRows k).setWithdraw cause

/-- The member does not complete the step, and joins again once it has withdrawn (R187). -/
def State.notCompleteAgain (s : State) (k cause : Nat) : State :=
  ((s.updSw k (fun r => { r with failed := true })).dropRows k).withdrawAgain cause 1

/-- The step's pending-row entries become committed (R184, R189). -/
def State.commitRows (s : State) (k : Nat) : State :=
  (((s.pendEntries k).filter (fun p => phState p.2 = 1)).foldl (fun t p =>
    (t.putDevNat (t.pendAt k p.1) (setBits p.2 2 2 2) 32).holdRow k p.1 p.2) s).showRows

/-- HUB_TACK_LAST shows the verdict (R223). -/
def State.showTack (s : State) (k : Nat) (f : Fold) : State :=
  let s := ((s.raise .HUB_TACK_LAST_VALID 0).setF .HUB_TACK_LAST_V 0 (flagBit f.v)).setF .HUB_TACK_LAST_W 0 (flagBit f.w)
  let s := (s.setF .HUB_TACK_LAST_MM 0 (flagBit f.mm)).setF .HUB_TACK_LAST_CAUSE 0 f.cause
  (s.setF .HUB_TACK_LAST_SWATCH 0 k).setF .HUB_TACK_LAST_STEP_LO 0 (s.sw k).step

/-- The header of a digest area is rewritten at a commit or skip that confirms a checkpoint's roots (R215): the previous
step was a checkpoint step whose tree is stored. -/
def State.matchedRoot (s : State) (k : Nat) (f : Fold) (v : Bool) : State :=
  let a := s.desc k 768 52
  let h := s.devNat a 64
  let r := s.sw k
  if f.dall && !f.mm && (v || f.cause ≠ 0) && r.prevCkpt && s.dig k then
    s.putDevNat a (setBits (setBits h 128 64 (r.step - 1)) 256 256 (s.devNat (a + 64) 32)) 64
  else s

/-- The jobs of a committed step: updates of dense spans, the rows that have landed, then the error passes of foreign spans
(R182, R184). -/
def State.queueUpdates (s : State) (k : Nat) : State :=
  let act (p : Nat × Nat) : Bool := gActive (s.group k (spGroup p.2)) && gRule (s.group k (spGroup p.2)) ≠ 3
  let ups := (s.spans k).filter (fun p => spRole p.2 ≤ 1 && act p)
  let errs := (s.spans k).filter (fun p => spRole p.2 = 2 && act p)
  let s := ups.foldl (fun t p => t.queueJob (spPress p.2) ⟨1, k, p.1⟩) s
  errs.foldl (fun t p => t.queueJob (spPress p.2) ⟨2, k, p.1⟩) (s.queueRows k)

/-- A final verdict is applied (R184, R185, R204): on 1 the press's work is queued, on 0 the step is skipped. -/
def State.applyVerdict (s : State) (k : Nat) (f : Fold) : State :=
  let s := (s.showTack k f).updSw k (fun r => { r with final := some f, lastV := f.v, lastCause := f.cause })
  if f.v then (s.commitRows k).queueUpdates k
  else
    let s := (s.matchedRoot k f false).dropRows k
    (s.tally .HUB_TACK_FAIL 0 1).updSw k (fun r => { r with settled := true })

/-- The bit latches: the spans are checked before it leaves (R168, R198). -/
def State.latch (s : State) (k : Nat) : State := (s.checkSpans k).updSw k (fun r => { r with latched := true })

/-- In a domain of one the bit latches and is the final verdict (R174, R370). -/
def State.latchAlone (s : State) (k : Nat) : State :=
  if !s.alone k || (s.sw k).latched || !(s.sw k).started then s
  else
    let s := s.latch k
    s.applyVerdict k { s.ownFold k with mm := false }

end Sys2Proof.Machine
end

