-- ==== Sys2Proof/Machine/Press.lean ====
section
/-! DEFINITION. The presses (R162 to R189): packing, the update rules, foreign error passes, sparse rows and the commit
of a step. -/

namespace Sys2Proof.Machine

/-! Arithmetic: every rounding to FP32 counts its saturation (R180). -/

/-- One rounding to FP32. -/
def r32 (v : Fv) : StateM Nat Fv := fun n =>
  let r := fpRound fmtFP32 v
  (f32 r.1, n + flagBit r.2)

/-- One rounding to BF16 (R163). -/
def rbf (v : Fv) : StateM Nat Fv := fun n =>
  let r := fpRound fmtBF16 v
  (fpDecode fmtBF16 r.1, n + flagBit r.2)

/-- The constants of a group in a step (R169). -/
structure GroupConsts where
  c1  : Fv
  c2  : Fv
  p1  : Fv
  p2  : Fv
  bc1 : Fv
  bc2 : Fv
  kd  : Fv
  deriving DecidableEq, Repr

/-- The number one. -/
def oneV : Fv := .fin false 1 0

/-- R169. -/
def groupConsts (g : Nat) : StateM Nat GroupConsts := do
  let c1 ← r32 (Fv.sub oneV (gB1 g))
  let c2 ← r32 (Fv.sub oneV (gB2 g))
  let p1 ← r32 (Fv.mul (gB1Pow g) (gB1 g))
  let p2 ← r32 (Fv.mul (gB2Pow g) (gB2 g))
  let bc1 ← r32 (Fv.sub oneV p1)
  let bc2 ← r32 (Fv.sub oneV p2)
  let ld ← r32 (Fv.mul (gLr g) (gDecay g))
  let kd ← r32 (Fv.sub oneV ld)
  pure ⟨c1, c2, p1, p2, bc1, bc2, kd⟩

/-- A slot of a record: master value, first and second moment. -/
structure PSlot where
  w : Fv
  m : Fv
  v : Fv
  deriving DecidableEq, Repr

/-- MOM (R177). -/
def ruleMom (g : Nat) (x : PSlot) (gr : Fv) : StateM Nat PSlot := do
  let lw ← r32 (Fv.mul (gDecay g) x.w)
  let gd ← r32 (Fv.add gr lw)
  let bm ← r32 (Fv.mul (gB1 g) x.m)
  let m ← r32 (Fv.add bm gd)
  let d ← (if gNesterov g then (do
    let bn ← r32 (Fv.mul (gB1 g) m)
    r32 (Fv.add gd bn)) else pure m)
  let ld ← r32 (Fv.mul (gLr g) d)
  let w ← r32 (Fv.sub x.w ld)
  pure ⟨w, m, .zero false⟩

/-- ADM (R178). -/
def ruleAdm (g : Nat) (c : GroupConsts) (x : PSlot) (gr : Fv) : StateM Nat PSlot := do
  let bm ← r32 (Fv.mul (gB1 g) x.m)
  let cg ← r32 (Fv.mul c.c1 gr)
  let m ← r32 (Fv.add bm cg)
  let bv ← r32 (Fv.mul (gB2 g) x.v)
  let gg ← r32 (Fv.mul gr gr)
  let cgg ← r32 (Fv.mul c.c2 gg)
  let v ← r32 (Fv.add bv cgg)
  let mh ← r32 (Fv.div m c.bc1)
  let vh ← r32 (Fv.div v c.bc2)
  let sq ← r32 (Fv.sqrt vh)
  let den ← r32 (Fv.add sq (gEps g))
  let u ← r32 (Fv.div mh den)
  let kw ← r32 (Fv.mul c.kd x.w)
  let lu ← r32 (Fv.mul (gLr g) u)
  let w ← r32 (Fv.sub kw lu)
  pure ⟨w, m, v⟩

/-- The sign of a value (R179). -/
def signV (v : Fv) : Fv :=
  if Fv.lt (.zero false) v then oneV else if Fv.lt v (.zero false) then .fin true 1 0 else .zero false

/-- SGN (R179). -/
def ruleSgn (g : Nat) (c : GroupConsts) (x : PSlot) (gr : Fv) : StateM Nat PSlot := do
  let bm ← r32 (Fv.mul (gB1 g) x.m)
  let cg ← r32 (Fv.mul c.c1 gr)
  let s ← r32 (Fv.add bm cg)
  let kw ← r32 (Fv.mul c.kd x.w)
  let ls ← r32 (Fv.mul (gLr g) (signV s))
  let w ← r32 (Fv.sub kw ls)
  let b2m ← r32 (Fv.mul (gB2 g) x.m)
  let c2g ← r32 (Fv.mul c.c2 gr)
  let m ← r32 (Fv.add b2m c2g)
  pure ⟨w, m, .zero false⟩

/-- The rule of a dense group. -/
def ruleOf (g : Nat) (c : GroupConsts) (x : PSlot) (gr : Fv) : StateM Nat PSlot :=
  if gRule g = 0 then ruleMom g x gr else if gRule g = 1 then ruleAdm g c x gr else ruleSgn g c x gr

/-- `sum_w` of squares and `sqrt_w` (R137, R176). -/
def sumSquares (gs : List Fv) : Fv := gs.foldl (fun a t => roundw (Fv.add a (Fv.mul t t))) (.zero false)

/-- The norm of R176 and R186: the W48 root, rounded once to FP32. -/
def normOf (gs : List Fv) : StateM Nat Fv := r32 (roundw (Fv.sqrt (sumSquares gs)))

/-! Records. -/

/-- A slot read from its record block; Form S moments widen exactly (R160, R161, R163). -/
def State.slotAt (s : State) (wide : Bool) (v b i : Nat) : PSlot :=
  let a := recAt wide v b
  if wide then
    ⟨f32 (s.devNat (a + 4 * i) 4), f32 (s.devNat (a + 128 + 4 * i) 4), f32 (s.devNat (a + 256 + 4 * i) 4)⟩
  else
    ⟨f32 (s.devNat (a + 4 * i) 4), fpDecode fmtBF16 (s.devNat (a + 128 + 2 * i) 2),
      fpDecode fmtBF16 (s.devNat (a + 192 + 2 * i) 2)⟩

/-- The bytes of a record block; the moments of Form S are rounded once, and reserved bytes are zero (R162, R163). -/
def recBytes (wide : Bool) (xs : List PSlot) (es : List Nat) : StateM Nat (List Byte) := do
  let ws := xs.flatMap (fun x => leBytes (toF32 x.w) 4)
  let err := es.flatMap (fun e => leBytes e 2)
  if wide then
    pure (ws ++ xs.flatMap (fun x => leBytes (toF32 x.m) 4) ++ xs.flatMap (fun x => leBytes (toF32 x.v) 4) ++ err
      ++ fillBytes 64 0)
  else
    let ms ← xs.mapM (fun x => rbf x.m)
    let vs ← xs.mapM (fun x => rbf x.v)
    pure (ws ++ ms.flatMap (fun m => leBytes (fpBits fmtBF16 m) 2) ++ vs.flatMap (fun m => leBytes (fpBits fmtBF16 m) 2)
      ++ err ++ fillBytes 64 0)

/-! The planes of a span. -/

/-- How many of the bolts of some ranges are homed in another stack than the press's (R165). -/
def State.farBolts (s : State) (st : Nat) (l : List (Nat × Nat)) : Nat :=
  ((rangeBolts l).filter (fun b => (s.dirE b).state ≠ 0 && (s.dirE b).tier = 1 && t1Stack (s.dirE b).home ≠ st)).length

/-- The constants of a group are formed, once in a step, by the press of stack `st`: their saturations count then (R169).
(DEDUCED, log 177.) -/
def State.formConsts (s : State) (k st gi : Nat) : State :=
  if (s.sw k).formed.contains (st, gi) then s
  else (s.tally .PRESS_SAT st ((groupConsts (s.group k gi)).run 0).2).updSw k (fun r => { r with formed := (st, gi) :: r.formed })

/-- Entry `i` of a swatch's run plan (R367). -/
def State.planEntry (s : State) (k i : Nat) : Nat := s.devNat (s.desc k 320 52 + 16 * i) 16

/-- A block of an update (R176): its gradient, limited where its norm exceeds the limit. True when it was limited. -/
def blockGrad (g : Nat) (q : Nat × List Nat) (pad : Nat → Bool) : StateM Nat (List Fv × Bool) := do
  let gs ← (q.2.zipIdx).mapM (fun p =>
    if pad p.2 then pure (Fv.zero false) else r32 (Fv.mul (deqE5M2 q.1 p.1) (gMul g)))
  if Fv.lt (.zero false) (gNorm g) then
    let n ← normOf gs
    if Fv.lt (gNorm g) n then
      let f ← r32 (Fv.div (gNorm g) n)
      let hs ← gs.mapM (fun x => r32 (Fv.mul x f))
      pure (hs, true)
    else pure (gs, false)
  else pure (gs, false)

/-- The slots of a block after their rule; a padding slot is never updated (R162, R176). -/
def updateSlots (g : Nat) (xs : List PSlot) (gs : List Fv) (pad : Nat → Bool) : StateM Nat (List PSlot) :=
  let c := ((groupConsts g).run 0).1
  (xs.zip gs).zipIdx.mapM (fun p =>
    if pad p.2 then pure p.1.1 else ruleOf g c p.1.1 p.1.2)

/-- One record block is updated (R176): its record, working elements and scale are written. (DESIGN CHOICE, log 49.) -/
def State.updateBlock (s : State) (k st v b : Nat) : State :=
  let gi := spGroup v
  let g := s.group k gi
  let wide := gWide g
  let pad := spPad v b
  let gr := (blockGrad g (s.planeBlock (spRed v) b) pad).run 0
  let xs := (updateSlots g ((List.range 32).map (s.slotAt wide v b)) gr.1.1 pad).run gr.2
  let es := newErrors (s.packValues wide v b).1
  let bs := (recBytes wide xs.1 es).run xs.2
  let t := (s.putDev (recAt wide v b) bs.1).putWork v b (xs.1.map PSlot.w)
  let t := (t.tally .PRESS_SAT st bs.2).tally .PRESS_BLOCKS st 1
  if gr.1.2 then t.updSw k (fun r => { r with clipped := FMap.upd 0 r.clipped gi (fun n => satAdd n 1) }) else t

/-- HBMC cycles of `bytes` at the press's full rate (R183, R192). -/
def pressCycles (bytes : Nat) : Nat := ceilDiv (24 * bytes) 45100

/-- Bytes that the update of `params` parameters in `n` blocks moves (R192): an element of the reduced and of the working plane
with the blocks' scales, the local gradient, and 12 or 16 B of the record read and written. -/
def updateBytes (wide : Bool) (params n : Nat) : Nat := 2 * (params + n) + params * (4 + 2 * (if wide then 16 else 12))

/-- The tail of each bolt of a Form S record area is held at zero (R162). -/
def State.zeroTails (s : State) (wide : Bool) (v : Nat) : State :=
  if wide then s
  else (List.range (ceilDiv (spBlocks v) 170)).foldl (fun t i =>
    t.putDev (spRec v + 65536 * i + 65280) (fillBytes 256 0)) s

/-- What an update writes (R176). -/
def State.updateWrites (s : State) (k v : Nat) : List (Nat × Nat) := s.recRange k v :: spWorkRanges v

/-- An update job (R176). Blocks whose record cannot be read stay unwritten: the read is counted, the row retired by the
base die, and the member does not complete the step (R187, R207). Nor does it where a stack of the span is out of
service; the rest of the step's jobs are dropped then. -/
def updateJob (st : Nat) (bad : List Nat) (s : State) : State :=
  match s.jobs st with
  | [] => s
  | j :: rest =>
    if j.kind ≠ 1 then s
    else
      let v := s.span j.sw j.span
      let g := s.group j.sw (spGroup v)
      let n := spBlocks v
      let rd := s.spanReads j.sw j.span v ++ [(spRed v, 33 * n)]
      let wr := s.updateWrites j.sw v
      if (rangeBolts (rd ++ wr)).any (fun b => (s.dirE b).state ≠ 0 && (s.dirE b).tier = 1 && s.stackFenced (t1Stack (s.dirE b).home)) then
        (s.notComplete j.sw (2 ^ causeUnit)).dropJobs j.sw
      else s.engineAs j.sw rd wr true (fun s =>
        let far := s.farBolts st (rd.drop 2 ++ wr)
        let t := (List.range n).foldl (fun (t : State) b =>
          if bad.contains b then
            let a := recAt (gWide g) v b
            let u := t.uncorrHbm (a / 65536) (a % 65536 / 256)
            ((u.noteUncorr (a / 65536) (a % 65536) (recSize (gWide g)) .stack (t1Stack (t.dirE (a / 65536)).home)).notCompleteAgain j.sw
              (2 ^ causeUncorr)).raise .PRESS_STATUS_UNCORR_SEEN st
          else t.updateBlock j.sw st v b) (s.formConsts j.sw st (spGroup v))
        let t := (t.zeroTails (gWide g) v).tally .PRESS_FAR st far
        (t.tally .PRESS_UPD_CYC st (pressCycles (updateBytes (gWide g) (spRows v * spCols v) n))).setJobs st rest)

/-- UPDATE_JOB. -/
def execUpdateJob (st : Nat) (badBlocks : List Nat) (s : State) : Host.Outcome State Fault Refusal :=
  act (st < 24) (whenUp (updateJob st badBlocks)) s

/-- A foreign error pass (R184, step 2): the new error terms alone, once the swatch's updates are done. -/
def foreignPass (st : Nat) (s : State) : State :=
  match s.jobs st with
  | [] => s
  | j :: rest =>
    if j.kind ≠ 2 || !(s.jobsOf j.sw 1).isEmpty then s
    else
      let v := s.span j.sw j.span
      let rd := s.spanReads j.sw j.span v
      s.engineAs j.sw rd [s.recRange j.sw v] true (fun s =>
        let t := (List.range (spBlocks v)).foldl (fun (t : State) b =>
          t.putDev (errAt false v b) ((newErrors (t.packValues false v b).1).flatMap (fun e => leBytes e 2))) s
        (t.tally .PRESS_FAR st (s.farBolts st (rd.drop 2))).setJobs st rest)

/-- FOREIGN_ERROR_PASS. -/
def execForeignErrorPass (st : Nat) (s : State) : Host.Outcome State Fault Refusal :=
  act (st < 24) (whenUp (foreignPass st)) s

/-! Sparse rows (R180, R186, R189 to R191). -/

/-- The row's gradient after GRAD_MUL, and whether the row is skipped (R186). -/
def rowGrad (g : Nat) (xs : List Nat) : StateM Nat (List Fv × Fv × Bool) := do
  let gs ← xs.mapM (fun x => r32 (Fv.mul (f32 x) (gMul g)))
  let n ← normOf gs
  let above := !(gNorm g).isZero && Fv.lt (gNorm g) n
  pure (gs, n, anyNonFinite gs || above)

/-- The reduced gradient of a row from the members' contributions, in ring order; a member that did not touch the row gives
none. Each row travels as E5M2 with block scales, and the owner at position `p` adds what comes in the order of R172, its
own last; alone, it has the row's FP32 values as they are (R174, R188). (DESIGN CHOICE, log 52.) -/
def rowSum (cols p : Nat) (rows : List (List Nat)) : List Nat :=
  let m := natMax rows.length 1
  if rows.length ≤ 1 then rows.headD []
  else
    let back (r : List Nat) : List Fv := (List.range (ceilDiv cols 32)).flatMap (fun b =>
      let q := quantE5M2 ((List.range 32).map (fun i => if 32 * b + i < cols then f32 (r.getD (32 * b + i) 0) else .zero false))
      (q.2.map (deqE5M2 q.1)).take (cols - 32 * b))
    let all := ((List.range m).map (fun i => rows.getD ((p + 1 + i) % m) [])).filter (fun r => !r.isEmpty)
    match all.map back with
    | [] => []
    | x :: xs => (xs.foldl (fun acc y => (acc.zip y).map (fun z => round32 (Fv.add z.1 z.2))) x).map toF32

/-- The owner sums a row and appends it when it passes its checks (R186, R188, R189); with no free entry the append waits
(R191). A swatch whose ledger is empty by size has no entry to free. (DEDUCED, log 50.) -/
def pendingAppend (k i row : Nat) (rows : List (List Nat)) (s : State) : State :=
  let s := s.retryAppends k
  let v := s.span k i
  let gi := spGroup v
  let g := s.group k gi
  let st := spPress v
  let ms := s.members k
  if !(s.sw k).started || s.spanCount k ≤ i || gRule g ≠ 3 || !gActive g || spRows v ≤ row
      || rows.length ≠ natMax ms.length 1 || !rows.all (fun r => r.isEmpty || r.length = spCols v) || rows.all List.isEmpty then s
  else
    let r := (rowGrad g (rowSum (spCols v) (ms.findIdx (fun x => x = s.place)) rows)).run 0
    if r.1.2.2 then
      ((s.tally .PRESS_ROW_SKIP st 1).tally .PRESS_SAT st r.2).updSw k
        (fun x => { x with rowSkips := FMap.upd 0 x.rowSkips gi (fun n => satAdd n 1) })
    else
      let a : RowAppend :=
        { sw := k, span := i, row := row, press := st, vals := r.1.1.map toF32, norm := toF32 r.1.2.1,
          bolts := rowBolts (gWide g) v row }
      let x := (s.tally .PRESS_SAT st r.2).appendRow a
      if x.2 then x.1 else { x.1 with rowAppends := x.1.rowAppends ++ [a] }

/-- PENDING_ROW_APPEND. -/
def execPendingRowAppend (sw span row : Nat) (rows : List (List Nat)) (s : State) : Host.Outcome State Fault Refusal :=
  act (sw < 65536) (whenUp (pendingAppend sw span row rows)) s

/-- The rule ROW on a whole row (R180): the new accumulator and master values. -/
def ruleRow (g cols : Nat) (r : Fv) (ws gs : List Fv) : StateM Nat (Fv × List Fv) := do
  let c := ((groupConsts g).run 0).1
  let q ← r32 (sumSquares gs)
  let qc ← r32 (Fv.div q (Fv.ofInt (Int.ofNat cols)))
  let acc ← r32 (Fv.add r qc)
  let sq ← r32 (Fv.sqrt acc)
  let d ← r32 (Fv.add sq (gEps g))
  let out ← (ws.zip gs).mapM (fun p => do
    let kw ← r32 (Fv.mul c.kd p.1)
    let gd ← r32 (Fv.div p.2 d)
    let lg ← r32 (Fv.mul (gLr g) gd)
    r32 (Fv.sub kw lg))
  pure (acc, out)

/-- Writes a row back but for its blocks in `bad`: the accumulator stands in bytes 128 to 131 of its first block, and every
other moment and error byte is zero (R180); then its working elements and scales (R181). -/
def State.putRow (s : State) (wide : Bool) (v row : Nat) (bad : List Nat) (acc : Fv) (ws : List Fv) : State :=
  let n := spRowBlocks v
  ((List.range n).filter (fun i => !bad.contains i)).foldl (fun t i =>
    let b := row * n + i
    let mine := (List.range 32).map (fun j => ws.getD (32 * i + j) (.zero false))
    let head := mine.flatMap (fun w => leBytes (toF32 w) 4)
    let rest := (if i = 0 then leBytes (toF32 acc) 4 else fillBytes 4 0) ++ fillBytes (recSize wide - 132) 0
    (t.putDev (recAt wide v b) (head ++ rest)).putWork v b mine) s

/-- A block of a row that cannot be read is counted, and the module withdraws (R187). -/
def State.rowUncorr (s : State) (st v row : Nat) (wide : Bool) (i : Nat) : State :=
  let a := recAt wide v (row * spRowBlocks v + i)
  let u := s.uncorrHbm (a / 65536) (a % 65536 / 256)
  ((u.noteUncorr (a / 65536) (a % 65536) (recSize wide) .stack (t1Stack (s.dirE (a / 65536)).home)).withdrawAgain
    (2 ^ causeUncorr) 1).raise .PRESS_STATUS_UNCORR_SEEN st

/-- A pending-row application at the front of its press's queue (R182, R189): applications that have become due enter the
queues first. Blocks in `bad` cannot be read: they stay unwritten, and an accumulator that could not be read is one the
spec leaves open (R187, R210). (DESIGN CHOICE, log 178.) -/
def pendingApply (st k j : Nat) (bad : List Nat) (s : State) : State :=
  let s := (s.retryAppends k).queueRows k
  match s.jobs st with
  | [] => s
  | job :: rest =>
    if job ≠ ⟨3, k, j⟩ then s
    else
      let h := s.pendHead k j
      let v := s.span k (phSpan h)
      let g := s.group k (spGroup v)
      let wide := gWide g
      let cols := spCols v
      let n := spRowBlocks v
      let rows := rowRanges wide v (phRow h)
      let lost := (bad.filter (fun i => i < n)).eraseDups
      s.engine k ((s.pendAt k j, s.pendSize k) :: rows) ((s.pendAt k j, 32) :: rows) (fun s =>
        let gs := (s.devNats (s.pendAt k j + 32) 4 cols).map f32
        let ws := ((List.range n).flatMap (fun i => s.masters wide v (phRow h * n + i))).take cols
        let r := if lost.contains 0 then f32 (Config.freeValue 32 s.mem.tick).toNat
          else f32 (s.devNat (recAt wide v (phRow h * n) + 128) 4)
        let x := (ruleRow g cols r ws gs).run 0
        let t := (((s.formConsts k st (spGroup v)).use).putRow wide v (phRow h) lost x.1.1 x.1.2).tally .PRESS_SAT st x.2
        let t := (lost.foldl (fun u i => u.rowUncorr st v (phRow h) wide i) t).tally .PRESS_FAR st (s.farBolts st rows)
        (((t.tally .PRESS_BLOCKS st (n - lost.length)).pendFree k j).setJobs st rest).queueRows k)

/-- PENDING_ROW_APPLY. -/
def execPendingRowApply (st sw : Nat) (entry : Nat × List Nat) (s : State) : Host.Outcome State Fault Refusal :=
  act (st < 24 && sw < 65536) (whenUp (pendingApply st sw entry.1 entry.2)) s

/-! Commit (R184). -/

/-- The commit of a group: STEP, B1POW, B2POW, ROWS_SKIPPED, BLOCKS_CLIPPED (R167, R184). -/
def State.commitGroup (s : State) (k i : Nat) : State :=
  let g := s.group k i
  if !gActive g then s
  else
    let c := ((groupConsts g).run 0).1
    let r := s.sw k
    let g := setBits g 64 64 (gStep g + 1)
    let g := setBits (setBits g 352 32 (toF32 c.p1)) 384 32 (toF32 c.p2)
    let g := setBits g 32 32 (satAdd (bitField g 32 32) (FMap.get 0 r.rowSkips i))
    let g := setBits g 416 32 (satAdd (bitField g 416 32) (FMap.get 0 r.clipped i))
    s.putDevNat (s.desc k 448 52 + 128 * i) g 128

/-- DIGEST_INTERVAL in force for a swatch (R212). -/
def State.interval (s : State) (k : Nat) : Nat :=
  let d := (s.sw k).domain
  if s.lining d then 1 else FMap.get 0 (s.dom d).interval k

/-- Is the state after this step compared (R212)? -/
def State.compared (s : State) (k : Nat) : Bool :=
  let m := (s.members k).length
  let n := s.interval k
  2 ≤ m && ((s.sw k).ckpt || (m ≤ 16 && n ≠ 0 && (s.sw k).step % n = 0))

/-- The covered bytes of a block (R166). -/
def State.covered (s : State) (wide : Bool) (v b : Nat) : List Byte := s.dev (recAt wide v b) (recCovered wide)

/-- Blocks of leaf `l` of a span: 64 bolts (R213). -/
def leafBlocks (wide : Bool) (v l : Nat) : List Nat :=
  let n := 64 * (if wide then 128 else 170)
  (List.range (natMin (spBlocks v) ((l + 1) * n) - natMin (spBlocks v) (l * n))).map (fun i => l * n + i)

/-- How many leaves a span has. -/
def leafCount (wide : Bool) (v : Nat) : Nat := ceilDiv (spBlocks v) (64 * (if wide then 128 else 170))

/-- A leaf digest (R213). -/
def State.leafDigest (s : State) (wide : Bool) (v i l : Nat) : List Byte :=
  Config.shake256 ([0x00] ++ leBytes i 2 ++ leBytes l 4 ++ (leafBlocks wide v l).flatMap (s.covered wide v)) 32

/-- A block digest (R213). -/
def State.blockDigest (s : State) (wide : Bool) (v i b : Nat) : List Byte :=
  Config.shake256 ([0x02] ++ leBytes i 2 ++ leBytes b 4 ++ s.covered wide v b) 16

/-- Neighbours are joined in pairs; an odd node passes up (R118, R213). -/
def joinPairs : List (List Byte) → List (List Byte)
  | a :: b :: rest => Config.shake256 ([0x01] ++ a ++ b) 32 :: joinPairs rest
  | l => l

/-- The root of a list of digests; the empty root is that of an empty swatch (R213). -/
def treeRoot : Nat → List (List Byte) → List Byte
  | 0, l => l.headD (Config.shake256 [0x03] 32)
  | n + 1, l => if l.length ≤ 1 then l.headD (Config.shake256 [0x03] 32) else treeRoot n (joinPairs l)

/-- The root of a span (R213). -/
def State.spanRoot (s : State) (k i : Nat) : List Byte :=
  let v := s.span k i
  let wide := gWide (s.group k (spGroup v))
  treeRoot 64 ((List.range (leafCount wide v)).map (s.leafDigest wide v i))

/-- The replicated dense spans of a swatch, ascending. -/
def State.replicated (s : State) (k : Nat) : List Nat :=
  ((s.spans k).filter (fun p => spRole p.2 = 0 && gRule (s.group k (spGroup p.2)) ≠ 3)).map Prod.fst

/-- The digests of a swatch's tree: its root, the roots of its replicated spans, then the leaves of each (R213). -/
def State.treeDigests (s : State) (k : Nat) : List (List Byte) :=
  let is := s.replicated k
  let roots := is.map (s.spanRoot k)
  [treeRoot 64 roots] ++ roots ++ is.flatMap (fun i =>
    let v := s.span k i
    let wide := gWide (s.group k (spGroup v))
    (List.range (leafCount wide v)).map (s.leafDigest wide v i))

/-- How many leaves the replicated spans before span `i` have. -/
def State.leavesBefore (s : State) (k i : Nat) : Nat :=
  ((s.replicated k).filter (fun j => j < i)).foldl (fun n j =>
    let v := s.span k j
    n + leafCount (gWide (s.group k (spGroup v))) v) 0

/-- Bytes of a swatch's digest area: the header and the stored digests, 32 B each (R215). (DESIGN CHOICE, log 53.) -/
def State.treeBytes (s : State) (k : Nat) : Nat :=
  64 + 32 * (1 + (s.replicated k).length + s.leavesBefore k 65536)

/-- The stored digest in place `i` of a swatch's digest area. -/
def State.stored (s : State) (k i : Nat) : Nat := s.devNat (s.desc k 768 52 + 64 + 32 * i) 32

/-- The stored root of a replicated span. -/
def State.storedSpan (s : State) (k i : Nat) : Nat :=
  s.stored k (1 + ((s.replicated k).filter (fun j => j < i)).length)

/-- The stored digest of a leaf of a replicated span. -/
def State.storedLeaf (s : State) (k i l : Nat) : Nat := s.stored k (1 + (s.replicated k).length + s.leavesBefore k i + l)

/-- The stored tree of a digest area covers the state after `step`: its header and, behind it, the digests (R215). -/
def State.storeTree (s : State) (k step : Nat) : State :=
  let a := s.desc k 768 52
  if a = 0 then s
  else
    let h := setBits (setBits (setBits (s.devNat a 64) 0 2 1) 2 2 1) 64 64 step
    (s.putDev (a + 64) (s.treeDigests k).flatten).putDevNat a h 64

end Sys2Proof.Machine
end

