-- ==== Sys2Proof/Machine/RunPlan.lean ====
section
/-! DEFINITION. The run plan (R353, R367 to R370): the cutter's walk, one command for each kind of entry, and the
tensors that a collective of MODE 1 names (R329). -/

namespace Sys2Proof.Machine

/-! Entries (R367). -/

/-- OP of a run plan entry. -/
def rpOp (e : Nat) : Nat := bitField e 2 6
/-- CLOSING. -/
def rpClosing (e : Nat) : Bool := bitAt e 8
/-- COP. -/
def rpCop (e : Nat) : Nat := bitField e 9 2
/-- MODE: true for a general tensor. -/
def rpMode (e : Nat) : Bool := bitAt e 11
/-- VALUE. -/
def rpValue (e : Nat) : Nat := bitField e 12 16
/-- COUNT. -/
def rpCount (e : Nat) : Nat := bitField e 28 17
/-- ROOT. -/
def rpRoot (e : Nat) : Nat := bitField e 45 13
/-- ADDR. -/
def rpAddr (e : Nat) : Nat := bitField e 64 52

/-- Does an entry fail the check by itself: GEN, OP or a reserved bit (R353)? -/
def rpBad (e : Nat) : Bool :=
  bitField e 0 2 ≠ 1 || 5 < rpOp e || !zeroBits e 58 6 || !zeroBits e 116 12

/-- The check of a whole run plan (R353): is it found bad for a domain of `members` members? (DESIGN CHOICE, log 95.) -/
def State.planFails (s : State) (k members : Nat) : Bool :=
  let n := s.desc k 960 17
  let es := (List.range n).map (s.planEntry k)
  let closings := (es.filter (fun e => rpOp e = 4 && rpClosing e)).length
  es.any rpBad || (1 < members && closings ≠ 1) || n = 0
    || es.zipIdx.any (fun p => decide (rpOp p.1 = 0) != decide (p.2 + 1 = n))

/-- Where entry `i` of a run plan lies. -/
def State.planAt (s : State) (k i : Nat) : Nat := s.desc k 320 52 + 16 * i

/-- The entry the cutter stands at in swatch `k`'s step; none where no entry is to be walked. An entry that the swatch may
not read reads zero (R271). -/
def State.planNow (s : State) (k : Nat) : Option Nat :=
  let r := s.sw k
  if r.started && !r.ended && r.plan < s.desc k 960 17 then
    some (if s.boltDenied k (s.planAt k r.plan / 65536) false then 0 else s.planEntry k r.plan)
  else none

/-- A collective asked for by the entry before, and not yet issued, holds the walk: an entry completes when its action
has been issued (R368). -/
def State.planHeld (s : State) (k : Nat) : Bool :=
  let d := (s.sw k).domain
  d < 16 && ((s.dom d).reqs.any (fun q => q.sw = k))

/-- The cutter goes on to the next entry. -/
def State.planNext (s : State) (k : Nat) : State :=
  s.updSw k (fun r => { r with plan := r.plan + 1, planSince := s.now })

/-- The walk's step for an entry that `is` recognises: the cutter reads it once its bolt is served (R264). -/
def planStep (k : Nat) (is : Nat → Bool) (f : Nat → State → State) (s : State) : State :=
  match s.planNow k with
  | none => s
  | some e => if is e && !s.planHeld k then s.engine k [(s.planAt k (s.sw k).plan, 16)] [] (f e) else s

/-- BARRIER: passed once every logical core of the swatch has passed it in the step (R368); no barrier of a broken step
holds (R67). -/
def runBarrier (k : Nat) : State → State :=
  planStep k (fun e => rpOp e = 1) (fun e s =>
    let b := rpValue e % 256
    if (s.sw k).broken || (s.swCores k).all (fun c => (s.core c).passed.contains (512 + b)) then s.planNext k else s)

/-- RUN_BARRIER. -/
def execRunBarrier (k : Nat) (s : State) : Host.Outcome State Fault Refusal := act (k < 65536) (whenUp (runBarrier k)) s

/-- LAYER sets the current layer (R284, R368). (DESIGN CHOICE, log 14.) -/
def layerMark (k : Nat) : State → State :=
  planStep k (fun e => rpOp e = 2) (fun e s => (s.layerSet k (rpValue e)).planNext k)

/-- LAYER_MARK. -/
def execLayerMark (k : Nat) (s : State) : Host.Outcome State Fault Refusal := act (k < 65536) (whenUp (layerMark k)) s

/-- The spans an entry names, of those the swatch has. -/
def State.planSpans (s : State) (k e : Nat) : List (Nat × Nat) :=
  (s.spans k).filter (fun p => rpValue e ≤ p.1 && p.1 < rpValue e + rpCount e)

/-- Is a span packed and exchanged: dense and of an ACTIVE group (R166, R167)? -/
def State.dense (s : State) (k v : Nat) : Bool :=
  let g := s.group k (spGroup v)
  gActive g && gRule g ≠ 3

/-- PACK queues the pack jobs of its spans (R182, R368). (DEDUCED, log 51.) -/
def runPack (k : Nat) : State → State :=
  planStep k (fun e => rpOp e = 3) (fun e s =>
    (((s.planSpans k e).filter (fun p => s.dense k p.2)).foldl
      (fun t p => t.queueJob (spPress p.2) ⟨0, k, p.1⟩) s).planNext k)

/-- RUN_PACK. -/
def execRunPack (k : Nat) (s : State) : Host.Outcome State Fault Refusal := act (k < 65536) (whenUp (runPack k)) s

/-- A collective is asked for; it is issued when it takes its COLL_SEQ (R330). -/
def State.ask (s : State) (k kind e : Nat) : State :=
  let d := (s.sw k).domain
  let q : CollReq :=
    { sw := k, kind := kind, closing := rpClosing e, first := rpValue e, count := rpCount e, addr := rpAddr e
      root := rpRoot e }
  s.setDom d { s.dom d with reqs := (s.dom d).reqs ++ [q] }

/-- COLL MODE 0: the reduce-scatter of the send planes and the all-gather of the reduced shards, two COLL_SEQ values
(R368); nothing in a domain of one (R370); in a lining pair the closing collective alone (R220, R340).
(DESIGN CHOICE, log 68.) -/
def runCollExchange (k : Nat) : State → State :=
  planStep k (fun e => rpOp e = 4 && !rpMode e) (fun e s =>
    if s.alone k then s.planNext k
    else if s.lining (s.sw k).domain then (if rpClosing e then s.ask k 6 e else s).planNext k
    else ((s.ask k 0 e).ask k 1 e).planNext k)

/-- RUN_COLL_EXCHANGE. -/
def execRunCollExchange (k : Nat) (s : State) : Host.Outcome State Fault Refusal :=
  act (k < 65536) (whenUp (runCollExchange k)) s

/-! Tensors of a collective: blocks of 32 elements, numbered as R164 numbers them, BAXIS giving their direction. -/

/-- Blocks along a row. -/
def tnRow (z : Nat) : Nat := ceilDiv (dCols z) 32
/-- Blocks of a tensor. -/
def tnBlocks (z : Nat) : Nat := if dBaxis z then ceilDiv (dRows z) 32 * dCols z else dRows z * tnRow z
/-- Element (row, column) in slot `i` of block `b`. -/
def tnElem (z b i : Nat) : Nat × Nat :=
  if dBaxis z then (32 * (b / natMax (dCols z) 1) + i, b % natMax (dCols z) 1)
  else (b / natMax (tnRow z) 1, 32 * (b % natMax (tnRow z) 1) + i)
/-- Is a slot outside the tensor? -/
def tnPad (z b i : Nat) : Bool := let e := tnElem z b i; dRows z ≤ e.1 || dCols z ≤ e.2
/-- May a collective read or write the tensor: FP32, BF16, or E4M3 or E5M2 with block scales (R329)? -/
def tnOk (z : Nat) : Bool := dFmt z = 5 || dFmt z = 6 || (dFmt z ≤ 1 && dScaled z)
/-- Bytes of an element. -/
def tnWidth (z : Nat) : Nat := fmtWidth (dFmt z) / 8
/-- Where an element lies. -/
def tnAddr (z b i : Nat) : Nat := let e := tnElem z b i; dRowAddr z e.1 + tnWidth z * e.2

/-- The bytes a tensor of a collective lies in: its rows and its scales. -/
def tnRanges (z : Nat) : List (Nat × Nat) :=
  (List.range (dRows z)).map (fun r => (dRowAddr z r, tnWidth z * dCols z))
    ++ (if dScaled z then (List.range (tnBlocks z)).map (fun b => let e := tnElem z b 0; (dScaleAddr z e.1 e.2, 1)) else [])

/-- The values of a block, exact in FP32 (R109, R329). -/
def State.tnRead (s : State) (z b : Nat) : List Fv :=
  let e0 := tnElem z b 0
  let x := if dScaled z then e8m0 (s.devNat (dScaleAddr z e0.1 e0.2) 1) else .fin false 1 0
  (List.range 32).map (fun i =>
    if tnPad z b i then .zero false
    else
      let v := elemValue (dFmt z) (s.devNat (tnAddr z b i) (tnWidth z))
      if dScaled z then Fv.mul v x else v)

/-- Writes a block, rounded once into the output format; scaled output under R111. -/
def State.tnWrite (s : State) (z b : Nat) (vs : List Fv) : State :=
  let e0 := tnElem z b 0
  let q := if dScaled z then quantBlock (dFmt z) 0 (-127) 127 vs
    else (0, vs.map (fun v => (elemOut (dFmt z) v).1), 0)
  let s := (List.range 32).foldl (fun t i =>
    if tnPad z b i then t else t.putDevNat (tnAddr z b i) (q.2.1.getD i 0) (tnWidth z)) s
  if dScaled z then s.putDevNat (dScaleAddr z e0.1 e0.2) q.1 1 else s

/-- The two descriptors of a collective of MODE 1: input, then output (R367). -/
def State.tnPair (s : State) (addr : Nat) : Nat × Nat := (s.devNat addr 32, s.devNat (addr + 32) 32)

/-- In a domain of one the input tensor is written to the output tensor (R370), and the cutter goes on once that is done. -/
def State.tnCopy (s : State) (k addr : Nat) : State :=
  s.engine k [(addr, 64)] [] (fun s =>
    let p := s.tnPair addr
    if tnOk p.1 && tnOk p.2 && tnBlocks p.1 = tnBlocks p.2 then
      s.engine k (tnRanges p.1) (tnRanges p.2) (fun s =>
        ((List.range (tnBlocks p.1)).foldl (fun t b => t.tnWrite p.2 b (t.tnRead p.1 b)) s).planNext k)
    else s.planNext k)

/-- COLL MODE 1 of one COP (R368, R370). -/
def runCollTensor (cop k : Nat) : State → State :=
  planStep k (fun e => rpOp e = 4 && rpMode e && rpCop e = cop) (fun e s =>
    if s.alone k then s.tnCopy k (rpAddr e) else (s.ask k (2 + cop) e).planNext k)

/-- COLL_REDUCE_SCATTER. -/
def execCollReduceScatter (k : Nat) (s : State) : Host.Outcome State Fault Refusal :=
  act (k < 65536) (whenUp (runCollTensor 0 k)) s
/-- COLL_ALL_GATHER. -/
def execCollAllGather (k : Nat) (s : State) : Host.Outcome State Fault Refusal :=
  act (k < 65536) (whenUp (runCollTensor 1 k)) s
/-- COLL_ALL_REDUCE. -/
def execCollAllReduce (k : Nat) (s : State) : Host.Outcome State Fault Refusal :=
  act (k < 65536) (whenUp (runCollTensor 2 k)) s
/-- COLL_BROADCAST. -/
def execCollBroadcast (k : Nat) (s : State) : Host.Outcome State Fault Refusal :=
  act (k < 65536) (whenUp (runCollTensor 3 k)) s

/-- TIER posts the request in device memory at ADDR (R298, R368). -/
def runTier (k : Nat) : State → State :=
  planStep k (fun e => rpOp e = 5) (fun e s => s.engine k [(rpAddr e, 32)] [] (fun s =>
    let q : TierReq :=
      { bits := s.devNat (rpAddr e) 32, done := 0, job := 0, part := 0, seq := 0, slot := 0, irq := false
        since := s.now, gen := 0, recSw := k }
    (s.postTier q).planNext k))

/-- RUN_TIER. -/
def execRunTier (k : Nat) (s : State) : Host.Outcome State Fault Refusal := act (k < 65536) (whenUp (runTier k)) s

/-- Has a core left its program for the step: done, abandoned or fenced? -/
def State.coreEnded (s : State) (c : Nat) : Bool :=
  let st := s.f .CORE_STATUS_STATE c
  st = 4 || st = 5 || st = 6

/-- END: with no pack job in the step a domain of one latches here (R198, R370); END is passed when every core has
reached STEPEND or has ended without it (R67, R368). -/
def runEnd (k : Nat) : State → State :=
  planStep k (fun e => rpOp e = 0) (fun _ s =>
    let s := if (s.jobsOf k 0).isEmpty then s.latchAlone k else s
    if (s.swCores k).all s.coreEnded then s.updSw k (fun r => { r with ended := true }) else s)

/-- RUN_END. -/
def execRunEnd (k : Nat) (s : State) : Host.Outcome State Fault Refusal := act (k < 65536) (whenUp (runEnd k)) s

/-- A barrier wait of the plan or of a SYNC that lasts longer than the stall limit breaks the step with cause STALL
(R369). The plan's wait is measured from when the cutter came to the entry, a core's from when it began to wait.
(DEDUCED, log 75.) -/
def barrierStall (k : Nat) (s : State) : State :=
  let r := s.sw k
  let late (since : Nat) : Bool := msec (s.stallMs k) < s.now - since
  let planLate := match s.planNow k with
    | some e => rpOp e = 1 && late r.planSince
    | none => false
  let coreLate := (s.swCores k).any (fun c => match (s.core c).wait with
    | .sync _ _ _ => s.f .CORE_STATUS_STATE c = 2 && late (s.core c).waitSince
    | _ => false)
  if r.started && !r.latched && !r.limitHit && (planLate || coreLate) then
    ((s.tally .TIER_STALL_FAIL 0 1).failStep k causeStall).updSw k (fun x => { x with limitHit := true })
  else s

/-- BARRIER_STALL. -/
def execBarrierStall (k : Nat) (s : State) : Host.Outcome State Fault Refusal :=
  act (k < 65536) (whenUp (barrierStall k)) s

end Sys2Proof.Machine
end

