-- ==== Sys2Proof/Machine/Ring.lean ====
section
/-! DEFINITION. The collective engines' view of a domain (R172, R323, R328 to R333): ring positions, shards, the chain
of a shard with its aggregators, and the blocks that a collective carries. -/

namespace Sys2Proof.Machine

/-! Ring and boards. -/

/-- This module's ring position in domain `d`. -/
def State.position (s : State) (d : Nat) : Nat := (s.dom d).members.findIdx (fun p => p = s.place)

/-- Is this module a member of domain `d`'s current epoch? -/
def State.isMember (s : State) (d : Nat) : Bool := (s.dom d).members.contains s.place

/-- EPOCH of domain `d`. -/
def State.epoch (s : State) (d : Nat) : Nat := s.f .COLL_DOM_STATE_EPOCH d

/-- The positions of a shard's chain, in the order of R172: s + 1 first, s last. -/
def chainOrder (m p : Nat) : List Nat := (List.range m).map (fun i => (p + 1 + i) % m)

/-- Cuts a chain into its runs on one board (R332). -/
def boardRuns (ms : List Nat) : List Nat → List (List Nat)
  | [] => []
  | a :: rest =>
    match boardRuns ms rest with
    | [] => [[a]]
    | [] :: more => [a] :: more
    | (b :: bs) :: more =>
      if ms.getD a 0 / 8 = ms.getD b 0 / 8 then (a :: b :: bs) :: more else [a] :: (b :: bs) :: more

/-- The segments of the chain of shard `p` (R332). -/
def segments (ms : List Nat) (p : Nat) : List (List Nat) := boardRuns ms (chainOrder ms.length p)

/-- The aggregator's place for shard `p` on a board: the member whose BOARDPOS is that of position `p`, else the lowest
(R332). -/
def aggregator (ms : List Nat) (p board : Nat) : Nat :=
  let here := ms.filter (fun x => x / 8 = board)
  (here.find? (fun x => x % 8 = ms.getD p 0 % 8)).getD (here.headD 0)

/-- The boards of a domain, in ring order. -/
def boardsOf (ms : List Nat) : List Nat :=
  ms.foldl (fun l x => if l.contains (x / 8) then l else l ++ [x / 8]) []

/-- The board after a board in ring order. -/
def nextOnRing (bs : List Nat) (b : Nat) : Nat := bs.getD ((bs.findIdx (fun x => x = b) + 1) % natMax bs.length 1) 0

/-- Places to which a member passes a gathered shard `p` on: the rest of its board, and the next board's aggregator until
every board has it (R333). -/
def passOn (ms : List Nat) (p me : Nat) : List Nat :=
  let src := ms.getD p 0
  let here := ms.filter (fun x => x / 8 = me / 8 && x ≠ me && x ≠ src)
  let bs := boardsOf ms
  let nb := nextOnRing bs (me / 8)
  if me = src || aggregator ms p (me / 8) = me && me / 8 ≠ src / 8 then
    here ++ (if nb = me / 8 || nb = src / 8 then [] else [aggregator ms p nb])
  else []

/-- Blocks of shard `p` of `m` of a tensor of `n` blocks (R172). -/
def shardOf (n m p : Nat) : List Nat :=
  let len := ceilDiv n (natMax m 1)
  (List.range (natMin n ((p + 1) * len) - natMin n (p * len))).map (fun i => p * len + i)

/-! COLL_SEQ (R328, R330). -/

/-- The last collective completed: all before the oldest one open. (DEDUCED, log 65.) -/
def State.doneSeq (s : State) (d : Nat) : Nat :=
  let open' := (s.dom d).colls.map Coll.seq
  match open' with
  | [] => (s.f .COLL_DOM_SEQ_NEXT d + 2 ^ 32 - 1) % 2 ^ 32
  | a :: l => (l.foldl (fun x y => if isEarlier 32 y x then y else x) a + 2 ^ 32 - 1) % 2 ^ 32

/-- Is a COLL_SEQ within the 8 that follow the last collective completed (R328)? -/
def State.inSeqWindow (s : State) (d seq : Nat) : Bool :=
  let x := (seq + 2 ^ 32 - s.doneSeq d) % 2 ^ 32
  1 ≤ x && x ≤ 8

/-- The open collective of a COLL_SEQ. -/
def State.coll (s : State) (d seq : Nat) : Option Coll := (s.dom d).colls.find? (fun c => c.seq = seq)

/-- Replaces an open collective. -/
def State.setColl (s : State) (d : Nat) (c : Coll) : State :=
  let v := s.dom d
  s.setDom d { v with colls := v.colls.map (fun x => if x.seq = c.seq then c else x) }

/-- Applies a function to an open collective. -/
def State.updColl (s : State) (d seq : Nat) (f : Coll → Coll) : State :=
  match s.coll d seq with
  | none => s
  | some c => s.setColl d (f c)

/-- COLL_DOM_SEQ.OPEN shows how many collectives are open. -/
def State.showOpen (s : State) (d : Nat) : State := s.setF .COLL_DOM_SEQ_OPEN d (s.dom d).colls.length

/-! What a collective carries. -/

/-- Is a collective part of the gradient exchange? -/
def CollReq.exchange (q : CollReq) : Bool := q.kind ≤ 1
/-- Does it reduce? -/
def CollReq.reduces (q : CollReq) : Bool := q.kind = 0 || q.kind = 2 || q.kind = 4
/-- Does it gather? -/
def CollReq.gathers (q : CollReq) : Bool := q.kind = 1 || q.kind = 3 || q.kind = 4 || q.kind = 5

/-- The dense spans of an exchange's range, of one role. -/
def State.collSpans (s : State) (q : CollReq) (role : Nat) : List (Nat × Nat) :=
  (s.spans q.sw).filter (fun p =>
    q.first ≤ p.1 && p.1 < q.first + q.count && spRole p.2 = role && s.dense q.sw p.2)

/-- The (span, block) pairs of shard `p` (R172, R329); of a tensor, the span number is 0. A broadcast's one shard is the
root's whole tensor. -/
def State.shardItems (s : State) (q : CollReq) (m p : Nat) : List (Nat × Nat) :=
  if q.exchange then
    (s.collSpans q 0).flatMap (fun v => (shardOf (spBlocks v.2) m p).map (fun b => (v.1, b)))
  else if q.kind = 6 then []
  else
    let n := tnBlocks (s.tnPair q.addr).1
    if q.kind = 5 then (List.range n).map (fun b => (0, b)) else (shardOf n m p).map (fun b => (0, b))

/-- The blocks of a member's owned spans, which reduce toward it whole (R166). -/
def State.ownedItems (s : State) (q : CollReq) : List (Nat × Nat) :=
  if q.kind = 0 then
    (s.collSpans q 1).flatMap (fun v => (List.range (spBlocks v.2)).map (fun b => (v.1, b)))
  else []

/-- The two descriptors that a collective of tensors reads. -/
def pairRanges (q : CollReq) : List (Nat × Nat) := if q.exchange || q.kind = 6 then [] else [(q.addr, 64)]

/-- What a member's contributions are read from: the send planes of the spans, or the input tensor. -/
def State.inputRanges (s : State) (q : CollReq) : List (Nat × Nat) :=
  if q.exchange then
    (s.collSpans q 0 ++ s.collSpans q 1 ++ s.collSpans q 2).map (fun v => (spSend v.2, 33 * spBlocks v.2))
  else if q.kind = 6 then [] else tnRanges (s.tnPair q.addr).1

/-- What gathered blocks are written to: the reduced planes of the spans, or the output tensor. -/
def State.outputRanges (s : State) (q : CollReq) : List (Nat × Nat) :=
  if q.exchange then (s.collSpans q 0).map (fun v => (spRed v.2, 33 * spBlocks v.2))
  else if q.kind = 6 then [] else tnRanges (s.tnPair q.addr).2

/-- The collective engine's work for a collective, once the bolts it reads (`rd`) and writes (`wr`) are served (R264, R277).
(DESIGN CHOICE, log 179.) -/
def State.collEngine (s : State) (q : CollReq) (rd wr : Bool) (f : State → State) : State :=
  s.engine q.sw (pairRanges q) [] (fun s =>
    s.engine q.sw (if rd then s.inputRanges q else []) (if wr then s.outputRanges q else []) f)

/-- Bytes of a contribution's block: a send plane's 33, or 32 FP32 values. -/
def CollReq.blockSize (q : CollReq) : Nat := if q.exchange then 33 else 128

/-- This member's own contribution of a block. -/
def State.contribution (s : State) (q : CollReq) (it : Nat × Nat) : List Byte :=
  if q.exchange then s.dev (spSend (s.span q.sw it.1) + 33 * it.2) 33
  else (s.tnRead (s.tnPair q.addr).1 it.2).flatMap (fun v => leBytes (toF32 v) 4)

/-- The values of a contribution's block: `deq(q)` of R172, or FP32. -/
def contribVals (q : CollReq) (bs : List Byte) : List Fv :=
  if q.exchange then
    let x := leNat ((bs.drop 32).take 1)
    (List.range 32).map (fun i => deqE5M2 x (leNat ((bs.drop i).take 1)))
  else (List.range 32).map (fun i => f32 (leNat ((bs.drop (4 * i)).take 4)))

/-- The 32 FP32 values of a running sum's block. -/
def sumVals (bs : List Byte) : List Fv := (List.range 32).map (fun i => f32 (leNat ((bs.drop (4 * i)).take 4)))

/-- `acc := round32(acc + x)`, slot by slot (R172). -/
def addVals (acc xs : List Fv) : List Fv := (acc.zip xs).map (fun p => round32 (Fv.add p.1 p.2))

/-- The sum of contributions in chain order: the first term exact, each later one added and rounded once (R172). -/
def sumChain (start : Option (List Fv)) (xs : List (List Fv)) : List Fv :=
  match start, xs with
  | some a, l => l.foldl addVals a
  | none, [] => List.replicate 32 (.zero false)
  | none, a :: l => l.foldl addVals a

/-- The bytes of a block of a part, `i`-th in its sequence. -/
def partBlock (p : Part) (size i : Nat) : List Byte := ((p.data.drop (size * i)).take size).map (BitVec.ofNat 8)

/-- Bytes of one block of an output tensor as it travels: its elements, then its scale when it has one. -/
def rawSize (z : Nat) : Nat := 32 * tnWidth z + flagBit (dScaled z)

/-- A block of a tensor as its format holds it. -/
def State.rawBlock (s : State) (z b : Nat) : List Byte :=
  let e0 := tnElem z b 0
  (List.range 32).flatMap (fun i =>
    if tnPad z b i then fillBytes (tnWidth z) 0 else s.dev (tnAddr z b i) (tnWidth z))
    ++ (if dScaled z then s.dev (dScaleAddr z e0.1 e0.2) 1 else [])

/-- Writes such a block. -/
def State.putRawBlock (s : State) (z b : Nat) (bs : List Byte) : State :=
  let w := tnWidth z
  let e0 := tnElem z b 0
  let s := (List.range 32).foldl (fun t i =>
    if tnPad z b i then t else t.putDev (tnAddr z b i) ((bs.drop (w * i)).take w)) s
  if dScaled z then s.putDev (dScaleAddr z e0.1 e0.2) ((bs.drop (32 * w)).take 1) else s

/-- Bytes of a gathered block. -/
def State.gatherSize (s : State) (q : CollReq) : Nat :=
  if q.exchange then 33 else rawSize (s.tnPair q.addr).2

/-- A gathered block as it stands at this member. -/
def State.gatherBlock (s : State) (q : CollReq) (it : Nat × Nat) : List Byte :=
  if q.exchange then s.dev (spRed (s.span q.sw it.1) + 33 * it.2) 33
  else s.rawBlock (s.tnPair q.addr).2 it.2

/-- Writes a gathered block (R173, R333). (DESIGN CHOICE, log 69.) -/
def State.putGather (s : State) (q : CollReq) (it : Nat × Nat) (bs : List Byte) : State :=
  if q.exchange then s.putDev (spRed (s.span q.sw it.1) + 33 * it.2) bs
  else s.putRawBlock (s.tnPair q.addr).2 it.2 bs

end Sys2Proof.Machine
end

