-- ==== Sys2Proof/Machine/Coll.lean ====
section
/-! DEFINITION. The collective engines (R172, R173, R198 to R207, R329 to R335): issue, contributions, running sums,
closing hops, gathers, the folded verdict, hold notices and timers. -/

namespace Sys2Proof.Machine

/-! Trailers (R200). -/

/-- FINAL. -/
def tlFinal (t : Nat) : Bool := bitAt t 2
/-- DIG. -/
def tlDig (t : Nat) : Bool := bitAt t 5
/-- SWATCH. -/
def tlSwatch (t : Nat) : Nat := bitField t 16 16
/-- EPOCH. -/
def tlEpoch (t : Nat) : Nat := bitField t 32 32
/-- COLL_SEQ. -/
def tlSeq (t : Nat) : Nat := bitField t 64 32
/-- STEP. -/
def tlStep (t : Nat) : Nat := bitField t 96 64
/-- ROOT. -/
def tlRoot (t : Nat) : Nat := bitField t 256 256
/-- V, W, MM, DALL, CAUSE and FOLDED. -/
def tlFold (t : Nat) : Fold where
  v := bitAt t 3
  w := bitAt t 4
  mm := bitAt t 6
  dall := bitAt t 7
  cause := bitField t 8 8
  folded := bitField t 160 14

/-- A trailer's 512 bits. -/
def trailerBits (final dig : Bool) (f : Fold) (sw epoch seq step root : Nat) : Nat :=
  1 + 2 ^ 2 * flagBit final + 2 ^ 3 * flagBit f.v + 2 ^ 4 * flagBit f.w + 2 ^ 5 * flagBit dig + 2 ^ 6 * flagBit f.mm
    + 2 ^ 7 * flagBit f.dall + 2 ^ 8 * (f.cause % 256) + 2 ^ 16 * (sw % 2 ^ 16) + 2 ^ 32 * (epoch % 2 ^ 32)
    + 2 ^ 64 * (seq % 2 ^ 32) + 2 ^ 96 * (step % 2 ^ 64) + 2 ^ 160 * (f.folded % 2 ^ 14) + 2 ^ 256 * (root % 2 ^ 256)

/-- The trailer that ends a flit sequence and is no verdict trailer: DIG, FINAL and ROOT zero (R200). Its V, CAUSE and
FOLDED carry no fold and are zero. -/
def plainTrailer (c : Coll) (epoch : Nat) : Nat :=
  trailerBits false false { v := false, w := false, mm := false, dall := false, cause := 0, folded := 0 }
    c.req.sw epoch c.seq c.step 0

/-- Sends a flit sequence and its trailer (R331). -/
def State.sendSequence (s : State) (d dest : Nat) (c : Coll) (phase shard first : Nat) (bs : List Byte) : State :=
  (s.sendData d dest c.seq phase shard first bs).sendTrailer d dest (plainTrailer c (s.epoch d))

/-! Contributions and running sums (R172, R332). -/

/-- A member's contributions go to the aggregators (R332), and those of its foreign spans to the other members, of which
the span's owner takes them (R166): once the step's pack jobs queued so far are done. -/
def State.contribute (s : State) (d : Nat) (c : Coll) : State :=
  let q := c.req
  let ms := (s.dom d).members
  let me := s.place
  let pos := s.position d
  if c.contributed || !(s.jobsOf q.sw 0).isEmpty then s
  else s.collEngine q q.reduces false (fun s =>
    let s := if !q.reduces then s
      else (List.range ms.length).foldl (fun t p =>
        let its := t.shardItems q ms.length p
        let run := ((segments ms p).find? (fun r => r.contains pos)).getD []
        let a := aggregator ms p (me / 8)
        if a = me || its.isEmpty || run.isEmpty then t
        else t.sendSequence d a c 0 p ((its.headD (0, 0)).2) (its.flatMap (t.contribution q))) s
    let s := if q.kind ≠ 0 then s
      else (s.collSpans q 2).foldl (fun t v =>
        let its := (List.range (spBlocks v.2)).map (fun b => (v.1, b))
        (ms.filter (fun x => x ≠ me)).foldl (fun u x =>
          u.sendSequence d x c 6 v.1 0 (its.flatMap (u.contribution q))) t) s
    s.updColl d c.seq (fun x => { x with contributed := true }))

/-- A contribution of a place to a block list, from this member's plane or from the sequence that brought it. -/
def State.contribFrom (s : State) (c : Coll) (phase shard place : Nat) (its : List (Nat × Nat)) :
    Option (List (List Fv)) :=
  if place = s.place then some (its.map (fun it => contribVals c.req (s.contribution c.req it)))
  else
    match c.parts.find? (fun p => p.phase = phase && p.shard = shard && p.sender = place) with
    | none => if its.isEmpty then some [] else none
    | some p => some (its.zipIdx.map (fun x => contribVals c.req (partBlock p c.req.blockSize x.2)))

/-- Contributions of several positions, all or none. (DESIGN CHOICE, log 60.) -/
def State.contribsFrom (s : State) (d : Nat) (c : Coll) (phase shard : Nat) (its : List (Nat × Nat)) :
    List Nat → Option (List (List (List Fv)))
  | [] => some []
  | a :: l =>
    match s.contribFrom c phase shard ((s.dom d).members.getD a 0) its, s.contribsFrom d c phase shard its l with
    | some x, some xs => some (x :: xs)
    | _, _ => none

/-- The segment of a shard's chain that this member adds, when all of it is here: the sums of the shard's blocks (R332). -/
def State.addSegment (s : State) (d : Nat) (c : Coll) (p : Nat) (run : List Nat) (isFirst : Bool) : Option (List (List Fv)) :=
  let ms := (s.dom d).members
  let its := s.shardItems c.req ms.length p
  let before : Option (List (Option (List Fv))) :=
    if isFirst then some (its.map (fun _ => none))
    else
      match c.parts.find? (fun x => x.phase = 1 && x.shard = p) with
      | none => if its.isEmpty then some [] else none
      | some x => some (its.zipIdx.map (fun y => some (sumVals (partBlock x 128 y.2))))
  match before, s.contribsFrom d c 0 p its run with
  | some bs, some xs => some (its.zipIdx.map (fun y =>
      sumChain (bs.getD y.2 none) (xs.map (fun l => l.getD y.2 []))))
  | _, _ => none

/-- The sums of this member's owned spans, when every contribution is here (R166, R172). -/
def State.addOwned (s : State) (d : Nat) (c : Coll) : Option (List ((Nat × Nat) × List Fv)) :=
  let ms := (s.dom d).members
  let order := chainOrder ms.length (s.position d)
  let spans := if c.req.kind = 0 then s.collSpans c.req 1 else []
  spans.foldl (fun acc v =>
    let its := (List.range (spBlocks v.2)).map (fun b => (v.1, b))
    match acc, s.contribsFrom d c 6 v.1 its order with
    | some l, some xs => some (l ++ its.zipIdx.map (fun y => (y.1, sumChain none (xs.map (fun x => x.getD y.2 [])))))
    | _, _ => none) (some [])

/-- The sums of a segment and, with the last one of this member's own shard, those of its owned spans. -/
def State.segmentSums (s : State) (d : Nat) (c : Coll) (p : Nat) (run : List Nat) (isFirst isLast : Bool) :
    Option (List (List Fv) × List ((Nat × Nat) × List Fv)) :=
  match s.addSegment d c p run isFirst, (if isLast then s.addOwned d c else some []) with
  | some x, some y => some (x, y)
  | _, _ => none

/-- A segment whose parts are all here is added and passed on (R332): the running sums go to the next board's aggregator; the
last segment of this member's own shard leaves them in the reduction buffer. -/
def State.passSegment (s : State) (d : Nat) (c : Coll) (p : Nat) (run : List Nat) (r : Nat) : State :=
  let ms := (s.dom d).members
  let runs := segments ms p
  let isLast := r + 1 = runs.length
  match s.segmentSums d c p run (r = 0) isLast with
  | none => s
  | some (sums, owned) =>
    let s := s.setColl d { c with passed := (2 * p + (if r = 0 then 0 else 1)) :: c.passed }
    if isLast then
      let all := (s.shardItems c.req ms.length p).zip sums ++ owned
      s.updColl d c.seq (fun x => { x with
        summed := true, sums := all.map (fun y => (y.1.1, y.1.2, y.2.map toF32)) })
    else
      let next := ms.getD ((runs.getD (r + 1) []).headD 0) 0 / 8
      let bs := sums.flatMap (fun vs => vs.flatMap (fun v => leBytes (toF32 v) 4))
      if bs.isEmpty then s else s.sendSequence d (aggregator ms p next) c 1 p 0 bs

/-- This member adds and passes on every segment it is aggregator of and has not passed yet (R332), its own contributions
read once their bolts are served. -/
def State.addSegments (s : State) (d seq : Nat) : State :=
  match s.coll d seq with
  | none => s
  | some c0 =>
    if !c0.req.reduces || !(s.jobsOf c0.req.sw 0).isEmpty then s
    else
      let ms := (s.dom d).members
      (List.range ms.length).foldl (fun t p =>
        let runs := segments ms p
        runs.zipIdx.foldl (fun u r =>
          match u.coll d seq with
          | none => u
          | some c =>
            if aggregator ms p (ms.getD (r.1.headD 0) 0 / 8) ≠ s.place
                || c.passed.contains (2 * p + (if r.2 = 0 then 0 else 1))
                || (u.segmentSums d c p r.1 (r.2 = 0) (r.2 + 1 = runs.length)).isNone then u
            else u.collEngine c.req true false (fun u => u.passSegment d c p r.1 r.2)) t) s

/-- A reduced tensor's own shard is written, rounded once into the output format (R329). -/
def State.writeSums (s : State) (d seq : Nat) : State :=
  match s.coll d seq with
  | none => s
  | some c =>
    if c.req.exchange || !c.req.reduces || !c.summed || c.holds.contains (s.position d) then s
    else s.collEngine c.req false true (fun s =>
      let z := (s.tnPair c.req.addr).2
      let s := c.sums.foldl (fun t x => t.tnWrite z x.2.1 (x.2.2.map f32)) s
      s.updColl d seq (fun x => { x with hops := c.sums.map (fun y => (y.1, y.2.1)), holds := [s.position d] }))

/-! Gathers (R333, R334). -/

/-- The closing hops of an exchange's own shard are all done. -/
def Coll.hopped (c : Coll) : Bool := c.summed && c.sums.all (fun x => c.hops.contains (x.1, x.2.1))

/-- Does the shard that this member is the source of stand ready to go out? -/
def State.sourceReady (s : State) (d : Nat) (c : Coll) : Bool :=
  if c.req.kind = 1 then
    match s.coll d ((c.seq + 2 ^ 32 - 1) % 2 ^ 32) with
    | some r => r.hopped
    | none => true
  else if c.req.kind = 5 then s.position d = c.req.root
  else c.req.kind = 3

/-- A gather sequence of shard `p` goes to a place; in a closing collective its trailer is the FINAL one, sent once it is
held (R334). -/
def State.sendGather (s : State) (d : Nat) (c : Coll) (p dest : Nat) (bs : List Byte) : State :=
  let s := s.sendData d dest c.seq 2 p 0 bs
  if c.req.closing && c.req.exchange then s.updColl d c.seq (fun x => { x with owed := x.owed ++ [dest] })
  else s.sendTrailer d dest (plainTrailer c (s.epoch d))

/-- A shard that stands at this member is passed on as R333 gives. -/
def State.forward (s : State) (d : Nat) (c : Coll) (p : Nat) : State :=
  let ms := (s.dom d).members
  let its := s.shardItems c.req ms.length p
  (passOn ms p s.place).foldl (fun t x => t.sendGather d c p x (its.flatMap (t.gatherBlock c.req))) s

/-- This member's own shard goes out when it is ready; a gather of tensors is converted first (R329, R333). -/
def State.sendOwn (s : State) (d seq : Nat) : State :=
  match s.coll d seq with
  | none => s
  | some c =>
    let p := s.position d
    if !c.req.gathers || !(s.jobsOf c.req.sw 0).isEmpty then s
    else if c.req.kind = 4 then
      (if c.holds.contains p && !c.passed.contains (2 ^ 20) then
        s.collEngine c.req false true (fun s =>
          (s.forward d c p).updColl d seq (fun x => { x with passed := 2 ^ 20 :: x.passed }))
       else s)
    else if c.holds.contains p || !s.sourceReady d c then s
    else s.collEngine c.req (!c.req.exchange) true (fun s =>
      let z := s.tnPair c.req.addr
      let s := if c.req.exchange then s
        else (s.shardItems c.req (s.dom d).members.length p).foldl (fun t it => t.tnWrite z.2 it.2 (t.tnRead z.1 it.2)) s
      (s.forward d c p).updColl d seq (fun x => { x with holds := p :: x.holds }))

/-- A gathered shard that has arrived whole is written and passed on (R333). -/
def State.takeShard (s : State) (d : Nat) (c : Coll) (x : Part) : State :=
  if x.phase ≠ 2 || c.holds.contains x.shard then s
  else
    let its := s.shardItems c.req (s.dom d).members.length x.shard
    let n := s.gatherSize c.req
    let s := its.zipIdx.foldl (fun t y => t.putGather c.req y.1 (partBlock x n y.2)) s
    (s.forward d c x.shard).updColl d c.seq (fun y => { y with holds := x.shard :: y.holds })

/-! The final verdict at this member (R203 to R207). -/

/-- The fold that the round trailer of round `k` brought. -/
def Coll.foldOf (c : Coll) (k : Nat) : Fold := c.folds.getD (k - 1) {}

/-- The fold over all members: that of round m − 1 with the member's own fields (R202). -/
def State.fullFold (s : State) (d : Nat) (c : Coll) : Option Fold :=
  match c.own with
  | none => none
  | some f =>
    if c.rin + 1 = (s.dom d).members.length then some ((c.foldOf c.rin).join { f with mm := (s.sw c.req.sw).mm }) else none

/-- V_final of a fold over `m` members (R203). -/
def vFinal (f : Fold) (m : Nat) : Bool := f.v && !f.mm && f.folded = m

/-- Every gather of the swatch's step has brought every shard. -/
def State.gathered (s : State) (d k : Nat) : Bool :=
  let m := (s.dom d).members.length
  (s.dom d).colls.all (fun c => c.req.sw ≠ k || c.req.kind ≠ 1 || c.holds.length = m)
    && !(s.dom d).reqs.any (fun q => q.sw = k && q.kind = 1)

/-- Does a fenced stack hold a span that the update would write (R207)? -/
def State.updateFenced (s : State) (k : Nat) : Bool :=
  (s.spans k).any (fun p => spRole p.2 ≤ 1 && s.dense k p.2 && s.stackFenced (spPress p.2))

/-- A compared step, one whose verdict compares the roots of the step before, is noted for R219: without a repair, which a
repair of this member puts right. -/
def State.noteCompared (s : State) (k : Nat) (f : Fold) : State :=
  if s.dig k || f.mm then s.updSw k (fun r => { r with repairs := (false :: r.repairs).take 16 }) else s

/-- A member holding its FINAL trailer acts on it, once its own fold is complete and, for V = 1, its reduced planes are
(R203 to R205, R207). (DEDUCED, log 67.) -/
def State.tryApply (s : State) (d seq : Nat) : State :=
  match s.coll d seq with
  | none => s
  | some c =>
    let k := c.req.sw
    let r := s.sw k
    match c.final, s.fullFold d c with
    | some t, some own =>
      let f := tlFold t
      if r.final.isSome || r.failed then s
      else if vFinal own (s.dom d).members.length ≠ f.v then
        ((s.tally .HUB_TACK_DISAGREE 0 1).notComplete k (2 ^ causeDisagree)).updSw k
          (fun x => { x with nextCause := putBit x.nextCause causeDisagree true })
      else if f.v && !s.gathered d k then s
      else if f.v && s.updateFenced k then s.notComplete k (2 ^ causeUnit)
      else (s.noteCompared k f).applyVerdict k f
    | _, _ => s

/-- The FINAL trailer goes to every place still owed it, by each of the step's gathers of the closing exchange (R334). -/
def State.payFinal (s : State) (d k t : Nat) : State :=
  (s.dom d).colls.foldl (fun u c =>
    if c.req.sw = k && c.req.kind = 1 && c.req.closing then
      (c.owed.foldl (fun v x => v.sendTrailer d x t) u).updColl d c.seq (fun x => { x with owed := [], final := some t })
    else u) s

/-- A member comes to hold the FINAL trailer of a closing collective. -/
def State.holdFinal (s : State) (d seq t : Nat) : State :=
  match s.coll d seq with
  | none => s
  | some c => (((s.setColl d { c with final := some t }).payFinal d c.req.sw t)).tryApply d seq

/-- The closer forms V_final once its fold is complete, and begins the gather's FINAL trailers; in a lining pair it sends
FINAL to position 1 (R203, R334, R340). -/
def State.formFinal (s : State) (d seq : Nat) : State :=
  match s.coll d seq with
  | none => s
  | some c =>
    match s.fullFold d c with
    | none => s
    | some f =>
      let ms := (s.dom d).members
      if s.position d ≠ 0 || c.final.isSome then s.tryApply d seq
      else
        let g := { f with v := vFinal f ms.length }
        let t := trailerBits true false g c.req.sw (s.epoch d) c.seq c.step 0
        let s := if c.req.kind = 6 then s.sendTrailer d (ms.getD 1 0) t else s
        s.holdFinal d seq t

/-! Completion. -/

/-- Has a collective nothing left to do at this member? -/
def State.collDone (s : State) (d : Nat) (c : Coll) : Bool :=
  let m := (s.dom d).members.length
  let k := c.req.sw
  let ended := (s.sw k).final.isSome || (s.sw k).failed
  let reduced := c.contributed && c.summed && c.hopped
    && (List.range m).all (fun p => (segments (s.dom d).members p).zipIdx.all (fun r =>
        aggregator (s.dom d).members p ((s.dom d).members.getD (r.1.headD 0) 0 / 8) ≠ s.place
          || c.passed.contains (2 * p + (if r.2 = 0 then 0 else 1))))
  let pairIssued := !(s.dom d).reqs.any (fun q => q.sw = k && q.kind = 1)
  let shards := if c.req.kind = 5 then 1 else m
  if c.req.kind = 0 then reduced && pairIssued && (!c.req.closing || ended)
  else if c.req.kind = 6 then ended
  else if c.req.kind = 2 then reduced
  else if c.req.kind = 4 then reduced && c.holds.length = m && c.passed.contains (2 ^ 20)
  else c.holds.length = shards && c.owed.isEmpty && (c.req.kind ≠ 1 || !c.req.closing || c.final.isSome)

/-- Completed collectives close (R328, R330). -/
def State.closeDone (s : State) (d : Nat) : State :=
  let v := s.dom d
  (s.setDom d { v with colls := v.colls.filter (fun c => !s.collDone d c) }).showOpen d

/-- One open collective does what it can: contributions, sums, its own shard. -/
def State.advanceColl (s : State) (d seq : Nat) : State :=
  let s := match s.coll d seq with
    | some c => s.contribute d c
    | none => s
  (((s.addSegments d seq).writeSums d seq).sendOwn d seq).tryApply d seq

/-- Every open collective of a domain does what it can. -/
def State.advanceDom (s : State) (d : Nat) : State :=
  (((s.dom d).colls.map Coll.seq).foldl (fun t q => t.advanceColl d q) s).closeDone d

/-! Sequence numbers (R330). -/

/-- The next COLL_SEQ of a domain. -/
def State.nextSeq (s : State) (d : Nat) : Nat := s.f .COLL_DOM_SEQ_NEXT d

/-- What came early for a collective is taken in when it opens (R330). -/
def State.takeEarly (s : State) (d seq : Nat) : State :=
  let v := s.dom d
  let mine := v.early.filter (fun p => p.1 = seq)
  (s.setDom d { v with early := v.early.filter (fun p => p.1 ≠ seq) }).updColl d seq
    (fun c => { c with arrived := c.arrived ++ mine.map Prod.snd })

/-! SEQUENCE_COMPLETE (R331). -/

/-- The working plane of an owned span that has come in is written at this member, once its bolts are served (R184). -/
def State.takePlane (s : State) (d : Nat) (p : Nat × Part) : State :=
  let k := p.1
  let span := p.2.shard
  let v := s.span k span
  let n := spRows v * spCols v
  let bs := p.2.data.map (BitVec.ofNat 8)
  let gone (s : State) : State := s.setDom d { s.dom d with incoming := (s.dom d).incoming.erase p }
  if spRole v ≠ 2 || bs.length ≠ n + spBlocks v then gone s
  else s.engine k [] (spWorkRanges v) (fun s =>
    let s := ((gone s).putDev (spWork v) (bs.take n)).putDev (spWscale v) (bs.drop n)
    s.updSw k (fun r => { r with planes := span :: r.planes }))

/-- Every working plane that has come in for a swatch and is not yet written. -/
def State.takePlanes (s : State) (d k : Nat) : State :=
  ((s.dom d).incoming.filter (fun p => p.1 = k && p.2.phase = 3)).foldl (fun t p => t.takePlane d p) s

/-- The bytes of a sequence are here whole (R330, R331): they wait for their trailer, or for their collective to be
issued. Phases 3 to 5 and 7 to 14 belong to no open collective: working planes of owned spans, a state transfer, and
localisation, whose swatch stands in the header's first block; their length ends them. -/
def State.arrive (s : State) (d epoch seq : Nat) (x : Part) : State :=
  let drop (u : State) : State := u.tally .COLL_SEQ_DROP 0 1
  if epoch ≠ s.epoch d then drop s
  else if 3 ≤ x.phase && x.phase ≠ 6 then
    let v := s.dom d
    let kept := v.incoming.filter (fun p =>
      !(p.1 = x.first && p.2.phase = x.phase && p.2.shard = x.shard))
    let s := s.setDom d { v with incoming := kept ++ [(x.first, x)] }
    if x.phase = 3 then s.takePlanes d x.first else s
  else if !s.inSeqWindow d seq then drop s
  else
    match s.coll d seq with
    | some c => s.setColl d { c with arrived := c.arrived ++ [x], timer := s.now }
    | none =>
      if isEarlier 32 seq (s.nextSeq d) then drop s
      else s.setDom d { s.dom d with early := (s.dom d).early ++ [(seq, x)] }

/-- A sequence whose trailer and bytes have all arrived is complete, and the engines go on with it; a gathered shard waits
until the bolts it is written to are served. -/
def sequenceComplete (d seq sender : Nat) (s : State) : State :=
  match s.coll d seq with
  | none => s
  | some c =>
    match c.arrived.find? (fun p => p.sender = sender || p.sender = 8192) with
    | none => s
    | some x =>
      if !c.ended.contains sender then s
      else
        let c := { c with
          arrived := c.arrived.erase x, ended := c.ended.erase sender
          parts := if x.phase = 2 then c.parts else c.parts ++ [x] }
        if x.phase = 2 then s.collEngine c.req false true (fun s => ((s.setColl d c).takeShard d c x).advanceDom d)
        else (s.setColl d c).advanceDom d

/-- SEQUENCE_COMPLETE. -/
def execSequenceComplete (d seq sender : Nat) (s : State) : Host.Outcome State Fault Refusal :=
  act (d < 16 && sender < 8192) (whenUp (sequenceComplete d seq sender)) s

/-! CLOSING_HOP (R173). -/

/-- One block's closing hop: the residual in force is added, the sum quantised, the other residual half written, and the
owner's reduced plane takes the same bits. Owned spans take part with every block of the span. -/
def closingHop (k span block : Nat) (s : State) : State :=
  let d := (s.sw k).domain
  match (s.dom d).colls.find? (fun c => c.req.sw = k && c.req.kind = 0
      && c.sums.any (fun x => x.1 = span && x.2.1 = block) && !c.hops.contains (span, block)) with
  | none => s
  | some c =>
    let v := s.span k span
    let len := resLen v (s.dom d).members.length
    let i := if spRole v = 1 then block else block - s.position d * len
    let cur := s.desc k 1944 1
    let at' (h : Nat) : Nat := spRes v + h * (64 * len) + 64 * i
    s.engine k [(at' cur, 64)] [(at' (1 - cur), 64), (spRed v + 33 * block, 33)] (fun s =>
    let acc := ((c.sums.find? (fun x => x.1 = span && x.2.1 = block)).map (fun x => x.2.2)).getD []
    let res := (s.devNats (at' cur) 2 32).map (fpDecode fmtBF16)
    let r := (acc.zip res).map (fun p => round32 (Fv.add (f32 p.1) p.2))
    let q := quantE5M2 r
    let s := s.putDev (at' (1 - cur)) ((newErrors r).flatMap (fun e => leBytes e 2))
    let s := s.putPlane (spRed v) block q
    let s := s.updColl d c.seq (fun x => { x with hops := x.hops ++ [(span, block)] })
    s.advanceDom d)

/-- CLOSING_HOP. -/
def execClosingHop (k span block : Nat) (s : State) : Host.Outcome State Fault Refusal :=
  act (k < 65536) (whenUp (closingHop k span block)) s

/-! Round trailers (R198, R202, R334). -/

/-- The open closing collective of a swatch. -/
def State.closing (s : State) (d k : Nat) : Option Coll :=
  (s.dom d).colls.find? (fun c => c.req.sw = k && c.req.closing && (c.req.kind = 0 || c.req.kind = 6))

/-- The next round trailer goes to the next ring position: the first once every contribution has been sent, which latches
the bit; a later one once the one before has come in. -/
def roundTrailerSend (d k : Nat) (s : State) : State :=
  match s.closing d k with
  | none => s
  | some c =>
    let ms := (s.dom d).members
    let pos := s.position d
    let dest := ms.getD ((pos + 1) % natMax ms.length 1) 0
    if ms.length ≤ c.rout + 1 || !c.contributed || c.rin < c.rout then s
    else
      let s := if c.rout = 0 then s.latch k else s
      let own := c.own.getD (s.ownFold k)
      let own := { own with mm := (s.sw k).mm }
      let f := if c.rout = 0 then { own with dall := s.dig k } else (c.foldOf c.rout).join own
      let dig := s.dig k
      let root := if dig then s.devNat (s.desc k 768 52 + 64) 32 else 0
      let t := trailerBits false dig f k (s.epoch d) c.seq c.step root
      let s := s.sendTrailer d dest t
      (s.updColl d c.seq (fun x => { x with rout := x.rout + 1, own := some own })).formFinal d c.seq

/-- ROUND_TRAILER_SEND. -/
def execRoundTrailerSend (d k : Nat) (s : State) : Host.Outcome State Fault Refusal :=
  act (d < 16 && k < 65536) (whenUp (roundTrailerSend d k)) s

/-! TRAILER (R204, R214). -/

/-- A round-1 root is compared with this member's own (R214). -/
def State.compareRoot (s : State) (k t : Nat) : State :=
  if s.dig k && tlDig t && tlRoot t ≠ s.devNat (s.desc k 768 52 + 64) 32 then
    (s.tally .HUB_AGREE_MISMATCH 0 1).updSw k (fun r => { r with mm := true })
  else s

/-- A trailer that matches an open collective: a FINAL one is acted on, a round trailer of a closing collective is folded,
any other marks the end of a sequence (R204). A round trailer is told by its FOLDED, which no other but FINAL has. -/
def State.takeTrailer (s : State) (d t sender : Nat) (c : Coll) : State :=
  let ms := (s.dom d).members
  let s := s.updColl d c.seq (fun x => { x with timer := s.now })
  if tlFinal t then
    let s := (s.dom d).colls.foldl (fun u x =>
      if x.req.sw = c.req.sw && x.req.kind = 1 && x.req.closing then
        u.updColl d x.seq (fun y => { y with ended := y.ended ++ [sender] })
      else u) s
    (if c.final.isSome then s else s.holdFinal d c.seq t).closeDone d
  else if c.req.closing && (c.req.kind = 0 || c.req.kind = 6) && (tlFold t).folded ≠ 0 then
    if ms.length ≤ c.rin + 1 then s
    else
      let s := if c.rin = 0 then s.compareRoot c.req.sw t else s
      ((s.updColl d c.seq (fun x => { x with rin := x.rin + 1, folds := x.folds ++ [tlFold t] })).formFinal d c.seq).closeDone d
  else s.updColl d c.seq (fun x => { x with ended := x.ended ++ [sender] })

/-- A received trailer (R204). One of a later epoch tells that this member missed an epoch change: it applies nothing for the
step and withdraws. One of a collective within the window that is not yet issued is held (R330). (DEDUCED, log 62, 63, 64.) -/
def trailer (d t sender : Nat) (s : State) : State :=
  let stale (u : State) : State := u.tally .HUB_TACK_STALE 0 1
  let s := s.setDom d { s.dom d with heardAt := FMap.set 0 (s.dom d).heardAt sender s.now }
  let e := s.epoch d
  let k := tlSwatch t
  if bitField t 0 2 ≠ 1 then stale s
  else if isLater 32 (tlEpoch t) e then
    (if (s.sw k).started && (s.sw k).domain = d then s.notComplete k (2 ^ causeWithdraw)
     else s.setWithdraw (2 ^ causeWithdraw))
  else if tlEpoch t ≠ e then stale s
  else
    match s.coll d (tlSeq t) with
    | some c => if c.req.sw = k && c.step = tlStep t then s.takeTrailer d t sender c else stale s
    | none =>
      if !s.inSeqWindow d (tlSeq t) then stale (s.tally .COLL_SEQ_DROP 0 1)
      else if isEarlier 32 (tlSeq t) (s.nextSeq d) then stale s
      else s.setDom d { s.dom d with earlyTr := (s.dom d).earlyTr ++ [(t, sender)] }

/-- A trailer that reaches a module which is no member of the domain matches nothing it has open (R204). -/
def takesTrailer (d t sender : Nat) (s : State) : State :=
  if s.isMember d then trailer d t sender s else s.tally .HUB_TACK_STALE 0 1

/-- TRAILER. -/
def execTrailer (d t sender : Nat) (s : State) : Host.Outcome State Fault Refusal :=
  act (d < 16 && sender < 8192) (whenUp (takesTrailer d t sender)) s

/-- Trailers held for collectives that have opened since are acted on, oldest first. -/
def State.takeHeld (s : State) (d : Nat) : State :=
  let l := (s.dom d).earlyTr
  l.foldl (fun t x =>
    match t.coll d (tlSeq x.1) with
    | some c =>
      if tlEpoch x.1 = t.epoch d then
        let u := t.setDom d { t.dom d with earlyTr := (t.dom d).earlyTr.erase x }
        if c.req.sw = tlSwatch x.1 && c.step = tlStep x.1 then u.takeTrailer d x.1 x.2 c
        else u.tally .HUB_TACK_STALE 0 1
      else t
    | none => t) s

/-! Timers and hold notices (R206, R207, R335). -/

/-- The 50 ms timer of an open collective expires: the member does not complete the step (R207). -/
def collectiveTimeout (d seq : Nat) (s : State) : State :=
  match s.coll d seq with
  | none => s
  | some c =>
    if s.now - c.timer < msec 50 then s
    else
      let first := s.withdraw.isNone
      let s := (s.tally .HUB_TACK_TIMEOUT 0 1).notComplete c.req.sw (2 ^ causeWithdraw)
      let v := s.dom d
      let s := s.setDom d { v with colls := v.colls.filter (fun x => x.req.sw ≠ c.req.sw)
                                   reqs := v.reqs.filter (fun q => q.sw ≠ c.req.sw) }
      { s with timedOut := first }.showOpen d

/-- COLLECTIVE_TIMEOUT. -/
def execCollectiveTimeout (d seq : Nat) (s : State) : Host.Outcome State Fault Refusal :=
  act (d < 16) (whenUp (collectiveTimeout d seq)) s

/-- Is a swatch's step stalled or switched out before its latch (R206, R362)? No notice goes once the limit has passed. -/
def State.holding (s : State) (k : Nat) : Bool :=
  let r := s.sw k
  r.started && !r.latched && !r.limitHit && (r.outAt.isSome || s.mem.waiters.any (fun w => w.sw = k && !w.past))

/-- Every 10 ms a holding member tells its ring neighbours; its own timers restart as theirs do (R206, R335, R362).
(DEDUCED, log 66.) -/
def holdNoticeTick (k : Nat) (s : State) : State :=
  let r := s.sw k
  let d := r.domain
  if d ≥ 16 || s.alone k || !s.holding k || s.now - r.holdAt < msec 10 then s
  else
    let v := s.dom d
    let m := v.members.length
    let pos := s.position d
    let seqs := ((v.colls.filter (fun c => c.req.sw = k)).map Coll.seq).take 8
    let dests := sortAsc [v.members.getD ((pos + m - 1) % m) 0, v.members.getD ((pos + 1) % m) 0]
    let fields := [(s.epoch d, 4), (k, 2)] ++ seqs.map (fun q => (q, 4))
    let s := dests.foldl (fun t p => (t.message d p 7 fields).tally .COLL_HOLD_TX 0 1) s
    let s := s.updSw k (fun x => { x with holdAt := s.now })
    seqs.foldl (fun t q => t.updColl d q (fun c => { c with timer := t.now })) s

/-- HOLD_NOTICE_TICK. -/
def execHoldNoticeTick (k : Nat) (s : State) : Host.Outcome State Fault Refusal :=
  act (k < 65536) (whenUp (holdNoticeTick k)) s

/-- A HOLD restarts the timer of each listed collective that this member has open (R335). -/
def hold (d epoch : Nat) (seqs : List Nat) (s : State) : State :=
  let s := s.tally .COLL_HOLD_RX 0 1
  if epoch ≠ s.epoch d then s
  else (seqs.take 8).foldl (fun t q => t.updColl d q (fun c => { c with timer := t.now })) s

/-- HOLD. -/
def execHold (d epoch : Nat) (seqs : List Nat) (sender : Nat) (s : State) : Host.Outcome State Fault Refusal :=
  act (d < 16 && sender < 8192) (whenUp (hold d epoch seqs)) s

/-! Issue (R330). -/

/-- The oldest collective asked for is issued, when fewer than 8 are open: it takes the domain's next COLL_SEQ. The engines go
on with what is open, what waited for a bolt among it. -/
def collIssue (d : Nat) (s : State) : State :=
  let v := s.dom d
  match v.reqs with
  | [] => s.advanceDom d
  | q :: rest =>
    if 8 ≤ v.colls.length || !s.isMember d then s.advanceDom d
    else
      let seq := s.nextSeq d
      let fin := match s.coll d ((seq + 2 ^ 32 - 1) % 2 ^ 32) with
        | some c => if q.kind = 1 && q.closing then c.final else none
        | none => none
      let c : Coll := { seq := seq, step := (s.sw q.sw).step, req := q, timer := s.now, final := fin }
      let s := s.setDom d { v with reqs := rest, colls := v.colls ++ [c] }
      let s := ((s.setF .COLL_DOM_SEQ_NEXT d ((seq + 1) % 2 ^ 32)).tally .COLL_ISSUED 0 1).takeEarly d seq
      ((s.showOpen d).takeHeld d).advanceDom d

/-- COLL_ISSUE. -/
def execCollIssue (d : Nat) (s : State) : Host.Outcome State Fault Refusal := act (d < 16) (whenUp (collIssue d)) s

end Sys2Proof.Machine
end

