-- ==== Sys2Proof/Machine/Commit.lean ====
section
/-! DEFINITION. Pack jobs and the commit of a step (R170, R174, R182, R184), which set the collective engines going. -/

namespace Sys2Proof.Machine

/-- Has the plan a PACK entry from entry `i` on? -/
def State.packAhead (s : State) (k i : Nat) : Bool :=
  (List.range (s.desc k 960 17 - i)).any (fun j => bitField (s.planEntry k (i + j)) 2 6 = 3)

/-- The last pack job of the step has completed: in a domain of one the bit latches (R198). -/
def State.packsDone (s : State) (k : Nat) : State :=
  if (s.jobsOf k 0).isEmpty && !s.packAhead k (s.sw k).plan then s.latchAlone k else s

/-- A pack job (R170): each block's values are quantised into the send plane, or, in a domain of one and in a lining
pair, the reduced plane (R174). A scale of FFh makes the bit 0. -/
def packJob (st : Nat) (s : State) : State :=
  match s.jobs st with
  | [] => s
  | j :: rest =>
    if j.kind ≠ 0 then s
    else
      let v := s.span j.sw j.span
      let g := s.group j.sw (spGroup v)
      let base := if s.packsReduced j.sw then spRed v else spSend v
      s.engine j.sw (s.spanReads j.sw j.span v) [(base, 33 * spBlocks v)] (fun s =>
        let t := (List.range (spBlocks v)).foldl (fun (t : State) b =>
          let p := t.packValues (gWide g) v b
          let q := quantE5M2 p.1
          let t := (t.putPlane base b q).tally .PRESS_SAT st p.2
          if q.1 = 0xFF then t.failStep j.sw causeNonFinite else t) s
        let u := (t.setJobs st rest).packsDone j.sw
        if (u.sw j.sw).domain < 16 then u.advanceDom (u.sw j.sw).domain else u)

/-- PACK_JOB. -/
def execPackJob (st : Nat) (s : State) : Host.Outcome State Fault Refusal := act (st < 24) (whenUp (packJob st)) s

/-- Owned and foreign spans whose working planes still have to arrive (R184, step 3). -/
def State.planesDue (s : State) (k : Nat) : List Nat :=
  if s.alone k then []
  else ((s.spans k).filter (fun p => spRole p.2 = 2 && s.dense k p.2 && !(s.sw k).planes.contains p.1)).map Prod.fst

/-- The owned spans whose working planes are still to be sent. -/
def State.planesOwed (s : State) (k : Nat) : List (Nat × Nat) :=
  if s.alone k then []
  else (s.spans k).filter (fun p => spRole p.2 = 1 && s.dense k p.2 && !(s.sw k).planes.contains p.1)

/-- The working planes of owned spans go to the members that hold them as foreign, once the updates are done and their bolts
are served. -/
def State.sendPlanes (s : State) (k : Nat) : State :=
  let d := (s.sw k).domain
  (s.planesOwed k).foldl (fun t p =>
    let v := p.2
    t.engineAs k (spWorkRanges v) [] true (fun t =>
      let bs := t.dev (spWork v) (spRows v * spCols v) ++ t.dev (spWscale v) (spBlocks v)
      let t := ((t.dom d).members.filter (fun x => x ≠ t.place)).foldl
        (fun u x => u.sendData d x (u.doneSeq d) 3 p.1 k bs) t
      t.updSw k (fun r => { r with planes := p.1 :: r.planes }))) s

/-- The active groups of a swatch. -/
def State.activeGroups (s : State) (k : Nat) : List Nat := (List.range 4096).filter (fun i => gActive (s.group k i))

/-- What a commit writes: the descriptors of the active groups and the digest area; a compared step's tree is read from the
records of the replicated spans. -/
def State.commitRanges (s : State) (k : Nat) : List (Nat × Nat) × List (Nat × Nat) :=
  (if s.compared k then (s.replicated k).map (fun i => s.recRange k (s.span k i)) else [],
    (s.activeGroups k).map (fun i => (s.desc k 448 52 + 128 * i, 128))
      ++ (if s.desc k 768 52 = 0 then [] else [(s.desc k 768 52, s.treeBytes k)]))

/-- The commit itself (R184). -/
def State.commitNow (s : State) (k : Nat) : State :=
  let r := s.sw k
  let s := (List.range 4096).foldl (fun t i => t.commitGroup k i) (s.endWaits (2 ^ 29 + k))
  let s := match r.final with
    | some f => s.matchedRoot k f true
    | none => s
  let s := s.setDesc k 1944 1 (1 - s.desc k 1944 1)
  let s := if s.compared k then s.storeTree k r.step else s
  let s := s.setDesc k 1856 64 r.step
  (s.tally .HUB_TACK_PASS 0 1).updSw k (fun x => { x with settled := true })

/-- The commit of a step (R184): once updates, error passes, rows at home in T1 and foreign working planes are done, the
groups advance, the residual selector flips and the digest tree is stored. -/
def stepCommit (k : Nat) (s : State) : State :=
  let r := s.sw k
  let v1 := match r.final with
    | some f => f.v
    | none => false
  let landed := (s.pendEntries k).any (fun p => phState p.2 = 2 && s.allInT1 (s.pendBolts k p.2))
  if !r.started || r.settled || r.failed || !v1 then s
  else if !(s.jobsOf k 1).isEmpty || !(s.jobsOf k 2).isEmpty || landed then s
  else
    let s := (s.takePlanes r.domain k).sendPlanes k
    if !(s.planesDue k).isEmpty || !(s.planesOwed k).isEmpty then s.waitAs k 5 (2 ^ 29 + k) true
    else s.engineAs k (s.commitRanges k).1 (s.commitRanges k).2 true (fun s => s.commitNow k)

/-- STEP_COMMIT. -/
def execStepCommit (sw : Nat) (s : State) : Host.Outcome State Fault Refusal :=
  act (sw < 65536) (whenUp (stepCommit sw)) s

end Sys2Proof.Machine
end

