-- ==== Sys2Proof/Machine/Member.lean ====
section
/-! DEFINITION. Membership of collective domains (R208, R322 to R328, R340, R345, R346, R502): joining, leaving,
proposals, announcements and epochs. -/

namespace Sys2Proof.Machine

/-! Domains. -/

/-- Does a domain count as enabled (R340)? -/
def State.domEnabled (s : State) (d : Nat) : Bool :=
  d < 16 && s.f .COLL_DOM_CFG_ENABLE d = 1 && (s.f .COLL_DOM_CFG_LINING d = 0 || s.f .COLL_DOM_CFG_EXPECT d = 2)

/-- The expected member count (R347). -/
def State.expected (s : State) (d : Nat) : Nat := natMin (natMax (s.f .COLL_DOM_CFG_EXPECT d) 1) 8192

/-- The domain number that a message's domain ID names. (DESIGN CHOICE, log 71.) -/
def State.domOf (s : State) (id : Nat) : Option Nat :=
  (List.range 16).find? (fun d => s.domEnabled d && s.domId d = id)

/-- The swatches of a domain: valid descriptors that name it (R322). -/
def State.domSwatches (s : State) (d : Nat) : List Nat :=
  (sortAsc (s.mem.st.sram.map (fun p => swatchAt p.1))).filter (fun k => s.desc k 6 5 = d && s.desc k 2 1 = 1)

/-- Steps of the domain's swatches that are open or wait for their boundary. -/
def State.openIn (s : State) (d : Nat) : List Nat := s.startedSws.filter (fun k => (s.sw k).domain = d)

/-- COLL_DOM_STATE.STATE of a member: awaiting state transfer, ALONE, or member (R347). -/
def State.memberState (s : State) (d : Nat) : Nat :=
  if (s.domSwatches d).any (fun k => s.run k = 6) then 6
  else if s.lining d && (s.dom d).members.length = 1 then 7 else 2

/-- Sets a bit of COLL_STATUS.MEMBER or HALTED. -/
def State.domBit (s : State) (n : FieldName) (d : Nat) (b : Bool) : State := s.setF n 0 (putBit (s.f n 0) d b)

/-- Sets COLL_DOM_STATE.STATE. -/
def State.setDomState (s : State) (d v : Nat) : State := s.setF .COLL_DOM_STATE_STATE d v

/-- The later of two epochs (R14); the first when they are unordered. -/
def laterEpoch (a b : Nat) : Nat := if isLater 32 b a then b else a

/-- Every place of the topology but this one (R319). -/
def State.allPlaces (s : State) : List Nat :=
  (List.range (8 * s.tsize 0 * s.tsize 1 * s.tsize 2)).filter (fun p => p ≠ s.place)

/-! Sending. -/

/-- JOIN goes to every place of the topology, and this module counts its own (R324, R325). -/
def State.sendJoin (s : State) (d : Nat) : State :=
  let v := s.dom d
  let s := s.setDom d { v with
    joins := (v.joins.filter (fun j => j.1 ≠ s.place)) ++ [(s.place, v.seen)], joinAt := s.now }
  let s := if s.isMember d then s else s.setDomState d 1
  s.allPlaces.foldl (fun t p => t.message d p 2 [(t.place, 2), (v.seen, 4)]) s

/-- The last committed step of a swatch; none counts where its state was lost, which is to come by state transfer (R211, R218,
R219). (DESIGN CHOICE, log 180.) -/
def State.lastStep (s : State) (k : Nat) : Nat := if (s.sw k).lostState then 0 else s.desc k 1856 64

/-- What this member announces: the last committed step of each swatch of the domain (R208, R324). -/
def State.lasts (s : State) (d : Nat) : List (Nat × Nat) := (s.domSwatches d).map (fun k => (k, s.lastStep k))

/-- The convener (R325): ring position 0 when it stays, else the next position that does; without an epoch the lowest
place that has sent JOIN. (DEDUCED, log 70.) -/
def State.convener (s : State) (d : Nat) : Option Nat :=
  let v := s.dom d
  match v.members.filter (fun p => !v.leaving.contains p) with
  | p :: _ => some p
  | [] => (sortAsc (v.joins.map Prod.fst)).head?

/-- Is this module the convener? -/
def State.convenes (s : State) (d : Nat) : Bool := s.convener d = some s.place

/-- The list that a proposal would carry. -/
def State.nextList (s : State) (d : Nat) : List Nat :=
  let v := s.dom d
  sortAsc ((v.members ++ v.joins.map Prod.fst).filter (fun p => !v.leaving.contains p))

/-! Adoption. -/

/-- Shard residuals return to +0 for a new epoch; each press that holds a replicated or owned span of the swatch counts it
once (R175). -/
def State.resetResiduals (s : State) (k m : Nat) : State :=
  let sts := sortAsc (((s.spans k).filter (fun p => spRole p.2 ≤ 1)).map (fun p => spPress p.2))
  sts.foldl (fun t st => t.tally .PRESS_RES_RESET st 1) (s.zeroResiduals k m)

/-- A swatch after an epoch change: one below the highest committed step waits for state transfer, a parked or halted one once
it is resumed; one that is level runs (R208). -/
def State.levelSwatch (s : State) (k high : Nat) : State :=
  let below := s.lastStep k < high
  let s := s.updSw k (fun r => { r with behind := below })
  if below then (if s.run k = 0 then s.setRun k 6 else s)
  else if s.run k = 6 then s.setRun k 0 else s

/-- A register write to COLL_DOM_CFG d comes into force. -/
def State.putDomCfg (s : State) (d v : Nat) : State :=
  (((s.setF .COLL_DOM_CFG_ID d (bitField v 0 32)).setF .COLL_DOM_CFG_ENABLE d (bitField v 32 1)).setF
    .COLL_DOM_CFG_LINING d (bitField v 33 1)).setF .COLL_DOM_CFG_EXPECT d (bitField v 34 14)

/-- This module enters an epoch (R325, step 5, R326). -/
def State.enter (s : State) (d : Nat) (a : Adopt) : State :=
  let v := s.dom d
  let ms := sortAsc a.list
  let s := match v.cfgDue with
    | some c => s.putDomCfg d c
    | none => s
  let s := s.setDom d { v with
    seen := a.epoch, members := ms
    joins := v.joins.filter (fun j => !ms.contains j.1)
    leaving := [], proposal := none, accepted := none, cfgDue := none, force := false
    haltedBy := if a.halt then some a else none
    reqs := [], colls := [], early := [], earlyTr := [], heardAt := []
    interval := a.sws.foldl (fun m x => FMap.set 0 m x.1 x.2.2.2) []
    source := a.sws.foldl (fun m x => FMap.set 0 m x.1 (x.2.2.1 + 1)) [] }
  let s := (s.setF .COLL_DOM_STATE_EPOCH d a.epoch).setF .COLL_DOM_STATE_MEMBERS d (ms.length - 1)
  let s := (s.setF .COLL_DOM_STATE_POSITION d (s.position d)).setF .COLL_DOM_SEQ_NEXT d 1
  let s := ((s.showOpen d).domBit .COLL_STATUS_MEMBER d true).domBit .COLL_STATUS_HALTED d a.halt
  let s := (s.domSwatches d).foldl (fun t k => t.resetResiduals k ms.length) s
  let s := a.sws.foldl (fun t x => t.levelSwatch x.1 x.2.1) s
  let s := s.setDomState d (if a.halt then 4 else s.memberState d)
  (s.tally .COLL_EPOCHS 0 1).interrupt 0 4

/-- An ADOPT's fields: epoch, list, HALT, then each swatch's highest step, source and interval (R324). -/
def Adopt.fields (a : Adopt) : List (Nat × Nat) :=
  [(a.epoch, 4), listField a.list, (flagBit a.halt, 1)]
    ++ a.sws.flatMap (fun x => [(x.1, 2), (x.2.1, 8), (x.2.2.1, 2), (x.2.2.2, 2)])

/-- An ADOPT reaches this module: a new epoch is entered; the same one again, with HALT clear, ends a halt (R326). -/
def State.takeAdopt (s : State) (d : Nat) (a : Adopt) : State :=
  if s.epoch d = a.epoch && s.isMember d then
    (if !a.halt && s.f .COLL_DOM_STATE_STATE d = 4 then
      let s := (s.setDom d { s.dom d with haltedBy := none }).domBit .COLL_STATUS_HALTED d false
      (s.setDomState d (s.memberState d)).interrupt 0 4
     else s)
  else s.enter d a

/-- The convener sends ADOPT to every listed module (R325). -/
def State.sendAdopt (s : State) (d : Nat) (a : Adopt) : State :=
  let s := (a.list.filter (fun p => p ≠ s.place)).foldl (fun t p => t.message d p 6 a.fields) s
  if a.list.contains s.place then s.takeAdopt d a else s

/-- The last committed steps announced of a swatch, by place. -/
def heardOf (p : Proposal) (k : Nat) : List (Nat × Nat) :=
  p.heard.filterMap (fun h => (h.2.find? (fun x => x.1 = k)).map (fun x => (h.1, x.2)))

/-- The ADOPT that a complete proposal gives: highest steps, sources, intervals, and HALT without a quorum (R208, R212,
R221, R326). -/
def State.adoptOf (s : State) (d : Nat) (p : Proposal) : Adopt :=
  let v := s.dom d
  let kept := (v.members.filter p.list.contains).length
  let quorum := v.members.length ≤ 2 || v.members.length < 2 * kept
  let ks := sortAsc (p.heard.flatMap (fun h => h.2.map Prod.fst))
  { epoch := p.epoch, list := p.list, halt := !quorum && !v.force
    sws := ks.map (fun k =>
      let l := heardOf p k
      let high := l.foldl (fun a x => natMax a x.2) 0
      let src := (sortAsc ((l.filter (fun x => x.2 = high)).map Prod.fst)).headD 0
      (k, high, src, s.desc k 28 16)) }

/-- When every listed module has announced, the convener adopts (R325, step 4). -/
def State.tryAdopt (s : State) (d : Nat) : State :=
  match (s.dom d).proposal with
  | none => s
  | some p =>
    if p.list.all (fun x => p.heard.any (fun h => h.1 = x)) then s.sendAdopt d (s.adoptOf d p) else s

/-- An ANNOUNCE is noted by the convener. -/
def State.noteAnnounce (s : State) (d epoch place : Nat) (l : List (Nat × Nat)) : State :=
  let v := s.dom d
  match v.proposal with
  | none => s
  | some p =>
    if p.epoch ≠ epoch || !p.list.contains place then s
    else
      let heard := (p.heard.filter (fun h => h.1 ≠ place)) ++ [(place, l)]
      (s.setDom d { v with proposal := some { p with heard := heard } }).tryAdopt d

/-- A module that has accepted a proposal announces once none of its steps of the domain is open (R325, step 2). -/
def State.tryAnnounce (s : State) (d : Nat) : State :=
  let v := s.dom d
  match v.accepted with
  | none => s
  | some a =>
    if a.announced || !(s.openIn d).isEmpty then s
    else
      let s := s.setDom d { v with accepted := some { a with announced := true, since := s.now } }
      if a.convener = s.place then s.noteAnnounce d a.epoch s.place (s.lasts d)
      else s.message d a.convener 5 ((a.epoch, 4) :: (s.lasts d).flatMap (fun x => [(x.1, 2), (x.2, 8)]))

/-- A module accepts a proposal: it opens no further step of the domain (R325). -/
def State.accept (s : State) (d epoch convener : Nat) (l : List Nat) : State :=
  let v := s.dom d
  let a : Accepted := { epoch := epoch, convener := convener, list := l, since := s.now, announced := false }
  ((s.setDom d { v with seen := epoch, accepted := some a }).setDomState d 3).tryAnnounce d

/-- The convener proposes a list under an epoch one later than the latest it has seen (R325, step 1). -/
def State.propose (s : State) (d : Nat) (l : List Nat) : State :=
  let v := s.dom d
  let e := (v.seen + 1) % 2 ^ 32
  let p : Proposal := { epoch := e, list := l, since := s.now, heard := [] }
  let s := s.setDom d { v with proposal := some p }
  let s := (l.filter (fun x => x ≠ s.place)).foldl (fun t x => t.message d x 4 [(e, 4), listField l]) s
  if l.contains s.place then s.accept d e s.place l else s.setDom d { s.dom d with seen := e }

/-- An epoch change starts when this module convenes and the list changes; a first epoch waits for the expected count
(R326, R327). Changes that come before ADOPT fold into a proposal of the new list. -/
def State.trigger (s : State) (d : Nat) : State :=
  let v := s.dom d
  let l := s.nextList d
  let changed := v.members ≠ l || !v.joins.isEmpty
  let again := match v.proposal with
    | some p => p.list ≠ l
    | none => true
  let enough := !v.members.isEmpty || s.expected d ≤ l.length || v.force
  if s.domEnabled d && s.convenes d && changed && again && enough && !l.isEmpty then s.propose d l else s

/-! Leaving. -/

/-- The WITHDRAW entry of a domain (R490, R502). -/
def State.withdrawEntry (s : State) (d cause : Nat) : State :=
  s.ledger 0x08 (s.domId d + 2 ^ 32 * s.epoch d + 2 ^ 64 * (cause % 256))

/-- This module leaves a domain: LEAVE to every member, a ledger entry, and the domain's state withdrawn (R207, R324,
R502). -/
def State.leaveDom (s : State) (d cause : Nat) : State :=
  if !s.isMember d then s
  else
    let v := s.dom d
    let s := (v.members.filter (fun p => p ≠ s.place)).foldl (fun t p =>
      t.message d p 3 [(t.epoch d, 4), (t.place, 2), (cause, 1)]) s
    let s := s.withdrawEntry d cause
    let s := s.setDom d { v with
      members := [], joins := [], leaving := [], proposal := none, accepted := none, leaveDue := false
      haltedBy := none, reqs := [], colls := [], early := [], earlyTr := [], cfgDue := none }
    let s := match v.cfgDue with
      | some c => s.putDomCfg d c
      | none => s
    let s := ((s.setF .COLL_DOM_STATE_EPOCH d 0).setF .COLL_DOM_STATE_MEMBERS d 0).setF .COLL_DOM_STATE_POSITION d 0
    let s := ((s.showOpen d).domBit .COLL_STATUS_MEMBER d false).domBit .COLL_STATUS_HALTED d false
    let s := s.setDomState d (if s.domEnabled d then 5 else 0)
    ((s.alert 3).interrupt 0 4).interruptAll 5

/-- A LEAVE waits for the last open step of the domain's swatches (R345). -/
def State.leaveWhenIdle (s : State) (d : Nat) : State :=
  if !s.isMember d then s
  else if (s.openIn d).isEmpty then s.leaveDom d (2 ^ causeWithdraw)
  else s.setDom d { s.dom d with leaveDue := true }

/-! The messages, by domain ID first (R324, R325). -/

/-- Does a message reach a module that serves its domains: at READY? -/
def State.serving (s : State) : Bool := s.f .HUB_BOOT_READY 0 = 1

/-- A membership message acts at a serving module for a domain it is enabled in. -/
def onDomain (fields : List Nat) (f : Nat → List Nat → State → State) (s : State) : State :=
  match s.domOf (fields.headD 0) with
  | none => s
  | some d => if s.serving then f d (fields.drop 1) s else s

/-- JOIN: place, latest epoch. -/
def joinMsg (d : Nat) (l : List Nat) (s : State) : State :=
  let v := s.dom d
  let p := l.getD 0 0
  (s.setDom d { v with
    seen := laterEpoch v.seen (l.getD 1 0)
    joins := (v.joins.filter (fun j => j.1 ≠ p)) ++ [(p, l.getD 1 0)]
    leaving := v.leaving.filter (fun x => x ≠ p) }).trigger d

/-- JOIN. -/
def execJoin (fields : List Nat) (s : State) : Host.Outcome State Fault Refusal :=
  act true (whenUp (onDomain fields joinMsg)) s

/-- LEAVE: epoch, place, cause. -/
def leaveMsg (d : Nat) (l : List Nat) (s : State) : State :=
  let v := s.dom d
  let p := l.getD 1 0
  let leaving := if v.members.contains p && !v.leaving.contains p then p :: v.leaving else v.leaving
  (s.setDom d { v with leaving := leaving, joins := v.joins.filter (fun j => j.1 ≠ p) }).trigger d

/-- LEAVE. -/
def execLeave (fields : List Nat) (s : State) : Host.Outcome State Fault Refusal :=
  act true (whenUp (onDomain fields leaveMsg)) s

/-- PROPOSE: epoch, convener's place, listed places. It is accepted when its epoch is later than every one seen, or at an
equal epoch comes from a lower place (R325). -/
def proposeMsg (d : Nat) (l : List Nat) (s : State) : State :=
  let v := s.dom d
  let e := l.getD 0 0
  let c := l.getD 1 0
  let lower := match v.accepted with
    | some a => a.epoch = e && c < a.convener
    | none => false
  if !(l.drop 2).contains s.place || !(isLater 32 e v.seen || lower) then s else s.accept d e c (l.drop 2)

/-- PROPOSE. -/
def execPropose (fields : List Nat) (s : State) : Host.Outcome State Fault Refusal :=
  act true (whenUp (onDomain fields proposeMsg)) s

/-- Pairs of a list. -/
def pairsOf : List Nat → List (Nat × Nat)
  | a :: b :: l => (a, b) :: pairsOf l
  | _ => []

/-- ANNOUNCE: epoch, place, then swatch and last committed step by turns. -/
def announceMsg (d : Nat) (l : List Nat) (s : State) : State :=
  let s := s.setDom d { s.dom d with seen := laterEpoch (s.dom d).seen (l.getD 0 0) }
  s.noteAnnounce d (l.getD 0 0) (l.getD 1 0) (pairsOf (l.drop 2))

/-- ANNOUNCE. -/
def execAnnounce (fields : List Nat) (s : State) : Host.Outcome State Fault Refusal :=
  act true (whenUp (onDomain fields announceMsg)) s

/-- Swatch, highest step, source and interval, by fours. -/
def quadsOf : List Nat → List (Nat × Nat × Nat × Nat)
  | a :: b :: c :: e :: l => (a, b, c, e) :: quadsOf l
  | _ => []

/-- ADOPT: epoch, HALT, how many places, the places, then each swatch's highest step, source and interval. It is acted on
by a module that has announced for its epoch, or that the epoch has halted. -/
def adoptMsg (d : Nat) (l : List Nat) (s : State) : State :=
  let n := l.getD 2 0
  let a : Adopt :=
    { epoch := l.getD 0 0, halt := l.getD 1 0 ≠ 0, list := (l.drop 3).take n, sws := quadsOf (l.drop (3 + n)) }
  let waits := match (s.dom d).accepted with
    | some x => x.epoch = a.epoch && x.announced
    | none => false
  if a.list.contains s.place && (waits || (s.epoch d = a.epoch && s.isMember d)) then s.takeAdopt d a else s

/-- ADOPT. -/
def execAdopt (fields : List Nat) (s : State) : Host.Outcome State Fault Refusal :=
  act true (whenUp (onDomain fields adoptMsg)) s

/-! Commands of the host (R326, R345, R346). -/

/-- REMOVE at the convener. -/
def State.removePlace (s : State) (d place : Nat) : State :=
  let v := s.dom d
  let leaving := if v.members.contains place && !v.leaving.contains place then place :: v.leaving else v.leaving
  (s.setDom d { v with leaving := leaving, joins := v.joins.filter (fun j => j.1 ≠ place) }).trigger d

/-- FORCE at the convener: a halted ADOPT goes again with HALT clear; a first epoch is proposed at once (R326). -/
def State.forceDom (s : State) (d : Nat) : State :=
  let v := s.dom d
  match v.haltedBy with
  | some a => s.sendAdopt d { a with halt := false }
  | none =>
    if v.members.isEmpty then (s.setDom d { v with force := true }).trigger d else s

/-- REMOVE and FORCE act at the convener, and are forwarded to it in a CMD message (R346). -/
def State.convenerCmd (s : State) (d op place : Nat) : State :=
  match s.convener d with
  | none => s
  | some c =>
    if c ≠ s.place then s.message d c 10 [(op, 1), (place, 2)]
    else if op = 3 then s.removePlace d place else s.forceDom d

/-- CMD: OP and PLACE. -/
def cmdMsg (d : Nat) (l : List Nat) (s : State) : State :=
  let op := l.getD 0 0
  if !s.convenes d then s
  else if op = 3 then s.removePlace d (l.getD 1 0) else if op = 4 then s.forceDom d else s

/-- CMD. -/
def execCmd (fields : List Nat) (s : State) : Host.Outcome State Fault Refusal :=
  act true (whenUp (onDomain fields cmdMsg)) s

/-- JOIN (R346): a module enabled in the domain that is no member asks to join. -/
def collJoin (d : Nat) (s : State) : State :=
  if s.domEnabled d && s.serving && !s.isMember d then (s.sendJoin d).trigger d else s

/-- COLL_CMD JOIN. -/
def execCollCmdJoin (d : Nat) (s : State) : Host.Outcome State Fault Refusal := act (d < 16) (whenUp (collJoin d)) s

/-- LEAVE (R346). -/
def collLeave (d : Nat) (s : State) : State := s.leaveWhenIdle d

/-- COLL_CMD LEAVE. -/
def execCollCmdLeave (d : Nat) (s : State) : Host.Outcome State Fault Refusal := act (d < 16) (whenUp (collLeave d)) s

/-- REMOVE and FORCE act at the convener (R346). -/
def collConvener (d op place : Nat) (s : State) : State := if s.domEnabled d then s.convenerCmd d op place else s

/-- COLL_CMD REMOVE. -/
def execCollCmdRemove (d place : Nat) (s : State) : Host.Outcome State Fault Refusal :=
  act (d < 16 && place < 8192) (whenUp (collConvener d 3 place)) s

/-- COLL_CMD FORCE. -/
def execCollCmdForce (d : Nat) (s : State) : Host.Outcome State Fault Refusal :=
  act (d < 16) (whenUp (collConvener d 4 0)) s

/-- A write to COLL_DOM_CFG d (R345): at once while the module is not a member, at the next epoch change while it is;
ENABLE = 0 acts as a LEAVE. Enabling a domain at a serving module sends JOIN. -/
def State.writeDomCfg (s : State) (d v : Nat) : State :=
  if s.isMember d then
    let s := s.setDom d { s.dom d with cfgDue := some v }
    if bitAt v 32 then s else s.leaveWhenIdle d
  else
    let was := s.domEnabled d
    let s := s.putDomCfg d v
    if !s.domEnabled d then
      (s.setDom d { s.dom d with joins := [], accepted := none, proposal := none }).setDomState d 0
    else if !was && s.serving then (s.sendJoin d).trigger d else s

/-! Timers (R325, R327). -/

/-- The convener strikes whoever has not announced within 100 ms, and proposes again. -/
def proposeRetry (d : Nat) (s : State) : State :=
  match (s.dom d).proposal with
  | none => s
  | some p =>
    if s.now - p.since < msec 100 || p.list.all (fun x => p.heard.any (fun h => h.1 = x)) then s
    else
      let v := s.dom d
      let silent := p.list.filter (fun x => !p.heard.any (fun h => h.1 = x) && x ≠ s.place)
      let stay := p.list.filter (fun x => !silent.contains x)
      let s := s.setDom d { v with
        leaving := v.leaving ++ silent.filter v.members.contains
        joins := v.joins.filter (fun j => !silent.contains j.1) }
      (s.tally .COLL_PROPOSE_RETRY 0 1).propose d stay

/-- PROPOSE_RETRY. -/
def execProposeRetry (d : Nat) (s : State) : Host.Outcome State Fault Refusal := act (d < 16) (whenUp (proposeRetry d)) s

/-- No ADOPT within 200 ms of the announcement: JOIN again, from the start. -/
def adoptTimeout (d : Nat) (s : State) : State :=
  match (s.dom d).accepted with
  | none => s
  | some a =>
    if !a.announced || s.now - a.since < msec 200 then s
    else ((s.setDom d { s.dom d with accepted := none, proposal := none }).sendJoin d).trigger d

/-- ADOPT_TIMEOUT. -/
def execAdoptTimeout (d : Nat) (s : State) : Host.Outcome State Fault Refusal := act (d < 16) (whenUp (adoptTimeout d)) s

/-- A candidate that has not entered an epoch sends JOIN again every 100 ms. -/
def joinResend (d : Nat) (s : State) : State :=
  if s.f .COLL_DOM_STATE_STATE d ≠ 1 || !s.domEnabled d || s.now - (s.dom d).joinAt < msec 100 then s
  else (s.sendJoin d).trigger d

/-- JOIN_RESEND. -/
def execJoinResend (d : Nat) (s : State) : Host.Outcome State Fault Refusal := act (d < 16) (whenUp (joinResend d)) s

/-- The convener strikes a withdrawn member that sent no LEAVE, once it has sent no trailer for 50 ms (R327).
(DESIGN CHOICE, log 72.) -/
def memberStrike (d place : Nat) (s : State) : State :=
  if s.convenes d && (s.dom d).members.contains place && place ≠ s.place
      && msec 50 ≤ s.now - FMap.get 0 (s.dom d).heardAt place then s.removePlace d place
  else s

/-- MEMBER_STRIKE. -/
def execMemberStrike (d place : Nat) (s : State) : Host.Outcome State Fault Refusal :=
  act (d < 16 && place < 8192) (whenUp (memberStrike d place)) s

end Sys2Proof.Machine
end

