-- ==== Sys2Proof/Machine/Agree.lean ====
section
/-! DEFINITION. Replica agreement after a mismatch, and state transfer (R211 to R221). -/

namespace Sys2Proof.Machine

/-! Localisation (R216). Its sequences run in class C1, of phases 7 roots, 8 span roots, 9 leaf digests, 10 block digests,
11 covered bytes; 12 to 14 the spans, leaves and blocks that an odd member has noted. (DESIGN CHOICE, log 78.) -/

/-- HUB_AGREE_STATUS shows the procedure and its swatch (R224). -/
def State.showAgree (s : State) (k v : Nat) : State :=
  (s.setF .HUB_AGREE_STATUS_STATE 0 v).setF .HUB_AGREE_STATUS_SWATCH 0 k

/-- An AGREE entry: action 0 rebuild, 1 repair, 2 halt; swatch, span, blocks (R490). (DESIGN CHOICE, log 76.) -/
def State.agreeEntry (s : State) (k action span blocks : Nat) : State :=
  s.ledger 0x0C (action + 2 ^ 8 * k + 2 ^ 24 * span + 2 ^ 40 * (blocks % 2 ^ 32))

/-- Has the swatch's step failed with MM = 1, so that its boundary waits for localisation (R216)? -/
def State.disagrees (s : State) (k : Nat) : Bool :=
  let r := s.sw k
  let mm := match r.final with
    | some f => f.mm && !f.v
    | none => false
  r.started && mm && !s.alone k

/-- The value held by more than half of a list, if there is one. -/
def majorityOf (l : List Nat) : Option Nat := l.find? (fun x => l.length < 2 * (l.filter (fun y => y = x)).length)

/-- A sequence of swatch `k`'s localisation goes to a ring position; `x` stands with the swatch in the header's first block. -/
def State.sendAgree (s : State) (k pos phase shard x : Nat) (bs : List Byte) : State :=
  let d := (s.sw k).domain
  s.sendData d ((s.members k).getD pos 0) (s.doneSeq d) phase shard (k + 65536 * x) bs

/-- The numbers of `w` bytes of such a sequence that has come in. -/
def State.agreeIn (s : State) (k phase shard x w : Nat) : Option (List Nat) :=
  ((s.dom (s.sw k).domain).incoming.find? (fun p =>
    p.1 = k + 65536 * x && p.2.phase = phase && p.2.shard = shard)).map (fun p =>
      (List.range (p.2.data.length / w)).map (fun i =>
        leNat (((p.2.data.drop (w * i)).take w).map (BitVec.ofNat 8))))

/-- What came in for a swatch's localisation is over with its boundary. -/
def State.clearAgree (s : State) (k : Nat) : State :=
  let d := (s.sw k).domain
  if 16 ≤ d then s
  else s.setDom d { s.dom d with incoming := (s.dom d).incoming.filter (fun p => !(p.1 % 65536 = k && 7 ≤ p.2.phase)) }

/-- All values of a list of options, or none. -/
def allSome {α : Type} : List (Option α) → Option (List α)
  | [] => some []
  | none :: _ => none
  | some a :: l => (allSome l).map (fun x => a :: x)

/-- This member's ring position. -/
def State.myPos (s : State) (k : Nat) : Nat := (s.members k).findIdx (fun p => p = s.place)

/-- Is this member the reference of swatch `k`'s localisation? -/
def State.isReference (s : State) (k : Nat) : Bool := s.myPos k = (s.sw k).refPos

/-- The digest area of a swatch. -/
def State.treeRange (s : State) (k : Nat) : List (Nat × Nat) :=
  if s.desc k 768 52 = 0 then [] else [(s.desc k 768 52, s.treeBytes k)]

/-- The records of the replicated spans. -/
def State.treeReads (s : State) (k : Nat) : List (Nat × Nat) := (s.replicated k).map (fun i => s.recRange k (s.span k i))

/-- Step 2 of R216: the majority, the reference and the odd members. A member that holds the majority root and is not the
reference takes no further part. -/
def State.findMajority (s : State) (k : Nat) (roots : List Nat) : State :=
  let m := (s.members k).length
  let me := s.myPos k
  match (if s.lining (s.sw k).domain then none else majorityOf roots) with
  | none => s.updSw k (fun r => { r with stage := 4, majority := false })
  | some x =>
    let ref := roots.findIdx (fun y => y = x)
    let odd := (List.range m).filter (fun i => roots.getD i 0 ≠ x)
    let takes := odd.contains me || (me = ref && m ≤ 16)
    let stage := if !takes then 5 else if 16 < m then 4 else 1
    let s := s.updSw k (fun r => { r with stage := stage, majority := true, refPos := ref, odd := odd })
    if stage = 5 then s.showAgree k 0 else s

/-- Step 1: the members all-gather their swatch roots; with every root here the majority is sought. -/
def State.gatherRoots (s : State) (k : Nat) : State :=
  let m := (s.members k).length
  let me := s.myPos k
  let s := if (s.sw k).rootSent then s
    else (((List.range m).filter (fun p => p ≠ me)).foldl (fun t p => t.sendAgree k p 7 me 0 (leBytes (s.stored k 0) 32)) s).updSw k
      (fun r => { r with rootSent := true })
  match allSome ((List.range m).map (fun p =>
    if p = me then some (s.stored k 0) else (s.agreeIn k 7 p 0 32).map (fun l => l.headD 0))) with
  | none => s
  | some roots => s.findMajority k roots

/-- This member's part in a localisation has ended. -/
def State.agreeEnd (s : State) (k : Nat) : State := (s.updSw k (fun r => { r with stage := 5 })).showAgree k 0

/-- A unit of 64 B in a stack that a stage could not read (R210): what it reads as is open, the base die and the owner's step
take note of it. (DESIGN CHOICE, log 78.) -/
def State.spoil (s : State) (a : Nat) : State :=
  let b := a / 65536
  let o := a % 65536 / 64 * 64
  let e := s.dirE b
  if e.state = 0 || e.tier ≠ 1 then s
  else
    let s := s.use
    let t := s.setStores (s.mem.st.write (s.placeOf 1 e.home e.owner o) (leBytes (Config.freeValue 512 s.mem.tick).toNat 64))
    (t.baseUncorr (t1Stack e.home) (t1Slot e.home) (o / 256) (o % 256 / 64)).uncorrBolt b o 64 .stack (t1Stack e.home)

/-- Those of some addresses that lie in what localisation reads. -/
def State.spoilAll (s : State) (k : Nat) (bad : List Nat) : State :=
  (bad.filter (fun a => (s.treeRange k ++ s.treeReads k).any (fun r => r.1 ≤ a && a < r.1 + r.2))).foldl State.spoil s

/-- The reference sends a sequence to every odd member. -/
def State.toOdd (s : State) (k phase shard x : Nat) (bs : List Byte) : State :=
  (s.sw k).odd.foldl (fun t p => t.sendAgree k p phase shard x bs) s

/-- What every odd member has noted, once all have: the numbers of `w` bytes, each once, ascending. -/
def State.notes (s : State) (k phase w : Nat) : Option (List Nat) :=
  (allSome ((s.sw k).odd.map (fun p => s.agreeIn k phase p 0 w))).map (fun l => sortAsc l.flatten)

/-- A noted leaf or block: its span in bits 15:0, its number above. -/
def noteBytes (l : List (Nat × Nat)) : List Byte := l.flatMap (fun p => leBytes (p.1 + 65536 * p.2) 6)

/-- Form W of a span's group. -/
def State.spanWide (s : State) (k i : Nat) : Bool := gWide (s.group k (spGroup (s.span k i)))

/-- A stage of the reference (R216, steps 4 to 6): it sends what the stage asks for, as the odd members have noted. -/
def State.referStage (s : State) (k : Nat) : State :=
  let r := s.sw k
  if r.stage = 1 then
    (s.toOdd k 8 0 0 ((s.replicated k).flatMap (fun i => leBytes (s.storedSpan k i) 32))).updSw k (fun x => { x with stage := 2 })
  else if r.stage = 2 then
    match s.notes k 12 2 with
    | none => s
    | some [] => s.agreeEnd k
    | some l =>
      (l.foldl (fun t i => t.toOdd k 9 i 0 ((List.range (leafCount (s.spanWide k i) (s.span k i))).flatMap (fun x =>
        leBytes (s.storedLeaf k i x) 32))) s).updSw k (fun x => { x with stage := 3, oddSpans := l })
  else
    match s.notes k 13 6 with
    | none => s
    | some [] => s.agreeEnd k
    | some l => s.engineAs k (s.treeReads k) [] true (fun s =>
      ((l.foldl (fun t n =>
        let i := n % 65536
        t.toOdd k 10 i (n / 65536) ((leafBlocks (s.spanWide k i) (s.span k i) (n / 65536)).flatMap (fun b =>
          s.blockDigest (s.spanWide k i) (s.span k i) i b))) s).updSw k (fun x =>
            { x with stage := 4, oddLeaves := l.map (fun n => (n % 65536, n / 65536)) })).showAgree k 2)

/-- An odd member tells the reference what it has noted in a stage. -/
def State.sendNote (s : State) (k phase : Nat) (bs : List Byte) : State := s.sendAgree k (s.sw k).refPos phase (s.myPos k) 0 bs

/-- Differences that cannot be traced to a block lie in the tree: the odd member rebuilds it, and reports each span (R217). -/
def State.rebuildTree (s : State) (k : Nat) (spans : List Nat) : State :=
  let step := bitField (s.devNat (s.desc k 768 52) 64) 64 64
  spans.foldl (fun t i => t.agreeEntry k 0 i 0) (s.storeTree k step)

/-- An odd member with nothing left to compare rebuilds its tree, once the records are served, and is done; the notes of the
stages from `phase` on are empty. -/
def State.rebuildEnd (s : State) (k phase : Nat) (spans : List Nat) : State :=
  (s.showAgree k 2).engineAs k (s.treeReads k) (s.treeRange k) true (fun s =>
    (((List.range (15 - phase)).foldl (fun t i => t.sendNote k (phase + i) []) s).rebuildTree k spans).agreeEnd k)

/-- A stage of an odd member: it notes what differs from its own. Spans that differ without a leaf that does, and leaves
without a block, lie in its tree (R217). -/
def State.oddStage (s : State) (k : Nat) : State :=
  let r := s.sw k
  if r.stage = 1 then
    match s.agreeIn k 8 0 0 32 with
    | none => s
    | some roots =>
      let l := (((s.replicated k).zip roots).filter (fun p => s.storedSpan k p.1 ≠ p.2)).map Prod.fst
      if l.isEmpty then s.rebuildEnd k 12 [0]
      else (s.sendNote k 12 (l.flatMap (fun i => leBytes i 2))).updSw k (fun x => { x with stage := 2, oddSpans := l })
  else if r.stage = 2 then
    match allSome (r.oddSpans.map (fun i => (s.agreeIn k 9 i 0 32).map (fun l => (i, l)))) with
    | none => s
    | some ins =>
      let l := ins.flatMap (fun p => (p.2.zipIdx.filter (fun x => s.storedLeaf k p.1 x.2 ≠ x.1)).map (fun x => (p.1, x.2)))
      let untraced := r.oddSpans.filter (fun i => !l.any (fun p => p.1 = i))
      if l.isEmpty then s.rebuildEnd k 13 untraced
      else ((untraced.foldl (fun t i => t.agreeEntry k 0 i 0) s).sendNote k 13 (noteBytes l)).updSw k (fun x =>
        { x with stage := 3, oddLeaves := l })
  else
    match allSome (r.oddLeaves.map (fun p => (s.agreeIn k 10 p.1 p.2 16).map (fun l => (p, l)))) with
    | none => s
    | some ins => s.engineAs k (s.treeReads k) [] true (fun s =>
      let l := ins.flatMap (fun p =>
        let v := s.span k p.1.1
        let wide := s.spanWide k p.1.1
        (((leafBlocks wide v p.1.2).zip p.2).filter (fun x => leNat (s.blockDigest wide v p.1.1 x.1) ≠ x.2)).map (fun x =>
          (p.1.1, x.1)))
      let untraced := (sortAsc (r.oddLeaves.map Prod.fst)).filter (fun i => !l.any (fun p => p.1 = i))
      if l.isEmpty then s.rebuildEnd k 14 untraced
      else (((untraced.foldl (fun t i => t.agreeEntry k 0 i 0) s).sendNote k 14 (noteBytes l)).updSw k (fun x =>
        { x with stage := 4, oddBlocks := l })).showAgree k 2)

/-- A stage of localisation (R216): the roots are gathered, then the reference and the odd members narrow the difference
down, each as what it needs has come in and the digest area is served. -/
def agreeStage (k : Nat) (s : State) : State :=
  (s.showAgree k 1).engineAs k (s.treeRange k) [] true (fun s =>
    if (s.sw k).stage = 0 then s.gatherRoots k
    else if s.isReference k then s.referStage k else s.oddStage k)

/-- A stage while localisation lasts; `bad`: addresses that it could not read. -/
def agreeLocalise (k : Nat) (bad : List Nat) (s : State) : State :=
  if !s.disagrees k || 4 ≤ (s.sw k).stage then s else agreeStage k (s.spoilAll k bad)

/-- AGREE_LOCALISE. -/
def execAgreeLocalise (k : Nat) (bad : List Nat) (s : State) : Host.Outcome State Fault Refusal :=
  act (k < 65536) (whenUp (agreeLocalise k bad)) s

/-! Repair (R218, R219). -/

/-- The swatch halts (R218, R350): it runs no more until the host restores it; the digest area says so. -/
def State.haltDisagree (s : State) (k : Nat) : State :=
  let a := s.desc k 768 52
  let s := if a = 0 then s else s.putDevNat a (setBits (s.devNat a 64) 2 2 2) 64
  let s := ((s.setRun k 4).raise .HUB_AGREE_STATUS_HALT_SEEN 0).showAgree k 3
  (s.agreeEntry k 2 0 0).updSw k (fun r => { r with stage := 5 })

/-- The module withdraws with cause DISAGREE, and joins again by state transfer after a fitting run (R218, R219, R327). -/
def State.withdrawDisagree (s : State) (k : Nat) : State :=
  (((s.raise .HUB_AGREE_STATUS_WITHDRAW_SEEN 0).withdrawAgain (2 ^ causeDisagree) 2).updSw k (fun r =>
    { r with lostState := true })).agreeEnd k

/-- One differing block is written from the reference's covered bytes; error terms and reserved bytes are zero, and its
working and scale planes follow (R181, R218). -/
def State.repairBlock (s : State) (k span b covered : Nat) : State :=
  let v := s.span k span
  let wide := gWide (s.group k (spGroup v))
  let s := s.putDev (recAt wide v b) (leBytes covered (recCovered wide) ++ fillBytes (recSize wide - recCovered wide) 0)
  (s.putWork v b (s.masters wide v b)).tally .HUB_AGREE_REPAIR 0 1

/-- An odd member is repaired from the reference's (span, block, covered bytes), and withdraws when that has happened twice in
its 16 latest compared steps (R218, R219). -/
def State.repair (s : State) (k : Nat) (l : List (Nat × Nat × Nat)) : State :=
  let s := l.foldl (fun t p => t.repairBlock k p.1 p.2.1 p.2.2) s
  let s := s.storeTree k (bitField (s.devNat (s.desc k 768 52) 64) 64 64)
  let s := (sortAsc (l.map Prod.fst)).foldl (fun t i =>
    t.agreeEntry k 1 i ((l.filter (fun p => p.1 = i)).length)) s
  let s := (s.updSw k (fun r => { r with repairs := true :: r.repairs.drop 1 })).agreeEnd k
  if 2 ≤ ((s.sw k).repairs.filter id).length then s.withdrawDisagree k else s

/-- What a repair of some blocks writes. -/
def State.repairWrites (s : State) (k : Nat) (l : List (Nat × Nat)) : List (Nat × Nat) :=
  l.map (fun p => (recAt (s.spanWide k p.1) (s.span k p.1) p.2, recSize (s.spanWide k p.1)))
    ++ (sortAsc (l.map Prod.fst)).flatMap (fun i => spWorkRanges (s.span k i)) ++ s.treeRange k

/-- The end of localisation (R218): a halt without a majority or in a lining pair; a withdrawal of the odd members of more
than 16; else the reference sends the covered bytes of every differing block, and an odd member writes its own once they are
here. -/
def agreeMend (k : Nat) (s : State) : State :=
  let r := s.sw k
  if !r.majority then s.haltDisagree k
  else if 16 < (s.members k).length then s.withdrawDisagree k
  else if s.isReference k then
    match s.notes k 14 6 with
    | none => s
    | some l => s.engineAs k (s.treeReads k) [] true (fun s =>
      (l.foldl (fun t n =>
        let i := n % 65536
        t.toOdd k 11 i (n / 65536) (s.covered (s.spanWide k i) (s.span k i) (n / 65536))) s).agreeEnd k)
  else
    match allSome (r.oddBlocks.map (fun p => (s.agreeIn k 11 p.1 p.2 (recCovered (s.spanWide k p.1))).map (fun l =>
      (p.1, p.2, l.headD 0)))) with
    | none => s
    | some l => s.engineAs k (s.treeReads k) (s.repairWrites k r.oddBlocks) true (fun s => s.repair k l)

/-- The end of localisation, once it is over; `bad`: addresses that could not be read. -/
def agreeRepair (k : Nat) (bad : List Nat) (s : State) : State :=
  if !s.disagrees k || (s.sw k).stage ≠ 4 then s else agreeMend k (s.spoilAll k bad)

/-- AGREE_REPAIR. -/
def execAgreeRepair (k : Nat) (bad : List Nat) (s : State) : Host.Outcome State Fault Refusal :=
  act (k < 65536) (whenUp (agreeRepair k bad)) s

/-! State transfer (R221). -/

/-- The press-written fields of a group descriptor (R167): number, STEP, B1POW, B2POW, ROWS_SKIPPED, BLOCKS_CLIPPED. -/
def groupFields (i g : Nat) : List Byte :=
  leBytes i 4 ++ leBytes (gStep g) 8 ++ leBytes (bitField g 352 32) 4 ++ leBytes (bitField g 384 32) 4
    ++ leBytes (bitField g 32 32) 4 ++ leBytes (bitField g 416 32) 4

/-- Writes them back. -/
def State.putGroupFields (s : State) (k : Nat) (bs : List Byte) : State :=
  let n (o w : Nat) : Nat := leNat ((bs.drop o).take w)
  let a := s.desc k 448 52 + 128 * n 0 4
  let g := setBits (s.devNat a 128) 64 64 (n 4 8)
  let g := setBits (setBits g 352 32 (n 12 4)) 384 32 (n 16 4)
  s.putDevNat a (setBits (setBits g 32 32 (n 20 4)) 416 32 (n 24 4)) 128

/-- The bolts of a swatch's group table that are allocated. -/
def State.groupTable (s : State) (k : Nat) : List (Nat × Nat) :=
  ((boltsOf (s.desc k 448 52) 524288).filter (fun b => (s.dirE b).state ≠ 0)).map (fun b => (65536 * b, 1))

/-- The source sends, as committed at a boundary, the covered bytes of every replicated span and the fields of every group
descriptor to every other member, and again after each later commit (R221). (DEDUCED, log 61.) -/
def stateTransferSend (d k : Nat) (s : State) : State :=
  let v := s.dom d
  let last := s.desc k 1856 64
  if FMap.get 0 v.source k ≠ s.place + 1 || !s.isMember d || !s.idle k || FMap.get 0 v.sent k = last + 1 then s
  else
    let dests := v.members.filter (fun p => p ≠ s.place)
    s.engine k (s.treeReads k ++ s.groupTable k) [] (fun s =>
    let s := (s.replicated k).foldl (fun t i =>
      let x := t.span k i
      let wide := gWide (t.group k (spGroup x))
      let bs := (List.range (spBlocks x)).flatMap (t.covered wide x)
      dests.foldl (fun u p => u.sendData d p (u.doneSeq d) 4 i k bs) t) s
    let fields := leBytes last 8 ++ (List.range 4096).flatMap (fun i => groupFields i (s.group k i))
    let s := dests.foldl (fun u p => u.sendData d p (u.doneSeq d) 5 0 k fields) s
    s.setDom d { s.dom d with sent := FMap.set 0 (s.dom d).sent k (last + 1) })

/-- STATE_TRANSFER_SEND. -/
def execStateTransferSend (d k : Nat) (s : State) : Host.Outcome State Fault Refusal :=
  act (d < 16 && k < 65536) (whenUp (stateTransferSend d k)) s

/-- The bytes received of a transfer's part: phase 4 for a span, phase 5 for the groups. -/
def State.transferred (s : State) (d k phase shard : Nat) : Option (List Byte) :=
  ((s.dom d).incoming.find? (fun p => p.1 = k && p.2.phase = phase && p.2.shard = shard)).map
    (fun p => p.2.data.map (BitVec.ofNat 8))

/-- The blocks of a span are written from the transfer, error terms and reserved bytes zero (R221, step 3). -/
def State.installSpan (s : State) (d k i : Nat) : State :=
  let v := s.span k i
  let wide := gWide (s.group k (spGroup v))
  let bs := (s.transferred d k 4 i).getD []
  let s := (List.range (spBlocks v)).foldl (fun t b =>
    t.putDev (recAt wide v b) ((bs.drop (recCovered wide * b)).take (recCovered wide)
      ++ fillBytes (recSize wide - recCovered wide) 0)) s
  s.rebuildWork k v

/-- What the receiver of a state transfer writes. -/
def State.transferWrites (s : State) (d k : Nat) : List (Nat × Nat) :=
  s.treeReads k ++ (s.replicated k).flatMap (fun i => spWorkRanges (s.span k i)) ++ s.groupTable k
    ++ ((s.spans k).filter (fun p => spRole p.2 ≤ 1)).map (fun p =>
      (spRes p.2, 128 * resLen p.2 (s.dom d).members.length))

/-- The receiver, holding every block as of a boundary, writes them, rebuilds its planes, clears its residuals and joins
under a new epoch (R221). (DEDUCED, log 79.) -/
def stateTransferDone (d k : Nat) (s : State) : State :=
  let whole := (s.replicated k).all (fun i =>
    let v := s.span k i
    ((s.transferred d k 4 i).map List.length)
      = some (spBlocks v * recCovered (gWide (s.group k (spGroup v)))))
  match s.transferred d k 5 0 with
  | none => s
  | some fs =>
    if s.run k ≠ 6 || !whole || !s.isMember d then s
    else s.engine k [] (s.transferWrites d k) (fun s =>
      let s := (s.replicated k).foldl (fun t i => t.installSpan d k i) s
      let s := (s.zeroResiduals k (s.dom d).members.length).setDesc k 1856 64 (leNat (fs.take 8))
      let s := (List.range ((fs.length - 8) / 28)).foldl (fun t j =>
        t.putGroupFields k ((fs.drop (8 + 28 * j)).take 28)) s
      let s := s.setDom d { s.dom d with incoming := (s.dom d).incoming.filter (fun p => p.1 ≠ k) }
      let s := s.updSw k (fun r => { r with behind := false, lostState := false })
      (s.sendJoin d).trigger d)

/-- STATE_TRANSFER_DONE. -/
def execStateTransferDone (d k : Nat) (s : State) : Host.Outcome State Fault Refusal :=
  act (d < 16 && k < 65536) (whenUp (stateTransferDone d k)) s

end Sys2Proof.Machine
end

