-- ==== Sys2Proof/Machine/Clock.lean ====
section
/-! DEFINITION. Clocks, the root PLL, the pass gate, the array rail and the power limit (R337 to R339, R433 to R445). -/

namespace Sys2Proof.Machine

/-! Domains (R433): 0 ARRAY, 1 FABRIC, 2 VECTOR, 3 HBMC, 4 CTRL. -/

/-- The nominal divider of a domain. -/
def nominalDiv (d : Nat) : Nat := if d = 0 then 8 else if d = 3 then 5 else if d = 4 then 12 else 4

/-- The divider in force of a domain. -/
def Clk.div (c : Clk) (d : Nat) : Nat :=
  if d = 0 then c.array else if d = 1 then c.fabric else if d = 2 then c.vector else if d = 3 then c.hbmc else c.ctrl

/-- Writes it. -/
def Clk.setDiv (c : Clk) (d v : Nat) : Clk :=
  if d = 0 then { c with array := v } else if d = 1 then { c with fabric := v } else if d = 2 then { c with vector := v }
  else if d = 3 then { c with hbmc := v } else { c with ctrl := v }

/-- Does every domain stand at its nominal divider? -/
def Clk.atNominal (c : Clk) : Bool := c.array = 8 && c.fabric = 4 && c.vector = 4 && c.hbmc = 5 && c.ctrl = 12

/-- Does every domain stand at twice its nominal divider? -/
def Clk.atDouble (c : Clk) : Bool := c.array = 16 && c.fabric = 8 && c.vector = 8 && c.hbmc = 10 && c.ctrl = 24

/-- A ramp of every domain begins: each divider in force is held from now on (R437, R438). -/
def Clk.ramp (c : Clk) (up : Bool) (now : Nat) : Clk := { c with up := up, held := (List.range 5).map (fun d => (d, now)) }

/-- Replaces the clocks. -/
def State.setClk (s : State) (c : Clk) : State := { s with clk := c }

/-- The role and the source port of the pattern in force (R337, R473). -/
def State.recovers (s : State) : Bool := s.f .CLK_STATUS_ROLE 0 = 2
/-- The clock source port. -/
def State.sourcePort (s : State) : Nat := s.f .CLK_STATUS_PORT 0

/-- The depth of a module not locked to a source (R337, R442). (DESIGN CHOICE, log 84.) -/
def State.freeDepth (s : State) : Nat := if s.f .CLK_STATUS_ROLE 0 = 1 then 0 else 31

/-- A message to the peer of a link; the domain ID of such a message is 0 (R324, R337). -/
def State.linkMessage (s : State) (p code : Nat) (fields : List (Nat × Nat)) : State :=
  (s.emit (.message (s.f .SEAM_STATUS_PEER_PLACE p) code (fields.map Prod.fst))).sendBytes p 2 0 false
    (s.f .SEAM_STATUS_PEER_PLACE p) 0 (msgBytes code 0 fields)

/-- CLKSTAT to every link peer (R337). -/
def State.sendClkstat (s : State) : State := s.portsUp.foldl (fun t p => t.linkMessage p 9 [(t.clk.depth, 1)]) s

/-- The module's depth; a change is reported (R337). -/
def State.setDepth (s : State) (d : Nat) : State :=
  if s.clk.depth = d then s else (s.setClk { s.clk with depth := d }).sendClkstat

/-- One divider step of a domain (R437, R438): after 256 cycles at the divider in force, toward nominal or twice that. A
cycle at divider d lasts d root cycles, and the timestamp counts one in four. -/
def dividerStep (d : Nat) (s : State) : State :=
  let c := s.clk
  let v := c.div d
  let n := if c.up then 2 * nominalDiv d else nominalDiv d
  if v = n || s.now < FMap.get 0 c.held d + 64 * v then s
  else s.setClk { c.setDiv d (if v < n then v + 1 else v - 1) with held := FMap.insert c.held d s.now }

/-- DIVIDER_STEP. -/
def execDividerStep (d : Nat) (s : State) : Host.Outcome State Fault Refusal := actAll (d < 5) (whenPowered (dividerStep d)) s

/-! The pass gate and the array rail (R434, R437, R440). -/

/-- The highest P of a voltage level (R440). -/
def levelBound (l : Nat) : Nat := if l = 0 then 60 else if l = 1 then 100 else if l = 2 then 112 else 120

/-- The lowest level whose highest P is at or above `p`. -/
def levelOf (p : Nat) : Nat := if p ≤ 60 then 0 else if p ≤ 100 then 1 else if p ≤ 112 then 2 else 3

/-- The ceiling of P of the grade in force (R434, R474). -/
def State.passMax (s : State) : Nat := natMax 60 (natMin 120 (s.f .PWR_GRADE_PASS_MAX 0))

/-- Does pulse `i` of 120 pass the gate at `p` (R434)? -/
def pulsePasses (p i : Nat) : Bool := i * p / 120 < (i + 1) * p / 120

/-- P moves by one toward the target after 256 ARRAY cycles; a rise above the level's bound first raises the voltage, and
a fall lowers the voltage after it. An ARRAY cycle takes, on the mean, 120 / P divided pulses. (DEDUCED, log 82.) -/
def passStep (s : State) : State :=
  let c := s.clk
  if c.pass = c.target || s.now < c.passAt + 7680 * c.array / natMax c.pass 1 then s
  else if c.target < c.pass then
    s.setClk { c with pass := c.pass - 1, passAt := s.now, level := levelOf (c.pass - 1), rising := false }
  else if c.pass + 1 ≤ levelBound c.level then s.setClk { c with pass := c.pass + 1, passAt := s.now }
  else s.setClk { c with rising := true }

/-- PASS_STEP. -/
def execPassStep (s : State) : Host.Outcome State Fault Refusal := actAll true (whenPowered passStep) s

/-- The rail comes within 10 mV of the raised level (R440). -/
def voltageSettled (s : State) : State :=
  if s.clk.rising && s.clk.level < 3 then s.setClk { s.clk with rising := false, level := s.clk.level + 1 } else s

/-- VOLTAGE_SETTLED. -/
def execVoltageSettled (s : State) : Host.Outcome State Fault Refusal := actAll true (whenPowered voltageSettled) s

/-! The power limit (R441). -/

/-- The power limit in force, in W (R441, R474). -/
def State.powerLimit (s : State) : Nat :=
  let w := s.f .PWR_CFG_LIMIT_W 0
  let g := s.f .PWR_GRADE_GRADE_W 0
  if w = 0 || g < w then g else w

/-- P falls at once by 20 after one sample far above the limit. -/
def Clk.cut (c : Clk) (now : Nat) : Clk :=
  let p := natMax 60 (c.pass - 20)
  { c with pass := p, passAt := now, target := natMax 60 (natMin c.target p), level := levelOf p, rising := false }

/-- The target moves by 4, down to 60 or up to the ceiling. -/
def Clk.aim (c : Clk) (v : Nat) : Clk := { c with target := natMax 60 (natMin 120 v) }

/-- P is held below the ceiling by the limit: LIMITING with its flag, its SMBus cause and its count of ms. -/
def State.showLimit (s : State) (cut : Bool) : State :=
  let n := if s.clk.target < s.passMax && (cut || s.f .PWR_STATUS_LIMITING 0 = 1) then s.pwr.limiting + 1 else 0
  let s := { s with pwr := { s.pwr with limiting := n } }
  if n = 0 then s.setF .PWR_STATUS_LIMITING 0 0
  else
    let s := if s.f .PWR_STATUS_LIMITING 0 = 0 then
        ((s.raise .PWR_STATUS_LIMITING 0).raise .PWR_STATUS_LIMIT_SEEN 0).alert 2
      else s
    if n % 10 = 0 then s.tally .PWR_LIMIT_MS 0 1 else s

/-- At P = 60 the mean stays over the limit for 100 ms: FLOOR_SEEN and a ledger entry. -/
def State.noteFloor (s : State) (mean : Nat) : State :=
  (s.raise .PWR_STATUS_FLOOR_SEEN 0).ledger 0x0D (s.powerLimit + 2 ^ 16 * (mean % 2 ^ 32))

/-- A sample of input voltage (mV) and power (0.1 W), every 100 µs (R441): the limiter's conditions are counted in
samples, 10 to a ms. (DEDUCED, log 81.) -/
def powerSample (mv dw : Nat) (s : State) : State :=
  let l := 10 * s.powerLimit
  let xs := (dw :: s.pwr.samples).take 100
  let sum := xs.foldl (· + ·) 0
  let full := decide (xs.length = 100)
  let above := full && l * 100 < sum
  let under := full && 100 * sum < 95 * l * 100
  let nOver := if above then s.pwr.above + 1 else 0
  let nUnder := if under then s.pwr.under + 1 else 0
  let nFloor := if above && s.clk.pass = 60 then s.pwr.floor + 1 else 0
  let fast := 115 * l < 100 * dw
  let s := (s.setF .PWR_INPUT_MV 0 mv).setF .PWR_INPUT_DW 0 (sum / natMax xs.length 1)
  let s := { s with pwr := { s.pwr with samples := xs, above := nOver, under := nUnder, floor := nFloor } }
  let s := if fast then (s.setClk (s.clk.cut s.now)).tally .PWR_FAST 0 1 else s
  let slow := nOver ≠ 0 && nOver % 10 = 0
  let s := if slow then s.setClk (s.clk.aim (natMin s.clk.target s.clk.pass - 4)) else s
  let s := if 1000 ≤ nUnder && nUnder % 100 = 0 then s.setClk (s.clk.aim (natMin s.passMax (s.clk.target + 4))) else s
  let s := s.showLimit (fast || slow)
  if nFloor = 1000 then s.noteFloor (sum / 100) else s

/-- POWER_SAMPLE. -/
def execPowerSample (mv dw : Nat) (s : State) : Host.Outcome State Fault Refusal :=
  actAll (mv < 65536 && dw < 2 ^ 32) (whenUp (powerSample mv dw)) s

/-! The root (R442 to R445). -/

/-- Do the conditions of an acquisition hold (R444)? -/
def State.canAcquire (s : State) : Bool :=
  s.recovers && s.clk.root = .atLocal && s.portUp s.sourcePort && s.f .SEAM_STATUS_PEER_DEPTH s.sourcePort ≤ 29

/-- The source port comes up: acquisition is tried, at once in LOCAL and otherwise when the root is back there (R444,
R445). -/
def State.sourceCameUp (s : State) (p : Nat) : State :=
  if s.recovers && p = s.sourcePort then
    { s with boot := { s.boot with acquireDue := s.canAcquire || s.clk.root ≠ .atLocal } }
  else s

/-- Acquisition starts: every domain ramps up (R444, step 1). -/
def State.startAcquire (s : State) : State :=
  { s with boot := { s.boot with acquireDue := false } }.setClk
    { s.clk.ramp true s.now with root := .acquiring, onLane := false, locked := false }

/-- CLOCK_ACQUIRE: the try that is due starts when its conditions hold. -/
def clockAcquire (s : State) : State := if s.boot.acquireDue && s.canAcquire then s.startAcquire else s

/-- CLOCK_ACQUIRE. -/
def execClockAcquire (s : State) : Host.Outcome State Fault Refusal := actAll true (whenUp clockAcquire) s

/-- REACQUIRE: it starts when the conditions hold, and is otherwise ignored (R444). -/
def reacquire (s : State) : State := if s.canAcquire then s.startAcquire else s

/-- REACQUIRE. -/
def execReacquire (s : State) : Host.Outcome State Fault Refusal := actAll true (whenUp reacquire) s

/-- HOLDOVER: the oscillator's last control word is held and every domain ramps up (R442). -/
def State.holdOver (s : State) : State :=
  s.setClk { s.clk.ramp true s.now with root := .holdover, onLane := false, locked := false }

/-- The root is locked to its source lane. -/
def Clk.onSource (c : Clk) : Bool := c.root = .recovered || (c.root = .acquiring && c.locked)

/-- The source lane is lost (R443): a root locked to it holds over; an acquisition that has not locked goes back to
`CLKREF` and returns (R445). (DEDUCED, log 83.) -/
def sourceLaneLost (s : State) : State :=
  let note (t : State) : State :=
    ((t.tally .CLK_LOSSES 0 1).raise .CLK_STATUS_LOST_SEEN 0).setF .SEAM_STATUS_CLK_SRC t.sourcePort 0
  if s.clk.onSource then (note s).holdOver
  else if s.clk.root = .acquiring then
    let t := note s
    t.setClk { t.clk.ramp false t.now with root := .returning, onLane := false, locked := false }
  else s

/-- SOURCE_LANE_LOST. -/
def execSourceLaneLost (s : State) : Host.Outcome State Fault Refusal := actAll true (whenUp sourceLaneLost) s

/-- A ramp has reached its end (R442, R444): HOLDOVER goes on to RELOCKING where `CLKREF` is there, an acquisition takes
the lane as its reference or ends in RECOVERED, and RETURNING ends in LOCAL. -/
def rampReached (s : State) : State :=
  let c := s.clk
  if c.root = .holdover && c.atDouble && !c.refGone then (s.setClk { c with root := .relocking }).setDepth 31
  else if c.root = .acquiring && !c.locked && !c.onLane && c.atDouble then s.setClk { c with onLane := true }
  else if c.root = .acquiring && c.locked && c.atNominal then s.setClk { c with root := .recovered }
  else if c.root = .returning && c.atNominal then
    let s := (s.setClk { c with root := .atLocal }).setDepth s.freeDepth
    { s with boot := { s.boot with acquireDue := s.boot.acquireDue && s.canAcquire } }
  else s

/-- RAMP_REACHED. -/
def execRampReached (s : State) : Host.Outcome State Fault Refusal := actAll true (whenUp rampReached) s

/-- The phase error has stayed small enough for 10 µs (R443): a change of reference is complete. -/
def rootLocked (s : State) : State :=
  let c := s.clk
  if c.root = .relocking && !c.refGone then
    (s.setClk { c.ramp false s.now with root := .returning }).tally .CLK_SWITCHES 0 1
  else if c.root = .acquiring && c.onLane && !c.locked then
    let s := (s.setClk { c.ramp false s.now with locked := true }).tally .CLK_SWITCHES 0 1
    let s := s.setF .SEAM_STATUS_CLK_SRC s.sourcePort 1
    s.setDepth (natMin 31 (s.f .SEAM_STATUS_PEER_DEPTH s.sourcePort + 1))
  else s

/-- ROOT_LOCKED. -/
def execRootLocked (s : State) : Host.Outcome State Fault Refusal := actAll true (whenUp rootLocked) s

/-- A link peer's new depth: a module locked to that link follows it (R337). -/
def clkstat (p depth : Nat) (s : State) : State :=
  let s := s.setF .SEAM_STATUS_PEER_DEPTH p depth
  if s.clk.onSource && p = s.sourcePort then s.setDepth (natMin 31 (depth + 1)) else s

/-- CLKSTAT. -/
def execClkstat (p depth : Nat) (s : State) : Host.Outcome State Fault Refusal :=
  actAll (p < 16 && depth < 32) (whenUp (whenever (s.portUp p) (clkstat p depth))) s

/-! `CLKREF` (R445) and the host link (R386, R389). -/

/-- The host link comes to a rate and width, 0 being down; below 32 GT/s it is slow, with cause LINK (R389). -/
def State.setLink (s : State) (rate width : Nat) (flit : Bool) : State :=
  let s := ((s.setF .HST_LINK_RATE 0 rate).setF .HST_LINK_WIDTH 0 width).setF .HST_LINK_FLIT 0 (flagBit flit)
  let s := { s with hostLink := decide (rate ≠ 0) }
  if rate = 1 then (s.raise .HST_LINK_SLOW_SEEN 0).interrupt 0 7 else s

/-- `CLKREF` is lost (R445): the host link goes down; outside RECOVERED the root holds over, a unit fault of hub 0, and
the module withdraws at the next boundary. -/
def clkrefLost (s : State) : State :=
  let s := (s.raise .CLK_STATUS_REF_LOST 0).setLink 0 0 false
  let s := s.setClk { s.clk with refGone := true }
  if s.clk.root = .recovered then s
  else
    let s := s.holdOver
    let s := s.ledger 0x06 (unitPayload .hub 0 0 0 0 0)
    s.moduleFault.setWithdraw (2 ^ causeUnit)

/-- CLKREF_LOST. -/
def execClkrefLost (s : State) : Host.Outcome State Fault Refusal :=
  actAll true (whenUp (whenever (!s.clk.refGone) clkrefLost)) s

/-- `CLKREF` returns: a root held over can lock again, and the host link retrains by itself. -/
def clkrefReturn (s : State) : State := s.setClk { s.clk with refGone := false }

/-- CLKREF_RETURN. -/
def execClkrefReturn (s : State) : Host.Outcome State Fault Refusal := actAll true (whenPowered clkrefReturn) s

end Sys2Proof.Machine
end

