-- ==== Sys2Proof/Machine/Seam.lean ====
section
/-! DEFINITION. The seam ports (R305 to R316, R320, R343, R344): training, HELLO, flits received, replay and retraining. -/

namespace Sys2Proof.Machine

/-- A seam port number. -/
def portOk (p : Nat) : Bool := p < 16

/-! Training (R313). -/

/-- What this module says of itself in a HELLO (R314). -/
def State.helloFields (s : State) (p : Nat) : List Nat :=
  [1, 0, s.place, s.bpos] ++ s.board ++ [s.tsize 0, s.tsize 1, s.tsize 2]
    ++ [p, s.f .PAT_STATUS_GEN 0, s.clk.depth]

/-- HELLO goes out at step 6 of training; the identity digest is filled in by the thimble. -/
def State.sendHello (s : State) (p : Nat) : State :=
  s.emit (.message ((s.peerAt p).getD 0) 1 ((s.helloFields p).set 1 s.boot.moduleId))

/-- A LINK entry of the ledger: port, state, retrains, peer (R490). (DEDUCED, log 89.) -/
def State.linkEntry (s : State) (p : Nat) : State :=
  s.ledger 0x05 (p + 2 ^ 8 * s.f .SEAM_STATUS_STATE p + 2 ^ 16 * (FMap.get 0 s.meters.retrains p % 2 ^ 32)
    + 2 ^ 48 * s.f .SEAM_PEER_ID_PEER_ID p)

/-- A peer's signal appears at a port that is down, and training begins. What its replay buffer held is not sent again:
the two ends start their sequence afresh. A port that failed the
fitting run stays down (R451). (DESIGN CHOICE, log 85.) -/
def portDetect (p : Nat) (s : State) : State :=
  if s.f .SEAM_STATUS_STATE p ≠ 0 || bitAt s.boot.badPorts p then s
  else
    let v := s.port p
    let s := s.setPort p { v with
      present := true, tx := 0, rx := 0, unacked := [], credits := [], give := [], streams := [], hello := none
      naked := false, ctrlLeft := 0 }
    (s.setF .SEAM_STATUS_STATE p 1).sendHello p

/-- PORT_DETECT. -/
def execPortDetect (p : Nat) (s : State) : Host.Outcome State Fault Refusal := act (portOk p) (whenUp (portDetect p)) s

/-- Does a HELLO meet the wiring rules and this module's pattern (R317, R318, R320)? -/
def State.helloFits (s : State) (p : Nat) (l : List Nat) : Bool :=
  match s.cabled p with
  | none => false
  | some c =>
    l.getD 3 0 = c.2.1 && (l.drop 4).take 3 = c.1 && (l.drop 7).take 3 = [s.tsize 0, s.tsize 1, s.tsize 2]
      && l.getD 10 0 = c.2.2 && l.getD 2 0 = s.placeAt c.1 c.2.1

/-- The peer's HELLO (R314, R315, R320): link generation, identity, place, port and clock depth. -/
def hello (p : Nat) (l : List Nat) (s : State) : State :=
  let st := s.f .SEAM_STATUS_STATE p
  if st ≠ 1 && st ≠ 7 then s
  else
    let s := (s.setF .SEAM_STATUS_GEN p (natMin 1 (l.getD 0 0))).setF .SEAM_PEER_ID_PEER_ID p (l.getD 1 0)
    let s := (s.setF .SEAM_STATUS_PEER_PLACE p (l.getD 2 0)).setF .SEAM_STATUS_PEER_PORT p (l.getD 10 0)
    let s := s.setF .SEAM_STATUS_PEER_DEPTH p (l.getD 12 31)
    s.setPort p { s.port p with hello := some (s.helloFits p l) }

/-- HELLO. -/
def execHello (p : Nat) (fields : List Nat) (s : State) : Host.Outcome State Fault Refusal :=
  act (portOk p) (whenUp (hello p fields)) s

/-- The virtual channels of a port: 12, and of a mesh port the 6 of dateline set 0 (R312). -/
def portVcs (p : Nat) : List Nat := (List.range 12).filter (fun c => 7 ≤ p || c % 2 = 0)

/-- Training completes (R306, R307, R313): a round trip above 2 µs or a wiring mismatch keeps the port from coming up, and
fewer than 8 qualified lanes leave it down. -/
def portUpEnd (p : Nat) (lanes : List Nat) (rtt : Nat) (s : State) : State :=
  let st := s.f .SEAM_STATUS_STATE p
  let v := s.port p
  let own := sortAsc (lanes.filter (fun l => l < 18))
  let weak := lanes.foldl (fun n l => if 18 ≤ l then natMin n (l - 18) else n) own.length
  match v.hello with
  | none => s
  | some fits =>
    if st ≠ 1 && st ≠ 7 then s
    else if !fits then (s.setF .SEAM_STATUS_STATE p 4).linkEntry p
    else if 2000 < rtt then (s.setF .SEAM_STATUS_STATE p 5).setF .SEAM_RTT_RTT p rtt
    else if weak < 8 then (s.setF .SEAM_STATUS_STATE p 0).setF .SEAM_STATUS_GEN p 0
    else
      let full := decide (16 ≤ weak)
      let mapped := own.take (if full then 16 else 8)
      let s := (s.setF .SEAM_STATUS_STATE p (if full then 2 else 3)).setF .SEAM_RTT_RTT p rtt
      let s := s.setF .SEAM_LANES_UNUSED p (0x3FFFF - maskOf mapped)
      let s := s.setF .SEAM_LANES_SPARES p (if full then (mapped.filter (fun l => 16 ≤ l)).length else 0)
      let s := if full then s else s.raise .SEAM_STATUS_HALF_SEEN p
      let s := if st = 1 then
          s.setPort p { s.port p with credits := (portVcs p).map (fun c => (c, 128)) }
        else s
      (s.sourceCameUp p).pump p (s.port p).waiting.length

/-- PORT_UP. Operand lanes: the physical lanes that qualified here; an entry 18 + n says that n qualified at the peer. -/
def execPortUp (p : Nat) (lanes : List Nat) (rtt : Nat) (s : State) : Host.Outcome State Fault Refusal :=
  act (portOk p && rtt < 65536) (whenUp (portUpEnd p lanes rtt)) s

/-! Retraining (R316). -/

/-- A port retrains; more than 8 retrains within 60 s retire it until the next module reset. -/
def State.retrainPort (s : State) (p : Nat) : State :=
  let v := s.port p
  let times := s.now :: v.retrains.filter (fun t => s.now < t + sec 60)
  let s := (s.setPort p { v with retrains := times, hello := none, naked := false }).tally .SEAM_RETRAIN p 1
  let s := { s with meters := { s.meters with retrains := FMap.upd 0 s.meters.retrains p (fun n => n + 1) } }
  if 8 < times.length then
    (((s.setF .SEAM_STATUS_STATE p 6).setF .SEAM_STATUS_GEN p 0).raise .SEAM_STATUS_RETIRED_SEEN p).linkEntry p
  else ((s.setF .SEAM_STATUS_STATE p 7).linkEntry p).sendHello p

/-- RETRAIN. -/
def execRetrain (p : Nat) (s : State) : Host.Outcome State Fault Refusal :=
  act (portOk p) (whenUp (fun s => whenever (s.portUp p) (fun t => t.retrainPort p) s)) s

/-- The peer's signal is gone: the port is down and waits for it to appear again (R313). (DESIGN CHOICE, log 90.) -/
def signalLoss (p : Nat) (s : State) : State :=
  let s := s.setPort p { s.port p with present := false, hello := none }
  if s.f .SEAM_STATUS_STATE p = 6 then s
  else (s.setF .SEAM_STATUS_STATE p 0).setF .SEAM_STATUS_GEN p 0

/-- SIGNAL_LOSS. -/
def execSignalLoss (p : Nat) (s : State) : Host.Outcome State Fault Refusal := act (portOk p) (whenUp (signalLoss p)) s

/-! Replay (R310). -/

/-- Every unacknowledged flit from the one numbered `seq` on goes again; one that has gone 16 times more without an
acknowledgement starts a retrain. -/
def State.replayFrom (s : State) (p seq : Nat) : State :=
  let v := s.port p
  let i := v.unacked.findIdx (fun f => f.seq = seq)
  let again := (v.unacked.drop i).map (fun f => { f with replays := f.replays + 1, sentAt := s.now })
  if again.isEmpty then s
  else
    let s := (s.setPort p { v with unacked := v.unacked.take i ++ again }).tally .SEAM_REPLAY p again.length
    let s := again.foldl (fun t f => t.emit (.flit p f.header f.payload)) s
    if again.any (fun f => 16 ≤ f.replays) then s.retrainPort p else s

/-- NAK: the sender replays from the SEQ named. -/
def execNak (p seq : Nat) (s : State) : Host.Outcome State Fault Refusal :=
  act (portOk p && seq < 4096) (whenUp (fun s => whenever (s.portUp p) (fun t => t.replayFrom p seq) s)) s

/-- A flit without acknowledgement for 4 µs is replayed, with those behind it. -/
def replayTimeout (p : Nat) (s : State) : State :=
  match (s.port p).unacked.find? (fun f => f.sentAt + usec 4 ≤ s.now) with
  | none => s
  | some f => if s.portUp p then s.replayFrom p f.seq else s

/-- REPLAY_TIMEOUT. -/
def execReplayTimeout (p : Nat) (s : State) : Host.Outcome State Fault Refusal :=
  act (portOk p) (whenUp (replayTimeout p)) s

/-! Flits received (R309 to R312, R321, R328, R331). -/

/-- Symbols in error of the two codes: positions of even and of odd bytes (R310). -/
def fecErrors (err : List Nat) : Nat × Nat :=
  let l := sortAsc (err.filter (fun i => i < 256))
  ((l.filter (fun i => i % 2 = 0)).length, (l.filter (fun i => i % 2 = 1)).length)

/-- The acknowledged flits leave the replay buffer, and returned credits are noted. -/
def State.takeAck (s : State) (p h : Nat) : State :=
  let v := s.port p
  let i := v.unacked.findIdx (fun f => f.seq = hAck h)
  let left := if i < v.unacked.length then v.unacked.drop (i + 1) else v.unacked
  s.setPort p { v with unacked := left, credits := FMap.upd 0 v.credits (hCredit h) (fun n => n + hCount h) }

/-- One NAK carries the next expected SEQ: its ACK is the SEQ before (R310). -/
def State.sendNak (s : State) (p : Nat) : State :=
  if (s.port p).naked then s
  else (s.setPort p { s.port p with naked := true }).sendBare p (flitHead 4 0 false 0 0)

/-- The bytes of a control message of a code for domain `d`, by its first flit (R324). (DEDUCED, log 86.) -/
def State.messageLen (s : State) (code d : Nat) : Nat :=
  let n := (s.domSwatches d).length
  if code = 4 then 1033 else if code = 5 then 9 + 10 * n else if code = 6 then 1034 + 14 * n else 0

/-- A CTRL flit for this module: its message arrives as a command of its own; one of an unassigned code is discarded and
counted (R324). -/
def State.takeCtrl (s : State) (p payload : Nat) : State :=
  let v := s.port p
  if v.ctrlLeft ≠ 0 then s.setPort p { v with ctrlLeft := v.ctrlLeft - 1 }
  else
    let code := bitField payload 0 8
    if code = 0 || 10 < code then s.tally .COLL_SEQ_DROP 0 1
    else
      match s.domOf (bitField payload 8 32) with
      | none => s
      | some d => s.setPort p { v with ctrlLeft := ceilDiv (s.messageLen code d) 228 - 1 }

/-- The fields of a sequence's header (R331): domain ID, epoch, COLL_SEQ, phase, shard, first block, length. -/
def seqFields (bs : List Nat) : List Nat :=
  let n (o w : Nat) : Nat := leNat (((bs.drop o).take w).map (BitVec.ofNat 8))
  [n 0 4, n 4 4, n 8 4, n 12 1, n 13 3, n 16 8, n 24 8]

/-- A DATA flit for this module joins its sequence; when the header's length is there the sequence arrives. A flit of a
COLL_SEQ outside the window is discarded and counted (R328), and each one taken restarts its timer (R335). -/
def State.takeData (s : State) (p h payload : Nat) : State :=
  let v := s.port p
  let bs := FMap.get [] v.streams (hStream h) ++ (leBytes payload 228).map BitVec.toNat
  let x := seqFields bs
  let len := x.getD 6 0
  let whole := decide (32 + len ≤ bs.length)
  let s := s.setPort p { v with streams := FMap.set [] v.streams (hStream h) (if whole then [] else bs) }
  match s.domOf (x.getD 0 0) with
  | none => s.tally .COLL_SEQ_DROP 0 1
  | some d =>
    let seq := x.getD 2 0
    let phase := x.getD 3 0
    if x.getD 1 0 ≠ s.epoch d || (phase ≤ 2 && !s.inSeqWindow d seq) then s.tally .COLL_SEQ_DROP 0 1
    else
      let s := s.updColl d seq (fun c => { c with timer := s.now })
      if !whole then s
      else
        let sender := if p ≤ 6 then s.f .SEAM_STATUS_PEER_PLACE p else 8192
        s.arrive d (x.getD 1 0) seq
          { phase := phase, shard := x.getD 4 0, first := x.getD 5 0, sender := sender, data := (bs.drop 32).take len }

/-- A flit for another place is passed on in its own class, by way of no memory (R321). -/
def State.relay (s : State) (p h payload : Nat) : State :=
  match s.route (hDest h) (if hType h = 1 then some (hStream h / 4) else none) with
  | none => s
  | some q =>
    s.sendFlit q (flitHead (hType h) (hClass h) (s.datelineOf (some p) q (hDl h)) (hDest h) (hStream h)) payload

/-- A unit of 2^20 flits received is counted each time one is full (R344). -/
def State.countRx (s : State) (p : Nat) : State :=
  let v := s.port p
  if v.rxPart + 1 = 2 ^ 20 then (s.setPort p { v with rxPart := 0 }).tally .SEAM_RX_MFLITS p 1
  else s.setPort p { v with rxPart := v.rxPart + 1 }

/-- The flit expected next is delivered or relayed, and its credit goes back. -/
def State.deliver (s : State) (p h payload : Nat) : State :=
  let v := s.port p
  let s := (s.setPort p { v with
    rx := (v.rx + 1) % 4096, naked := false, give := FMap.upd 0 v.give (vcOf h) (fun n => n + 1) }).countRx p
  if hDest h ≠ s.place then s.relay p h payload
  else if hType h = 1 then s.takeData p h payload else s.takeCtrl p payload

/-- With nothing to send an end sends IDLE flits, which carry ACK and credits (R311). -/
def State.idleBack (s : State) (p : Nat) : State :=
  if (s.port p).give.isEmpty || (s.sendable p).isSome then s else s.sendBare p (flitHead 0 0 false 0 0)

/-- A flit comes in. Operand err: the bytes in error; crcOk: the CRC after correction.
(DESIGN CHOICE, log 57; DEDUCED, log 87.) -/
def flitReceive (p h payload : Nat) (err : List Nat) (crcOk : Bool) (s : State) : State :=
  let e := fecErrors err
  let s := if e = (0, 0) || 3 < e.1 || 3 < e.2 then s else s.tally .SEAM_FEC_CORR p 1
  if !crcOk || 3 < e.1 || 3 < e.2 || 4 < hType h || (5 < hClass h && 1 ≤ hType h && hType h ≤ 2) then s.sendNak p
  else
    let s := s.takeAck p h
    let s := if hType h = 4 then s.replayFrom p ((hAck h + 1) % 4096)
      else if hType h = 1 || hType h = 2 then
        (if hSeq h = (s.port p).rx then s.deliver p h payload else s.sendNak p)
      else s
    (s.pump p (s.port p).waiting.length).idleBack p

/-- FLIT_RECEIVE. -/
def execFlitReceive (p h payload : Nat) (err : List Nat) (crcOk : Bool) (s : State) :
    Host.Outcome State Fault Refusal :=
  act (portOk p && h < 2 ^ 64) (whenUp (fun s => whenever (s.portUp p) (flitReceive p h payload err crcOk) s)) s

end Sys2Proof.Machine
end

