-- ==== Sys2Proof/Machine/Funcs.lean ====
section
/-! DEFINITION. The functions of the vector path (R136). RECIP is correctly rounded; EXP2, LOG2, RSQRT, expw and lnw
are promised within error bounds only, so their results are free values within an enclosure of those bounds. -/

namespace Sys2Proof.Machine

/-- ln 2 in units of 2^-80. -/
def ln2Fix : Nat := 837963523372001241319907

/-- `Σ t^k / k!` in units of 2^-80: `n` terms from the term `a = t^k / k!` on, `k` counting up. -/
def expSeries (t : Int) : Nat → Nat → Int → Int
  | 0, _, _ => 0
  | n + 1, k, a => a + expSeries t n (k + 1) (a * t / 2 ^ 80 / Int.ofNat (k + 1))

/-- e^t for 0 ≤ t < 1, t and the result in units of 2^-80. -/
def expFix (t : Int) : Int := expSeries t 36 0 (2 ^ 80)

/-- A finite value in units of 2^-80, rounded down. -/
def toFix : Fv → Int
  | .fin s m e =>
    let v : Int := if -80 ≤ e then Int.ofNat m * 2 ^ (e + 80).toNat else Int.ofNat (m / 2 ^ (-80 - e).toNat)
    if s then -v else v
  | _ => 0

/-- A value of units of 2^-80 times 2^k. -/
def ofFix (v : Int) (k : Int) : Fv := .fin (v < 0) v.natAbs (k - 80)

/-- 2^x for x in units of 2^-80: integer and fractional parts apart. -/
def exp2Of (x : Int) : Fv :=
  let n := x / 2 ^ 80
  let f := x % 2 ^ 80
  ofFix (expFix (f * Int.ofNat ln2Fix / 2 ^ 80)) n

/-- e^x for x in units of 2^-80. -/
def expOf (x : Int) : Fv :=
  let n := x / Int.ofNat ln2Fix
  ofFix (expFix (x % Int.ofNat ln2Fix)) n

/-- `Σ z^(2i+1) / (2i+1)` in units of 2^-80. -/
def atanhSeries (z2 : Int) : Nat → Nat → Int → Int
  | 0, _, _ => 0
  | n + 1, i, a => a / Int.ofNat (2 * i + 1) + atanhSeries z2 n (i + 1) (a * z2 / 2 ^ 80)

/-- ln x in units of 2^-80, for finite x > 0. -/
def lnFix : Fv → Int
  | .fin _ m e =>
    let len := bitLen m
    let f : Int := if len ≤ 81 then Int.ofNat m * 2 ^ (81 - len) else Int.ofNat (m / 2 ^ (len - 81))
    let z := (f - 2 ^ 80) * 2 ^ 80 / (f + 2 ^ 80)
    2 * atanhSeries (z * z / 2 ^ 80) 40 0 z + (e + Int.ofNat len - 1) * Int.ofNat ln2Fix
  | _ => 0

/-- The place of a pattern in the order of its format's values. -/
def orderKey (f : FpFmt) (b : Nat) : Int :=
  let mag := b % 2 ^ (f.eb + f.mb)
  if Nat.testBit b (f.eb + f.mb) then -Int.ofNat mag else Int.ofNat mag

/-- The pattern at a place in that order. -/
def ofKey (f : FpFmt) (k : Int) : Nat := fpSign f (decide (k < 0)) + k.natAbs

/-- The pattern that function `fn` gives for operand `x`, among those from `lo` to `hi`, never beyond the finite ones. -/
def pickWithin (f : FpFmt) (fn x : Nat) (lo hi : Int) : Nat :=
  let top := Int.ofNat (fpMaxBits f)
  let lo := if lo < -top then -top else lo
  let hi := if top < hi then top else hi
  ofKey f (lo + Int.ofNat (Config.withinBound fn x % (hi - lo + 1).toNat))

/-- The place of the lowest pattern of a format at or above `w`. -/
def keyAtOrAbove (f : FpFmt) (w : Fv) : Int :=
  let k := orderKey f (fpBits f w)
  if Fv.lt (fpDecode f (ofKey f k)) w then k + 1 else k

/-- The place of the highest pattern of a format at or below `w`. -/
def keyAtOrBelow (f : FpFmt) (w : Fv) : Int :=
  let k := orderKey f (fpBits f w)
  if Fv.lt w (fpDecode f (ofKey f k)) then k - 1 else k

/-- The pattern that function `fn` gives for operand `x`: a free one of those from `v - b` to `v + b`; where the format
has none there, one of the two neighbours. No result of a positive function is negative. (DESIGN CHOICE, log 35.) -/
def pickBand (f : FpFmt) (fn x : Nat) (v b : Fv) (pos : Bool) : Nat :=
  let lo := keyAtOrAbove f (Fv.sub v b)
  let hi := keyAtOrBelow f (Fv.add v b)
  let lo := if pos && lo < 0 then 0 else lo
  if lo ≤ hi then pickWithin f fn x lo hi else pickWithin f fn x hi lo

/-- The spacing of FP32 values at a value (R136). -/
def ulp32 (v : Fv) : Fv := .fin false 1 ((if v.expo < -126 then -126 else v.expo) - 23)

/-- The largest finite FP32 value. -/
def f32Max (neg : Bool) : Fv := f32 (fpSign fmtFP32 neg + fpMaxBits fmtFP32)

/-- Is a value non-zero and below 2^-60 in magnitude, so that its exponential lies nearer to 1 than any bound of R136? -/
def nearZero (v : Fv) : Bool := !v.isZero && Fv.lt v.abs (.fin false 1 (-60))

/-- EXP2 of an FP32 pattern: value, and whether it counts as a saturation. -/
def exp2Fn (x : Nat) : Fv × Bool :=
  match f32 x with
  | .nan => (.nan, false)
  | .inf s => (if s then .fin false 0 0 else .inf false, false)
  | v =>
    if Fv.le (.fin false 128 0) v then (f32Max false, true)
    else if Fv.lt v (.fin true 1000 0) then (f32 (pickWithin fmtFP32 0 x 0 1), false)
    else if nearZero v then (f32 (pickWithin fmtFP32 0 x 0x3F7FFFFF (if v.neg then 0x3F800000 else 0x3F800001)), false)
    else (f32 (pickBand fmtFP32 0 x (exp2Of (toFix v)) (ulp32 (exp2Of (toFix v))) true), false)

/-- LOG2. -/
def log2Fn (x : Nat) : Fv × Bool :=
  match f32 x with
  | .nan => (.nan, false)
  | .inf s => (if s then .nan else .inf false, false)
  | v =>
    if v.isZero then (f32Max true, true)
    else if v.neg then (.nan, false)
    else if x = 0x3F800000 then (.fin false 0 0, false)
    else
      let y := lnFix v * 2 ^ 80 / Int.ofNat ln2Fix
      let near := Fv.le (.fin false 1 (-1)) v && Fv.le v (.fin false 2 0)
      let w := ofFix y 0
      (f32 (pickBand fmtFP32 1 x w (if near then .fin false 1 (-22) else ulp32 w) false), false)

/-- RSQRT. -/
def rsqrtFn (x : Nat) : Fv × Bool :=
  match f32 x with
  | .nan => (.nan, false)
  | .inf s => (if s then .nan else .fin false 0 0, false)
  | v =>
    if v.isZero then (f32Max v.neg, true)
    else if v.neg then (.nan, false)
    else
      let w := Fv.sqrt (Fv.div (.fin false 1 0) v)
      (f32 (pickBand fmtFP32 2 x w (ulp32 w) true), false)

/-- RECIP, correctly rounded; an overflow saturates. -/
def recipFn (x : Nat) : Fv × Bool :=
  match f32 x with
  | .nan => (.nan, false)
  | .inf s => (.fin s 0 0, false)
  | v =>
    if v.isZero then (f32Max v.neg, true)
    else
      let r := fpRound fmtFP32 (Fv.div (.fin false 1 0) v)
      (f32 r.1, r.2)

/-- expw of an FP32 value: W48 value, and whether it counts as a saturation. -/
def expw (d : Fv) : Fv × Bool :=
  match d with
  | .nan => (.nan, false)
  | .inf s => (if s then .fin false 0 0 else .inf false, false)
  | v =>
    if v.isZero then (.fin false 1 0, false)
    else
      let x := toF32 v
      if Fv.lt v (.fin true 1000 0) then (w48 (pickWithin fmtW48 3 x 0 1), false)
      else if Fv.lt (.fin false 1000 0) v then (w48 (fpMaxBits fmtW48), true)
      else if nearZero v then
        let lo := orderKey fmtW48 (fpBits fmtW48 (Fv.sub (.fin false 1 0) (.fin false 1 (-32))))
        let hi := orderKey fmtW48 (fpBits fmtW48 (Fv.add (.fin false 1 0) (.fin false 1 (-32))))
        (w48 (pickWithin fmtW48 3 x (if v.neg then lo else lo + 1) (if v.neg then hi - 1 else hi)), false)
      else
        let w := expOf (toFix v)
        if fpSat fmtW48 w then (w48 (fpMaxBits fmtW48), true)
        else (w48 (pickBand fmtW48 3 x w (w.scale (-32)) true), false)

/-- lnw of a W48 value: within 2^-32 for 1 ≤ x ≤ 2^32; elsewhere the manual states no value, and it is free.
(DESIGN CHOICE, log 34.) -/
def lnw (v : Fv) : Fv :=
  if v = .nan then .nan
  else if Fv.le (.fin false 1 0) v && Fv.le v (.fin false 1 32) then
    w48 (pickBand fmtW48 4 (toW48 v) (ofFix (lnFix v) 0) (.fin false 1 (-32)) false)
  else w48 (Config.withinBound 5 (toW48 v) % 2 ^ 48)

end Sys2Proof.Machine
end

