-- ==== Sys2Proof/Machine/Shuttle.lean ====
section
/-! DEFINITION. The store shuttle (R62, R109 to R111), row statistics (R140 to R143), shuttle copies (R75), the scratch
banks (R28) and a faulty core (R29, R81). -/

namespace Sys2Proof.Machine

/-! Row statistics. -/

/-- A record's fields: M, AUX, L (R140). -/
def recOf (v : Nat) : Nat × Nat × Nat := (bitField v 0 32, bitField v 32 32, bitField v 64 48)
/-- A record's 128 bits. -/
def recBits (r : Nat × Nat × Nat) : Nat := r.1 % 2 ^ 32 + 2 ^ 32 * (r.2.1 % 2 ^ 32) + 2 ^ 64 * (r.2.2 % 2 ^ 48)
/-- The empty record (R140). -/
def recEmpty : Nat × Nat × Nat := (0xFF800000, 0xFF800000, 0)

/-- Is column `j` masked for the row with query position QBASE + `i` (R134)? -/
def QEnt.masked (e : QEnt) (i j : Nat) : Bool := e.mask = 1 && e.qbase + i < e.kbase + j

/-- FP32 patterns of canonical NaN and W48's. -/
def nan32 : Nat := fpNaN fmtFP32
/-- Canonical NaN of W48. -/
def nanW : Nat := fpNaN fmtW48

/-- `merge` (R142): the live columns' values, ascending, into a record. -/
def mergeRec (r : Nat × Nat × Nat) (live : List Fv) : Nat × Nat × Nat :=
  let m := f32 r.1
  if m = .nan || live.any (fun x => x = .nan || x = .inf false) then (nan32, r.2.1, nanW)
  else
    let mnew := live.foldl Fv.maxNum m
    if mnew = .inf true then r
    else
      let same := !Fv.lt m mnew && !Fv.lt mnew m
      let l0 := if same then w48 r.2.2 else roundw (Fv.mul (w48 r.2.2) (expw (round32 (Fv.sub m mnew))).1)
      let l := live.foldl (fun a x => roundw (Fv.add a (expw (round32 (Fv.sub x mnew))).1)) l0
      (toF32 mnew, r.2.1, toW48 l)

/-- The scaled values of a drained row and their saturations (R141). -/
def scaleRow (beta : Nat) (vs : List Fv) : List (Fv × Bool) :=
  vs.map (fun v =>
    let r := fpRound fmtFP32 (Fv.mul (f32 beta) v)
    (f32 r.1, r.2))

/-- The record `i` of the records that descriptor `d` names. -/
def State.readRec (s : State) (c d i : Nat) : State × (Nat × Nat × Nat) :=
  let r := s.operand c (s.rq c d) (dSpace d) (dRowAddr d i) 16
  (r.1, recOf (leNat (r.2.getD [])))

/-- Writes the record `i`. -/
def State.putRec (s : State) (c d i : Nat) (r : Nat × Nat × Nat) : State :=
  (s.putOperand c (s.rq c d) (dSpace d) (dRowAddr d i) (leBytes (recBits r) 16)).1

/-- A drained row goes to the row-statistics unit (R141 to R143). A saturation in a masked column counts as any other
element's does. (DEDUCED, log 165.) -/
def State.statRow (s : State) (c : Nat) (e : QEnt) (p : Nat × List Fv) : State :=
  if e.k = 0 then s.putRec c e.r p.1 recEmpty
  else
    let xs := scaleRow e.beta p.2
    let live := (xs.zipIdx.filter (fun x => !e.masked p.1 x.2 && x.1.1 ≠ .inf true)).map (fun x => x.1.1)
    let r := s.readRec c e.r p.1
    (r.1.satAt c (s.swOf c) e.tag 7 ((xs.filter Prod.snd).length)).putRec c e.r p.1 (mergeRec r.2 live)

/-- Counts a written result of the matrix path (R110, R123). -/
def State.countStore (s : State) (c : Nat) (e : QEnt) (w : Written) : State :=
  (s.satAt c (s.swOf c) e.tag 5 w.sat).tally .ARR_NONFINITE c w.nonfin

/-- A matrix instruction whose last row block is drained leaves its queue. -/
def Core.retire (k : Core) (e : QEnt) : Core :=
  if ceilDiv e.n 256 ≤ e.drained + 1 then
    { k with
      matQ := k.matQ.filter (fun x => x.seq ≠ e.seq)
      arr := { k.arr with
        face := match k.arr.face with
          | some f => if f.seq = e.seq then none else some f
          | none => none
        staged := k.arr.staged.filter (fun x => x.seq ≠ e.seq) } }
  else k.markMat e.seq (fun x => { x with drained := x.drained + 1 })

/-- May core `c`'s shuttles and vector unit work: running or at a barrier (R29, R86)? -/
def State.works (s : State) (c : Nat) : Bool :=
  let st := s.f .CORE_STATUS_STATE c
  (st = 1 || st = 2) && !(s.core c).asleep

/-- The store shuttle drains the oldest complete edge bank (R62): rows ascending, converted, binned, counted, and with
FUSE passed to the row-statistics unit. (DESIGN CHOICE, log 18.) -/
def storeDrain (c : Nat) (s : State) : State :=
  let k := s.core c
  if !s.works c then s
  else
    match k.arr.drains with
    | [] => s
    | job :: _ =>
      match k.mat job.seq with
      | none => s
      | some e =>
        let hi := natMin e.n (256 * job.blk + 256)
        if k.shQ.any (fun x => x.seq < e.seq && bitAt x.word 47) then s
        else
          match s.tensorWaits (s.rq c e.c) e.c hi true with
          | some t => t
          | none =>
            match (if e.fuse then s.tensorWaits (s.rq c e.r) e.r hi true else none) with
            | some t => t
            | none =>
              let out := (List.range (e.rows job.blk)).map (fun i =>
                (256 * job.blk + i, (List.range e.nc).map (fun j =>
                  drainEdge e.comp (FMap.get (0, 0) job.edge (64 * i + j)))))
              let rows := out.map (fun p => (p.1, p.2.map (fun x => f32 x.1)))
              let sat4 := out.foldl (fun n p => n + (p.2.filter Prod.snd).length) 0
              let w := convertRows (s.recipe (s.swOf c) e.tag) e.c rows
              let s := s.satAt c (s.swOf c) e.tag 4 sat4
              let s := s.binAll (s.swOf c) e.tag (rows.flatMap Prod.snd)
              let s := if job.blk = 0 && s.atFirstUse (s.swOf c) e.c then s.firstUse c (s.swOf c) e.tag else s
              let s := (s.countStore c e w).putRows c (s.rq c e.c) e.c w
              let s := if e.fuse then rows.foldl (fun t p => t.statRow c e p) s else s
              let k := s.core c
              (s.setCore c (Core.retire { k with arr := { k.arr with drains := k.arr.drains.tail } } e)).showArr c

/-- STORE_DRAIN. -/
def execStoreDrain (c : Nat) (s : State) : Host.Outcome State Fault Refusal :=
  act (coreOk c) (whenUp (storeDrain c)) s

/-! Shuttle copies (R75). -/

/-- NROWS of a CPY. -/
def QEnt.copyRows (e : QEnt) : Nat := bitField e.word 0 25

/-- One row of a copy: the elements from the row's start; a wider destination row keeps its further elements. -/
def State.copyRow (s : State) (c a b i : Nat) : State :=
  let w := fmtWidth (dFmt a)
  let bits := w * dCols a
  let n := (bits + 7) / 8
  let r := s.operand c (s.rq c a) (dSpace a) (dRowAddr a i) n
  let bs := r.2.getD []
  if bits % 8 ≠ 0 && dCols a < dCols b then
    let o := r.1.operand c (s.rq c b) (dSpace b) (dRowAddr b i) n
    let v := setBits (leNat (o.2.getD [])) 0 bits (leNat bs)
    (o.1.putOperand c (s.rq c b) (dSpace b) (dRowAddr b i) (leBytes v n)).1
  else
    let v := if bits % 8 = 0 then leNat bs else leNat bs % 2 ^ bits
    (r.1.putOperand c (s.rq c b) (dSpace b) (dRowAddr b i) (leBytes v n)).1

/-- The first elements of the blocks of a destination that a copy covers. -/
def scaleBlocks (b rows cols : Nat) : List (Nat × Nat) :=
  if !dScaled b then []
  else if dBaxis b then (List.range (ceilDiv rows 32)).flatMap (fun i => (List.range cols).map (fun j => (32 * i, j)))
  else (List.range rows).flatMap (fun i => (List.range (ceilDiv cols 32)).map (fun j => (i, 32 * j)))

/-- The elements, of those a copy of `n` rows covers, whose source scales the destination's block from element `p` takes
over: with equal block axes its first, whose source block is the same block; else each of them. -/
def blockElems (a b n : Nat) (p : Nat × Nat) : List (Nat × Nat) :=
  if dBaxis a = dBaxis b then [p]
  else if dBaxis b then (List.range (natMin 32 (n - p.1))).map (fun i => (p.1 + i, p.2))
  else (List.range (natMin 32 (dCols a - p.2))).map (fun j => (p.1, p.2 + j))

/-- One block scale of a copy: that of its elements in the source; where they have different ones, which only different
block axes allow, no rule states the scale: it is a free value, which depends on nothing but what R119 names.
(DESIGN CHOICE, log 41.) -/
def State.copyScale (s : State) (c a b n : Nat) (p : Nat × Nat) : State :=
  let r := gather (fun t q => t.readScale c a q.1 q.2) s (blockElems a b n p)
  let v := if r.2.all (fun v => v = r.2.headD 0) then r.2.headD 0 else Config.mixedScale (dFmt a) r.2 % 256
  (r.1.putOperand c (s.rq c b) (dSpace b) (dScaleAddr b p.1 p.2) [BitVec.ofNat 8 v]).1

/-- The oldest copy of a shuttle runs to its end (R65, R75), behind that shuttle's earlier matrix work. It
converts nothing: no element of it enters a histogram or counts in ARR_NONFINITE. (DEDUCED, log 40, 41.) -/
def cpyTransfer (c eng : Nat) (s : State) : State :=
  let k := s.core c
  if !s.works c then s
  else
    match k.shQ.find? (fun e => bitAt e.word 47 = (eng = 1)) with
    | none => s
    | some e =>
      let a := e.descs.getD 0 0
      let b := e.descs.getD 1 0
      let busy := k.matQ.any (fun x => x.seq < e.seq && (eng = 1 || x.staged < x.steps))
      if busy || (e.wst && !e.go) then s
      else
        match s.tensorWaits (s.rq c a) a e.copyRows false with
        | some t => t
        | none =>
          match s.tensorWaits (s.rq c b) b e.copyRows true with
          | some t => t
          | none =>
            let s := (List.range e.copyRows).foldl (fun t i => t.copyRow c a b i) s
            let s := (scaleBlocks b e.copyRows (dCols a)).foldl (fun t p => t.copyScale c a b e.copyRows p) s
            s.setCore c { s.core c with shQ := (s.core c).shQ.filter (fun x => x.seq ≠ e.seq) }

/-- CPY_TRANSFER. -/
def execCpyTransfer (c eng : Nat) (s : State) : Host.Outcome State Fault Refusal :=
  act (coreOk c && eng < 2) (whenUp (cpyTransfer c eng)) s

/-! Scratch banks (R28). -/

/-- Who takes a bank's grant: the one that has waited longest among those with 16 cycles or more, otherwise the first by
fixed priority (0 store shuttle, 1 load shuttle, 2 vector unit). -/
def bankWinner (ages : List (Nat × Nat)) : Option Nat :=
  let old := ages.filter (fun p => 16 ≤ p.2)
  let best := old.foldl (fun (b : Option (Nat × Nat)) p =>
    match b with
    | none => some p
    | some x => if x.2 < p.2 then some p else some x) none
  match best with
  | some p => some p.1
  | none => (ages.head?).map Prod.fst

/-- A FABRIC cycle of a scratch bank with the requesters that wait on it (R28). The vector unit's grants are kept for
the chunk it gathers them for (R127). (DESIGN CHOICE, log 30.) -/
def scratchGrant (c bank : Nat) (store load vec : Bool) (s : State) : State :=
  let k := s.core c
  let waiting := (if store then [0] else []) ++ (if load then [1] else []) ++ (if vec then [2] else [])
  let ages := waiting.map (fun r => (r, FMap.get 0 k.ages (3 * bank + r)))
  match bankWinner ages with
  | none => s
  | some win =>
    let aged := (List.range 3).foldl (fun m r =>
      FMap.set 0 m (3 * bank + r) (if r = win || !waiting.contains r then 0 else FMap.get 0 k.ages (3 * bank + r) + 1))
      k.ages
    s.setCore c { k with ages := aged, grants := k.grants + (if win = 2 then 1 else 0) }

/-- SCRATCH_GRANT. -/
def execScratchGrant (c bank : Nat) (store load vec : Bool) (s : State) : Host.Outcome State Fault Refusal :=
  act (coreOk c && bank < 32) (whenUp (scratchGrant c bank store load vec)) s

/-! Faults of a core (R81). -/

/-- The logical core of a region that a physical core carries. -/
def State.carried (s : State) (r p : Nat) : Option Nat :=
  ((List.range 8).find? (fun k => s.sub .RGN_CORE_MAP_PHYS r (4 * k) 4 = p)).map (fun k => 8 * r + k)

/-- A physical core is faulty: cause 0 residue mismatch, 1 parity, 2 failed fitting slice. The logical core it carries
is fenced; a failed slice is recorded in the region's map (R81, R461). -/
def coreFault (r p cause : Nat) (s : State) : State :=
  let s := if cause = 2 then
      (s.setF .RGN_CORE_MAP_FIT_FAIL r (putBit (s.f .RGN_CORE_MAP_FIT_FAIL r) p true)).tally .RGN_SLICE_FAIL r 1
    else s
  match s.carried r p with
  | some c => s.fenceCore c cause
  | none => s

/-- CORE_FAULT. -/
def execCoreFault (r p cause : Nat) (s : State) : Host.Outcome State Fault Refusal :=
  act (r < 48 && p < 9 && cause < 3) (whenUp (coreFault r p cause)) s

end Sys2Proof.Machine
end

