-- ==== Sys2Proof/Machine/Units.lean ====
section
/-! DEFINITION. Units lost in service (R31, R32, R247, R456, R457, R462 to R465): the assignment of logical cores, core
images and changes of pocket ways. -/

namespace Sys2Proof.Machine

/-! Core images (R462, R463). -/

/-- The first reserved bolt of logical core `c`'s image; its limp area follows 64 bolts on. -/
def imageBolt (c : Nat) : Nat := 33024 + 128 * c

/-- Copies bolts of the reserved area into scratch; those of a stack out of service read zero (R254, R267). -/
def State.scratchFrom (s : State) (bolt phys lo n : Nat) : State :=
  (List.range n).foldl (fun t i =>
    t.setStores { t.mem.st with
      scratch := Memory.copy 0 (if t.rsvDead (bolt + lo + i) then [] else t.mem.st.hbm) (rsvAddr t (bolt + lo + i) 0) 65536
        t.mem.st.scratch (4194304 * phys + 65536 * (lo + i)) }) s

/-- Copies scratch into bolts of the reserved area; a stack out of service discards what it is sent. -/
def State.scratchTo (s : State) (bolt phys lo n : Nat) : State :=
  (List.range n).foldl (fun t i =>
    if t.rsvDead (bolt + lo + i) then t
    else t.setStores { t.mem.st with
      hbm := Memory.copy 0 t.mem.st.scratch (4194304 * phys + 65536 * (lo + i)) 65536 t.mem.st.hbm
        (rsvAddr t (bolt + lo + i) 0) }) s

/-- The whole core image of logical core `c` is loaded into physical core `p` of its region (R463). -/
def State.loadImage (s : State) (c p : Nat) : State := s.scratchFrom (imageBolt c) (9 * (c / 8) + p) 0 64

/-! Assignment (R456, R457, R464). -/

/-- Logical core `k` of region `r` is carried by physical core `p`, or, with 15, becomes a hole. -/
def State.assign (s : State) (r k p : Nat) : State :=
  let s := s.setSub .RGN_CORE_MAP_PHYS r (4 * k) 4 p
  s.setF .CORE_ID_PHYS_K (8 * r + k) p

/-- RGN_STATUS.STATE of a region in service follows its holes. -/
def State.showRegion (s : State) (r : Nat) : State :=
  if s.f .RGN_STATUS_STATE r = 2 || s.f .RGN_STATUS_STATE r = 3 then
    s.setF .RGN_STATUS_STATE r (if (s.holesOf r).isEmpty then 2 else 3)
  else s

/-- A region goes out (R457): its logical cores are holes without a carrier, its field-map entry is made, and its
partition loses it. -/
def State.regionGoesOut (s : State) (r : Nat) : State :=
  let s := (List.range 8).foldl (fun t k => t.assign r k 15) s
  let s := (s.setF .RGN_STATUS_STATE r 4).setF .RGN_LIMP_CARRIER r 0xFFFFFFFF
  let s := s.mapAdd { kind := 1, unit := r }
  match s.partOfRegion r with
  | none => s
  | some p => s.setF .HUB_PART_CFG_REGIONS p (putBit (s.f .HUB_PART_CFG_REGIONS p) r false)

/-- Is the spare of a region usable and unused (R464)? -/
def State.spareFree (s : State) (r : Nat) : Bool :=
  (s.carried r 8).isNone && !bitAt (s.f .RGN_CORE_MAP_FUSED r) 8 && !bitAt (s.f .RGN_CORE_MAP_FIELD r) 8
    && !bitAt (s.f .RGN_CORE_MAP_FIT_FAIL r) 8

/-- A logical core fenced in the step moves to the spare, or becomes a hole (R464). -/
def State.remapCore (s : State) (r k : Nat) : State :=
  let p := s.physK r k
  let cause := (s.core (8 * r + k)).faultCause
  let s := s.setF .RGN_CORE_MAP_FIELD r (putBit (s.f .RGN_CORE_MAP_FIELD r) p true)
  let s := s.mapAdd { kind := 0, unit := r, sub := p, cause := cause }
  let s := s.assign r k 15
  if p ≠ 8 && s.spareFree r then
    let s := (s.assign r k 8).mapAdd { kind := 6, unit := r, sub := k }
    let s := s.loadImage (8 * r + k) 8
    (s.raise .RGN_STATUS_REMAP_SEEN r).tally .RGN_REMAPS r 1
  else s.raise .RGN_STATUS_HOLE_SEEN r

/-- The region controller's work at the boundary after a fence (R464). -/
def State.remapRegion (s : State) (r : Nat) : State :=
  let bad := (List.range 8).filter (fun k => s.f .CORE_STATUS_STATE (8 * r + k) = 4 && s.physK r k ≠ 15)
  if bad.isEmpty then s
  else
    let s := bad.foldl (fun t k => (t.remapCore r k).setF .CORE_STATUS_STATE (8 * r + k) 0) s
    if (s.carriedOf r).isEmpty then
      ((s.regionGoesOut r).loseCapacity).setWithdraw (2 ^ causeUnit)
    else (s.showRegion r).loseCapacity

/-- Carriers of the holes of a region for a step (R465). -/
def State.setCarriers (s : State) (r step : Nat) : State :=
  let cs := s.carriedOf r
  if s.regionOut r || cs.isEmpty then s.setF .RGN_LIMP_CARRIER r 0xFFFFFFFF
  else
    let hs := s.holesOf r
    (List.range 8).foldl (fun t k =>
      t.setSub .RGN_LIMP_CARRIER r (4 * k) 4
        (if hs.contains k then cs.getD ((step + hs.findIdx (fun x => x = k)) % cs.length) 0 else 15)) s

/-! Pocket ways (R247). -/

/-- The KIND and SWATCH that way register `i` asks for; KIND 0 and 1 ignore SWATCH (R261). -/
def State.wayAsked (s : State) (i : Nat) : Nat :=
  let kind := s.f .RGN_PKT_WAY_KIND i % 4
  kind + (if kind < 2 then 0 else 4 * s.f .RGN_PKT_WAY_SWATCH i)

/-- The swatches a change of way concerns: those named before and after, and for a shared cache those of the region's
partition. -/
def State.wayConcerns (s : State) (i v : Nat) : List Nat :=
  if v % 4 = 0 then []
  else if v % 4 = 1 then
    match s.partOfRegion (i / 16) with
    | some p => s.startedSws.filter (fun k => s.partHasSwatch p k)
    | none => []
  else [v / 4]

/-- A change of a way takes effect: its cache lines are invalidated, and a scratch way is zeroed before its new owner may
use it. -/
def State.applyWay (s : State) (i : Nat) : State :=
  let old := FMap.get 0 s.mem.ways i
  let new := s.wayAsked i
  if old = new then s
  else
    let r := i / 16
    let w := i % 16
    let lines := s.mem.lines.filter (fun p => !(p.1 / 16 / 16384 = r && p.1 % 16 = w))
    let zero := old % 4 = 3 || new % 4 = 3
    let s := s.setMem { s.mem with
      ways := FMap.set 0 s.mem.ways i new, lines := lines
      zeroing := if zero then FMap.set 0 s.mem.zeroing i (s.now + 1) else s.mem.zeroing }
    if zero then s.setF .RGN_PKT_STATUS_ZEROING r (putBit (s.f .RGN_PKT_STATUS_ZEROING r) w true) else s

/-- A change of a way takes effect once every swatch it concerns is idle, or at the boundary of the last (R18). -/
def State.tryWay (s : State) (i : Nat) : State :=
  if (s.wayConcerns i (FMap.get 0 s.mem.ways i) ++ s.wayConcerns i (s.wayAsked i)).all s.idle then s.applyWay i else s

/-- Every way register whose value is not yet in force is looked at. -/
def State.tryWays (s : State) : State := (List.range 768).foldl (fun t i => t.tryWay i) s

end Sys2Proof.Machine
end

