-- ==== Sys2Proof/Machine/Jobs.lean ====
section
/-! DEFINITION. Job boards and result slots (R402 to R410). -/

namespace Sys2Proof.Machine

/-! Records (R403). -/

/-- TYPE of a record: 0 RUN, 1 TIER, 2 STOP. -/
def jrType (v : Nat) : Nat := bitField v 34 2
/-- SWATCH. -/
def jrSwatch (v : Nat) : Nat := bitField v 48 16
/-- SLOT. -/
def jrSlot (v : Nat) : Nat := bitField v 64 12
/-- STEPS. -/
def jrSteps (v : Nat) : Nat := bitField v 96 32

/-- Is a record bad by itself (R405)? -/
def jrBad (v : Nat) : Bool :=
  bitField v 32 2 ≠ 1 || jrType v = 3 || !zeroBits v 38 10 || !zeroBits v 76 20 || !zeroBits v 128 128

/-- The functions in which partition `p`'s job board shows: its own, and the physical function for partition 0, which its
HST_ID names (R428). -/
def boardFns (p : Nat) : List Nat := if p = 0 then [0, 1] else [p + 1]

/-- E of a partition (R402). -/
def State.boardSeq (s : State) (p : Nat) : Nat := s.f .HST_JOB_NEXT_SEQ (p + 1)

/-- Writes a field of HST_JOB for a partition. -/
def State.setBoard (s : State) (n : FieldName) (p v : Nat) : State := (boardFns p).foldl (fun t fn => t.setF n fn v) s

/-- The record at ring index (E - 1) mod 4,096 (R402). -/
def State.boardRec (s : State) (p : Nat) : Nat :=
  leNat (Memory.bytes 0 s.mem.st.jobs (0x40000 * p + 64 * ((s.boardSeq p + 2 ^ 32 - 1) % 4096)) 64)

/-- Runs queued for a swatch, those of records taken but not yet acted on included. -/
def State.queuedRuns (s : State) (k : Nat) : Nat :=
  (s.sw k).runs.length + (s.taken.filter (fun x => jrType x.2 = 0 && jrSwatch x.2 = k && !jrBad x.2)).length

/-- Why a check stops at a record: 1 its slot is reserved, 2 a fifth queued run; 0 it does not (R404). -/
def State.boardWhy (s : State) (p v : Nat) : Nat :=
  if (FMap.get {} s.slots (4096 * p + jrSlot v)).reserved then 1
  else if !jrBad v && jrType v = 0 && s.partHasSwatch p (jrSwatch v) && 4 ≤ s.queuedRuns (jrSwatch v) then 2
  else 0

/-- The check stops at a record: counted once while it stays stopped there, with cause BOARD (R404). -/
def State.boardStop (s : State) (p why : Nat) : State :=
  let again := s.f .HST_JOB_STALLED (p + 1) = 1 && s.f .HST_JOB_WHY (p + 1) = why
  let s := (s.setBoard .HST_JOB_STALLED p 1).setBoard .HST_JOB_WHY p why
  if again then s
  else
    let n := if why = 1 then FieldName.HST_SLOT_WAIT else FieldName.HST_BOARD_STALL
    ((s.tally n 0 1).tally n (p + 1) 1).interruptPart p 1

/-- A record is taken: its slot is reserved, E advances and no stop is left (R404, R410); a bad one posts at once
(R405). -/
def State.takeRecord (s : State) (p v : Nat) : State :=
  let s := { s with slots := FMap.set {} s.slots (4096 * p + jrSlot v) ⟨true, none⟩ }
  let s := s.setBoard .HST_JOB_NEXT_SEQ p ((s.boardSeq p + 1) % 2 ^ 32)
  let s := (s.setBoard .HST_JOB_STALLED p 0).setBoard .HST_JOB_WHY p 0
  let s := (s.tally .HST_JOBS 0 1).tally .HST_JOBS (p + 1) 1
  let fail (status : Nat) : State :=
    s.post p (jrSlot v) (bitAt v 36) { seq := bitField v 0 32, status := status, sw := jrSwatch v }
  if jrBad v then fail 5
  else if jrType v ≠ 1 && !s.partHasSwatch p (jrSwatch v) then fail 4
  else { s with taken := s.taken ++ [(p, v)] }

/-- Up to `n` records are taken. (DESIGN CHOICE, log 93.) -/
def State.boardLoop (s : State) (p : Nat) : Nat → State
  | 0 => (s.setBoard .HST_JOB_STALLED p 0).setBoard .HST_JOB_WHY p 0
  | n + 1 =>
    let v := s.boardRec p
    if bitField v 0 32 ≠ s.boardSeq p then (s.setBoard .HST_JOB_STALLED p 0).setBoard .HST_JOB_WHY p 0
    else if s.boardWhy p v ≠ 0 then s.boardStop p (s.boardWhy p v)
    else (s.takeRecord p v).boardLoop p n

/-- A check of a partition's board takes up to 64 records (R404). -/
def boardCheck (p : Nat) (s : State) : State :=
  if s.f .HUB_PART_CFG_ENABLE p = 1 && s.f .HUB_BOOT_READY 0 = 1 then s.boardLoop p 64 else s

/-- JOB_BOARD_CHECK. -/
def execJobBoardCheck (p : Nat) (s : State) : Host.Outcome State Fault Refusal := act (p < 8) (whenUp (boardCheck p)) s

/-! Records that act (R405). -/

/-- The result of a run that ends. -/
def RunJob.result (r : RunJob) (k status : Nat) : Result :=
  { seq := r.seq, status := status, sw := k, done := r.done, committed := r.committed, lastStep := r.lastStep
    lastCause := r.lastCause, lastV := flagBit r.lastV }

/-- Every run of a swatch ends with a status. -/
def State.endRuns (s : State) (k status : Nat) : State :=
  let rs := (s.sw k).runs
  rs.foldl (fun t r => t.post r.part r.slot r.irq (r.result k status)) (s.updSw k (fun x => { x with runs := [] }))

/-- The front run of a swatch ends early with a status; the runs behind it stay queued (R405). -/
def State.endFront (s : State) (k status : Nat) : State :=
  match (s.sw k).runs with
  | [] => s
  | r :: rest => (s.updSw k (fun x => { x with runs := rest })).post r.part r.slot r.irq (r.result k status)

/-- The front record of a type acts. -/
def takeFront (type : Nat) (f : Nat → Nat → State → State) (s : State) : State :=
  match s.taken with
  | [] => s
  | (p, v) :: rest => if jrType v = type then f p v { s with taken := rest } else s

/-- RUN queues its steps behind the swatch's earlier runs; without steps it is over at once. -/
def jobRun : State → State :=
  takeFront 0 (fun p v s =>
    let k := jrSwatch v
    let r : RunJob :=
      { seq := bitField v 0 32, slot := jrSlot v, part := p, irq := bitAt v 36, left := jrSteps v, ckpt := bitAt v 37 }
    if r.left = 0 then s.post p r.slot r.irq (r.result k 0)
    else s.updSw k (fun x => { x with runs := x.runs ++ [r] }))

/-- JOB_RUN. -/
def execJobRun (s : State) : Host.Outcome State Fault Refusal := act true (whenUp jobRun) s

/-- TIER posts its tier request (R299). -/
def jobTier : State → State :=
  takeFront 1 (fun p v s =>
    s.postTier { bits := bitField v 256 256, done := 0, job := 1, part := p, seq := bitField v 0 32, slot := jrSlot v
                 irq := bitAt v 36, since := s.now, gen := 0, recSw := jrSwatch v })

/-- JOB_TIER. -/
def execJobTier (s : State) : Host.Outcome State Fault Refusal := act true (whenUp jobTier) s

/-- STOP posts at once, and ends the swatch's runs at its next step boundary, which for an idle swatch is now.
(DEDUCED, log 94.) -/
def jobStop : State → State :=
  takeFront 2 (fun p v s =>
    let k := jrSwatch v
    let s := s.post p (jrSlot v) (bitAt v 36) { seq := bitField v 0 32, sw := k }
    if s.idle k then s.endRuns k 1 else s.updSw k (fun x => { x with stopDue := true }))

/-- JOB_STOP. -/
def execJobStop (s : State) : Host.Outcome State Fault Refusal := act true (whenUp jobStop) s

/-! Result slots (R408 to R410). -/

/-- Does a function reach a partition's job board and slots (R395)? -/
def fnReaches (fn p : Nat) : Bool := fn = 0 || fn = p + 1

/-- A read of a slot returns it as posted; before that it reads zero and is counted (R409). -/
def slotRead (fn p i : Nat) (s : State) : State :=
  if !fnReaches fn p then (s.tally .HST_MMIO_DENIED fn 1).emit (.data 0)
  else
    match (FMap.get {} s.slots (4096 * p + i)).posted with
    | some v => s.emit (.data v)
    | none => (s.tally .HST_EARLY_READS fn 1).emit (.data 0)

/-- SLOT_READ. -/
def execSlotRead (fn p i : Nat) (s : State) : Host.Outcome State Fault Refusal :=
  act (fn < 9 && p < 8 && i < 4096) (whenUp (slotRead fn p i)) s

/-- RELEASE empties a posted slot (R409, R410). -/
def slotRelease (fn p i : Nat) (s : State) : State :=
  if !fnReaches fn p then s.tally .HST_MMIO_DENIED fn 1
  else
    match (FMap.get {} s.slots (4096 * p + i)).posted with
    | some _ => { s with slots := FMap.erase s.slots (4096 * p + i) }
    | none => s

/-- SLOT_RELEASE. -/
def execSlotRelease (fn p i : Nat) (s : State) : Host.Outcome State Fault Refusal :=
  act (fn < 9 && p < 8 && i < 4096) (whenUp (slotRelease fn p i)) s

end Sys2Proof.Machine
end

