-- ==== Sys2Proof/Machine/Sched.lean ====
section
/-! DEFINITION. Scheduling, switching and preemption of swatches, and the writes of the host that concern them (R351 to
R373, R381, R465, R466). -/

namespace Sys2Proof.Machine

/-! Withdrawal (R207, R327, R345). -/

/-- The module leaves every domain of which it is a member. One that withdraws only because a timer expired, or for a block that
state transfer restores, asks to join again (R187, R211, R327); one withdrawn for disagreeing blocks does so after a fitting run
(R218, R219). Steps of those domains still open are not completed here. -/
def State.withdrawNow (s : State) : State :=
  match s.withdraw with
  | none => s
  | some cause =>
    let ds := (List.range 16).filter s.isMember
    let s := ds.foldl (fun t d => t.leaveDom d cause) s
    let s := (s.startedSws.filter (fun k => (s.sw k).domain < 16 && (s.sw k).final.isNone)).foldl (fun t k =>
      t.updSw k (fun r => { r with failed := true })) s
    let again := s.timedOut || s.rejoin = 1
    let s := { s with
      withdraw := none, timedOut := false, rejoin := 0
      refit := if s.rejoin = 2 then ds.filter s.domEnabled else s.refit }
    if again then (ds.filter s.domEnabled).foldl (fun t d => (t.sendJoin d).trigger d) s else s

/-! Switching a core (R363, R364). -/

/-- The switch record of "no swatch". -/
def noSwatch : Nat := 65536

/-- A switch is asked of a core; a later request replaces one not yet begun and waits for one that runs (R364). -/
def State.askSwitch (s : State) (c k : Nat) : State :=
  let r := match FMap.get none s.switches c with
    | none => ({ sw := k, since := s.now, moving := false } : SwitchRec)
    | some r => if r.moving then { r with next := some k } else { r with sw := k }
  { s with switches := FMap.set none s.switches c (some r) }

/-- SWITCH_REQUEST: the sequencer stops issuing. -/
def execSwitchRequest (c k : Nat) (s : State) : Host.Outcome State Fault Refusal :=
  act (coreOk c && k < 65536) (whenUp (fun s => s.askSwitch c k)) s

/-- Has the core reached a K-tile boundary with its edge banks drained (R69, R363)? -/
def Core.parked (k : Core) : Bool :=
  k.arr.pipe.isEmpty && k.arr.due.isEmpty && k.arr.drains.isEmpty && k.kTileDone

/-- Where the save record of logical core `c` lies in swatch `k`'s save area (R355). -/
def State.saveAt (s : State) (k c : Nat) : Nat :=
  s.desc k 896 52 + 1482752 + 196608 * ((coresOf (if (s.sw k).started then (s.sw k).regions else s.desc k 64 48)).findIdx (fun x => x = c))

/-- The empty map of a core's partials (R356). -/
def ArrSt.emptyMap (r : ArrSt) : Nat :=
  maskOf ((List.range 256).filter (fun i => !r.partials.any (fun p => p.1 / 64 = i && p.2.isSome)))

/-- The architected sections of a save record: empty map, partials and the edge bank in use (R356).
(DESIGN CHOICE, log 92.) -/
def State.putSave (s : State) (a : Nat) (r : ArrSt) : State :=
  let s := s.putDevNat (a + 14336) r.emptyMap 32
  let s := (List.range 256).foldl (fun t i =>
    if r.partials.any (fun p => p.1 / 64 = i) then
      t.putDev (a + 16384 + 176 * i) (packRow 22 ((List.range 64).map (fun j =>
        (FMap.get none r.partials (64 * i + j)).getD 0)))
    else t) s
  r.edge.foldl (fun t p => (t.putDevNat (a + 61440 + 4 * p.1) p.2.1 4).putDevNat (a + 126976 + 4 * p.1) p.2.2 4) s

/-- The key of a save record. -/
def saveKey (k c : Nat) : Nat := 512 * k + c

/-- What a core saves (R356): operands staged are discarded, to be staged again on resume (R363), and the bobbins with
them. -/
def State.saveRec (s : State) (c : Nat) : SaveRec :=
  let k := s.core c
  let drop (e : QEnt) : QEnt :=
    { e with staged := e.staged - (k.arr.staged.filter (fun x =>
        x.seq = e.seq && x.aRows.length = e.rows x.blk && !k.arr.isFace x)).length }
  { core := { k with arr := { k.arr with staged := [], cyc := 0, fill := 0 }, matQ := k.matQ.map drop, ringAt := 0 }
    state := s.f .CORE_STATUS_STATE c, pc := s.f .CORE_PC_PC c, depth := s.f .CORE_PC_DEPTH c
    beta := s.f .VEC_BETA_BETA c, eps := s.f .VEC_EPS_EPS c, qbase := s.f .VEC_POS_QBASE c
    kbase := s.f .VEC_POS_KBASE c, mask := s.f .VEC_POS_MASK c }

/-- Sets the registers of a core's sequencer and vector unit. -/
def State.putCoreRegs (s : State) (c pc depth beta eps qbase kbase mask : Nat) : State :=
  let s := ((s.setF .CORE_PC_PC c pc).setF .CORE_PC_DEPTH c depth).setF .VEC_BETA_BETA c beta
  (((s.setF .VEC_EPS_EPS c eps).setF .VEC_POS_QBASE c qbase).setF .VEC_POS_KBASE c kbase).setF .VEC_POS_MASK c mask

/-- The core continues from a save record (R363, step 5). A context of a core that has become a hole since sleeps until its
carrier takes it (R83, R464, R466). (DESIGN CHOICE, log 99.) -/
def State.restoreRec (s : State) (c : Nat) (r : SaveRec) : State :=
  let hole := s.physK (c / 8) (c % 8) = 15
  let s := (s.putCoreRegs c r.pc r.depth r.beta r.eps r.qbase r.kbase r.mask).setCore c
    { r.core with asleep := r.core.asleep || (hole && !r.core.entered) }
  ((s.showArr c).showVec c).setF .CORE_STATUS_STATE c (if r.state = 3 then 1 else r.state)

/-- The outgoing swatch's part of a switch: a record is written when its step is open and unbroken and the core is still
in it; a record that cannot be written breaks the step (R363, R364). -/
def State.switchOut (s : State) (c : Nat) : State :=
  let k := s.swOf c
  let st := s.f .CORE_STATUS_STATE c
  let r := s.sw k
  if !r.started || !(st = 1 || st = 2 || st = 3 || st = 5) then s
  else if r.broken then s.updSw k (fun x => { x with lostSave := true })
  else if (s.swCores k).all (fun x => s.f .CORE_STATUS_STATE x = 5) then s
  else if !s.homeLive (s.saveAt k c) then
    (s.failStep k causeUnit).updSw k (fun x => { x with lostSave := true })
  else
    let s := (s.putSave (s.saveAt k c) (s.core c).arr)
    { s with saved := FMap.set none s.saved (saveKey k c) (some (s.saveRec c)) }

/-- The incoming swatch's part: one with an open step goes on from its record, or only to its boundary when there is none
to go on from or its step is broken; any other waits for its step to start (R363, R364). BROKEN shows its step (R86), and
the holes of its region are carried as its step assigns (R83, R465). -/
def State.switchIn (s : State) (c k : Nat) : State :=
  let s := (((s.setCore c {}).setF .CORE_STATUS_BROKEN c 0).showArr c).showVec c
  if k = noSwatch then s.setF .CORE_STATUS_STATE c 0
  else
    let s := (s.setF .CORE_STATUS_SWATCH c k).setF .CORE_PROG_BASE c (s.desc k 44 19)
    let s := s.setF .RGN_STATUS_SWATCH (c / 8) k
    if !(s.sw k).started then s.setF .CORE_STATUS_STATE c 0
    else
      let s := (s.setF .CORE_STATUS_BROKEN c (flagBit (s.sw k).broken)).setCarriers (c / 8) (s.sw k).step
      match FMap.get none s.saved (saveKey k c) with
      | some r =>
        if (s.sw k).broken then s.setF .CORE_STATUS_STATE c 6
        else if (s.sw k).lostSave || !s.homeLive (s.saveAt k c) then
          ((s.failStep k causeUnit).updSw k (fun x => { x with lostSave := true })).setF .CORE_STATUS_STATE c 6
        else
          let s := s.restoreRec c r
          { s with saved := FMap.erase s.saved (saveKey k c) }
      | none => s.setF .CORE_STATUS_STATE c (if (s.sw k).lostSave then 6 else 5)

/-- A core moves its state, once it has reached a boundary; it shows STATE 3 until the switch completes (R86). A fenced
core waits for the step boundary (R83). -/
def coreSwitch (c : Nat) (s : State) : State :=
  match FMap.get none s.switches c with
  | none => s
  | some r =>
    if r.moving || s.f .CORE_STATUS_STATE c = 4 || !(s.core c).parked then s
    else
      let t := (s.switchOut c).switchIn c r.sw
      let after := t.f .CORE_STATUS_STATE c
      { t.setF .CORE_STATUS_STATE c 3 with
        switches := FMap.set none t.switches c (some { r with moving := true, after := after }) }

/-- CORE_SWITCH. -/
def execCoreSwitch (c : Nat) (s : State) : Host.Outcome State Fault Refusal := act (coreOk c) (whenUp (coreSwitch c)) s

/-- The core goes on as the switch left it; where its step has broken meanwhile it abandons its program (R67, R86). -/
def State.endSwitch (s : State) (c after : Nat) : State :=
  if s.f .CORE_STATUS_STATE c ≠ 3 then s
  else if s.f .CORE_STATUS_BROKEN c = 1 && (after = 1 || after = 2) then s.abandon c
  else s.setF .CORE_STATUS_STATE c after

/-- The traffic of a switch is done: it is counted, with the longest time in ns, the core goes on, and a request that
waited follows (R364, R366, R383). (DEDUCED, log 96, 100.) -/
def switchComplete (c : Nat) (s : State) : State :=
  match FMap.get none s.switches c with
  | none => s
  | some r =>
    if !r.moving then s
    else
      let ns := (s.now - r.since) * 5 / 6
      let s := (s.tally .SWT_SWITCHES 0 1).setF .SWT_SWITCH_MAX 0 (natMax (s.f .SWT_SWITCH_MAX 0) (natMin ns 0xFFFFFFFF))
      let s := ({ s with switches := FMap.erase s.switches c }).endSwitch c r.after
      match r.next with
      | none => s
      | some k => s.askSwitch c k

/-- SWITCH_COMPLETE. -/
def execSwitchComplete (c : Nat) (s : State) : Host.Outcome State Fault Refusal :=
  act (coreOk c) (whenUp (switchComplete c)) s

/-! Scheduling (R358 to R361). -/

/-- The partition that owns a swatch by its descriptor. -/
def State.partOf (s : State) (k : Nat) : Nat := s.desc k 3 3

/-- Does the domain of a swatch let a step start (R208, R326, R358)? -/
def State.domainReady (s : State) (k : Nat) : Bool :=
  let d := s.desc k 6 5
  d = 16 || 16 < d || !s.domEnabled d
    || (s.isMember d && s.f .COLL_STATUS_HALTED 0 / 2 ^ d % 2 = 0 && (s.dom d).accepted.isNone && !(s.dom d).leaveDue)

/-- Is a swatch runnable (R358)? No step of it starts while a change of its partition waits (R373), while a core of its
regions is in reset (R463), while the module is about to withdraw, or until its fitting run is done (R218). -/
def State.runnable (s : State) (k : Nat) : Bool :=
  s.desc k 2 1 = 1 && s.run k = 0 && s.idle k && !(s.sw k).picked && !(s.sw k).runs.isEmpty && s.domainReady k
    && s.withdraw.isNone && s.refit.isEmpty && s.f .HUB_BOOT_READY 0 = 1 && !(coresOf (s.desc k 64 48)).any s.coreInReset
    && s.f .HUB_PART_SWT_PENDING (s.partOf k) = 0

/-- The regions that a swatch holds: of a step in its cores, or of a step about to start. -/
def State.holds (s : State) (k : Nat) : Nat :=
  let r := s.sw k
  if r.picked then s.desc k 64 48
  else if r.started && s.run k = 1 && !(s.swCores k).all (fun c => s.f .CORE_STATUS_STATE c = 5) then r.regions else 0

/-- Swatches that hold one of the regions of a mask. -/
def State.holdersOf (s : State) (mask : Nat) : List Nat := s.swatches.filter (fun k => s.holds k &&& mask ≠ 0)

/-- Is swatch `a` picked before `b` (R359)? -/
def State.ranksBefore (s : State) (a b : Nat) : Bool :=
  let pa := s.desc a 11 2
  let pb := s.desc b 11 2
  if pa ≠ pb then pb < pa
  else if (s.sw a).lastStart ≠ (s.sw b).lastStart then (s.sw a).lastStart < (s.sw b).lastStart
  else a < b

/-- The first of a list by that order. -/
def State.bestOf (s : State) : List Nat → Option Nat
  | [] => none
  | k :: l =>
    match State.bestOf s l with
    | none => some k
    | some j => if s.ranksBefore j k then some j else some k

/-- Between steps (R18, R31, R32): a region without an open step remaps its fenced cores before a swatch next runs there,
and with no step open on the module a withdrawal that is due takes place. (DEDUCED, log 162.) -/
def State.betweenSteps (s : State) : State :=
  let busy := s.startedSws.foldl (fun m k => m ||| (s.sw k).regions) 0
  let s := ((List.range 48).filter (fun r => !bitAt busy r)).foldl State.remapRegion s
  if s.startedSws.isEmpty then s.withdrawNow else s

/-- The choice of a partition's scheduler: the best runnable swatch whose regions are free (R359); a swatch that is due back
comes first (R361). -/
def State.choice (s : State) (p : Nat) : Option Nat :=
  let due := s.swatches.filter (fun k => s.run k = 2 && (s.sw k).started)
  let free (k : Nat) : Bool :=
    (s.holdersOf (s.desc k 64 48)).isEmpty && !due.any (fun j => (s.sw j).regions &&& s.desc k 64 48 ≠ 0)
  s.bestOf (s.swatches.filter (fun k => s.partOf k = p && s.runnable k && free k))

/-- A partition's scheduler picks a swatch (R359). (DESIGN CHOICE, log 91.) -/
def schedule (p : Nat) (s : State) : State :=
  let s := s.betweenSteps
  match s.choice p with
  | none => s
  | some k => s.updSw k (fun r => { r with picked := true })

/-- SCHEDULE. -/
def execSchedule (p : Nat) (s : State) : Host.Outcome State Fault Refusal := act (p < 8) (whenUp (schedule p)) s

/-- Bits of a descriptor that no field holds (R350). -/
def descReservedZero (v : Nat) : Bool :=
  zeroBits v 63 1 && zeroBits v 112 16 && zeroBits v 141 51 && zeroBits v 372 12 && zeroBits v 436 12 && zeroBits v 500 12
    && zeroBits v 564 12 && zeroBits v 628 12 && zeroBits v 692 12 && zeroBits v 756 12 && zeroBits v 820 12
    && zeroBits v 884 12 && zeroBits v 948 12 && zeroBits v 1011 13 && zeroBits v 1056 736 && zeroBits v 1948 100

/-- The first reason of R352 for which a descriptor is invalid; 0 for none. -/
def State.descReason (s : State) (k : Nat) : Nat :=
  let v := leNat (Memory.bytes 0 s.mem.st.sram (descAt k) 256)
  let p := s.partOf k
  let d := s.desc k 6 5
  let regions := s.desc k 64 48
  let one := s.desc k 15 5
  let base := s.desc k 128 6
  let size := s.desc k 134 7
  let prog := s.desc k 44 19
  let members := if d < 16 then s.expected d else 1
  firstFail
    [(s.desc k 0 2 ≠ 1 || !descReservedZero v, 1),
     (s.f .HUB_PART_CFG_ENABLE p ≠ 1, 2),
     (regions = 0 || (setBitsOf regions 48).any (fun r => !bitAt (s.f .HUB_PART_CFG_REGIONS p) r), 3),
     (16 < d || (d < 16 && !s.domEnabled d), 4),
     (s.desc k 13 2 = 3 || (24 ≤ one && one ≤ 30), 5),
     (size = 0 || 64 < base + size || !(65536 * base ≤ 8 * prog && 8 * prog < 65536 * (base + size)), 6),
     (if (s.sw k).planDirty then s.planFails k members else (s.sw k).planBad, 7),
     (s.desc k 896 52 = 0, 8)]

/-- A swatch found invalid does not run (R352): RUN is 7, and the run whose step it was ends early (R405). -/
def State.invalid (s : State) (k reason : Nat) : State :=
  let s := (s.setRun k 7).updSw k (fun r =>
    { r with picked := false, planDirty := false, planBad := decide (reason = 7) })
  let s := ((s.setF .SWT_STATUS_SWATCH 0 k).setF .SWT_STATUS_REASON 0 reason).raise .SWT_STATUS_INVALID_SEEN 0
  (s.tally .SWT_INVALID 0 1).endFront k 3

/-- A logical core starts a step at PROG_BASE with its sequencer state cleared (R134, R358). A hole's context sleeps until
its carrier takes it (R466). -/
def State.startCore (s : State) (k c : Nat) : State :=
  let s := s.setCore c { ({} : Core) with asleep := s.physK (c / 8) (c % 8) = 15 }
  let s := ((s.takeShuttle c).showArr c).showVec c
  let prog := s.desc k 44 19
  let s := s.putCoreRegs c prog 0 0x3F800000 (fieldDesc .VEC_EPS_EPS).reset 0 0 0
  let s := (s.setF .CORE_PROG_BASE c prog).setF .CORE_STATUS_SWATCH c k
  (s.setF .CORE_STATUS_BROKEN c 0).setF .CORE_STATUS_STATE c 1

/-- Is the step that starts a checkpoint step: the last of a marked run (R405)? -/
def SwRun.marksCkpt (r : SwRun) : Bool :=
  match r.runs with
  | j :: _ => j.ckpt && j.left = 1
  | [] => false

/-- The swatch's state for a step that starts. -/
def SwRun.begin (r : SwRun) (now step regions domain : Nat) : SwRun :=
  { ({} : SwRun) with
    started := true, step := step, ckpt := r.marksCkpt, prevCkpt := r.ckpt, cause := r.nextCause
    broken := r.nextBit0, bit0 := r.nextBit0, regions := regions, domain := domain, planSince := now, lastStart := now + 1
    runs := r.runs, parkDue := r.parkDue, stopDue := r.stopDue, repairs := r.repairs, lost := r.lost
    behind := r.behind, lostState := r.lostState, planDirty := false }

/-- The valid swatch's step starts: its number and settings are taken, the holes of its regions get carriers, and every
logical core of them starts; one whose bit is 0 from the start is broken (R358, R465, R199). -/
def State.beginStep (s : State) (k regions : Nat) : State :=
  let r := s.sw k
  let s := if s.desc k 1792 64 = 0 then s.setDesc k 1792 64 1 else s
  let step := s.desc k 1792 64
  let s := (s.setSw k (r.begin s.now step regions (s.desc k 6 5))).takeSettings k
  let s := s.setRun k 1
  let s := { s.setF .THM_STATUS_CLEAN 0 0 with thm := { s.thm with clean := false } }
  let s := { s with saved := s.saved.filter (fun p => p.1 / 512 ≠ k) }
  let s := (setBitsOf regions 48).foldl (fun t g => (t.setCarriers g step).setF .RGN_STATUS_SWATCH g k) s
  let s := (coresOf regions).foldl (fun t c => t.startCore k c) s
  if r.nextBit0 then (coresOf regions).foldl breakCore s else s

/-- The tables that the start of a step reads: hint bytes, span table, and the descriptors of the groups that spans name. -/
def State.startReads (s : State) (k : Nat) : List (Nat × Nat) :=
  (if s.desc k 640 52 = 0 then [] else [(s.desc k 640 52, 4096)]) ++ [(s.desc k 384 52, 128 * s.spanCount k)]
    ++ (sortAsc ((s.spans k).map (fun p => spGroup p.2))).map (fun g => (s.desc k 448 52 + 128 * g, 128))

/-- A step of the picked swatch starts on every logical core of its regions, after the descriptor check (R352, R358), once the
run plan and the tables that it reads are served (R264, R277). -/
def stepStart (k : Nat) (s : State) : State :=
  if !(s.sw k).picked || (coresOf (s.desc k 64 48)).any (fun c => (FMap.get none s.switches c).isSome) then s
  else
    let s := s.betweenSteps
    s.engine k [(s.desc k 320 52, 16 * s.desc k 960 17)] [] (fun s =>
      if s.descReason k ≠ 0 then s.invalid k (s.descReason k)
      else s.engine k (s.startReads k) (s.tagTables k) (fun s => s.beginStep k (s.desc k 64 48)))

/-- STEP_START. -/
def execStepStart (k : Nat) (s : State) : Host.Outcome State Fault Refusal := act (k < 65536) (whenUp (stepStart k)) s

/-! Preemption (R360, R361). -/

/-- A swatch with an open step is switched out of every region, its RUN becoming 2; `k` takes those it needs. -/
def State.putOut (s : State) (k out : Nat) : State :=
  let need := coresOf (s.desc k 64 48)
  let s := (s.setRun out 2).updSw out (fun r => { r with outAt := some s.now, preempted := true })
  let s := s.tally .SWT_PREEMPTS 0 1
  (s.swCores out).foldl (fun t c => t.askSwitch c (if need.contains c then k else noSwatch)) s

/-- May `out` be displaced: its step open, and not yet preempted in it? -/
def State.displaceable (s : State) (out : Nat) : Bool :=
  let r := s.sw out
  r.started && s.run out = 1 && !r.ended && !r.preempted && !r.returned

/-- A runnable swatch of higher priority preempts every swatch that holds its regions (R360). -/
def preempt (k : Nat) (s : State) : State :=
  let held := (s.holdersOf (s.desc k 64 48)).filter (fun j => j ≠ k)
  let may (j : Nat) : Bool := s.displaceable j && (s.sw j).preempt = 1 && s.desc j 11 2 < s.desc k 11 2
  if !s.runnable k || held.isEmpty || !held.all may then s
  else (held.foldl (fun t j => t.putOut k j) s).updSw k (fun r => { r with picked := true })

/-- PREEMPT. -/
def execPreempt (k : Nat) (s : State) : Host.Outcome State Fault Refusal := act (k < 65536) (whenUp (preempt k)) s

/-- A swatch that is out returns no later than MAX_OUT, displacing what runs there unless that has itself returned; free
regions it takes at once (R361). -/
def swatchReturn (k : Nat) (s : State) : State :=
  let r := s.sw k
  let held := (s.holdersOf r.regions).filter (fun j => j ≠ k)
  let late := match r.outAt with
    | some t => t + usec (natMax r.maxOut 1) ≤ s.now
    | none => false
  if s.run k ≠ 2 || !r.started || !(held.isEmpty || (late && held.all (fun j => s.displaceable j || (s.sw j).picked))) then s
  else
    let s := held.foldl (fun t j =>
      if (t.sw j).picked then t.updSw j (fun x => { x with picked := false }) else t.putOut k j) s
    let s := (s.setRun k 1).updSw k (fun x => { x with outAt := none, returned := true })
    let s := s.tally .SWT_RETURNS 0 1
    (coresOf r.regions).foldl (fun t c => t.askSwitch c k) s

/-- SWATCH_RETURN. -/
def execSwatchReturn (k : Nat) (s : State) : Host.Outcome State Fault Refusal := act (k < 65536) (whenUp (swatchReturn k)) s

/-! Limp (R465, R466). -/

/-- Can a context run: not at its end and not waiting at a barrier? -/
def State.contextRuns (s : State) (c : Nat) : Bool :=
  s.f .CORE_STATUS_STATE c = 1 && (match (s.core c).wait with
    | .stepend => false
    | _ => true)

/-- Moves a context's window out of the carrier's scratch and the next one's in; a hole that enters for the first time in
the step reads its window from its image (R466). -/
def State.swapWindow (s : State) (k out next phys : Nat) : State :=
  let lo := s.desc k 128 6
  let n := s.desc k 134 7
  let s := s.scratchTo (imageBolt out + 64) phys lo n
  let first := !(s.core next).entered && s.physK (next / 8) (next % 8) = 15
  s.scratchFrom (if first then imageBolt next else imageBolt next + 64) phys lo n

/-- A carrier leaves a context that has reached STEPEND or an unreleased SYNC, for the next of its contexts, in ascending
logical order and wrapping round, that can run. (DESIGN CHOICE, log 99.) -/
def limpSwitch (r carrier : Nat) (s : State) : State :=
  let cs := s.contexts r carrier
  match cs.find? (fun k => !(s.core (8 * r + k)).asleep) with
  | none => s
  | some cur =>
    let later := cs.filter (fun k => cur < k) ++ cs.filter (fun k => k < cur)
    if s.physK r carrier = 15 || s.regionOut r || cs.length < 2 || s.contextRuns (8 * r + cur)
        || s.f .CORE_STATUS_STATE (8 * r + carrier) = 4 then s
    else
      match later.find? (fun k => s.contextRuns (8 * r + k)) with
      | none => s
      | some next =>
        let out := 8 * r + cur
        let inn := 8 * r + next
        let s := s.swapWindow (s.swOf out) out inn (9 * r + s.physK r carrier)
        let s := s.setCore out { s.core out with asleep := true }
        (s.setCore inn { s.core inn with asleep := false, entered := true }).tally .RGN_LIMP_SWAPS r 1

/-- LIMP_SWITCH. -/
def execLimpSwitch (r carrier : Nat) (s : State) : Host.Outcome State Fault Refusal :=
  act (r < 48 && carrier < 8) (whenUp (limpSwitch r carrier)) s

/-! Commands and writes of the host (R351, R371 to R373, R381). -/

/-- Does a function reach a swatch (R351, R381)? -/
def State.fnHasSwatch (s : State) (fn k : Nat) : Bool := fn = 0 || s.partHasSwatch (fn - 1) k

/-- RESUME: RUN 3, 4, 5 or 7 returns to 0, and the descriptor is checked at the next step; a swatch below its domain's highest
committed step awaits state transfer instead (R208). -/
def resume (fn k : Nat) (s : State) : State :=
  let r := s.run k
  if s.fnHasSwatch fn k && (r = 3 || r = 4 || r = 5 || r = 7) then s.runAgain k else s

/-- RESUME. -/
def execResume (fn k : Nat) (s : State) : Host.Outcome State Fault Refusal :=
  act (fn < 9 && k < 65536) (whenUp (resume fn k)) s

/-- PARK: RUN becomes 3 at the next step boundary; for an idle swatch that is now. -/
def park (fn k : Nat) (s : State) : State :=
  if !s.fnHasSwatch fn k then s
  else if s.idle k then (if s.run k = 0 then s.setRun k 3 else s)
  else s.updSw k (fun r => { r with parkDue := true })

/-- PARK. -/
def execPark (fn k : Nat) (s : State) : Host.Outcome State Fault Refusal := act (fn < 9 && k < 65536) (whenUp (park fn k)) s

/-- The configuration in force. -/
def State.partCfg (s : State) (p : Nat) : PartCfg :=
  { regions := s.f .HUB_PART_CFG_REGIONS p, enable := s.f .HUB_PART_CFG_ENABLE p = 1
    first := s.f .HUB_PART_SWT_FIRST p, count := natMin (s.f .HUB_PART_SWT_COUNT p) (65536 - s.f .HUB_PART_SWT_FIRST p) }

/-- Does a configuration hold a swatch number? -/
def PartCfg.has (c : PartCfg) (k : Nat) : Bool := c.enable && c.first ≤ k && k < c.first + c.count

/-- Do two enabled configurations share a region or a swatch number (R371)? -/
def PartCfg.clashes (a b : PartCfg) : Bool :=
  a.enable && b.enable && (a.regions &&& b.regions ≠ 0
    || (a.count ≠ 0 && b.count ≠ 0 && a.first < b.first + b.count && b.first < a.first + a.count))

/-- The configuration that waits for a partition, or the one in force. -/
def State.partNext (s : State) (p : Nat) : PartCfg := (FMap.get none s.parts p).getD (s.partCfg p)

/-- Puts a configuration into force; the base cache's keep lines and the pockets stay as they are. -/
def State.putPart (s : State) (p : Nat) (c : PartCfg) : State :=
  let s := (s.setF .HUB_PART_CFG_REGIONS p c.regions).setF .HUB_PART_CFG_ENABLE p (flagBit c.enable)
  let s := ((s.setF .HUB_PART_SWT_FIRST p c.first).setF .HUB_PART_SWT_COUNT p c.count).setF .HUB_PART_SWT_PENDING p 0
  { s with parts := FMap.erase s.parts p }

/-- May a change of a partition take effect: are all swatches of the old and the new configuration idle (R373)? -/
def State.partIdle (s : State) (p : Nat) : Bool :=
  s.startedSws.all (fun k => !(s.partCfg p).has k && !(s.partNext p).has k)

/-- A pending change takes effect as soon as every swatch concerned is idle. -/
def partitionChangeApply (p : Nat) (s : State) : State :=
  match FMap.get none s.parts p with
  | none => s
  | some c => if s.partIdle p then s.putPart p c else s

/-- PARTITION_CHANGE_APPLY. -/
def execPartitionChangeApply (p : Nat) (s : State) : Host.Outcome State Fault Refusal :=
  act (p < 8) (whenUp (partitionChangeApply p)) s

/-- A write to HUB_PART_CFG p (`which` 0) or HUB_PART_SWT p (1): one that would make enabled partitions overlap is ignored
(R371), any other waits for its swatches (R373). -/
def State.writePart (s : State) (p which v : Nat) : State :=
  let c := s.partNext p
  let c := if which = 0 then { c with regions := bitField v 0 48, enable := bitAt v 48 }
    else { c with first := bitField v 0 16, count := natMin (bitField v 16 17) (65536 - bitField v 0 16) }
  if (List.range 8).any (fun q => q ≠ p && (c.clashes (s.partNext q) || c.clashes (s.partCfg q))) then
    s.raise .SWT_STATUS_PART_REJECT 0
  else
    let s := { s with parts := FMap.insert s.parts p (some c) }
    partitionChangeApply p (s.setF .HUB_PART_SWT_PENDING p 1)

/-- A host write to a descriptor word: at once while the swatch is idle, else at its next step boundary (R351). -/
def State.writeDesc (s : State) (k w v : Nat) : State :=
  if s.idle k then s.putDescWord k w v
  else
    { s with held := s.held ++
      [({ sw := k, desc := true, addr := 8 * w, data := (leBytes v 8).map BitVec.toNat, fn := 0, num := 0 } : HeldWrite)] }

end Sys2Proof.Machine
end

