-- ==== Sys2Proof/Machine/Boundary.lean ====
section
/-! DEFINITION. The step boundary (R121, R152, R153, R207, R211, R250, R279, R327, R345, R369, R405, R422, R464). -/

namespace Sys2Proof.Machine

/-! Tag statistics (R121, R150 to R154). -/

/-- ⌊log2⌋ of a positive FP32 pattern. -/
def log2Bits (p : Nat) : Int :=
  let e := bitField p 23 8
  if e = 0 then Int.ofNat (Nat.log2 (bitField p 0 23)) - 149 else Int.ofNat e - 127

/-- CEIL from the history of an ACT tag (R154): 80h without a positive AMAX. -/
def ceilOf (amaxes : List Nat) : Nat :=
  match (amaxes.filter (fun a => a ≠ 0)).map log2Bits with
  | [] => 0x80
  | e :: es =>
    let x := es.foldl (fun m y => if m < y then y else m) e - 7
    ofSigned (if x < -127 then -127 else if 127 < x then 127 else x) 8

/-- A tag's entry after a step with verdict 1 in which it was binned (R152); `h` is the entry's first word. -/
def State.history (s : State) (a h kind : Nat) (t : TagAcc) : State × Nat :=
  let newest := (bitField h 13 4 + 1) % 16
  let count := natMin (bitField h 8 5 + 1) 16
  let s := s.putDevNat (a + 8 + 8 * newest) (t.amax + 2 ^ 32 * flagBit t.nonfinite) 8
  let s := s.putDev (a + 136) ((List.range 84).flatMap (fun i => leBytes (natMin (FMap.get 0 t.bins i) 0xFFFFFFFF) 4))
  let amaxes := (List.range count).map (fun i => s.devNat (a + 8 + 8 * ((newest + 16 - i) % 16)) 4)
  let ceil := if kind = 2 then ceilOf amaxes else 0x80
  (s, setBits (setBits (setBits h 8 5 count) 13 4 newest) 24 8 ceil)

/-- A tag's counts of the step enter the swatch's tables (R121, R152). -/
def State.foldTag (s : State) (k g : Nat) (v : Bool) (t : TagAcc) : State :=
  let cnt := s.desc k 512 52
  let s := if cnt = 0 then s
    else
      let w := s.devNat (cnt + 8 * g) 8
      s.putDevNat (cnt + 8 * g) (satAdd (bitField w 0 32) t.sat + 2 ^ 32 * satAdd (bitField w 32 32) t.comp) 8
  let stat := s.desc k 576 52
  if stat = 0 then s
  else
    let a := stat + 512 * g
    let h := s.devNat a 8
    let h := setBits h 32 32 (satAdd (bitField h 32 32) t.firstUse)
    let r := if v && t.binned then s.history a h (s.recipe k g).kind t else (s, h)
    r.1.putDevNat a r.2 8

/-- Every tag of the step. -/
def State.foldTags (s : State) (k : Nat) (v : Bool) : State :=
  let s := (s.tags.filter (fun p => p.1 / 4096 = k)).foldl (fun t p => t.foldTag k (p.1 % 4096) v p.2) s
  { s with tags := FMap.clearRange s.tags (4096 * k) (4096 * k + 4096) }

/-! Lost data (R211). -/

/-- Do `n` bytes at `a` touch a stretch? -/
def inStretch (a n base len : Nat) : Bool := base ≠ 0 && base < a + n && a < base + len

/-- Bytes of a span's records. -/
def recStretch (wide : Bool) (v : Nat) : Nat :=
  if spRole v = 2 then 64 * spBlocks v else if wide then 512 * spBlocks v else 65536 * ceilDiv (spBlocks v) 170

/-- The reaction to `n` lost bytes at `a`: 0 what they were is restored in place, 1 the swatch halts for a restore, 2 the
module withdraws and joins again, 3 it withdraws (R211). The host's own tables and the digest area, with its stored tree, are of
the last class. (DEDUCED, log 101.) -/
def State.lossClass (s : State) (k a n : Nat) : Nat :=
  let tables := [(s.desc k 384 52, 128 * s.spanCount k), (s.desc k 448 52, 128 * 4096), (s.desc k 768 52, s.treeBytes k)]
  if tables.any (fun r => inStretch a n r.1 r.2) then 3
  else if inStretch a n (s.desc k 704 52) (s.pendSize k * s.desc k 1024 32) then 1
  else
    (s.spans k).foldl (fun c p =>
      let g := s.group k (spGroup p.2)
      if spRole p.2 ≤ 1 && inStretch a n (spRec p.2) (recStretch (gWide g) p.2) then
        natMax c (if spRole p.2 = 0 && gRule g ≠ 3 && !s.alone k then 2 else 1)
      else c) 0

/-- Planes, residual halves and error terms among the lost data are restored in place. -/
def State.restoreSpan (s : State) (k a n v : Nat) : State :=
  let half := 64 * resLen v (s.members k).length
  let s := if spRole v ≤ 1 && (spWorkRanges v).any (fun r => inStretch a n r.1 r.2) then s.rebuildWork k v else s
  let s := (List.range 2).foldl (fun t h =>
    if spRole v ≤ 1 && spRes v ≠ 0 && inStretch a n (spRes v + half * h) half then
      (t.putDev (spRes v + half * h) (fillBytes half 0)).tally .PRESS_RES_RESET (spPress v) 1
    else t) s
  if spRole v = 2 && inStretch a n (spRec v) (64 * spBlocks v) then s.putDev (spRec v) (fillBytes (64 * spBlocks v) 0) else s

/-- Hub 0 classifies and restores the lost data of a swatch's step. -/
def State.restoreLost (s : State) (k : Nat) : State :=
  (s.sw k).lost.foldl (fun t l =>
    let c := t.lossClass k l.1 l.2
    if c = 3 then t.setWithdraw (2 ^ causeUncorr)
    else if c = 2 then (t.withdrawAgain (2 ^ causeUncorr) 1).updSw k (fun r => { r with lostState := true })
    else if c = 1 then t.setRun k 5
    else (t.spans k).foldl (fun u p => u.restoreSpan k l.1 l.2 p.2) t) s

/-! Withdrawal and membership at the boundary (R207, R327, R345). -/

/-- A domain's own business at the boundary of its swatch: a LEAVE that waits, an announcement that waits. -/
def State.domainTurn (s : State) (d : Nat) : State :=
  if 16 ≤ d then s
  else if (s.dom d).leaveDue && (s.openIn d).isEmpty then s.leaveDom d (2 ^ causeWithdraw)
  else s.tryAnnounce d

/-! The tier layer and the pockets (R250, R279). -/

/-- Each hub clears CANCELLED on the listed bolts of the swatch (R279). -/
def State.clearCancels (s : State) (k : Nat) : State :=
  (List.range 4).foldl (fun t h =>
    let l := FMap.get [] t.mem.cancels h
    let mine := l.filter (fun b => (t.dirE b).owner = k)
    let t := mine.foldl (fun u b => u.setDir b { u.dirE b with cancelled := false }) t
    t.setMem { t.mem with cancels := FMap.set [] t.mem.cancels h (l.filter (fun b => !mine.contains b)) }) s

/-- Bolts in retired slots are moved to free slots of stacks (R240). -/
def State.retireMoves (s : State) : State :=
  let bs := (s.mem.dir.filter (fun p => p.2.state = 1 && p.2.tier = 1
    && (s.stack (t1Stack p.2.home)).retired.contains (t1Slot p.2.home))).map Prod.fst
  bs.foldl (fun t b => if (t.moveOf b).isSome then t else (t.startMove b true 1 (t.firstRegion (t.dirE b).owner) 2 true).state) s

/-- Would the stamp advance by 128 within one sweep of a region (R250)? -/
def State.stampFull (s : State) (k regions : Nat) : Bool :=
  (setBitsOf regions 48).any (fun r => 127 ≤ FMap.get 0 s.mem.stampRun (65536 * r + k))

/-- The swatch's own ways are emptied and its pocket stamp advances (R250). -/
def State.stampOn (s : State) (k regions : Nat) : State :=
  let lines := s.mem.lines.filter (fun p =>
    let r := p.1 / 16 / 16384
    !(bitAt regions r && FMap.get 0 s.mem.ways (16 * r + p.1 % 16) = 2 + 4 * k))
  let s := s.setMem { s.mem with
    lines := lines
    stampRun := (setBitsOf regions 48).foldl (fun m r => FMap.upd 0 m (65536 * r + k) (fun n => n + 1)) s.mem.stampRun }
  s.setDesc k 1936 8 ((s.stamp k + 1) % 256)

/-! Runs (R405, R406). -/

/-- The step counts in the front run, whose result is posted when it was the last. -/
def State.countStep (s : State) (k : Nat) : State :=
  let r := s.sw k
  let v := match r.final with
    | some f => f.v && !r.failed
    | none => false
  match r.runs with
  | [] => s
  | j :: rest =>
    let j := { j with left := j.left - 1, done := j.done + 1, committed := j.committed + flagBit v, lastStep := r.step
                      lastCause := r.lastCause, lastV := v }
    if j.left = 0 then
      (s.updSw k (fun x => { x with runs := rest })).post j.part j.slot j.irq (j.result k 0)
    else s.updSw k (fun x => { x with runs := j :: rest })

/-! The boundary. -/

/-- Has the step come to its end, its verdict been carried out, and any localisation finished (R187, R191, R216, R369, R491)? The
jobs of a step that this member does not complete are done all the same, but where one waits past the stall limit (R293). -/
def State.atBoundary (s : State) (k : Nat) : Bool :=
  let r := s.sw k
  r.started && r.ended && (r.settled || r.failed) && (s.jobsOf k 0).isEmpty && (!s.disagrees k || r.stage = 5)
    && ((r.failed && r.limitHit) || ((s.jobsOf k 1).isEmpty && (s.jobsOf k 2).isEmpty))
    && (r.failed || !s.rowAppends.any (fun a => a.sw = k))
    && s.ledgQ.length < 64 && !s.stampFull k r.regions
    && (s.run k ≠ 2 || (s.swCores k).all s.coreEnded)

/-- The cores that still show the swatch are idle, their step's state cleared. -/
def State.idleCores (s : State) (k : Nat) : State :=
  (s.swCores k).foldl (fun t c =>
    ((((t.setCore c {}).showArr c).showVec c).setF .ARR_FAULT_VALID c 0 |>.setF .CORE_STATUS_BROKEN c 0).setF
      .CORE_STATUS_STATE c 0) s

/-- What is kept of a step after its boundary. -/
def SwRun.rest (r : SwRun) : SwRun :=
  { ({} : SwRun) with
    ckpt := r.ckpt, nextCause := r.nextCause, nextBit0 := r.nextBit0, lastStart := r.lastStart, runs := r.runs, repairs := r.repairs
    lastV := r.lastV, lastCause := r.lastCause, planDirty := r.planDirty, planBad := r.planBad, behind := r.behind
    lostState := r.lostState }

/-- RUN after the boundary: a halt or a wait for state transfer stays, PARK takes hold, else 0. -/
def State.nextRun (s : State) (k : Nat) : State :=
  let v := s.run k
  if 4 ≤ v then s else s.setRun k (if (s.sw k).parkDue then 3 else 0)

/-- A swatch reaches its step boundary (R369), once the tables that it writes are served. (DEDUCED, log 103.) -/
def stepBoundary (k : Nat) (s : State) : State :=
  let tables := rangeBolts (s.tagTables k)
  if !s.atBoundary k then s
  else if !s.boltsServed k tables tables then s.awaitAll k tables tables true
  else
    let r := s.sw k
    let v := match r.final with
      | some f => f.v && !r.failed
      | none => false
    let s := if r.failed then (s.dropRows k).dropJobs k else s
    let s := (setBitsOf r.regions 48).foldl State.remapRegion s
    let s := s.withShare k tables tables (fun t => (t.streams (t.tagTables k) (t.tagTables k)).foldTags k v)
    let s := ((s.restoreLost k).clearAgree k).retireMoves
    let s := ((s.clearCancels k).stampOn k r.regions).setDesc k 1792 64 (r.step + 1)
    let s := (s.countStep k).nextRun k
    let s := if s.run k = 4 || s.run k = 5 then s.endRuns k 2 else if r.stopDue then s.endRuns k 1 else s
    let s := (s.idleCores k).updSw k SwRun.rest
    let s := { s with saved := s.saved.filter (fun p => p.1 / 512 ≠ k) }
    let s := (((s.applyHelds k).loadRecipes k).putImage k).layerZero k
    let s := (s.withdrawNow.domainTurn r.domain).tryWays
    boardCheck (s.partOf k) ((List.range 8).foldl (fun t p => partitionChangeApply p t) s)

/-- STEP_BOUNDARY. -/
def execStepBoundary (k : Nat) (s : State) : Host.Outcome State Fault Refusal :=
  act (k < 65536) (whenUp (stepBoundary k)) s

end Sys2Proof.Machine
end

