-- ==== Sys2Proof/Machine/Tick.lean ====
section
/-! DEFINITION. A count of the block's clock: the timestamp advances, and so do the counters of waiting (R292, R344). -/

namespace Sys2Proof.Machine

/-- Does a cycle of a domain end at this count, its divider being `d` root cycles and a count four (R433, R435)? -/
def cycleEnds (now d : Nat) : Bool := 4 * now % natMax d 1 < 4

/-- An up port whose waiting flits have no credit counts the FABRIC cycle (R344). -/
def State.creditTick (s : State) : State :=
  if !cycleEnds s.now s.clk.fabric then s
  else
    (s.ports.filter (fun p => !p.2.waiting.isEmpty)).foldl (fun t p =>
      if t.portUp p.1 && (t.port p.1).unacked.length < replayRoom && (t.sendable p.1).isNone then
        t.tally .SEAM_CREDIT_WAIT p.1 1
      else t) s

/-- Bursts of the capped classes left in the window at the hot level (R253): a 64 B burst takes 2 ns, which is 48 HBMC
cycles for 25 bursts. (DEDUCED, log 105.) -/
def capRoom (capped : Nat) : Bool := (capped + 1) * 48 ≤ 512 * 25

/-- The HBMC cycle that runs now (R433). -/
def State.hbmCycle (s : State) : Nat := 4 * s.now / natMax s.clk.hbmc 1

/-- The window of 1,024 HBMC cycles that runs now. -/
def State.capWindow (s : State) : Nat := s.hbmCycle / 1024

/-- Does a capped request wait on the cap at a pseudo-channel? -/
def State.capWaits (s : State) (p : Pch) : Bool :=
  p.window = s.capWindow && !capRoom p.capped && p.queue.any (fun r => 2 ≤ r.cls)

/-- The HBMC cycles and the µs in which capped requests wait at a stack at the hot level (R253, R292). -/
def State.hotTick (s : State) : State :=
  let hot := s.mem.pchs.filter (fun p => s.f .BASE_STATUS_LEVEL (p.1 / 64) = 2 && s.capWaits p.2)
  let s := if cycleEnds s.now s.clk.hbmc then (hot.map (fun p => p.1 / 64)).eraseDups.foldl (fun t st => t.tally .BASE_HOT_CYC st 1) s
    else s
  if s.now % usec 1 = 0 && !hot.isEmpty && !s.mem.waiters.any (fun w => s.causeNow w = 1) then s.tally .TIER_STALL_HOT 0 1 else s

/-- The presses whose committed rows a read waits on, and those where an append waits for a free entry. -/
def State.rowStacks (s : State) : List Nat :=
  ((s.mem.waiters.filter (fun w => 2 ^ 40 ≤ w.key)).map (fun w => w.key % 32)).eraseDups
/-- The second. -/
def State.fullStacks (s : State) : List Nat :=
  ((s.mem.waiters.filter (fun w => 2 ^ 28 ≤ w.key && w.key < 2 ^ 29)).map (fun w => w.key % 32)).eraseDups

/-- The FABRIC cycles of such waits are counted at each press (R190, R191, R196). (DEDUCED, log 175.) -/
def State.rowTick (s : State) : State :=
  if !cycleEnds s.now s.clk.fabric then s
  else
    s.fullStacks.foldl (fun t st => t.tally .PRESS_PEND_FULL st 1)
      (s.rowStacks.foldl (fun t st => t.tally .PRESS_ROW_WAIT st 1) s)

/-- The counters that run with the clock. -/
def State.countTick (s : State) : State := ((s.stallTick.creditTick).hotTick).rowTick

/-- A count of the timestamp on a powered module; nothing but counters follows it, and the clocks stay as they are.
(DESIGN CHOICE, log 1.) -/
def tick (s : State) : State :=
  let t := { s with now := s.now + 1 }
  if t.pwrgd then { t.countTick with clk := s.clk, pending := s.pending, now := s.now + 1 } else t

end Sys2Proof.Machine
end

