-- ==== Sys2Proof/Machine/Hbm.lean ====
section
/-! DEFINITION. Stacks and pockets in service (R228 to R255, R376): class arbiters, the pseudo-channel controllers, lanes,
scrub, the pocket's lines, thermal levels, slices of fenced stacks and unit faults. -/

namespace Sys2Proof.Machine

/-! Pseudo-channel controllers (R228, R230, R231). -/

/-- A pseudo-channel controller. -/
def State.pch (s : State) (st p : Nat) : Pch := FMap.get {} s.mem.pchs (64 * st + p)
/-- Replaces it. -/
def State.setPch (s : State) (st p : Nat) (v : Pch) : State :=
  s.setMem { s.mem with pchs := FMap.set {} s.mem.pchs (64 * st + p) v }

/-- Does a trained stack's DRAM answer at all: not after a stop at 115 °C (R252)? -/
def State.dramOn (s : State) (st : Nat) : Bool := 2 ≤ s.f .BASE_STATUS_STATE st && !(s.stack st).stopped

/-- The bank of a slot and its row (R230). -/
def bankOf (slot : Nat) : Nat := slot % 64
/-- The row. -/
def rowOf (slot : Nat) : Nat := slot / 64

/-- Arrivals, nine numbers for each request: class, port, slot, granule, unit, write, data, hint byte, partition. -/
def readArrivals (now p : Nat) : Nat → List Nat → List HbmReq
  | n + 1, c :: port :: slot :: g :: u :: w :: d :: h :: part :: rest =>
    let more := readArrivals now p n rest
    if c < 6 && port < 4 && slot < 1572864 && g < 256 && u < 4 && (g + slot) % 64 = p && part < 8 then
      { cls := c, arrival := now, port := port, slot := slot, granule := g, unit := u, write := w ≠ 0,
        data := d % 2 ^ 512, hint := h, part := part : HbmReq } :: more
    else more
  | _, _ => []

/-- Puts a request behind those that arrived before it, or in the same cycle at a port that goes first (R231). -/
def enqueueReq (r : HbmReq) : List HbmReq → List HbmReq
  | [] => [r]
  | x :: xs => if r.arrival < x.arrival || (r.arrival = x.arrival && r.port < x.port) then r :: x :: xs else x :: enqueueReq r xs

/-- Do two requests concern one 64 B unit? -/
def HbmReq.sameUnit (a b : HbmReq) : Bool := a.slot = b.slot && a.granule = b.granule && a.unit = b.unit

/-- The queue as units of the arbiter: a request waits behind an earlier one to the same unit, and, of a capped class at the
hot level, on the cap (R231, R253). -/
def arbUnits (capped : Bool) : List HbmReq → List HbmReq → List ArbUnit
  | _, [] => []
  | before, r :: rest =>
    { cls := r.cls, ready := !before.any r.sameUnit && !(capped && 2 ≤ r.cls), through := r.through : ArbUnit }
      :: arbUnits capped (before ++ [r]) rest

/-- A younger request of the same class that hits an open row goes ahead of older ones that do not, each of them being
passed at most 16 times (R231). -/
def rowHit (rows : FMap (Option Nat)) (r : HbmReq) : Bool := FMap.get none rows (bankOf r.slot) = some (rowOf r.slot)

/-- The request granted in place of the oldest of its class. -/
def openRowPick (rows : FMap (Option Nat)) (q : List HbmReq) (us : List ArbUnit) (i : Nat) : Nat :=
  match q[i]? with
  | none => i
  | some r =>
    if rowHit rows r then i
    else
      let ok (p : HbmReq × Nat) : Bool :=
        i < p.2 && p.1.cls = r.cls && ((us[p.2]?).map (fun u => u.ready)).getD false && rowHit rows p.1
          && (q.take p.2).all (fun x => x.cls ≠ r.cls || x.passed < 16)
      ((q.zipIdx.find? ok).map Prod.snd).getD i

/-- The requests left after the grant of the one at place `i`. (DEDUCED, log 106.) -/
def afterGrant (q : List HbmReq) (i cls : Nat) : List HbmReq :=
  (q.zipIdx.filter (fun p => p.2 ≠ i)).map (fun p =>
    { p.1 with
      passed := if p.2 < i && p.1.cls = cls then p.1.passed + 1 else p.1.passed
      through := p.1.through || (p.1.cls < 2 && 2 ≤ cls) })

/-- The lane that carries symbol `i` of a unit on pseudo-channel `p`: 36 lanes, two symbols each (R228). -/
def symLane (p i : Nat) : Nat := 72 * (p / 2) + 36 * (p % 2) + i % 72 / 2

/-- Does a stack's channel have a spare lane left (R237)? -/
def State.spareLeft (s : State) (st ch : Nat) : Bool := s.sub .BASE_SELVEDGE_SPARES st (2 * ch) 2 < 2

/-- A corrected symbol counts against its lane; 64 within one second, whichever second, call for a swap, or, with no spare
left, for a ledger entry (R237). (DEDUCED, log 181.) -/
def State.laneSymbol (s : State) (st lane : Nat) : State :=
  let k := s.stack st
  let recent := s.now :: (FMap.get [] k.laneSyms lane).filter (fun x => s.now < x + sec 1)
  let full := 64 ≤ recent.length
  let s := s.setStack st { k with laneSyms := FMap.set [] k.laneSyms lane (if full then [] else recent) }
  if !full || k.laneDue.contains lane then s
  else if s.spareLeft st (lane / 72) then s.setStack st { s.stack st with laneDue := (s.stack st).laneDue ++ [lane] }
  else s.ledger 0x06 (unitPayload .lane st (lane / 72) 0 0 0)

/-- One to four symbols of a unit are corrected: counted, against the lanes, and against the slot, which retires at 16
(R228, R240). (DESIGN CHOICE, log 104.) -/
def State.corrected (s : State) (st slot p : Nat) (syms : List Nat) : State :=
  let s := s.tally .BASE_CORR st 1
  let s := { s with meters := { s.meters with corr := FMap.upd 0 s.meters.corr st (fun n => n + 1) } }
  let s := syms.foldl (fun t i => t.laneSymbol st (symLane p i)) s
  let n : Nat := FMap.get 0 (s.stack st).corrected slot + 1
  let s := s.setStack st { s.stack st with corrected := FMap.set 0 (s.stack st).corrected slot n }
  if n = 16 then s.retireSlot st slot 4 else s

/-- The bolt at home in a slot. -/
def State.boltIn (s : State) (st slot : Nat) : Option Nat :=
  (s.mem.dir.find? (fun p => p.2.state ≠ 0 && p.2.tier = 1 && p.2.home = t1Loc st slot)).map Prod.fst

/-- The reserved bolt that lies in a slot (R266). -/
def State.rsvIn (s : State) (st slot : Nat) : Option Nat :=
  let set := s.mem.rsvSet
  let j := (1572863 - slot) * natMax set.length 1 + set.findIdx (fun x => x = st)
  if set.contains st && j < 82176 then some j else none

/-- An uncorrectable read (R240): the base die's part, and, where the slot holds a bolt, R210's. In the directory or in the
descriptors' backing copy it withdraws the module at the next step boundary, and the host restores (R211). -/
def State.uncorrSlot (s : State) (st slot g u : Nat) : State :=
  let b := s.boltIn st slot
  let s := s.baseUncorr st slot g u
  match b with
  | some b => s.uncorrBolt b (256 * g + 64 * u) 64 .stack st
  | none =>
    match s.rsvIn st slot with
    | some j =>
      let s := ((s.tally .HUB_UNCORR 0 1).ledger 0x06 (unitPayload .stack st 0 causeUncorr 0 0)).interruptAll 5
      if j < 33024 then s.setWithdraw (2 ^ causeUncorr) else s
    | none => s

/-- What the check code makes of a unit read from DRAM with bad symbols. -/
def State.checkUnit (s : State) (st slot g u : Nat) (syms : List Nat) : State :=
  let n := syms.eraseDups.length
  if n = 0 then s
  else if n ≤ 4 then s.corrected st slot ((g + slot) % 64) syms.eraseDups
  else s.uncorrSlot st slot g u

/-- Is a granule in the base cache, and is its line dirty? -/
def State.cachedLine (s : State) (st slot g : Nat) : Option Bool :=
  let set := 8192 * st + (g + 256 * slot) % 8192
  (List.range 16).findSome? (fun w =>
    match FMap.get none s.mem.cache (16 * set + w) with
    | some l => if l.slot = slot && l.granule = g then some l.dirty else none
    | none => none)

/-- The largest number of bad bits in one of the 64-bit words of a unit read from the base cache, whose code works by word;
`syms` lists the bad symbols, a symbol listed twice having two bad bits (R242). -/
def worstWord (syms : List Nat) : Nat :=
  (List.range 9).foldl (fun n w => natMax n ((syms.filter (fun i => i / 8 = w)).length)) 0

/-- Errors of a unit read from the base cache (R242): single errors are corrected, a double error in a clean line is fetched
again, and one in a dirty line is uncorrectable. -/
def State.checkCached (s : State) (st slot g u : Nat) (dirty : Bool) (syms : List Nat) : State :=
  if syms.isEmpty then s
  else if worstWord syms ≤ 1 || !dirty then
    let s := s.tally .BASE_CORR st 1
    { s with meters := { s.meters with corr := FMap.upd 0 s.meters.corr st (fun n => n + 1) } }
  else s.uncorrSlot st slot g u

/-- Are the bad symbols more than a read can correct: more than four from DRAM, two bits in a word of a dirty line? -/
def beyondRepair (line : Option Bool) (syms : List Nat) : Bool :=
  match line with
  | none => 4 < syms.eraseDups.length
  | some dirty => dirty && 1 < worstWord syms

/-- A granted request is served: a fenced stack returns zero and discards writes (R254); another passes through the base
cache and, on a read of DRAM, the check code. Data read as uncorrectable are free. -/
def State.serveReq (s : State) (st : Nat) (r : HbmReq) (syms : List Nat) : State :=
  if !s.stackServes st then (if r.write then s else s.emit (.data 0))
  else
    let a := stackBytes * st + 65536 * r.slot + 256 * r.granule + 64 * r.unit
    let line := s.cachedLine st r.slot r.granule
    let s := s.cacheAccess st r.slot r.granule (r.hint % 4) (bitField r.hint 2 4) r.part r.write
    if r.write then
      s.setStores { s.mem.st with hbm := Memory.write 0 s.mem.st.hbm a (leBytes r.data 64) }
    else
      let v := if beyondRepair line syms then (Config.freeValue 512 s.mem.tick).toNat
        else leNat (Memory.bytes 0 s.mem.st.hbm a 64)
      let s := match line with
        | none => s.checkUnit st r.slot r.granule r.unit syms
        | some dirty => s.checkCached st r.slot r.granule r.unit dirty syms
      s.use.emit (.data v)

/-- Requests arrive, and the controller grants one burst: floor offers, class, age, open row, and the cap at the hot
level. -/
def hbmRequest (st p : Nat) (arrivals syms : List Nat) (s : State) : State :=
  let c := s.pch st p
  let q := (readArrivals s.hbmCycle p (arrivals.length / 9) arrivals).foldl (fun q r => enqueueReq r q) c.queue
  let w := s.capWindow
  let used := if c.window = w then c.capped else 0
  let hot := s.f .BASE_STATUS_LEVEL st = 2
  let us := arbUnits (hot && !capRoom used) [] q
  let r := arbPick c.arb us
  let pick := r.1.map (fun i => if r.2.1 then i else openRowPick c.rows q us i)
  match pick.bind (fun i => (q[i]?).map (fun x => (i, x))) with
  | none => s.setPch st p { c with queue := q, active := if q.isEmpty then c.active else s.hbmCycle }
  | some (i, x) =>
    let opens := !rowHit c.rows x
    let s := s.setPch st p { c with
      active := s.hbmCycle
      acts := if opens then FMap.upd 0 c.acts (bankOf x.slot) (fun n => n + 1) else c.acts
      queue := afterGrant q i x.cls
      rows := FMap.set none c.rows (bankOf x.slot) (some (rowOf x.slot))
      arb := { grant := c.arb.grant + 1, owed := r.2.2 }
      window := w
      capped := if 2 ≤ x.cls then used + 1 else used }
    s.serveReq st x syms

/-- HBM_REQUEST. -/
def execHbmRequest (st p : Nat) (arrivals syms : List Nat) (s : State) : Host.Outcome State Fault Refusal :=
  act (st < 24 && p < 64) (whenUp (whenever (s.dramOn st) (hbmRequest st p arrivals syms))) s

/-- Is a pseudo-channel powered down: no request of it for 1,024 HBMC cycles (R227)? -/
def State.pchDown (s : State) (st p : Nat) : Bool :=
  (s.pch st p).queue.isEmpty && (s.pch st p).active + 1024 ≤ s.hbmCycle

/-- A bank is refreshed, its open row closed and its activations forgotten (R227, R229); what waits for it waits.
(DEDUCED, log 167.) -/
def perBankRefresh (st p b : Nat) (s : State) : State :=
  let c := s.pch st p
  s.setPch st p { c with
    rows := FMap.set none c.rows b none, acts := FMap.set 0 c.acts b 0
    refresh := FMap.upd 0 c.refresh b (fun n => n + 1) }

/-- PER_BANK_REFRESH. -/
def execPerBankRefresh (st p bank : Nat) (s : State) : Host.Outcome State Fault Refusal :=
  act (st < 24 && p < 64 && bank < 64) (whenUp (whenever (s.dramOn st) (perBankRefresh st p bank))) s

/-- The swap of the oldest failing lane of a channel for a spare (R237). (DESIGN CHOICE, log 107.) -/
def laneSwap (st ch : Nat) (s : State) : State :=
  let k := s.stack st
  match k.laneDue.find? (fun l => l / 72 = ch) with
  | none => s
  | some l =>
    if !s.spareLeft st ch then
      (s.setStack st { k with laneDue := k.laneDue.filter (fun x => x ≠ l) }).ledger 0x06 (unitPayload .lane st ch 0 0 0)
    else
      let s := s.setStack st { k with laneDue := k.laneDue.filter (fun x => x ≠ l), lanesOut := insertAsc l k.lanesOut }
      let s := s.setSub .BASE_SELVEDGE_SPARES st (2 * ch) 2 (s.sub .BASE_SELVEDGE_SPARES st (2 * ch) 2 + 1)
      let s := { s with meters := { s.meters with swaps := FMap.upd 0 s.meters.swaps st (fun n => n + 1) } }
      (s.tally .BASE_LANE_SWAP st 1).mapAdd { kind := 3, unit := st, channel := ch, lane := l % 72, cause := 4 }

/-- LANE_SWAP. -/
def execLaneSwap (st chan : Nat) (s : State) : Host.Outcome State Fault Refusal :=
  act (st < 24 && chan < 32) (whenUp (laneSwap st chan)) s

/-- The patrol scrub reads a slot past the base cache; `syms` lists the bad symbols found, each as a unit of the slot (4 ×
granule + unit) and a symbol. Corrected units are written back as they were (R239). -/
def patrolScrub (st slot : Nat) (syms : List Nat) (s : State) : State :=
  let ps := pairsOf syms
  let s := ((ps.map Prod.fst).eraseDups.filter (fun u => u < 1024)).foldl (fun t u =>
    t.checkUnit st slot (u / 4) (u % 4) ((ps.filter (fun p => p.1 = u)).map Prod.snd)) s
  let s := s.setStack st { s.stack st with scrubAt := (slot + 1) % 1572864 }
  if slot = 1572863 then s.tally .BASE_SCRUB_PASS st 1 else s

/-- PATROL_SCRUB. -/
def execPatrolScrub (st slot : Nat) (syms : List Nat) (s : State) : Host.Outcome State Fault Refusal :=
  act (st < 24 && slot < 1572864) (whenUp (whenever (s.stackServes st && slot = (s.stack st).scrubAt) (patrolScrub st slot syms))) s

/-! The pocket (R247 to R251). -/

/-- A pocket, router or other unit of a region fails (R32, R197): a ledger entry, the partition's step, and a withdrawal at
the next boundary. -/
def State.regionUnitFault (s : State) (kind : UnitKind) (r : Nat) : State :=
  ((s.ledger 0x06 (unitPayload kind r 0 causeUnit 0 0)).regionFault r).setWithdraw (2 ^ causeUnit)

/-- A pocket fault (R251). -/
def State.pocketFault (s : State) (r : Nat) : State := (s.raise .RGN_PKT_STATUS_FAULT_SEEN r).regionUnitFault .pocket r

/-- A clean line with a parity error is fetched again (R251). -/
def State.refetch (s : State) (r k a : Nat) : State :=
  let s := (s.tally .RGN_PKT_PARITY r 1).raise .RGN_PKT_STATUS_PARITY_SEEN r
  match (s.cacheWays r k).find? (fun w => (s.lineLive r w k a).isSome) with
  | none => s
  | some w =>
    match FMap.get none s.mem.lines (lineKey r a w) with
    | none => s
    | some l => s.setLine (lineKey r a w) (some { l with data := leNat (s.dev (256 * (a / 256)) 256) })

/-- A 64 B access of a swatch to its region's pocket. With `tag` 4,096 it concerns the scratch window at offset `a`;
otherwise device address `a`: a read under a tag with PCACHE = 1 allocates, a write updates a present line and is written
through. `parity`: a parity error met on the way. (DESIGN CHOICE, log 109.) -/
def pocketAccess (r k tag a : Nat) (write : Bool) (data : Nat) (parity : Bool) (s : State) : State :=
  if tag = 4096 then
    if s.window r k < a + 64 then s
    else if s.zeroingAt r k a 64 then s.waitOn k 3 (2 ^ 27 + r)
    else
      let s := if parity then s.pocketFault r else s
      let at' := s.windowAddr r k a
      if write then s.setStores { s.mem.st with pocket := Memory.write 0 s.mem.st.pocket at' (leBytes data 64) }
      else s.emit (.data (leNat (Memory.bytes 0 s.mem.st.pocket at' 64)))
  else
    let q : Rq := { sw := k, region := r, tag := tag }
    match s.rangeWaits q a 64 write with
    | some t => t
    | none =>
      if write then s.shuttlePut q a (leBytes data 64)
      else
        let s := if parity && (s.pocketHit r k a).isSome then s.refetch r k a else s
        let x := s.shuttlePiece q a 64
        x.1.emit (.data (leNat x.2))

/-- POCKET_ACCESS. -/
def execPocketAccess (region sw tag addr : Nat) (write : Bool) (data : Nat) (parity : Bool) (s : State) :
    Host.Outcome State Fault Refusal :=
  act (region < 48 && sw < 65536 && tag ≤ 4096 && addr % 64 = 0 && addr + 64 ≤ 2 ^ 43)
    (whenUp (pocketAccess region sw tag addr write data parity)) s

/-- The zeroing of a way ends (R247): its bytes are zero, and cores that waited proceed. -/
def pocketZeroingDone (r w : Nat) (s : State) : State :=
  let key := 16 * r + w
  if FMap.get 0 s.mem.zeroing key = 0 then s
  else
    let a := 67108864 * r + 4194304 * w
    let s := s.setMem { s.mem with
      st := { s.mem.st with pocket := FMap.clearRange s.mem.st.pocket a (a + 4194304) }
      zeroing := FMap.set 0 s.mem.zeroing key 0 }
    (s.setF .RGN_PKT_STATUS_ZEROING r (putBit (s.f .RGN_PKT_STATUS_ZEROING r) w false)).endWaits (2 ^ 27 + r)

/-- POCKET_ZEROING_DONE. -/
def execPocketZeroingDone (region way : Nat) (s : State) : Host.Outcome State Fault Refusal :=
  act (region < 48 && way < 16) (whenUp (pocketZeroingDone region way)) s

/-- A sweep of a region's pocket completes (R250): lines of shared ways with a stale stamp leave, and the stamps' count within
a sweep starts again. -/
def pocketSweep (r : Nat) (s : State) : State :=
  let stale (p : Nat × Option PLine) : Bool :=
    p.1 / 16 / 16384 = r && (s.way r (p.1 % 16)).1 = 1 && (match p.2 with
      | some l => l.stamp ≠ s.stamp l.sw
      | none => false)
  s.setMem { s.mem with
    lines := s.mem.lines.filter (fun p => !stale p)
    stampRun := FMap.clearRange s.mem.stampRun (65536 * r) (65536 * r + 65536) }

/-- POCKET_SWEEP. -/
def execPocketSweep (region : Nat) (s : State) : Host.Outcome State Fault Refusal :=
  act (region < 48) (whenUp (pocketSweep region)) s

/-! Thermal levels (R252 to R255, R387, R426). -/

/-- The thermal level after a sample: entered at 85, 95 and 105 °C, left below 82 and 92 °C, the critical level only by a
slice (R255). -/
def thermalLevel (old : Nat) (t : Int) : Nat :=
  if old = 3 || 105 ≤ t then 3
  else if 95 ≤ t || (old = 2 && 92 ≤ t) then 2
  else if 85 ≤ t || (1 ≤ old && 82 ≤ t) then 1
  else 0

/-- Directory entries whose reserved bolt lies in a stack that is fenced read zero, which is FREE, but for those that a
hub's cache slice holds; the stack keeps what it held (R254, R265, R267). (DESIGN CHOICE, log 170.) -/
def State.loseDir (s : State) (st : Nat) : State :=
  let mine := s.mem.dir.filter (fun p => (rsvPlace s.mem.rsvSet (p.1 / 4096)).1 = st)
  let cached (b : Nat) : Bool := (FMap.get [] s.mem.dirCache (32768 * hubOf b + b / 4 % 32768)).contains b
  if s.mem.rsvSet.contains st then
    s.setMem { s.mem with
      dirOut := FMap.set none s.mem.dirOut st (some mine)
      dir := s.mem.dir.filter (fun p => (rsvPlace s.mem.rsvSet (p.1 / 4096)).1 ≠ st || cached p.1) }
  else s

/-- The entries that a stack kept are read again, once it is back in service (R255, R266). -/
def State.regainDir (s : State) (st : Nat) : State :=
  match FMap.get none s.mem.dirOut st with
  | none => s
  | some old =>
    let rest := s.mem.dir.filter (fun p => (rsvPlace s.mem.rsvSet (p.1 / 4096)).1 ≠ st)
    s.setMem { s.mem with
      dirOut := FMap.set none s.mem.dirOut st none
      dir := old.foldl (fun m p => FMap.set {} m p.1 p.2) rest }

/-- A stack is fenced as a unit of the module (R197, R254); moves bound for it end without a flip (R275). -/
def State.fenceStack (s : State) (st code : Nat) (kind : UnitKind) : State :=
  let s := if s.stackServes st then s.loseDir st else s
  let s := (s.setF .BASE_STATUS_STATE st code).ledger 0x06 (unitPayload kind st 0 causeUnit 0 0)
  let s := s.moduleFault.setWithdraw (2 ^ causeUnit)
  (s.abandonTo (fun e => e.dtier = 1 && t1Stack e.dest = st)).countFree.loseCapacity

/-- A stack reaches the critical level. -/
def State.critical (s : State) (st : Nat) : State :=
  let s := s.raise .BASE_STATUS_CRIT_SEEN st
  if s.f .BASE_STATUS_STATE st ≤ 2 then s.fenceStack st 3 .stack else s

/-- `THERMTRIP#` is asserted, and stays so until `PWRGD` falls (R387). -/
def State.trip (s : State) : State :=
  if s.boot.tripped then s
  else ({ s with boot := { s.boot with tripped := true } }.ledger 0x06 (unitPayload .thermtrip 0 0 0 0 0)).alert 6

/-- The higher of a peak and a sample. -/
def peakOf (p : Option Int) (t : Int) : Option Int :=
  match p with
  | none => some t
  | some x => if x < t then some t else some x

/-- A sample of one stack: temperature, the die that gives it, level and what follows from a new level; at 115 °C all its DRAM
access stops, until power is removed (R252, R257). -/
def State.sampleStack (s : State) (st : Nat) (t : Int) (die : Nat) : State :=
  let old := s.f .BASE_STATUS_LEVEL st
  let new := thermalLevel old t
  let peak := if !(s.stack st).sampled || signedOf (s.f .BASE_TEMP_PEAK st) 8 < t then t else signedOf (s.f .BASE_TEMP_PEAK st) 8
  let s := ((s.setF .BASE_TEMP_CUR st (ofSigned t 8)).setF .BASE_TEMP_PEAK st (ofSigned peak 8)).setF .BASE_TEMP_DIE st die
  let s := { s with meters := { s.meters with peakStack := peakOf s.meters.peakStack t } }
  let k := s.stack st
  let s := s.setStack st { k with sampled := true, below82 := if 82 ≤ t then none else some (k.below82.getD s.now) }
  let s := s.setF .BASE_STATUS_LEVEL st new
  let s := if 2 ≤ new && old < 2 then s.raise .BASE_STATUS_HOT_SEEN st else s
  let s := if new = 3 && old ≠ 3 then s.critical st else s
  if 115 ≤ t then (s.setStack st { s.stack st with stopped := true }).trip else s

/-- The hottest compute die (R490): its peak, and a thermal cycle each time it falls below 40 °C after it was above 80 °C. -/
def State.sampleDie (s : State) (t : Int) : State :=
  let m := { s.meters with peakDie := peakOf s.meters.peakDie t }
  let m := if 80 < t then { m with above80 := true } else m
  { s with meters := if t < 40 && m.above80 then { m with above80 := false, cycles := m.cycles + 1 } else m }

/-- Has the module withdrawn from a domain it is to be in: a domain enabled of which it is no member? -/
def State.isWithdrawn (s : State) : Bool :=
  (List.range 16).any (fun d => s.f .COLL_DOM_CFG_ENABLE d = 1 && !bitAt (s.f .COLL_STATUS_MEMBER 0) d
    && s.f .HUB_AGREE_STATUS_WITHDRAW_SEEN 0 = 1)

/-- Does the condition of an SMBus alert cause persist (R426)? -/
def State.alertHolds (s : State) (c : Nat) : Bool :=
  if c = 0 then (List.range 24).any (fun st => 1 ≤ s.f .BASE_STATUS_LEVEL st)
  else if c = 1 then (List.range 24).any (fun st => 2 ≤ s.f .BASE_STATUS_LEVEL st)
  else if c = 2 then s.f .PWR_STATUS_LIMITING 0 = 1
  else if c = 3 then s.isWithdrawn
  else if c = 4 then 2 ≤ s.f .PAT_STATUS_SOURCE 0
  else if c = 5 then s.f .LEDG_STATUS_FULL90 0 = 1
  else s.boot.tripped

/-- Causes whose condition persists are set again. -/
def State.alertsAgain (s : State) : State :=
  (List.range 7).foldl (fun t c => if t.alertHolds c && !bitAt t.smb.alerts c then t.alert c else t) s

/-- A sample of the temperatures, every 1 ms (R252): 24 stacks, the hottest compute die, the hottest seam die, four hubs and
the flash controllers' maximum, and the die that gives each stack's. (DEDUCED, log 110; DESIGN CHOICE, log 111.) -/
def thermalSample (temps dies : List Nat) (s : State) : State :=
  let t (i : Nat) : Int := signedOf (temps.getD i 0) 8
  let s := { s with smb := { s.smb with temps := temps.map (fun x => x % 256) } }
  let s := (List.range 24).foldl (fun u st => u.sampleStack st (t st) (dies.getD st 0)) s
  let s := s.sampleDie (t 24)
  let s := if (List.range 6).any (fun i => 125 ≤ t (24 + i)) then s.trip else s
  s.alertsAgain

/-- THERMAL_SAMPLE. -/
def execThermalSample (temps dies : List Nat) (s : State) : Host.Outcome State Fault Refusal :=
  act (temps.length = 31 && dies.length = 24 && temps.all (fun x => x < 256) && dies.all (fun x => x ≤ 16))
    (whenUp (thermalSample temps dies)) s

/-- The slice of a fenced stack begins once it has stayed below 82 °C for 1 s (R255). -/
def stackFitSlice (st : Nat) (s : State) : State :=
  let k := s.stack st
  match k.below82 with
  | some t =>
    if s.f .BASE_STATUS_STATE st = 3 && k.pending = 0 && !k.stopped && t + sec 1 ≤ s.now then
      s.setStack st { k with pending := 1, pendingAt := s.now }
    else s
  | none => s

/-- STACK_FIT_SLICE. -/
def execStackFitSlice (st : Nat) (s : State) : Host.Outcome State Fault Refusal :=
  act (st < 24) (whenUp (stackFitSlice st)) s

/-- The slice ends: the fence lifts, or the stack stays fenced until refurbish mode (R255). -/
def stackSliceResult (st : Nat) (pass : Bool) (s : State) : State :=
  let k := s.stack st
  if k.pending = 0 || k.stopped then s
  else
    let s := s.setStack st { k with pending := 0 }
    if pass then (((s.setF .BASE_STATUS_STATE st 2).setF .BASE_STATUS_LEVEL st 0).regainDir st).countFree.showCapacity
    else (s.setF .BASE_STATUS_STATE st 4).mapAdd { kind := 4, unit := st, cause := 3 }

/-- STACK_SLICE_RESULT. -/
def execStackSliceResult (st : Nat) (pass : Bool) (s : State) : Host.Outcome State Fault Refusal :=
  act (st < 24) (whenUp (stackSliceResult st pass)) s

/-! Unit faults (R32, R197, R254). -/

/-- A fault is found in a unit: 1 pocket, 2 region router, 3 stack, 4 base die, 5 seam die, 6 hub, 7 flash controller. The
verdict bit is 0, and the module is set to withdraw at the next boundary. -/
def unitFault (kind num : Nat) (s : State) : State :=
  let moduleUnit (k : UnitKind) : State :=
    ((s.ledger 0x06 (unitPayload k num 0 causeUnit 0 0)).moduleFault).setWithdraw (2 ^ causeUnit)
  if kind = 1 then s.pocketFault num
  else if kind = 2 then s.regionUnitFault .router num
  else if kind = 3 then s.fenceStack num 5 .stack
  else if kind = 4 then s.fenceStack num 5 .baseDie
  else if kind = 5 then moduleUnit .seamDie
  else if kind = 6 then moduleUnit .hub
  else
    let t := moduleUnit .flash
    let t := (t.setFlc num { t.flc num with fenced := true }).setF .FLC_STATUS_STATE num 2
    (t.abandonTo (fun e => e.dtier = 2 && e.dest % 2 = num)).loseCapacity

/-- How many units of a kind there are. -/
def unitsOf (kind : Nat) : Nat :=
  if kind = 1 || kind = 2 then 48 else if kind = 3 || kind = 4 then 24 else if kind = 5 then 8 else if kind = 6 then 4
  else if kind = 7 then 2 else 0

/-- UNIT_FAULT. -/
def execUnitFault (kind num : Nat) (s : State) : Host.Outcome State Fault Refusal :=
  act (num < unitsOf kind) (whenUp (unitFault kind num)) s

end Sys2Proof.Machine
end

