-- ==== Sys2Proof/Machine/Regs.lean ====
section
/-! DEFINITION. Registers as the host sees them (R10, R391 to R395): the map of BAR0, which function reaches what, what a
register reads as, and writes of RW fields. -/

namespace Sys2Proof.Machine

/-! The map of BAR0 (R394). -/

/-- What an offset names: a register of a block's unit, a word of a function's MSI-X table and pending bits, a byte of a
partition's job board or result slots, or nothing. -/
inductive Target where
  | reg (b : Block) (unit off : Nat)
  | msix (off : Nat)
  | board (part off : Nat)
  | slot (part off : Nat)
  | hole
  deriving DecidableEq, Repr

/-- The blocks by 4 KiB page; those with one copy for each function are the function's own. -/
def pageBlock (fn page : Nat) : Option (Block × Nat) :=
  if page = 0 then some (.hst, fn) else if page = 1 then some (.dp, fn) else if page = 2 then some (.txn, fn)
  else if page = 3 then some (.pat, 0) else if page = 4 then some (.clk, 0) else if page = 5 then some (.pwr, 0)
  else if page = 6 then some (.thm, 0) else if page = 7 then some (.ledg, 0) else if page = 8 then some (.swt, 0)
  else if page = 9 then some (.tier, 0) else if page = 10 then some (.coll, 0)
  else if 0x10 ≤ page && page < 0x14 then some (.hub, page - 0x10)
  else if 0x14 ≤ page && page < 0x18 then some (.dir, page - 0x14)
  else if 0x18 ≤ page && page < 0x1A then some (.flc, page - 0x18)
  else if 0x20 ≤ page && page < 0x30 then some (.seam, page - 0x20)
  else if 0x40 ≤ page && page < 0x58 then some (.base, page - 0x40)
  else if 0x60 ≤ page && page < 0x78 then some (.press, page - 0x60)
  else if 0x100 ≤ page && page < 0x130 then some (.rgn, page - 0x100)
  else if 0x1000 ≤ page && page < 0x1180 then some (.core, page - 0x1000)
  else if 0x1200 ≤ page && page < 0x1380 then some (.arr, page - 0x1200)
  else if 0x1400 ≤ page && page < 0x1580 then some (.vec, page - 0x1400)
  else none

/-- What offset `off` of a function's BAR0 names. (PRESUMED, log 114.) -/
def targetAt (fn off : Nat) : Target :=
  if off / 4096 = 11 then .msix (off % 4096)
  else if 0x2000000 ≤ off && off < 0x2200000 then .board ((off - 0x2000000) / 0x40000) (off % 0x40000)
  else if 0x3000000 ≤ off && off < 0x3200000 then .slot ((off - 0x3000000) / 0x40000) (off % 0x40000)
  else
    match pageBlock fn (off / 4096) with
    | some (b, u) => .reg b u (8 * (off % 4096 / 8))
    | none => .hole

/-- Does a virtual function's partition hold a region? -/
def State.fnHasRegion (s : State) (fn r : Nat) : Bool := fn = 0 || bitAt (s.f .HUB_PART_CFG_REGIONS (fn - 1)) r

/-- What a function reaches (R395). -/
def State.reaches (s : State) (fn : Nat) (t : Target) : Bool :=
  fn = 0 ||
    (match t with
    | .reg b u off =>
      if b = .hst || b = .dp || b = .txn then true
      else if b = .core || b = .arr || b = .vec then s.fnHasRegion fn (u / 8)
      else if b = .rgn then s.fnHasRegion fn u
      else decide (b = .swt) && off = 0x10
    | .msix _ => true
    | .board p _ | .slot p _ => fn = p + 1
    | .hole => false)

/-- Blocks served by what the bring-up has come to (R416, R459, R482): all of them, or with no pattern, in recovery or
stopped, those named for the physical function. -/
def State.served (s : State) (fn : Nat) (t : Target) : Bool :=
  let step := s.f .HUB_BOOT_STEP 0
  if step = 14 then
    fn = 0 && (match t with
      | .reg b _ _ => b = .hst || b = .pat || b = .thm || b = .ledg || b = .dp
      | .msix _ => true
      | _ => false)
  else if s.f .THM_STATUS_STATE 0 = 2 then
    fn = 0 && (match t with
      | .reg b _ _ => b = .hub || b = .thm || b = .ledg
      | _ => false)
  else if step = 13 then
    fn = 0 && (match t with
      | .reg _ _ _ | .msix _ => true
      | _ => false)
  else true

/-! Fields at an offset. -/

/-- The number of a field's copy at an offset of its block, if it lies there. -/
def fieldAt (d : FieldDesc) (b : Block) (unit off : Nat) : Option Nat :=
  if d.block ≠ b || (b = .hub && unit ≠ 0) then none
  else if d.count = 1 then (if off = d.offset then some 0 else none)
  else
    let j := (off - d.offset) / natMax d.stride 1
    if d.offset ≤ off && off = d.offset + d.stride * j && j < d.count then some j else none

/-- The fields of the register at an offset, each with its index in the state. -/
def fieldsAt (b : Block) (unit off : Nat) : List (FieldName × Nat) :=
  allFields.filterMap (fun n => (fieldAt (fieldDesc n) b unit off).map (fun j => (n, (fieldDesc n).count * unit + j)))

/-- The index under which a field is held for a function: HST_JOB p is held for function p + 1, the straps once, and the
link's state for the physical function. -/
def heldIndex (fn : Nat) (n : FieldName) (i : Nat) : Nat :=
  match n with
  | .HST_JOB_NEXT_SEQ | .HST_JOB_STALLED | .HST_JOB_WHY => i % 8 + 1
  | .HST_STRAPS_BOARDPOS | .HST_STRAPS_PATSEL => 0
  | .HST_LINK_RATE | .HST_LINK_WIDTH | .HST_LINK_FLIT | .HST_LINK_IDE_STREAMS | .HST_LINK_SLOW_SEEN => fn
  | _ => i

/-- A virtual function reads zero from other partitions' HST_JOB (R427). -/
def hidden (fn : Nat) (n : FieldName) (i : Nat) : Bool :=
  match n with
  | .HST_JOB_NEXT_SEQ | .HST_JOB_STALLED | .HST_JOB_WHY => fn ≠ 0 && i % 8 + 1 ≠ fn
  | _ => false

/-- The configuration of a domain that is written and not yet in force, or the one in force. (DESIGN CHOICE, log 73.) -/
def State.domCfgWord (s : State) (d : Nat) : Nat :=
  (s.dom d).cfgDue.getD (s.f .COLL_DOM_CFG_ID d + 2 ^ 32 * s.f .COLL_DOM_CFG_ENABLE d
    + 2 ^ 33 * s.f .COLL_DOM_CFG_LINING d + 2 ^ 34 * s.f .COLL_DOM_CFG_EXPECT d)

/-- What a field shows: values the device holds elsewhere are shown live; a WO field reads zero (R10).
(DEDUCED, log 74.) -/
def State.shows (s : State) (fn : Nat) (n : FieldName) (i : Nat) : Nat :=
  match n with
  | .CLK_STATUS_STATE => s.clk.root.code
  | .CLK_STATUS_DEPTH => s.clk.depth
  | .CLK_STATUS_ORPHANED => flagBit (s.recovers && s.clk.root = .atLocal)
  | .CLK_STATUS_ARRAY_DIV => s.clk.array
  | .CLK_STATUS_FABRIC_DIV => s.clk.fabric
  | .CLK_STATUS_VECTOR_DIV => s.clk.vector
  | .CLK_STATUS_HBMC_DIV => s.clk.hbmc
  | .CLK_STATUS_CTRL_DIV => s.clk.ctrl
  | .CLK_TIME_TIME => s.clkTime % 2 ^ 64
  | .PWR_STATUS_LEVEL => s.clk.level
  | .PWR_STATUS_PASS => s.clk.pass
  | .HUB_CAPACITY_PORTS_UP => s.portsUp.length
  | .CORE_STATUS_STATE => if s.f .CORE_ID_PHYS_K i = 15 then 7 else s.f n i
  | .COLL_DOM_CFG_ID => bitField (s.domCfgWord i) 0 32
  | .COLL_DOM_CFG_ENABLE => bitField (s.domCfgWord i) 32 1
  | .COLL_DOM_CFG_LINING => bitField (s.domCfgWord i) 33 1
  | .COLL_DOM_CFG_EXPECT => bitField (s.domCfgWord i) 34 14
  | .DP_ADDR_ADDR => let d := FMap.get {} s.dps i; (d.row + d.off) % 2 ^ 52
  | .DP_STATUS_READ_PENDING => flagBit ((FMap.get {} s.dps i).reqs.any (fun r => !r.write))
  | .TXN_STATUS_ENTRIES => (FMap.get {} s.txns i).ents.length
  | .TXN_STATUS_HELD => ((s.held.filter (fun h => h.fn = i && h.num ≠ 0)).map (fun h => h.num)).eraseDups.length
  | .HST_ID_FUNCTION => fn
  | .HST_ID_PARTITION => fn - 1
  | _ => if (fieldDesc n).access = .WO || hidden fn n i then 0 else s.f n (heldIndex fn n i)

/-- Bytes 8i to 8i + 7 of the entry that LEDG_INDEX names; all FFh when it is absent (R489, R501). -/
def State.ledgerWord (s : State) (i : Nat) : Nat :=
  let q := s.f .LEDG_INDEX_SEQ 0
  if s.f .LEDG_TAIL_SEQ 0 ≤ q && q ≤ s.f .LEDG_HEAD_SEQ 0 && q ≠ 0 then
    leNat (Memory.bytes 255 s.mem.st.cfg (0x5000000 + 256 * ((q - 1) % 196608) + 8 * i) 8)
  else 2 ^ 64 - 1

/-- What a register reads as. -/
def State.regWord (s : State) (fn : Nat) (b : Block) (unit off : Nat) : Nat :=
  if b = .ledg && 0x100 ≤ off && off < 0x200 then s.ledgerWord ((off - 0x100) / 8)
  else (fieldsAt b unit off).foldl (fun v p =>
    setBits v (fieldDesc p.1).lo (fieldDesc p.1).width (s.shows fn p.1 p.2)) 0

/-! Accesses (R391). -/

/-- A naturally aligned access of 8 or 4 bytes. -/
def aligned (off size : Nat) : Bool := (size = 8 || size = 4) && off % size = 0

/-- The bits of an 8 B register that an access covers, from and how many. -/
def coverLo (off : Nat) : Nat := if off % 8 = 4 then 32 else 0

/-- Does an access cover a bit of a field? -/
def covers (off size : Nat) (d : FieldDesc) : Bool := d.lo < coverLo off + 8 * size && coverLo off < d.lo + d.width

/-- A refused access is counted (R391, R395). -/
def State.mmioDenied (s : State) (fn : Nat) : State := s.tally .HST_MMIO_DENIED fn 1

/-- The RC fields that a read covers return to their reset values; events counted in the same cycle are kept (R10, R11). The
next sample after a read of BASE_TEMP.PEAK is the new peak, whatever its sign (R257). -/
def State.readClears (s : State) (fn : Nat) (b : Block) (unit o off size events : Nat) : State :=
  ((fieldsAt b unit o).filter (fun p =>
    (fieldDesc p.1).access = .RC && covers off size (fieldDesc p.1))).foldl (fun t p =>
      let t := t.setF p.1 (heldIndex fn p.1 p.2) (satAdd (fieldDesc p.1).reset (if (fieldDesc p.1).width = 32 then events else 0))
      if p.1 = .BASE_TEMP_PEAK then t.setStack p.2 { t.stack p.2 with sampled := false } else t) s

/-- The part of an 8 B value that an access at `off` takes. -/
def part8 (v off size : Nat) : Nat := bitField v (coverLo off) (8 * size)

/-- A read by a function (R10, R391, R395). (DESIGN CHOICE, log 115.) -/
def regRead (fn off size events : Nat) (s : State) : State :=
  let t := targetAt fn off
  if !aligned off size then (s.mmioDenied fn).emit (.data 0)
  else if !s.reaches fn t then (s.mmioDenied fn).emit (.data 0)
  else if !s.served fn t then s.emit (.data 0)
  else
    match t with
    | .reg b u o => (s.readClears fn b u o off size events).emit (.data (part8 (s.regWord fn b u o) off size))
    | .msix o => s.emit (.data (part8 (FMap.get 0 s.msix (512 * fn + o / 8)) off size))
    | .board p o => s.emit (.data (leNat (Memory.bytes 0 s.mem.st.jobs (0x40000 * p + o) size)))
    | .slot p o =>
      match (FMap.get {} s.slots (4096 * p + o / 64)).posted with
      | some v => s.emit (.data (bitField v (8 * (o % 64)) (8 * size)))
      | none => (s.tally .HST_EARLY_READS fn 1).emit (.data 0)
    | .hole => s.emit (.data 0)

/-- RC_READ. -/
def execRcRead (fn off size events : Nat) (s : State) : Host.Outcome State Fault Refusal :=
  act (fn < 9 && off < 0x10000000) (whenUp (regRead fn off size events)) s

/-! Writes of RW fields. -/

/-- A write of HST_INT_MASK: a cause that is enabled while set sends its message (R392). -/
def State.writeMask (s : State) (fn v : Nat) : State :=
  let old := s.f .HST_INT_MASK_ENABLE fn
  let s := s.setF .HST_INT_MASK_ENABLE fn v
  (List.range 8).foldl (fun t c => if bitAt old c then t else sendCause t fn c) s

/-- A write of DP_ADDR sets the row address and clears the row offset (R399). -/
def State.writeDpAddr (s : State) (fn v : Nat) : State :=
  { s with dps := FMap.set {} s.dps fn { FMap.get {} s.dps fn with row := v % 2 ^ 52, off := 0 } }

/-- A write of a register with every RW field in it; those with a rule of their own follow it (R18, R247, R290, R345, R371,
R373, R392, R399). -/
def State.writeRw (s : State) (fn : Nat) (b : Block) (unit off v : Nat) : State :=
  if b = .hst && off = 0x20 then s.writeMask fn (bitField v 0 8)
  else if b = .dp && off = 0 then s.writeDpAddr fn v
  else if b = .tier && off = 8 then tierT3Write false v s
  else if b = .tier && off = 0x10 then tierT3Write true v s
  else if b = .coll && 0x100 ≤ off && off < 0x200 then (if off % 16 = 0 then s.writeDomCfg ((off - 0x100) / 16) v else s)
  else if b = .hub && unit = 0 && 0x900 ≤ off && off < 0x980 then s.writePart ((off - 0x900) / 16) (off % 16 / 8) v
  else
    let s := ((fieldsAt b unit off).filter (fun p => (fieldDesc p.1).access = .RW)).foldl (fun t p =>
      t.setF p.1 p.2 (bitField v (fieldDesc p.1).lo (fieldDesc p.1).width)) s
    if b = .rgn && 0x208 ≤ off && off < 0x288 then s.tryWay (16 * unit + (off - 0x208) / 8) else s

/-- What a partition's registers hold or are to hold, as the words of HUB_PART_CFG (0) and HUB_PART_SWT (1). -/
def PartCfg.word (c : PartCfg) (which : Nat) : Nat :=
  if which = 0 then c.regions + 2 ^ 48 * flagBit c.enable else c.first + 2 ^ 16 * c.count

/-- The word into which a write of 4 B puts its half. -/
def State.mergeBase (s : State) (fn : Nat) (b : Block) (unit off : Nat) : Nat :=
  if b = .hub && unit = 0 && 0x900 ≤ off && off < 0x980 then (s.partNext ((off - 0x900) / 16)).word (off % 16 / 8)
  else s.regWord fn b unit off

/-- Are all fields of a register RW, outside the blocks of the functions (R419)? -/
def stageable (b : Block) (unit off : Nat) : Bool :=
  let fs := fieldsAt b unit off
  !fs.isEmpty && fs.all (fun p => (fieldDesc p.1).access = .RW) && b ≠ .hst && b ≠ .dp && b ≠ .txn

/-- May a function write a register: a way only for a swatch in its range (R395)? (DESIGN CHOICE, log 149.) -/
def State.mayWrite (s : State) (fn : Nat) (b : Block) (off v : Nat) : Bool :=
  !(fn ≠ 0 && b = .rgn && 0x208 ≤ off && off < 0x288) || s.fnHasSwatch fn (bitField v 2 16)

end Sys2Proof.Machine
end

