-- ==== Sys2Proof/Machine/Port.lean ====
section
/-! DEFINITION. The data port (R396 to R401) and basting transactions (R419 to R423). -/

namespace Sys2Proof.Machine

/-! Targets of staged writes (R419). -/

/-- A function's transaction. -/
def State.txn (s : State) (fn : Nat) : Txn := FMap.get {} s.txns fn
/-- Replaces it. -/
def State.setTxn (s : State) (fn : Nat) (v : Txn) : State := { s with txns := FMap.set {} s.txns fn v }
/-- Is a transaction of the function open? -/
def State.txnOpen (s : State) (fn : Nat) : Bool := s.f .TXN_STATUS_OPEN fn = 1

/-- A plain write, or another function's commit, of a target while transactions are open is noted in them (R421). -/
def State.noteWrite (s : State) (fns : List Nat) (dev : Bool) (a : Nat) : State :=
  (fns.filter s.txnOpen).foldl (fun t fn =>
    let v := t.txn fn
    if v.written.contains (dev, a) then t else t.setTxn fn { v with written := v.written ++ [(dev, a)] }) s

/-- Every function. -/
def allFns : List Nat := List.range 9

/-- An entry is staged: it merges into one of the same target; beyond 2,048 entries the transaction overflows (R420). -/
def State.stage (s : State) (fn : Nat) (e : TxnEnt) : State :=
  let v := s.txn fn
  let merge (x : TxnEnt) : TxnEnt :=
    let m := (List.range 8).foldl (fun d i =>
      if bitAt e.mask i then setBits d (8 * i) 8 (bitField e.data (8 * i) 8) else d) x.data
    { x with mask := x.mask ||| e.mask, data := m }
  if v.ents.any (fun x => x.dev = e.dev && x.addr = e.addr) then
    s.setTxn fn { v with ents := v.ents.map (fun x => if x.dev = e.dev && x.addr = e.addr then merge x else x) }
  else if 2048 ≤ v.ents.length then s.raise .TXN_STATUS_OVERFLOW fn
  else s.setTxn fn { v with ents := v.ents ++ [e] }

/-- The extents of a swatch's run plan, span table, group table, hint table, prefetch list and tag counter table, by its
committed descriptor (R419). -/
def State.tables (s : State) (k : Nat) : List (Nat × Nat) :=
  ([(s.desc k 320 52, 16 * s.desc k 960 17), (s.desc k 384 52, 128 * s.desc k 977 17), (s.desc k 448 52, 128 * 4096),
    (s.desc k 640 52, 4096), (s.desc k 832 52, 16 * s.desc k 994 17), (s.desc k 512 52, 8 * 4096)]).filter
      (fun r => r.1 ≠ 0)

/-- The swatches whose descriptors hold anything. -/
def State.described (s : State) : List Nat := (s.mem.st.sram.map (fun c => swatchAt c.1)).eraseDups

/-- The swatch one of whose tables holds a device address. -/
def State.tableOwner (s : State) (a : Nat) : Option Nat :=
  s.described.find? (fun k => (s.tables k).any (fun r => r.1 ≤ a && a < r.1 + r.2))

/-! Windows of the device address space (R396). -/

/-- The descriptor area. -/
def descBase : Nat := 0xF000000000000
/-- The directory. -/
def dirBase : Nat := 0xF000080000000
/-- Core scratch. -/
def scrBase : Nat := 0xF000100000000
/-- The pockets. -/
def pktBase : Nat := 0xF000200000000

/-- What a data-port unit at an address meets: done with its value, refused with a reason, or waiting. -/
inductive DpRes where
  | done (s : State) (v : Nat)
  | refused (s : State) (why : Nat)
  | waits (s : State)

/-- May a function's data port use a bolt (R271)? The physical function is not denied by SHARE; another counts as its
partition. -/
def State.dpAllows (s : State) (fn : Nat) (write : Bool) (e : DirEntry) : Bool :=
  let mine := s.desc e.owner 3 3 = fn - 1
  fn = 0 || (e.share = 1 && mine) || (e.share = 2 && (mine || !write))

/-- What stands for the swatch in a wait of a data port. -/
def dpSwatch : Nat := 65536

/-- A unit in the tiered space: through the directory, promoted on demand from T2 and T3 (R264, R399), stream-through at the
base cache (R243). -/
def State.dpTiered (s : State) (fn a : Nat) (write : Bool) (v : Nat) : DpRes :=
  let bs := boltsOf a 8
  let s := bs.foldl State.lookup s
  let denied := bs.filter (fun b => match s.serve b (s.dpAllows fn write) with
    | .denied => true
    | _ => false)
  let waiting := bs.filter (fun b => match s.serve b (s.dpAllows fn write) with
    | .waits _ => true
    | _ => false)
  if !denied.isEmpty then .refused (denied.foldl (fun t b => t.tally .DIR_DENIED (hubOf b) 1) s) 1
  else if !waiting.isEmpty then
    .waits (waiting.foldl (fun t b =>
      let k := (t.dirE b).owner
      match t.serve b (t.dpAllows fn write) with
      | .waits true => (t.promoteNow b k (t.firstRegion k)).waitOn dpSwatch 2 b
      | .waits false => (if 2 ≤ (t.dirE b).tier then t.raiseMove b else t).waitOn dpSwatch 2 b
      | _ => t) s)
  else
    let e := s.dirE (a / 65536)
    let s := if e.tier = 1 && s.homeLive a then
        s.cacheAccess (t1Stack e.home) (t1Slot e.home) (a % 65536 / 256) 1 0 (fn - 1) write
      else s
    if write then .done (s.hostPut a (leBytes v 8)) 0 else .done s (s.devNat a 8)

/-- The descriptor words that the bytes of a unit touch: word address, byte mask and data placed. -/
def unitWords (a v : Nat) : List (Nat × Nat × Nat) :=
  let o := a % 8
  if o = 0 then [(a, 255, v)]
  else [(a - o, (255 * 2 ^ o) % 256, (v * 2 ^ (8 * o)) % 2 ^ 64), (a - o + 8, 255 / 2 ^ (8 - o), v / 2 ^ (64 - 8 * o))]

/-- A word with the bytes of a mask replaced. -/
def maskBytes (old mask data : Nat) : Nat :=
  (List.range 8).foldl (fun d i => if bitAt mask i then setBits d (8 * i) 8 (bitField data (8 * i) 8) else d) old

/-- A unit in the descriptor area (R351). -/
def State.dpDesc (s : State) (fn a : Nat) (write : Bool) (v : Nat) : DpRes :=
  let ws := unitWords (a - descBase) v
  if ws.any (fun w => 16777216 ≤ w.1 || !s.fnHasSwatch fn (w.1 / 256)) then .refused s 1
  else if write then
    .done (ws.foldl (fun t w =>
      let k := w.1 / 256
      let i := w.1 % 256 / 8
      t.writeDesc k i (maskBytes (t.desc k (64 * i) 64) w.2.1 w.2.2)) s) 0
  else .done s (leNat (Memory.bytes 0 s.mem.st.sram (descAt ((a - descBase) / 256) + (a - descBase) % 256) 8))

/-- A unit in the directory, read only by the physical function. (DEDUCED, log 118.) -/
def State.dpDir (s : State) (fn a : Nat) (write : Bool) : DpRes :=
  let o := a - dirBase
  if fn ≠ 0 || write then .refused s 1
  else
    let two := (s.dirE (o / 16)).bits + 2 ^ 128 * (s.dirE (o / 16 + 1)).bits
    .done s (bitField two (8 * (o % 16)) 64)

/-- A unit in core scratch (R398, R462): while the core is idle, done or a hole; a write goes to the core image too, and a
hole has its image alone. -/
def State.dpScratch (s : State) (fn a : Nat) (write : Bool) (v : Nat) : DpRes :=
  let c := (a - scrBase) / 4194304
  let o := (a - scrBase) % 4194304
  let r := c / 8
  let p := s.physK r (c % 8)
  let st := s.f .CORE_STATUS_STATE c
  let bolt := imageBolt c + o / 65536
  let img := rsvAddr s bolt (o % 65536)
  if !s.fnHasRegion fn r then .refused s 1
  else if 4194304 < o + 8 || 65536 < o % 65536 + 8 then .refused s 3
  else if s.coreInReset c then .done (s.absorb r) 0
  else if p ≠ 15 && st ≠ 0 && st ≠ 5 then .refused s 5
  else if write then
    let t := if s.rsvDead bolt then s else s.setStores { s.mem.st with hbm := Memory.write 0 s.mem.st.hbm img (leBytes v 8) }
    if p = 15 then .done t 0
    else .done (t.setStores { t.mem.st with
      scratch := Memory.write 0 t.mem.st.scratch (4194304 * (9 * r + p) + o) (leBytes v 8) }) 0
  else if p = 15 then .done s (if s.rsvDead bolt then 0 else leNat (Memory.bytes 0 s.mem.st.hbm img 8))
  else .done s (leNat (Memory.bytes 0 s.mem.st.scratch (4194304 * (9 * r + p) + o) 8))

/-- A unit in a pocket: a way of KIND 3 whose swatch is idle (R398). -/
def State.dpPocket (s : State) (fn a : Nat) (write : Bool) (v : Nat) : DpRes :=
  let o := a - pktBase
  let r := o / 67108864
  let w := s.way r (o % 67108864 / 4194304)
  if !s.fnHasRegion fn r then .refused s 1
  else if 4194304 < o % 4194304 + 8 then .refused s 3
  else if s.regionInReset r then .done (s.absorb r) 0
  else if w.1 ≠ 3 || !s.idle w.2 || FMap.get 0 s.mem.zeroing (16 * r + o % 67108864 / 4194304) ≠ 0 then .refused s 5
  else if write then .done (s.setStores { s.mem.st with pocket := Memory.write 0 s.mem.st.pocket o (leBytes v 8) }) 0
  else .done s (leNat (Memory.bytes 0 s.mem.st.pocket o 8))

/-- One unit of a data port at an address (R396, R398). With no pattern only the first 16 MiB of stack 0 are served, to the
physical function (R416). -/
def State.dpUnit (s : State) (fn a : Nat) (write : Bool) (v : Nat) : DpRes :=
  if s.f .HUB_BOOT_STEP 0 = 14 then
    if fn ≠ 0 || 16777216 < a + 8 then .refused s 2
    else if write then .done (s.setStores { s.mem.st with hbm := Memory.write 0 s.mem.st.hbm a (leBytes v 8) }) 0
    else .done s (leNat (Memory.bytes 0 s.mem.st.hbm a 8))
  else if a + 8 ≤ 2 ^ 43 then s.dpTiered fn a write v
  else if descBase ≤ a && a + 8 ≤ descBase + 0x1000000 then s.dpDesc fn a write v
  else if dirBase ≤ a && a + 8 ≤ dirBase + 0x80000000 then s.dpDir fn a write
  else if scrBase ≤ a && a + 8 ≤ scrBase + 4194304 * 384 then s.dpScratch fn a write v
  else if pktBase ≤ a && a + 8 ≤ pktBase + 67108864 * 48 then s.dpPocket fn a write v
  else .refused s 2

/-! The port (R399, R400). -/

/-- A function's data port. -/
def State.dp (s : State) (fn : Nat) : Dp := FMap.get {} s.dps fn
/-- Replaces it. -/
def State.setDp (s : State) (fn : Nat) (v : Dp) : State := { s with dps := FMap.set {} s.dps fn v }

/-- A unit is moved: the next address, and the count. -/
def State.dpNext (s : State) (fn : Nat) : State :=
  let v := s.dp fn
  let count := 8 * s.f .DP_COUNT_COUNT fn
  let v := { v with off := v.off + 8 }
  let v := if count ≠ 0 && v.off = count then
      { v with row := (v.row + 8 * s.f .DP_STRIDE_STRIDE fn) % 2 ^ 52, off := 0 }
    else v
  (s.setDp fn v).tally .DP_DONE fn 1

/-- A unit refused, denied or filled with zero is counted with its reason. -/
def State.dpErr (s : State) (fn why : Nat) : State :=
  ((s.tally .DP_ERR fn 1).raise .DP_STATUS_ERR_SEEN fn).setF .DP_STATUS_LAST_ERR fn why

/-- Does an open transaction of the function stage a write of an address (R419)? -/
def State.dpStages (s : State) (fn a : Nat) : Bool :=
  s.txnOpen fn && ((descBase ≤ a && a < descBase + 0x1000000) || (a < 2 ^ 43 && (s.tableOwner a).isSome))

/-- The front unit of the front request; `none` where it waits. -/
def State.dpFront (s : State) (fn : Nat) (r : DpReq) (v : Nat) : State × Option Nat :=
  let d := s.dp fn
  let a := (d.row + d.off) % 2 ^ 52
  if !r.whole then (s.dpErr fn 3, some 0)
  else if r.write && s.dpStages fn a then
    ((unitWords a v).foldl (fun t w => t.stage fn { dev := true, addr := w.1, mask := w.2.1, data := w.2.2 }) s, some 0)
  else
    match s.dpUnit fn a r.write v with
    | .done t x => (if r.write then (unitWords a v).foldl (fun u w => u.noteWrite allFns true w.1) t else t, some x)
    | .refused t why => (t.dpErr fn why, some 0)
    | .waits t => (t, none)

/-- A request is over: a read returns its units. -/
def State.dpEnd (s : State) (fn : Nat) (r : DpReq) (rest : List DpReq) : State :=
  let s := s.setDp fn { s.dp fn with reqs := rest }
  if r.write then s else r.got.foldl (fun t v => t.emit (.data v)) s

/-- The port works through its requests until one waits; the first argument bounds the units and requests.
(DESIGN CHOICE, log 117.) -/
def State.dpRun (s : State) (fn : Nat) : Nat → State
  | 0 => s
  | n + 1 =>
    match (s.dp fn).reqs with
    | [] => s
    | r :: rest =>
      match r.units with
      | [] => (s.dpEnd fn r rest).dpRun fn n
      | v :: vs =>
        match s.dpFront fn r v with
        | (t, none) => t.setDp fn { t.dp fn with reqs := { r with since := if r.since = 0 then t.now + 1 else r.since } :: rest }
        | (t, some x) =>
          let t := t.dpNext fn
          (t.setDp fn { t.dp fn with reqs := { r with units := vs, got := r.got ++ [x], since := 0 } :: rest }).dpRun fn n

/-- How much work a port has. -/
def Dp.work (v : Dp) : Nat := v.reqs.foldl (fun n r => n + r.units.length + 1) 0

/-- A function's port goes on. -/
def State.dpGo (s : State) (fn : Nat) : State := s.dpRun fn (s.dp fn).work

/-- An access to the window: `units` are the values written, or as many numbers as units are read. An access without units
moves none: it lets a port that waited go on. -/
def dataPortAccess (fn : Nat) (write : Bool) (off : Nat) (units : List Nat) (s : State) : State :=
  let v := s.dp fn
  let r : DpReq :=
    { write := write, units := units.map (fun x => if write then x % 2 ^ 64 else 0), got := [], whole := off % 8 = 0, since := 0 }
  let s := if units.isEmpty then s else s.setDp fn { v with reqs := v.reqs ++ [r] }
  s.dpGo fn

/-- DATA_PORT_ACCESS. -/
def execDataPortAccess (fn : Nat) (write : Bool) (off : Nat) (units : List Nat) (s : State) :
    Host.Outcome State Fault Refusal :=
  act (fn < 9 && off < 65536) (whenUp (dataPortAccess fn write off units)) s

/-- The rest of a stalled read: zero in every unit not yet read (R400). -/
def State.dpZero (s : State) (fn : Nat) : Nat → State
  | 0 => s
  | n + 1 => ((s.dpErr fn 4).dpNext fn).dpZero fn n

/-- A read that has waited longer than the stall limit completes; the promote that it started continues (R400). -/
def dpReadStall (fn : Nat) (s : State) : State :=
  match (s.dp fn).reqs with
  | [] => s
  | r :: rest =>
    let limit := msec (natMin (natMax (s.f .TIER_CFG_STALL_LIMIT 0) 1) 10000)
    if r.write || r.since = 0 || s.now + 1 - r.since ≤ limit then s
    else
      let s := s.dpZero fn r.units.length
      (s.dpEnd fn { r with got := r.got ++ r.units.map (fun _ => 0) } rest).dpGo fn

/-- DP_READ_STALL. -/
def execDpReadStall (fn : Nat) (s : State) : Host.Outcome State Fault Refusal :=
  act (fn < 9) (whenUp (dpReadStall fn)) s

/-! Transactions (R419 to R423). -/

/-- RESULT of the last BEGIN, COMMIT or ROLLBACK. -/
def State.txnResult (s : State) (fn code : Nat) : State := s.setF .TXN_STATUS_RESULT fn code

/-- BEGIN. -/
def txnBegin (fn : Nat) (s : State) : State :=
  if s.txnOpen fn then s.txnResult fn 2
  else
    let s := (s.raise .TXN_STATUS_OPEN fn).setF .TXN_STATUS_OVERFLOW fn 0
    (s.setTxn fn { s.txn fn with ents := [], written := [] }).txnResult fn 0

/-- BEGIN. -/
def execBegin (fn : Nat) (s : State) : Host.Outcome State Fault Refusal := act (fn < 9) (whenUp (txnBegin fn)) s

/-- The transaction closes. -/
def State.txnClose (s : State) (fn code : Nat) : State :=
  let s := (s.setF .TXN_STATUS_OPEN fn 0).setF .TXN_STATUS_OVERFLOW fn 0
  (s.setTxn fn { s.txn fn with ents := [], written := [] }).txnResult fn code

/-- ROLLBACK discards the entries. -/
def txnRollback (fn : Nat) (s : State) : State := if s.txnOpen fn then s.txnClose fn 0 else s.txnResult fn 1

/-- ROLLBACK. -/
def execRollback (fn : Nat) (s : State) : Host.Outcome State Fault Refusal := act (fn < 9) (whenUp (txnRollback fn)) s

/-- The register that an entry of BAR0 names. -/
def entReg (fn : Nat) (e : TxnEnt) : Option (Block × Nat × Nat) :=
  match targetAt fn e.addr with
  | .reg b u o => some (b, u, o)
  | _ => none

/-- Is the target of an entry within the function's reach (R395, R351)? -/
def State.entReach (s : State) (fn : Nat) (e : TxnEnt) : Bool :=
  if e.dev then
    if descBase ≤ e.addr then s.fnHasSwatch fn ((e.addr - descBase) / 256)
    else match s.tableOwner e.addr with
      | some k => s.fnHasSwatch fn k
      | none => fn = 0
  else
    s.reaches fn (targetAt fn e.addr) && (match entReg fn e with
      | some (b, _, o) => s.mayWrite fn b o e.data
      | none => true)

/-- The partition configurations that the entries of a transaction ask for. -/
def State.txnParts (s : State) (fn : Nat) (es : List TxnEnt) : List (Nat × PartCfg) :=
  es.filterMap (fun e =>
    match if e.dev then none else entReg fn e with
    | some (.hub, 0, o) =>
      if 0x900 ≤ o && o < 0x980 && o % 16 = 0 then
        let p := (o - 0x900) / 16
        let w := maskBytes ((s.partNext p).word 0) e.mask e.data
        some (p, { s.partNext p with regions := bitField w 0 48, enable := bitAt w 48 })
      else none
    | _ => none)

/-- Do the partition writes of a transaction meet R371? -/
def State.partsMeet (s : State) (ps : List (Nat × PartCfg)) : Bool :=
  let next (q : Nat) : PartCfg := ((ps.find? (fun p => p.1 = q)).map Prod.snd).getD (s.partNext q)
  ps.all (fun p => (List.range 8).all (fun q => q = p.1 ||
    (!p.2.clashes (next q) && (ps.any (fun x => x.1 = q) || !p.2.clashes (s.partCfg q)))))

/-- Commits of a function that still have held writes. -/
def State.heldCommits (s : State) (fn : Nat) : Nat :=
  ((s.held.filter (fun h => h.fn = fn && h.num ≠ 0)).map (fun h => h.num)).eraseDups.length

/-- The first check that fails, as its result; 0 when the commit is accepted (R421). -/
def State.commitCheck (s : State) (fn : Nat) : Nat :=
  let v := s.txn fn
  if !s.txnOpen fn then 1
  else if s.f .TXN_STATUS_OVERFLOW fn = 1 then 3
  else if !v.ents.all (s.entReach fn) then 4
  else if v.ents.any (fun e => v.written.contains (e.dev, e.addr)) then 5
  else if !s.partsMeet (s.txnParts fn v.ents) then 6
  else if 8 ≤ s.heldCommits fn then 7
  else 0

/-- The bytes of a masked entry: address and value. -/
def TxnEnt.bytes (e : TxnEnt) : List (Nat × Nat) :=
  (List.range 8).filterMap (fun i => if bitAt e.mask i then some (e.addr + i, bitField e.data (8 * i) 8) else none)

/-- An accepted entry is put in place, or held for the step boundary of its swatch (R422). -/
def State.applyEnt (s : State) (fn num : Nat) (e : TxnEnt) : State :=
  if !e.dev then
    match entReg fn e with
    | some (b, u, o) => s.writeRw fn b u o (maskBytes (s.mergeBase fn b u o) e.mask e.data)
    | none => s
  else
    let k := if descBase ≤ e.addr then (e.addr - descBase) / 256 else (s.tableOwner e.addr).getD 65536
    if descBase ≤ e.addr then
      let i := (e.addr - descBase) % 256 / 8
      let w := maskBytes (s.desc k (64 * i) 64) e.mask e.data
      if s.idle k then s.putDescWord k i w
      else { s with held := s.held ++ [({ sw := k, desc := true, addr := 8 * i, data := (leBytes w 8).map BitVec.toNat
                                          fn := fn, num := num } : HeldWrite)] }
    else if k = 65536 || s.idle k then e.bytes.foldl (fun t b => t.putDevNat b.1 b.2 1) s
    else { s with held := s.held ++ e.bytes.map (fun b =>
      ({ sw := k, desc := false, addr := b.1, data := [b.2], fn := fn, num := num } : HeldWrite)) }

/-- COMMIT (R421, R422): the function's next number, the checks, and, where all hold, every entry at once. Partition
configurations are put in together, so that no order of theirs is rejected. (DESIGN CHOICE, log 119.) -/
def txnCommit (fn : Nat) (s : State) : State :=
  let code := s.commitCheck fn
  if code = 1 then s.txnResult fn 1
  else
    let v := s.txn fn
    let num := v.next
    let s := s.setTxn fn { v with next := (num + 1) % 2 ^ 32 }
    if code ≠ 0 then s.txnClose fn code
    else
      let ps := s.txnParts fn v.ents
      let s := { s with parts := ps.foldl (fun m p => FMap.insert m p.1 (some p.2)) s.parts }
      let s := ps.foldl (fun t p => partitionChangeApply p.1 (t.setF .HUB_PART_SWT_PENDING p.1 1)) s
      let rest := v.ents.filter (fun e => (s.txnParts fn [e]).isEmpty)
      let s := rest.foldl (fun t e => t.applyEnt fn num e) s
      let s := v.ents.foldl (fun t e => t.noteWrite (allFns.filter (fun g => g ≠ fn)) e.dev e.addr) s
      let s := (s.txnClose fn 0).setF .TXN_STATUS_LAST_COMMIT fn num
      if s.held.any (fun h => h.fn = fn && h.num = num) then s
      else (s.setF .TXN_APPLIED_APPLIED fn num).interrupt fn 2

/-- COMMIT. -/
def execCommit (fn : Nat) (s : State) : Host.Outcome State Fault Refusal := act (fn < 9) (whenUp (txnCommit fn)) s

end Sys2Proof.Machine
end

