-- ==== Sys2Proof/Machine/Thimble.lean ====
section
/-! DEFINITION. The thimble and the service ledger (R477 to R493). Signatures, digests and keys are free functions of their
operands. -/

namespace Sys2Proof.Machine

/-! Config flash (R411). -/

/-- Bytes of the config flash; erased bytes read FFh. -/
def State.cfg (s : State) (a n : Nat) : List Byte := Memory.bytes 255 s.mem.st.cfg a n
/-- A number of `n` bytes there. -/
def State.cfgNat (s : State) (a n : Nat) : Nat := leNat (s.cfg a n)
/-- Programs bytes. -/
def State.putCfg (s : State) (a : Nat) (bs : List Byte) : State :=
  s.setStores { s.mem.st with cfg := Memory.write 255 s.mem.st.cfg a bs }
/-- Erases a stretch. -/
def State.eraseCfg (s : State) (a n : Nat) : State :=
  s.setStores { s.mem.st with cfg := FMap.clearRange s.mem.st.cfg a (a + n) }

/-! Keys and identity (R477, R478). -/

/-- The device public key. -/
def devicePublic : List Byte := Config.ed448Public Config.deviceSeed
/-- The identity digest. -/
def identityDigest : List Byte := Config.shake256 devicePublic 64
/-- MODULE_ID. -/
def moduleIdentity : Nat := leNat (identityDigest.take 8)
/-- The alias key's private part, from the seed and the running image's DIGEST. -/
def aliasSecret (digest : List Byte) : List Byte := Config.shake256 (Config.deviceSeed ++ digest) 57
/-- The alias public key. -/
def aliasPublic (digest : List Byte) : List Byte := Config.ed448Public (aliasSecret digest)

/-! The boot header (R479). -/

/-- A copy of the boot header. -/
def State.header (s : State) (k : Nat) : List Byte := s.cfg (0x8000 * k) 446
/-- Bytes `lo` to `hi - 1` of a record. -/
def cut (r : List Byte) (lo hi : Nat) : List Byte := (r.drop lo).take (hi - lo)
/-- OWN_GEN of a copy. -/
def ownGen (r : List Byte) : Nat := leNat (cut r 4 8)

/-- Does the owner record chain: the factory owner's, or one whose previous owner's key is known from the ledger or the other
copy? -/
def State.chained (s : State) (r other : List Byte) : Bool :=
  let prev := cut r 236 268
  leNat prev = 0 || s.thm.owners.contains (leNat prev)
    || (Config.shake256 (cut other 179 236) 32 == prev && Config.ed448Verify (cut other 179 236) (cut r 0 268) (cut r 268 382))

/-- Is a copy valid? -/
def State.headerValid (s : State) (k : Nat) : Bool :=
  let r := s.header k
  leNat (cut r 0 8) % 4 = 1 && cut r 382 446 == Config.shake256 (cut r 0 382) 64
    && Config.ed448Verify Config.factoryKey (cut r 8 65) (cut r 65 179) && cut r 8 65 == devicePublic
    && s.chained r (s.header (1 - k))

/-- The copy used: the valid one with the later OWN_GEN. -/
def State.ownCopy (s : State) : Option Nat :=
  let v0 := s.headerValid 0
  let v1 := s.headerValid 1
  if v0 && v1 then some (if isLater 32 (ownGen (s.header 1)) (ownGen (s.header 0)) then 1 else 0)
  else if v0 then some 0 else if v1 then some 1 else none

/-- The owner public key. -/
def State.ownerKey (s : State) : List Byte := cut (s.header (s.ownCopy.getD 0)) 179 236

/-! Firmware images (R480). -/

/-- Where an image slot lies. -/
def imageAt (slot : Nat) : Nat := 0x1000000 + 0x2000000 * slot
/-- The header words of an image. -/
def State.imageHead (s : State) (slot : Nat) : Nat := s.cfgNat (imageAt slot) 16
/-- VERSION. -/
def State.imageVersion (s : State) (slot : Nat) : Nat := bitField (s.imageHead slot) 32 32
/-- SVN. -/
def State.imageSvn (s : State) (slot : Nat) : Nat := bitField (s.imageHead slot) 64 16
/-- KEY. -/
def State.imageKey (s : State) (slot : Nat) : Nat := bitField (s.imageHead slot) 3 1
/-- DIGEST. -/
def State.imageDigest (s : State) (slot : Nat) : List Byte := s.cfg (imageAt slot + 16) 64

/-- Is an image valid, under a minimum SVN and with F0 revoked or not? -/
def State.imageOk (s : State) (slot minSvn : Nat) (revoked : Bool) : Bool :=
  let h := s.imageHead slot
  let len := bitField h 96 32
  bitField h 0 2 = 1 && bitField h 2 1 = slot && !(revoked && bitField h 3 1 = 0) && len + 4096 ≤ 0x2000000
    && minSvn ≤ bitField h 64 16
    && Config.ed448Verify (Config.firmwareKey (bitField h 3 1)) (s.cfg (imageAt slot) 80) (s.cfg (imageAt slot + 80) 114)
    && s.imageDigest slot == Config.shake256 (s.cfg (imageAt slot + 4096) len) 64

/-- Is an image valid now? -/
def State.imageValid (s : State) (slot : Nat) : Bool := s.imageOk slot s.thm.minSvn s.thm.revoked

/-- A FIRMWARE entry; its events are coded 0 bring-up, 1 invalid image, 2 COMMIT_SVN, 3 REVOKE_F0, 4 recovery write.
(DESIGN CHOICE, log 125.) -/
def State.firmwareEntry (s : State) (slot event : Nat) : State :=
  s.ledger 0x0B (slot + 2 ^ 8 * event + 2 ^ 16 * s.imageVersion slot + 2 ^ 48 * s.imageSvn slot)

/-! Ledger entries (R489, R490). -/

/-- Where entry `q` lies. -/
def entryAt (q : Nat) : Nat := 0x5000000 + 256 * ((q - 1) % 196608)
/-- The 256 bytes of an entry. -/
def State.ledgEntryBytes (s : State) (q : Nat) : List Byte := s.cfg (entryAt q) 256
/-- TYPE of an entry. -/
def State.entryType (s : State) (q : Nat) : Nat := s.cfgNat (entryAt q + 1) 1
/-- The payload of an entry. -/
def State.entryPayload (s : State) (q : Nat) : Nat := s.cfgNat (entryAt q + 64) 64

/-- Operating minutes since manufacture. -/
def State.minutes (s : State) : Nat := (s.meters.powered + (s.now - s.meters.onAt)) / sec 60

/-- Bytes 0 to 141 of an entry. -/
def State.entryHead (s : State) (e : LedgEnt) (q : Nat) : List Byte :=
  let prev := if q = 1 then fillBytes 32 0 else Config.shake256 (s.ledgEntryBytes (q - 1)) 32
  leBytes (1 + 2 ^ 8 * e.type + 2 ^ 32 * (s.meters.boots % 2 ^ 32)) 8 ++ leBytes q 8 ++ leBytes s.minutes 8
    ++ leBytes e.time 8 ++ prev ++ leBytes e.payload 64 ++ fillBytes 14 0

/-- The bytes of an entry, with the device key's signature. -/
def State.entryBytes (s : State) (e : LedgEnt) (q : Nat) : List Byte :=
  s.entryHead e q ++ (Config.ed448Sign Config.deviceSeed (s.entryHead e q)).take 114

/-- Sectors in use (R489, R501). -/
def State.sectors (s : State) : Nat :=
  if s.thm.newest < s.thm.oldest then 0 else (s.thm.newest - 1) / 256 - (s.thm.oldest - 1) / 256 + 1

/-- The ledger's registers (R501); SMBus cause 5 at 692 sectors (R492). -/
def State.showLedger (s : State) : State :=
  let n := s.sectors
  let was := s.f .LEDG_STATUS_FULL90 0
  let s := ((s.setF .LEDG_STATUS_SECTORS 0 n).setF .LEDG_STATUS_FULL90 0 (flagBit (692 ≤ n))).setF .LEDG_STATUS_QUEUE 0
    (natMin s.ledgQ.length 127)
  let s := (s.setF .LEDG_HEAD_SEQ 0 s.thm.newest).setF .LEDG_TAIL_SEQ 0 s.thm.oldest
  if was = 0 && 692 ≤ n then s.alert 5 else s

/-- Energy in Wh. -/
def State.wattHours (s : State) : Nat := s.meters.energy / 360000000

/-- The payload of a SUMMARY entry for the removal of every entry up to `q` (R490, R492). -/
def State.summary (s : State) (q : Nat) : Nat :=
  let t := s.thm
  leNat (leBytes q 8 ++ leBytes t.grade 1 ++ leBytes t.ceil 1 ++ leBytes t.watts 2 ++ leBytes t.refurbs 2
    ++ leBytes s.wattHours 8 ++ leBytes s.meters.cycles 4 ++ leBytes t.factory 1 ++ Config.shake256 (s.ledgEntryBytes q) 32)

/-- The oldest `n` sectors are archived, never the one that holds the newest entry (R492). -/
def archive (n : Nat) (s : State) : State :=
  let first := (s.thm.oldest - 1) / 256
  let n := natMin n ((s.thm.newest - 1) / 256 - first)
  if n = 0 then s
  else
    let q := 256 * (first + n)
    let s := s.ledger 0x11 (s.summary q)
    let s := (List.range n).foldl (fun t i => t.eraseCfg (0x5000000 + 65536 * ((first + i) % 768)) 65536) s
    ({ s with thm := { s.thm with oldest := q + 1 } }.raise .LEDG_STATUS_ARCHIVED_SEEN 0).showLedger

/-- ARCHIVE. -/
def execArchive (count : Nat) (s : State) : Host.Outcome State Fault Refusal := act true (whenUp (archive count)) s

/-- The bytes of a map copy (R452) with the entries that the ledger holds up to `hwm`. -/
def State.mapBytes (s : State) (gen hwm : Nat) : List Byte :=
  let es := s.boot.map.filter (fun e => e.seq ≤ hwm)
  let head := leBytes (1 + 2 ^ 32 * gen + 2 ^ 64 * es.length + 2 ^ 80 * s.boot.moduleId + 2 ^ 144 * hwm
    + 2 ^ 208 * maskOf s.mem.rsvSet) 64
  let body := head ++ es.flatMap (fun e => leBytes e.bits 16)
  let digest := Config.shake256 body 64
  body ++ digest ++ (Config.ed448Sign Config.deviceSeed digest).take 114

/-- The copy with the earlier MAP_GEN is rewritten (R454). (DEDUCED, log 139.) -/
def State.putMap (s : State) (hwm : Nat) : State :=
  let k := 1 - s.boot.mapCopy
  let gen := (s.boot.mapGen + 1) % 2 ^ 32
  let s := (s.eraseCfg (0x200000 + 0x80000 * k) 0x80000).putCfg (0x200000 + 0x80000 * k) (s.mapBytes gen hwm)
  { s with boot := { s.boot with mapGen := gen, mapCopy := k } }

/-- What the thimble keeps of a programmed entry. -/
def Thm.learn (t : Thm) (q type p : Nat) : Thm :=
  if type = 0x01 then
    { t with grade := bitField p 0 8, ceil := bitField p 8 8, watts := bitField p 16 16, refurbs := bitField p 32 16 }
  else if type = 0x04 then
    { t with flash := FMap.set [] t.flash (bitField p 0 8) ((List.range 24).map (fun i => bitField p (88 + 16 * i) 16)) }
  else if type = 0x0E then
    if bitField p 0 8 = 0 then { t with wipeOpen := true } else { t with wipeOpen := false, wipeSeq := q }
  else if type = 0x0F then
    if bitField p 0 8 = 0 then { t with refurbDue := true }
    else if bitField p 0 8 = 1 then { t with refurbDue := false, refurbOpen := true }
    else { t with refurbOpen := decide (bitField p 8 8 = 1) }
  else if type = 0x10 then { t with owners := t.owners ++ [bitField p 32 256] }
  else t

/-- The front entry of the queue is programmed (R491); a MAP entry's addition then goes into the map (R454), and with one
free sector left the oldest sector is archived (R492). -/
def ledgerProgram (s : State) : State :=
  match s.ledgQ with
  | [] => s
  | e :: rest =>
    let q := s.thm.newest + 1
    let s := (s.putCfg (entryAt q) (s.entryBytes e q)).tally .LEDG_WRITES 0 1
    let s := { s with ledgQ := rest, thm := { s.thm.learn q e.type e.payload with newest := q } }
    let s := if e.type = 0x07 then s.putMap q else s
    let s := s.showLedger
    if s.sectors = 767 then archive 1 s else s

/-- LEDGER_PROGRAM. -/
def execLedgerProgram (s : State) : Host.Outcome State Fault Refusal := act true (whenPowered ledgerProgram) s

/-- The whole queue is programmed; an archive adds at most one entry to it, so twice its length and one suffices. -/
def State.drainLedger (s : State) : State := (List.range (2 * s.ledgQ.length + 1)).foldl (fun t _ => ledgerProgram t) s

/-! Periodic entries (R490). -/

/-- An HOURS entry; the peaks start again. -/
def State.hoursEntry (s : State) : State :=
  let m := s.meters
  let s := s.ledger 0x02 (s.wattHours % 2 ^ 64 + 2 ^ 64 * (m.cycles % 2 ^ 32) + 2 ^ 96 * ofSigned (m.peakStack.getD 0) 8
    + 2 ^ 104 * ofSigned (m.peakDie.getD 0) 8)
  { s with meters := { s.meters with peakStack := none, peakDie := none, hoursAt := s.now } }

/-- The counts of a stack, as one sum: they only rise. -/
def State.stackSum (s : State) (st : Nat) : Nat :=
  FMap.get 0 s.meters.corr st + FMap.get 0 s.meters.uncorr st + (s.stack st).retired.length + FMap.get 0 s.meters.swaps st

/-- A STACK entry for each stack; unless `all`, for those whose counts have changed. -/
def State.stackEntries (s : State) (all : Bool) : State :=
  let s := (List.range 24).foldl (fun t st =>
    let n := t.stackSum st
    if !all && FMap.get 0 t.meters.told st = n then t
    else
      let m := t.meters
      let t := t.ledger 0x03 (st + 2 ^ 8 * (FMap.get 0 m.corr st % 2 ^ 64) + 2 ^ 72 * (FMap.get 0 m.uncorr st % 2 ^ 32)
        + 2 ^ 104 * ((t.stack st).retired.length % 2 ^ 32) + 2 ^ 136 * (FMap.get 0 m.swaps st % 2 ^ 16))
      { t with meters := { t.meters with told := FMap.set 0 t.meters.told st n } }) s
  { s with meters := { s.meters with stackAt := s.now } }

/-- A FLASH entry for each controller. -/
def State.flashEntries (s : State) : State :=
  let s := (List.range 2).foldl (fun t c => t.ledger 0x04 (t.flashPayload c)) s
  { s with meters := { s.meters with flashAt := s.now } }

/-- HOURS and FLASH every 4 h, STACK every 24 h. -/
def ledgerPeriodic (s : State) : State :=
  let s := if sec 14400 ≤ s.now - s.meters.hoursAt then s.hoursEntry else s
  let s := if sec 14400 ≤ s.now - s.meters.flashAt then s.flashEntries else s
  if sec 86400 ≤ s.now - s.meters.stackAt then s.stackEntries false else s

/-- LEDGER_PERIODIC. -/
def execLedgerPeriodic (s : State) : Host.Outcome State Fault Refusal := act true (whenUp ledgerPeriodic) s

/-! Commands of the thimble (R484 to R487, R500). -/

/-- THM_RESULT. -/
def State.thmResult (s : State) (op code : Nat) : State :=
  (s.setF .THM_RESULT_RESULT 0 code).setF .THM_RESULT_OP 0 op

/-- The nonce is replaced by a random value (R484). -/
def State.newNonce (s : State) : State :=
  let s := s.use
  s.setF .THM_NONCE_NONCE 0 (Config.freeValue 64 s.mem.tick).toNat

/-- The authorisation record at THM_ARG, as one list of bytes. -/
def State.authRecord (s : State) : List Byte := s.dev (s.f .THM_ARG_ADDR 0) 256

/-- The check of an authorisation of a command (R484): 0 accepted, else the result. The key bytes stand in OWNER alone.
(DEDUCED, log 126.) -/
def State.authCheck (s : State) (op : Nat) : Nat :=
  let r := s.authRecord
  let keyOk := op = 4 || leNat (cut r 24 81) = 0
  if s.f .THM_ARG_ADDR 0 % 64 ≠ 0 || 2 ^ 43 < s.f .THM_ARG_ADDR 0 + 256 then 3
  else if leNat (cut r 0 8) ≠ 1 + 16 * op || leNat (cut r 8 16) ≠ moduleIdentity || !keyOk || leNat (cut r 81 142) ≠ 0 then 3
  else if leNat (cut r 16 24) ≠ s.f .THM_NONCE_NONCE 0 then 5
  else if Config.ed448Verify s.ownerKey (cut r 0 142) (cut r 142 256) then 0 else 2

/-- What STATE makes of a command: 1 BUSY while booting or wiping, 4 NOT_ALLOWED in recovery, else 0. -/
def State.thmBusy (s : State) : Nat :=
  let st := s.f .THM_STATUS_STATE 0
  if st = 0 || st = 3 then 1 else if st = 2 then 4 else 0

/-- Runs an authorised command; `f` answers its result. The nonce is consumed. -/
def State.authorised (s : State) (op : Nat) (f : State → State × Nat) : State :=
  if s.thmBusy ≠ 0 then s.thmResult op s.thmBusy
  else if s.authCheck op ≠ 0 then s.thmResult op (s.authCheck op)
  else
    let r := f s
    r.1.newNonce.thmResult op r.2

/-- REFURBISH: a REQUEST that the next module reset acts on (R493); BUSY while a refurbish runs (R495). -/
def refurbish (s : State) : State :=
  if s.f .THM_STATUS_STATE 0 = 4 then s.thmResult 3 1
  else s.authorised 3 (fun t => ((t.ledger 0x0F 0).raise .THM_STATUS_REFURB_REQ 0, 0))

/-- REFURBISH. -/
def execRefurbish (s : State) : Host.Outcome State Fault Refusal := act true (whenUp refurbish) s

/-- The new owner record over the boot header copy with the earlier OWN_GEN (R485). (DEDUCED, log 124.) -/
def State.putOwner (s : State) : State :=
  let keep := s.ownCopy.getD 0
  let old := s.header keep
  let r := s.authRecord
  let gen := (ownGen old + 1) % 2 ^ 32
  let body := leBytes (1 + 2 ^ 32 * gen) 8 ++ cut old 8 179 ++ cut r 24 81 ++ Config.shake256 (cut old 179 236) 32
    ++ cut r 142 256
  let s := (s.eraseCfg (0x8000 * (1 - keep)) 0x8000).putCfg (0x8000 * (1 - keep)) (body ++ Config.shake256 body 64)
  s.ledger 0x10 (gen + 2 ^ 32 * leNat (Config.shake256 (cut r 24 81) 32))

/-- OWNER. -/
def execOwner (s : State) : Host.Outcome State Fault Refusal :=
  act true (whenUp (fun s => s.authorised 4 (fun t => (t.putOwner, 0)))) s

/-- COMMIT_SVN raises the fused minimum to the running image's SVN (R483). -/
def commitSvn (s : State) : State :=
  s.authorised 5 (fun t =>
    let v := natMax t.thm.minSvn (natMin 64 (t.f .THM_STATUS_SVN 0))
    if (List.range 2).any (fun i => t.imageOk i v t.thm.revoked) then
      let t := { t with thm := { t.thm with minSvn := v } }
      ((t.setF .THM_STATUS_MIN_SVN 0 v).firmwareEntry (t.f .THM_STATUS_SLOT 0) 2, 0)
    else (t, 4))

/-- COMMIT_SVN. -/
def execCommitSvn (s : State) : Host.Outcome State Fault Refusal := act true (whenUp commitSvn) s

/-- REVOKE_F0 blows F0's revocation fuse (R483). -/
def revokeF0 (s : State) : State :=
  s.authorised 6 (fun t =>
    if (List.range 2).any (fun i => t.imageOk i t.thm.minSvn true) then
      let t := { t with thm := { t.thm with revoked := true } }
      ((t.raise .THM_STATUS_F0_REVOKED 0).firmwareEntry (t.f .THM_STATUS_SLOT 0) 3, 0)
    else (t, 4))

/-- REVOKE_F0. -/
def execRevokeF0 (s : State) : Host.Outcome State Fault Refusal := act true (whenUp revokeF0) s

/-! Attestation (R486). -/

/-- Bytes 0 to 397 of a report with a nonce. -/
def State.report (s : State) (nonce : List Byte) : List Byte :=
  let slot := s.f .THM_STATUS_SLOT 0
  let w0 := 1 + 2 ^ 2 * s.f .THM_STATUS_CLEAN 0 + 2 ^ 3 * flagBit (s.f .THM_STATUS_STATE 0 = 4) + 2 ^ 4 * slot
    + 2 ^ 5 * s.f .PWR_GRADE_GRADE 0 + 2 ^ 7 * s.f .PAT_STATUS_SELECTED 0 + 2 ^ 9 * s.f .PAT_STATUS_COPY 0
    + 2 ^ 10 * s.f .HST_LINK_IDE_STREAMS 0 + 2 ^ 32 * s.imageVersion slot
  let w1 := s.f .THM_STATUS_SVN 0 + 2 ^ 32 * s.f .PAT_STATUS_GEN 0
  let digest := match s.boot.pat with
    | some p => leBytes p.digest 64
    | none => fillBytes 64 0
  leBytes w0 8 ++ leBytes w1 8 ++ leBytes s.clkTime 8 ++ leBytes s.thm.newest 8 ++ leBytes s.thm.wipeSeq 8
    ++ leBytes (s.regWord 0 .hub 0 8) 8 ++ nonce ++ identityDigest.take 64 ++ s.imageDigest slot ++ digest
    ++ (Config.shake256 s.ownerKey 32).take 32 ++ (Config.shake256 (s.ledgEntryBytes s.thm.newest) 32).take 32
    ++ (aliasPublic (s.imageDigest slot)).take 57 ++ fillBytes 5 0

/-- ATTEST reads the nonce at THM_ARG and writes the report behind it. An address whose bolts are not there is BAD_ARG.
(DEDUCED, log 127.) -/
def attest (s : State) : State :=
  let a := s.f .THM_ARG_ADDR 0
  if s.thmBusy ≠ 0 then s.thmResult 1 s.thmBusy
  else if a % 64 ≠ 0 || 2 ^ 43 < a + 576 || !(boltsOf a 576).all (fun b => (s.dirE b).state ≠ 0) then s.thmResult 1 3
  else
    let r := s.report (s.dev a 32)
    let sig := (Config.ed448Sign (aliasSecret (s.imageDigest (s.f .THM_STATUS_SLOT 0))) r).take 114
    (s.putDev (a + 64) (r ++ sig)).thmResult 1 0

/-- ATTEST. -/
def execAttest (s : State) : Host.Outcome State Fault Refusal := act true (whenUp attest) s

/-- The SPDM responder (R486): kind 0 returns the device certificate chain of slot 0, ending in the alias certificate that
the device key signs; kind 1 measurements 1 to 3. Each is returned as one little-endian number.
(DESIGN CHOICE, log 128.) -/
def spdmRequest (kind nonce : Nat) (s : State) : State :=
  let digest := s.imageDigest (s.f .THM_STATUS_SLOT 0)
  let pat := match s.boot.pat with
    | some p => p.digest
    | none => 0
  if kind = 0 then
    let cert := aliasPublic digest ++ Config.ed448Sign Config.deviceSeed (aliasPublic digest)
    s.emit (.data (leNat (cut (s.header (s.ownCopy.getD 0)) 8 179 ++ cert)))
  else
    ((s.emit (.data (leNat digest))).emit (.data pat)).emit (.data (leNat (s.report (leBytes nonce 32))))

/-- SPDM_REQUEST. -/
def execSpdmRequest (kind nonce : Nat) (s : State) : Host.Outcome State Fault Refusal :=
  act (kind < 2 && nonce < 2 ^ 256) (whenUp (spdmRequest kind nonce)) s

/-! Recovery (R482). -/

/-- RCV_BEGIN erases the slot; outside recovery it is not allowed. -/
def rcvBegin (slot : Nat) (s : State) : State :=
  if s.f .THM_STATUS_STATE 0 ≠ 2 then s.thmResult 7 4
  else ({ s.eraseCfg (imageAt slot) 0x2000000 with thm := { s.thm with rcv := some (slot, 0) } }).thmResult 7 0

/-- RCV_BEGIN. -/
def execRcvBegin (slot : Nat) (s : State) : Host.Outcome State Fault Refusal :=
  act (slot < 2) (whenUp (rcvBegin slot)) s

/-- A write of THM_RCV programs the next 8 B of the slot. -/
def rcvData (v : Nat) (s : State) : State :=
  match s.thm.rcv with
  | none => s
  | some (slot, o) =>
    if 0x2000000 ≤ o then s
    else { s.putCfg (imageAt slot + o) (leBytes v 8) with thm := { s.thm with rcv := some (slot, o + 8) } }

/-- RCV_DATA_WRITE. -/
def execRcvDataWrite (v : Nat) (s : State) : Host.Outcome State Fault Refusal := act (v < 2 ^ 64) (whenUp (rcvData v)) s

/-- RCV_END verifies the slot. -/
def rcvEnd (s : State) : State :=
  match s.thm.rcv with
  | none => s.thmResult 8 4
  | some (slot, _) =>
    let s := { s with thm := { s.thm with rcv := none } }
    (s.firmwareEntry slot 4).thmResult 8 (if s.imageValid slot then 0 else 2)

/-- RCV_END. -/
def execRcvEnd (s : State) : Host.Outcome State Fault Refusal := act true (whenUp rcvEnd) s

end Sys2Proof.Machine
end

