-- ==== Sys2Proof/Machine/Pattern.lean ====
section
/-! DEFINITION. The patterns in config flash (R412 to R417): their copies, which of them is used, and the commands of
PAT_CMD. -/

namespace Sys2Proof.Machine

/-! Copies (R412, R413, R415). -/

/-- Where copy `k` of pattern `n` lies (R411). -/
def patAt (n k : Nat) : Nat := 0x10000 + 0x20000 * n + 0x10000 * k
/-- A copy's 64 KiB. -/
def State.patCopy (s : State) (n k : Nat) : List Byte := s.cfg (patAt n k) 65536
/-- Bytes 0 to 63 of a copy, as a number. -/
def patHead (r : List Byte) : Nat := leNat (cut r 0 64)
/-- Bytes 64 to 127. -/
def patBody (r : List Byte) : Nat := leNat (cut r 64 128)
/-- PAT_GEN. -/
def patGen (r : List Byte) : Nat := bitField (patHead r) 32 32
/-- LENGTH. -/
def patLength (r : List Byte) : Nat := bitField (patHead r) 64 32
/-- DIGEST. -/
def patDigest (r : List Byte) : List Byte := cut r (patLength r) (patLength r + 64)
/-- The register image, in order. -/
def patEntries (r : List Byte) : List Nat :=
  (List.range (bitField (patHead r) 96 16)).map (fun i => leNat (cut r (128 + 16 * i) (144 + 16 * i)))

/-- A blank copy: erased flash. -/
def patBlank (r : List Byte) : Bool := r.all (fun b => b = 0xFF)

/-- The P fields of the register at a BAR0 offset, each with its index in the state. -/
def patFields (off : Nat) : List (FieldName × Nat) :=
  if off % 8 ≠ 0 then []
  else match targetAt 0 off with
    | .reg b u o => (fieldsAt b u o).filter (fun p => (fieldDesc p.1).kind = .pattern)
    | _ => []

/-- What R413 finds invalid: an entry without a P field, a reserved bit, CLK_ROLE or FW_PREF of 11b, a length. -/
def patFits (r : List Byte) : Bool :=
  let h := patHead r
  let b := patBody r
  h % 4 = 1 && zeroBits h 4 28 && zeroBits h 112 400 && zeroBits b 87 425 && bitField b 48 2 ≠ 3 && bitField b 85 2 ≠ 3
    && patLength r + 178 ≤ 65536 && (patEntries r).all (fun e => zeroBits e 28 36 && !(patFields (bitField e 0 28)).isEmpty)

/-- Do DIGEST and SIGNATURE verify, the latter under the owner key (R485)? -/
def patSigned (key r : List Byte) : Bool :=
  let n := patLength r
  patDigest r == Config.shake256 (cut r 0 n) 64 && Config.ed448Verify key (patDigest r) (cut r (n + 64) (n + 178))

/-- Is an image valid as pattern `n` (R415)? -/
def patValid (key : List Byte) (n : Nat) (r : List Byte) : Bool := patFits r && bitField (patHead r) 2 2 = n && patSigned key r

/-- Is copy `k` of pattern `n` valid? -/
def State.patCopyValid (s : State) (n k : Nat) : Bool := patValid s.ownerKey n (s.patCopy n k)

/-- The copy used of pattern `n`, or the reason why there is none: 1 no valid copy, 2 one generation with different bytes,
3 unordered generations (R415). -/
def State.patResolve (s : State) (n : Nat) : Except Nat Nat :=
  let v0 := s.patCopyValid n 0
  let v1 := s.patCopyValid n 1
  let r0 := s.patCopy n 0
  let r1 := s.patCopy n 1
  if v0 && v1 then
    if patGen r0 = patGen r1 then (if r0 == r1 then .ok 0 else .error 2)
    else if isLater 32 (patGen r0) (patGen r1) then .ok 0
    else if isLater 32 (patGen r1) (patGen r0) then .ok 1
    else .error 3
  else if v0 then .ok 0 else if v1 then .ok 1 else .error 1

/-- PAT_COPY: STATE 0 valid, 1 invalid, 2 blank, and the generation of a copy that is not blank (R432). -/
def State.showCopies (s : State) : State :=
  (List.range 8).foldl (fun t i =>
    let r := t.patCopy (i / 2) (i % 2)
    let st := if patBlank r then 2 else if t.patCopyValid (i / 2) (i % 2) then 0 else 1
    (t.setF .PAT_COPY_GEN i (if st = 2 then 0 else patGen r)).setF .PAT_COPY_STATE i st) s

/-! Commands (R414, R417). -/

/-- SELECT_NEXT: the pattern for the next bring-up. -/
def selectNext (n : Nat) (s : State) : State := (s.setF .PAT_STATUS_NEXT 0 n).raise .PAT_STATUS_NEXT_VALID 0

/-- SELECT_NEXT. -/
def execSelectNext (num : Nat) (s : State) : Host.Outcome State Fault Refusal := act (num < 4) (whenUp (selectNext num)) s

/-- CLEAR_NEXT. -/
def clearNext (s : State) : State := (s.setF .PAT_STATUS_NEXT 0 0).setF .PAT_STATUS_NEXT_VALID 0 0

/-- CLEAR_NEXT. -/
def execClearNext (s : State) : Host.Outcome State Fault Refusal := act true (whenUp clearNext) s

/-- WRITE_RESULT. -/
def State.patResult (s : State) (code : Nat) : State := s.setF .PAT_STATUS_WRITE_RESULT 0 code

/-- The image that PAT_SRC names: through the tiers, or, with no pattern, in the stretch of stack 0 that is served then
(R416). -/
def State.patImage (s : State) : Option (List Byte) :=
  let a := s.f .PAT_SRC_ADDR 0
  if a % 8 ≠ 0 then none
  else if s.f .HUB_BOOT_STEP 0 = 14 then
    if a + 65536 ≤ 16777216 then some (Memory.bytes 0 s.mem.st.hbm a 65536) else none
  else if 2 ^ 43 < a + 65536 || !(boltsOf a 65536).all (fun b => (s.dirE b).state ≠ 0) then none
  else some (s.dev a 65536)

/-- Is the image's generation later than that of every valid copy of its pattern? -/
def State.patLater (s : State) (n : Nat) (r : List Byte) : Bool :=
  (List.range 2).all (fun k => !s.patCopyValid n k || isLater 32 (patGen r) (patGen (s.patCopy n k)))

/-- The copy that a write goes to: the first that is not valid, else the one with the earlier generation. -/
def State.patTarget (s : State) (n : Nat) : Nat :=
  if !s.patCopyValid n 0 then 0
  else if !s.patCopyValid n 1 then 1
  else if isLater 32 (patGen (s.patCopy n 1)) (patGen (s.patCopy n 0)) then 0 else 1

/-- WRITE: the image is checked, and where it is accepted one copy is erased and programmed with it.
(DESIGN CHOICE, log 129.) -/
def patWrite (n : Nat) (s : State) : State :=
  if s.f .PAT_STATUS_BUSY 0 = 1 then s.patResult 4
  else
    match s.patImage with
    | none => s.patResult 2
    | some r =>
      if 65536 < patLength r + 178 then s.patResult 2
      else if !patSigned s.ownerKey r then s.patResult 1
      else if !patValid s.ownerKey n r then s.patResult 2
      else if !s.patLater n r then s.patResult 3
      else
        let k := s.patTarget n
        let s := s.ledger 0x0A (n + 2 ^ 8 * k + 2 ^ 24 * patGen r)
        let s := { s with thm := { s.thm with patWrite := some (n, k) } }
        ((s.eraseCfg (patAt n k) 65536).putCfg (patAt n k) r).raise .PAT_STATUS_BUSY 0

/-- PAT_WRITE. -/
def execPatWrite (num : Nat) (s : State) : Host.Outcome State Fault Refusal := act (num < 4) (whenUp (patWrite num)) s

/-- The write in progress ends. After a failure the copy holds bytes that nothing states. (DESIGN CHOICE, log 130.) -/
def patWriteDone (ok : Bool) (s : State) : State :=
  match s.thm.patWrite with
  | none => s
  | some (n, k) =>
    let s := { s with thm := { s.thm with patWrite := none } }
    let s := if ok then s
      else
        let s := s.use
        s.putCfg (patAt n k) (leBytes (Config.freeValue 524288 s.mem.tick).toNat 65536)
    ((s.setF .PAT_STATUS_BUSY 0 0).patResult (if ok then 0 else 5)).showCopies

/-- PAT_WRITE_DONE. -/
def execPatWriteDone (ok : Bool) (s : State) : Host.Outcome State Fault Refusal := act true (whenUp (patWriteDone ok)) s

end Sys2Proof.Machine
end

