-- ==== Sys2Proof/Machine/Reset.lean ====
section
/-! DEFINITION. Power, resets and the start of a bring-up (R385, R386, R393, R446, R447, R467 to R471, R487). -/

namespace Sys2Proof.Machine

/-! Core, region and partition resets (R467 to R470). Scopes: 0 a core, 1 a region, 2 a partition, 3 a partition by a
function-level reset. -/

/-- A reset is under way; narrower ones that it covers are overtaken. -/
def State.addReset (s : State) (scope num : Nat) : State :=
  let regions := if scope = 0 then 0 else if scope = 1 then 2 ^ num else s.f .HUB_PART_CFG_REGIONS num
  let left := s.boot.resets.filter (fun p =>
    !((p.1 = 0 && bitAt regions (p.2 / 8)) || (p.1 = 1 && bitAt regions p.2) || (2 ≤ p.1 && 2 ≤ scope && p.2 = num)))
  { s with boot := { s.boot with resets := left ++ [(scope, num)] } }

/-- A core's share of a reset: it gives up its program, its switch excepted (R469). -/
def State.haltCore (s : State) (c : Nat) : State :=
  let st := s.f .CORE_STATUS_STATE c
  if st = 1 || st = 2 || st = 3 then s.abandon c else s

/-- The open steps of swatches are broken (R67, R469), and the cores named stop. -/
def State.breakFor (s : State) (ks cs : List Nat) : State :=
  let s := ks.foldl (fun t k => if (t.sw k).started then t.failStep k causeBroken else t) s
  cs.foldl State.haltCore s

/-- The cores of a region. -/
def regionCores (r : Nat) : List Nat := (List.range 8).map (fun k => 8 * r + k)

/-- RESET_CORE. -/
def resetCore (r k : Nat) (s : State) : State :=
  let c := 8 * r + k
  if s.coreInReset c then s else (s.breakFor [s.swOf c] [c]).addReset 0 c

/-- RESET_CORE. -/
def execResetCore (region k : Nat) (s : State) : Host.Outcome State Fault Refusal :=
  act (region < 48 && k < 8) (whenUp (resetCore region k)) s

/-- A region's state shows the reset. -/
def State.regionStops (s : State) (r : Nat) : State :=
  if s.regionOut r then s else s.setF .RGN_STATUS_STATE r 0

/-- RESET_REGION. -/
def resetRegion (r : Nat) (s : State) : State :=
  if s.regionInReset r then s
  else ((s.breakFor ((regionCores r).map s.swOf) (regionCores r)).addReset 1 r).regionStops r

/-- RESET_REGION. -/
def execResetRegion (region : Nat) (s : State) : Host.Outcome State Fault Refusal :=
  act (region < 48) (whenUp (resetRegion region)) s

/-- Save records of a swatch are discarded. -/
def State.dropSaves (s : State) (k : Nat) : State := { s with saved := s.saved.filter (fun p => p.1 / 512 ≠ k) }

/-- A partition reset begins: its open steps are broken, and a swatch that is switched out loses its save records. -/
def State.resetPart (s : State) (scope p : Nat) : State :=
  if s.boot.resets.any (fun x => 2 ≤ x.1 && x.2 = p) then
    { s with boot := { s.boot with resets := s.boot.resets.map (fun x =>
        if 2 ≤ x.1 && x.2 = p then (natMax x.1 scope, p) else x) } }
  else
    let rs := setBitsOf (s.f .HUB_PART_CFG_REGIONS p) 48
    let ks := s.startedSws.filter (fun k => s.partHasSwatch p k)
    let s := s.breakFor ks (coresOf (s.f .HUB_PART_CFG_REGIONS p))
    let s := (ks.filter (fun k => s.run k = 2)).foldl (fun t k => (t.dropSaves k).setRun k 0) s
    rs.foldl State.regionStops (s.addReset scope p)

/-- PARTITION_RESET. -/
def execPartitionReset (part : Nat) (s : State) : Host.Outcome State Fault Refusal :=
  act (part < 8) (whenUp (fun s => s.resetPart 2 part)) s

/-- A field takes its reset value, a P field that of the register image (R11). -/
def State.resetField (s : State) (n : FieldName) (i : Nat) : State :=
  s.setF n i (FMap.get (fieldDesc n).reset s.boot.image (fieldKey n i))

/-- The registers of a block of one unit are reset, but for fields that are kept. -/
def State.resetBlock (s : State) (b : Block) (unit : Nat) (keep : FieldName → Bool) : State :=
  (allFields.filter (fun n => (fieldDesc n).block = b && !keep n)).foldl (fun t n =>
    (List.range (fieldDesc n).count).foldl (fun u j => u.resetField n ((fieldDesc n).count * unit + j)) t) s

/-- CORE_ID is the assignment, which a reset keeps. -/
def keepId (n : FieldName) : Bool := n = .CORE_ID_LOGICAL || n = .CORE_ID_PHYS_K || n = .CORE_ID_REGION

/-- A core leaves reset (R463, R469): its registers are reset and its scratch is loaded from its image. A fenced core stays
fenced, and a core of a step that is still open stays in it, broken, until the step boundary. -/
def State.coreOut (s : State) (c : Nat) : State :=
  let st := s.f .CORE_STATUS_STATE c
  let k := s.swOf c
  let held := (s.sw k).started && (st = 5 || st = 6)
  let s := s.setCore c { ({} : Core) with faultCause := (s.core c).faultCause }
  let s := ((s.resetBlock .core c keepId).resetBlock .arr c (fun _ => false)).resetBlock .vec c (fun _ => false)
  let s := if held then (s.setF .CORE_STATUS_STATE c st).setF .CORE_STATUS_SWATCH c k
    else s.setF .CORE_STATUS_STATE c (if st = 4 then 4 else 0)
  let p := s.physK (c / 8) (c % 8)
  if p = 15 then { s with saved := s.saved.filter (fun x => x.1 % 512 ≠ c) } else s.loadImage c p

/-- Registers of a region that its reset keeps: the pocket's, the assignment, the carriers. -/
def keepRegion (n : FieldName) : Bool := 0x200 ≤ (fieldDesc n).offset || (fieldDesc n).kind = .firmware || n = .RGN_STATUS_STATE

/-- A region leaves reset: its pocket's cache lines are invalid, its scratch ways keep their contents, and its translation
buffer is empty (R468, R469). -/
def State.regionBack (s : State) (r : Nat) : State :=
  let s := s.setHolder r { s.holder r with entries := [], noticed := [] }
  let s := (regionCores r).foldl State.coreOut (s.resetBlock .rgn r keepRegion)
  let s := s.setMem { s.mem with lines := s.mem.lines.filter (fun p => p.1 / 16 / 16384 ≠ r) }
  if s.regionOut r then s else s.setF .RGN_STATUS_STATE r (if (s.holesOf r).isEmpty then 2 else 3)

/-- Keep lines of a partition return to normal (R245). -/
def State.dropKeeps (s : State) (p : Nat) : State :=
  let normal (l : CLine) : CLine := if l.kind = 1 && l.part = p then { l with kind := 0 } else l
  s.setMem { s.mem with cache := s.mem.cache.map (fun x : Nat × Option CLine => (x.1, x.2.map normal)) }

/-- A partition leaves reset. -/
def State.partBack (s : State) (p : Nat) : State :=
  let s := (setBitsOf (s.f .HUB_PART_CFG_REGIONS p) 48).foldl State.regionBack s
  let ks := s.swatches.filter (fun k => s.partHasSwatch p k && (s.run k = 1 || s.run k = 2))
  (ks.foldl (fun t k => (t.dropSaves k).setRun k 0) s).dropKeeps p

/-- A partition's job board and result slots are zeroed, and its next sequence is 1 (R393). -/
def State.clearBoard (s : State) (p : Nat) : State :=
  let s := s.setStores { s.mem.st with jobs := FMap.clearRange s.mem.st.jobs (0x40000 * p) (0x40000 * (p + 1)) }
  let drop (x : Nat × SwRun) : Nat × SwRun := (x.1, { x.2 with runs := x.2.runs.filter (fun j => j.part ≠ p) })
  let s := { s with
    slots := FMap.clearRange s.slots (4096 * p) (4096 * (p + 1)), taken := s.taken.filter (fun x => x.1 ≠ p)
    sws := s.sws.map drop }
  let mine (q : TierReq) : Bool := q.job ≠ 0 && q.part = p
  let s := s.setMem { s.mem with
    tierQ := s.mem.tierQ.filter (fun q => !mine q), tierWait := s.mem.tierWait.filter (fun q => !mine q) }
  ((s.setBoard .HST_JOB_NEXT_SEQ p 1).setBoard .HST_JOB_STALLED p 0).setBoard .HST_JOB_WHY p 0

/-- Is no swatch switch under way on the cores of a scope, and has every open step of a partition ended (R467, R469)? -/
def State.resetMayEnd (s : State) (scope num : Nat) : Bool :=
  let cs := if scope = 0 then [num] else if scope = 1 then regionCores num else coresOf (s.f .HUB_PART_CFG_REGIONS num)
  cs.all (fun c => match FMap.get none s.switches c with
    | some r => !r.moving
    | none => true)
    && (scope < 2 || s.startedSws.all (fun k => !s.partHasSwatch num k))

/-- RESET_COMPLETE. (DESIGN CHOICE, log 132; DEDUCED, log 133.) -/
def resetComplete (scope num : Nat) (s : State) : State :=
  match s.boot.resets.find? (fun p => p.2 = num && (p.1 = scope || (2 ≤ p.1 && scope = 2))) with
  | none => s
  | some x =>
    if !s.resetMayEnd scope num then s
    else
      let s := { s with boot := { s.boot with resets := s.boot.resets.filter (fun p => p ≠ x) } }
      if scope = 0 then s.coreOut num
      else if scope = 1 then s.regionBack num
      else if x.1 = 3 then (s.partBack num).clearBoard num
      else s.partBack num

/-- RESET_COMPLETE. Scopes: 0 core, 1 region, 2 partition. -/
def execResetComplete (scope id : Nat) (s : State) : Host.Outcome State Fault Refusal :=
  act ((scope = 0 && id < 384) || (scope = 1 && id < 48) || (scope = 2 && id < 8)) (whenUp (resetComplete scope id)) s

/-- What a function-level reset leaves of a function's own registers: the straps, which `PERST#` alone samples (R385), and the
job boards' state, whose next sequence the reset of a virtual function sets to 1. -/
def keepFunction (n : FieldName) : Bool :=
  n = .HST_STRAPS_BOARDPOS || n = .HST_STRAPS_PATSEL || n = .HST_JOB_NEXT_SEQ || n = .HST_JOB_STALLED || n = .HST_JOB_WHY

/-- A function-level reset (R393). (DESIGN CHOICE, log 135.) -/
def functionReset (fn : Nat) (s : State) : State :=
  let s := ((s.resetBlock .hst fn keepFunction).resetBlock .dp fn (fun _ => false)).resetBlock .txn fn (fun _ => false)
  let s := (s.setTxn fn { ({} : Txn) with next := (s.txn fn).next }).setDp fn {}
  let s := { s with msix := FMap.clearRange s.msix (512 * fn) (512 * (fn + 1)) }
  if fn = 0 then s else s.resetPart 3 (fn - 1)

/-- FUNCTION_LEVEL_RESET. -/
def execFunctionLevelReset (fn : Nat) (s : State) : Host.Outcome State Fault Refusal :=
  act (fn < 9) (whenUp (functionReset fn)) s

/-! Module reset (R471). -/

/-- Register fields that a module reset keeps (R414), and the straps, which only PERST# samples (R385). -/
def keptFields : List FieldName :=
  [.PAT_STATUS_NEXT, .PAT_STATUS_NEXT_VALID, .TIER_T3_BASE_BASE, .TIER_T3_SIZE_BOLTS, .HST_STRAPS_BOARDPOS,
    .HST_STRAPS_PATSEL]

/-- The registers that are left after a module reset. -/
def State.keptRegs (s : State) : FMap Nat := s.regs.filter (fun p => keptFields.any (fun n => p.1 = fieldKey n 0))

/-- Moves that have not flipped are abandoned; of a flipped move the source is freed (R275, R471). -/
def State.endMoves (s : State) : State :=
  s.mem.moves.foldl (fun t p =>
    let e := t.dirE p.1
    if e.flipped then
      ((t.freeLoc e.dtier e.dest).setDir p.1
        { e with state := 1, dtier := 0, dest := 0, mrec := 0, flipped := false }).setMove p.1 none
    else t.abandonMove p.1) s

/-- What a reset leaves of the memory side: stores, directory with its cancel lists, way assignments, retired slots, flash wear, and
a stack's stop at 115 °C, which lasts until power is removed (R252, R387). (DESIGN CHOICE, log 159.) -/
def Mem.afterReset (m : Mem) : Mem :=
  { ({} : Mem) with
    st := { m.st with sram := [], jobs := [] }, dir := m.dir, dirOut := m.dirOut, advanced := m.advanced, ways := m.ways, rsvSet := m.rsvSet
    cancels := m.cancels, pendTier := m.pendTier, named := m.named
    tick := m.tick, flash := m.flash
    stackDies := m.stackDies.map (fun p => (p.1, { ({} : Stack) with retired := p.2.retired, lanesOut := p.2.lanesOut, stopped := p.2.stopped })) }

/-- The clocks at the start: `CLKREF`, twice the nominal dividers, P = 60 (R442, R447). -/
def Clk.fresh (c : Clk) (now : Nat) : Clk := { ({} : Clk) with refGone := c.refGone, passAt := now, zeroAt := c.zeroAt }

/-- The writes of commits that are held come into force (R423). -/
def State.applyAll (s : State) : State := s.held.foldl State.applyHeld { s with held := [] }

/-- Everything that a module reset does before its drain. Job boards and result slots are hub SRAM and are lost.
(DESIGN CHOICE, log 136.) -/
def State.moduleReset (s : State) : State :=
  if s.inReset then s
  else
    let s := ((List.range 16).filter s.isMember).foldl (fun t d => t.leaveDom d (2 ^ causeWithdraw)) s
    let s := (s.endMoves.applyAll.hoursEntry).stackEntries true
    let s := (s.swatches.filter (fun k => s.run k = 1 || s.run k = 2)).foldl (fun t k => t.setRun k 0) s
    let b := s.boot
    { ({} : State) with
      pending := s.pending, now := s.now, out := s.out, regs := s.keptRegs, mem := s.mem.afterReset, ledgQ := s.ledgQ
      clk := s.clk.fresh s.now, smb := s.smb, meters := s.meters, thm := { s.thm with rcv := none }
      boot := { ({} : Boot) with
        map := b.map, mapGen := b.mapGen, mapCopy := b.mapCopy, moduleId := b.moduleId, tripped := b.tripped, perst := b.perst
        draining := true, begun := b.begun, capacity := b.capacity } }

/-- MODULE_RESET: HUB_RESET with OP 2. -/
def execModuleReset (s : State) : Host.Outcome State Fault Refusal := actAll true (whenUp State.moduleReset) s

/-- A bring-up begins (R446, R447): cold when it is the first since `PWRGD` rose, or wipes. Refurbish mode follows a REQUEST,
or a BEGIN that has not come to a pass (R493 to R495). -/
def State.startBringUp (s : State) : State :=
  let t := s.thm
  let refurb := t.refurbDue || t.refurbOpen
  let wiping := refurb || t.wipeOpen
  let cold := !s.boot.begun || wiping
  let s := { s with
    inReset := false, clk := { s.clk.fresh s.now with zeroAt := s.now }
    boot := { s.boot with
      begun := true, cold := cold, refurb := refurb, wiping := wiping, bootAt := s.now, stepAt := s.now
      moduleId := moduleIdentity }
    meters := { s.meters with boots := s.meters.boots + 1 } }
  let s := if refurb then s.ledger 0x0F 1 else s
  let s := if refurb && !t.wipeOpen then s.ledger 0x0E 0 else s
  let s := (s.setF .HUB_BOOT_STEP 0 1).setF .HUB_BOOT_WARM 0 (flagBit (!cold))
  (s.setF .THM_STATUS_STATE 0 (if refurb then 4 else if wiping then 3 else 0)).showLedger

/-- The drain ends: the ledger queue and a pattern write are complete, and a bring-up follows unless PERST# holds the
module. -/
def resetDrainEnd (s : State) : State :=
  if !s.boot.draining then s
  else
    let s := { s.drainLedger with thm := { s.drainLedger.thm with patWrite := none } }
    let s := { s with boot := { s.boot with draining := false } }
    if s.boot.perst then s else s.startBringUp

/-- RESET_DRAIN_END. -/
def execResetDrainEnd (s : State) : Host.Outcome State Fault Refusal := actAll true (whenPowered resetDrainEnd) s

/-! `PERST#` and `PWRGD` (R385, R386). -/

/-- `PERST#` is asserted. -/
def perstAssert (s : State) : State :=
  let s := if s.pwrgd then s.moduleReset else s
  { s with boot := { s.boot with perst := true } }

/-- PERST_ASSERT. -/
def execPerstAssert (s : State) : Host.Outcome State Fault Refusal := actAll true perstAssert s

/-- `PERST#` is deasserted: with `PWRGD`, the straps are sampled, and bring-up begins, at once or when the drain ends. -/
def perstDeassert (straps : Nat) (s : State) : State :=
  if !s.boot.perst then s
  else
    let s := { s with boot := { s.boot with perst := false } }
    if !s.pwrgd then s
    else
      let s := (s.setF .HST_STRAPS_BOARDPOS 0 (straps % 8)).setF .HST_STRAPS_PATSEL 0 (straps / 8 % 4)
      if s.boot.draining then s else s.startBringUp

/-- PERST_DEASSERT. -/
def execPerstDeassert (straps : Nat) (s : State) : Host.Outcome State Fault Refusal :=
  actAll (straps < 32) (perstDeassert straps) s

/-- A controller's window at power-up: the counts of its latest FLASH entry, the hours since it zero (R288). -/
def State.flashRestored (s : State) (c : Nat) : Flash :=
  let v := s.flc c
  let gap := natMin 24 ((s.now - s.meters.flashAt) / sec 3600)
  { ({} : Flash) with
    hours := (List.replicate gap 0 ++ (FMap.get [] s.thm.flash c).map (fun g => 2 ^ 30 * g)).take 24
    spareGiB := v.spareGiB, withdrawn := v.withdrawn }

/-- `PWRGD` rises. (DESIGN CHOICE, log 137.) -/
def pwrgdAssert (s : State) : State :=
  if s.pwrgd then s
  else
    { s with
      pwrgd := true, meters := { s.meters with onAt := s.now }
      mem := { s.mem with flash := FMap.set {} (FMap.set {} s.mem.flash 0 (s.flashRestored 0)) 1 (s.flashRestored 1) } }

/-- PWRGD_ASSERT. -/
def execPwrgdAssert (s : State) : Host.Outcome State Fault Refusal := actAll true pwrgdAssert s

/-- `PWRGD` falls: the module stops at once and every store is lost, but for the config flash, the fuses and what the flash
dies' wear is. A pattern copy being written is left erased (R386, R417). -/
def pwrgdDeassert (s : State) : State :=
  if !s.pwrgd then s
  else
    let s := match s.thm.patWrite with
      | some (n, k) => s.eraseCfg (patAt n k) 65536
      | none => s
    let m := s.meters
    let b := s.boot
    { ({} : State) with
      pending := s.pending, now := s.now, pwrgd := false, clk := s.clk.fresh s.now
      mem := { ({} : Mem) with
        st := { ({} : Stores) with cfg := s.mem.st.cfg, host := s.mem.st.host }, tick := s.mem.tick, rsvSet := s.mem.rsvSet
        flash := s.mem.flash.map (fun p => (p.1, { ({} : Flash) with spareGiB := p.2.spareGiB, withdrawn := p.2.withdrawn })) }
      meters := { m with powered := m.powered + (s.now - m.onAt), onAt := s.now }
      thm := { s.thm with rcv := none, patWrite := none, clean := false }
      boot := { ({} : Boot) with
        map := b.map, mapGen := b.mapGen, mapCopy := b.mapCopy, perst := b.perst, capacity := b.capacity } }

/-- PWRGD_DEASSERT. -/
def execPwrgdDeassert (s : State) : Host.Outcome State Fault Refusal := actAll true pwrgdDeassert s

/-! Tenant wipe (R487, R495). -/

/-- WIPE: a BEGIN entry, then a module reset; the bring-up that follows it does the rest. -/
def wipe (s : State) : State :=
  if s.f .THM_STATUS_STATE 0 = 4 || s.f .THM_STATUS_STATE 0 = 2 then s.thmResult 2 4
  else if s.thmBusy ≠ 0 then s.thmResult 2 1
  else (s.ledger 0x0E 0).moduleReset

/-- WIPE. -/
def execWipe (s : State) : Host.Outcome State Fault Refusal := actAll true (whenUp wipe) s

end Sys2Proof.Machine
end

