-- ==== Sys2Proof/Machine/Boot.lean ====
section
/-! DEFINITION. The steps of a bring-up (R235, R238, R241, R266, R267, R349, R411 to R416, R446 to R460, R481, R482, R487,
R488, R493, R494). -/

namespace Sys2Proof.Machine

/-- The step in progress (R447). -/
def State.bootStep (s : State) : Nat := s.f .HUB_BOOT_STEP 0

/-- The next step begins. -/
def State.toStep (s : State) (n : Nat) : State :=
  { s.setF .HUB_BOOT_STEP 0 n with boot := { s.boot with stepAt := s.now } }

/-- The length of the bring-up, in ms (R475). -/
def State.bootMs (s : State) : State := s.setF .HUB_BOOT_BOOT_MS 0 (natMin ((s.now - s.boot.bootAt) / msec 1) 0x3FFFF)

/-- Bring-up stops (R459). -/
def State.bootStop (s : State) (why : Nat) : State :=
  (((s.toStep 13).setF .HUB_BOOT_FAIL_WHY 0 why).bootMs).setF .THM_STATUS_STATE 0 1

/-! Step 1: the hubs (R447). -/

/-- Every hub has tested its cutters and SRAM. The root locks to `CLKREF` first. -/
def State.bootHubs (s : State) (bad : Bool) : State :=
  if s.clk.refGone then s else if bad then s.bootStop 1 else s.toStep 2

/-! Step 2: firmware (R481, R482). -/

/-- THM_STATUS of the running image. -/
def State.showImage (s : State) (slot : Nat) : State :=
  let t := s.thm
  let s := ((s.setF .THM_STATUS_SLOT 0 slot).setF .THM_STATUS_KEY 0 (s.imageKey slot)).setF .THM_STATUS_SVN 0 (s.imageSvn slot)
  let s := (s.setF .THM_STATUS_MIN_SVN 0 t.minSvn).setF .THM_STATUS_F0_REVOKED 0 (flagBit t.revoked)
  (s.setF .THM_STATUS_CLEAN 0 (flagBit t.clean)).setF .THM_STATUS_REFURB_REQ 0 (flagBit t.refurbDue)

/-- The image to start: the one that a restart names, else the valid one with the later VERSION, A when they are equal. -/
def State.imageChoice (s : State) : Nat :=
  if s.f .HUB_BOOT_FW_RESTART 0 = 1 then s.f .THM_STATUS_SLOT 0
  else if s.imageValid 0 && s.imageValid 1 then flagBit (isLater 32 (s.imageVersion 1) (s.imageVersion 0))
  else flagBit (!s.imageValid 0)

/-- The thimble verifies both images; without a valid image or boot header the module is in recovery.
(DEDUCED, log 140.) -/
def State.bootFirmware (s : State) : State :=
  let s := (List.range 2).foldl (fun t i =>
    if t.imageValid i then t else (t.tally .THM_VERIFY_FAIL 0 1).firmwareEntry i 1) s
  let s := s.newNonce
  if s.ownCopy.isNone || !(s.imageValid 0 || s.imageValid 1) then s.setF .THM_STATUS_STATE 0 2
  else
    let slot := s.imageChoice
    let s := { s with boot := { s.boot with imageOk := flagBit (s.imageValid 0) + 2 * flagBit (s.imageValid 1) } }
    ((s.showImage slot).firmwareEntry slot 0).toStep 3

/-! The field map as flash holds it (R452, R454). -/

/-- A copy of the map. -/
def State.mapCopyBytes (s : State) (k : Nat) : List Byte := s.cfg (0x200000 + 0x80000 * k) 0x80000
/-- Its header. -/
def mapHead (r : List Byte) : Nat := leNat (cut r 0 64)
/-- MAP_GEN. -/
def mapGenOf (r : List Byte) : Nat := bitField (mapHead r) 32 32
/-- The bytes up to the last entry. -/
def mapLen (r : List Byte) : Nat := 64 + 16 * bitField (mapHead r) 64 16
/-- LEDGER_HWM. -/
def mapHwm (r : List Byte) : Nat := bitField (mapHead r) 144 64
/-- RSV_SET, as a list. -/
def mapRsv (r : List Byte) : List Nat := setBitsOf (bitField (mapHead r) 208 24) 24
/-- The entries. -/
def mapEntries (r : List Byte) : List MapEnt :=
  (List.range (bitField (mapHead r) 64 16)).map (fun i => MapEnt.ofBits (leNat (cut r (64 + 16 * i) (80 + 16 * i))))

/-- Is a copy valid: its digest and its signature by the device key, its module and GEN? -/
def mapCopyValid (r : List Byte) : Bool :=
  let n := mapLen r
  bitField (mapHead r) 0 2 = 1 && bitField (mapHead r) 64 16 ≤ 32000 && bitField (mapHead r) 80 64 = moduleIdentity
    && cut r n (n + 64) == Config.shake256 (cut r 0 n) 64
    && Config.ed448Verify devicePublic (cut r n (n + 64)) (cut r (n + 64) (n + 178))

/-- The ledger entries from one on, by sequence number. -/
def State.entriesFrom (s : State) (q : Nat) : List Nat :=
  (List.range (s.thm.newest + 1 - q)).map (fun i => q + i) |>.filter (fun i => s.thm.oldest ≤ i)

/-- The field-map additions among ledger entries. -/
def State.additions (s : State) (qs : List Nat) : List MapEnt :=
  (qs.filter (fun q => s.entryType q = 7 && bitField (s.entryPayload q) 0 8 = 0)).map (fun q =>
    { MapEnt.ofBits (bitField (s.entryPayload q) 8 128) with seq := q })

/-- Entries joined without repeats. -/
def mapUnion (a b : List MapEnt) : List MapEnt := a ++ b.filter (fun e => !a.contains e)

/-- The map used: entries, LEDGER_HWM, MAP_GEN, its copy, RSV_SET, and whether it is to be written back. -/
def State.mapChoice (s : State) : List MapEnt × Nat × Nat × Nat × List Nat × Bool :=
  let r0 := s.mapCopyBytes 0
  let r1 := s.mapCopyBytes 1
  let pick (r : List Byte) (k : Nat) := (mapEntries r, mapHwm r, mapGenOf r, k, mapRsv r, false)
  let v0 := mapCopyValid r0
  let v1 := mapCopyValid r1
  if v0 && v1 then
    if isLater 32 (mapGenOf r0) (mapGenOf r1) then pick r0 0
    else if isLater 32 (mapGenOf r1) (mapGenOf r0) then pick r1 1
    else if mapGenOf r0 = mapGenOf r1 && cut r0 0 (mapLen r0) == cut r1 0 (mapLen r1) then pick r0 0
    else (mapUnion (mapEntries r0) (mapEntries r1), natMin (mapHwm r0) (mapHwm r1), mapGenOf r0, 0, mapRsv r0, true)
  else if v0 then pick r0 0
  else if v1 then pick r1 1
  else
    let qs := s.entriesFrom s.thm.oldest
    let last := (qs.filter (fun q => s.entryType q = 0x0F)).getLast?.getD 0
    (s.additions (qs.filter (fun q => last < q)), s.thm.newest, 0, 1, s.mem.rsvSet, true)

/-- The copies are resolved, and later additions of the ledger replayed (R454). -/
def State.readMap (s : State) : State :=
  let (es, hwm, gen, k, rsv, write) := s.mapChoice
  let late := (s.additions (s.entriesFrom (hwm + 1))).filter (fun e => !es.any (fun x => x.seq = e.seq))
  let s := { s with boot := { s.boot with map := es ++ late, mapGen := gen, mapCopy := k } }
  let s := s.setMem { s.mem with rsvSet := rsv }
  let s := s.setF .HUB_BOOT_MAP_REPLAYED 0 (flagBit (!late.isEmpty))
  if write || !late.isEmpty then s.putMap s.thm.newest else s

/-- A unit returns to service in refurbish mode: its entry is removed under a ledger entry (R455). -/
def State.mapRemove (s : State) (p : MapEnt → Bool) : State :=
  let gone := s.boot.map.filter p
  let s := { s with boot := { s.boot with map := s.boot.map.filter (fun e => !p e) } }
  gone.foldl (fun t e => t.ledger 0x07 (1 + 2 ^ 8 * ({ e with seq := 0 } : MapEnt).bits)) s

/-! Step 3: the pattern (R413 to R416, R448). -/

/-- The register image of a pattern is applied (R413). -/
def State.applyImage (s : State) (r : List Byte) : State :=
  let vals := (patEntries r).flatMap (fun e =>
    (patFields (bitField e 0 28)).map (fun p =>
      (p.1, p.2, bitField (bitField e 64 64) (fieldDesc p.1).lo (fieldDesc p.1).width)))
  let image := vals.foldl (fun m v => FMap.set 0 m (fieldKey v.1 v.2.1) v.2.2) ([] : FMap Nat)
  vals.foldl (fun t v => t.setF v.1 v.2.1 v.2.2) { s with boot := { s.boot with image := image } }

/-- PWR_GRADE from the grade in force (R3, R474). -/
def State.showGrade (s : State) : State :=
  let t := s.thm
  ((s.setF .PWR_GRADE_GRADE 0 t.grade).setF .PWR_GRADE_PASS_MAX 0 t.ceil).setF .PWR_GRADE_GRADE_W 0 t.watts

/-- The image that FW_PREF asks for in place of the running one, if it is valid and no restart has been made. -/
def State.restartTo (s : State) : Option Nat :=
  let pref := match s.boot.pat with
    | some p => bitField p.body 85 2
    | none => 0
  if pref = 0 || s.f .HUB_BOOT_FW_RESTART 0 = 1 || pref - 1 = s.f .THM_STATUS_SLOT 0 || !bitAt s.boot.imageOk (pref - 1) then none
  else some (pref - 1)

/-- The domains ramp to their nominal dividers, and P to the ceiling (R447, step 4). -/
def State.startClocks (s : State) : State :=
  (s.setClk { s.clk.ramp false s.now with target := s.passMax }).setDepth s.freeDepth

/-- A pattern is in force. -/
def State.usePattern (s : State) (n k source why : Nat) : State :=
  let r := s.patCopy n k
  let b := patBody r
  let s := { s with boot := { s.boot with pat := some ⟨patHead r, b, leNat (patDigest r)⟩ } }
  let s := ((s.setF .PAT_STATUS_SELECTED 0 n).setF .PAT_STATUS_SOURCE 0 source).setF .PAT_STATUS_COPY 0 k
  let s := (s.setF .PAT_STATUS_FALLBACK_WHY 0 why).setF .PAT_STATUS_GEN 0 (patGen r)
  let s := (s.setF .CLK_STATUS_ROLE 0 (bitField b 48 2)).setF .CLK_STATUS_PORT 0 (bitField b 50 4)
  let s := ((s.applyImage r).showGrade).tryWays
  match s.restartTo with
  | some slot => ((s.raise .HUB_BOOT_FW_RESTART 0).setF .THM_STATUS_SLOT 0 slot).toStep 2
  | none => (s.readMap.startClocks).toStep 4

/-- A fallback is recorded (R415). (DESIGN CHOICE, log 131.) -/
def State.noteFallback (s : State) (copy why gen : Nat) : State :=
  ((s.alert 4).interrupt 0 6).ledger 0x0A (2 ^ 8 * copy + 2 ^ 16 * why + 2 ^ 24 * gen)

/-- The pattern is chosen and resolved; P0 in its place, or none (R414 to R416). -/
def State.bootPattern (s : State) : State :=
  let cmd := s.f .PAT_STATUS_NEXT_VALID 0 = 1
  let n := if cmd then s.f .PAT_STATUS_NEXT 0 else s.f .HST_STRAPS_PATSEL 0
  let s := s.showCopies
  match s.patResolve n with
  | .ok k => s.usePattern n k (flagBit cmd) 0
  | .error why =>
    match s.patResolve 0 with
    | .ok k => (s.noteFallback k why (patGen (s.patCopy 0 k))).usePattern 0 k 2 why
    | .error _ =>
      let s := ((s.noteFallback 0 why 0).setF .PAT_STATUS_SOURCE 0 3).setF .PAT_STATUS_FALLBACK_WHY 0 why
      ((s.toStep 14).bootMs).setF .THM_STATUS_STATE 0 1

/-! Step 4: the clocks. -/

/-- Every domain stands at its nominal divider, and P at its target. -/
def State.bootClocks (s : State) : State :=
  if s.clk.atNominal && s.clk.pass = s.clk.target then
    (List.range 24).foldl (fun t st => t.setF .BASE_STATUS_STATE st 1) (s.toStep 5)
  else s

/-! Step 5: the stacks (R235, R238, R266, R267, R446, R450). -/

/-- A copy of the pressed settings. -/
def State.pressed (s : State) (k : Nat) : List Byte := s.cfg (0x100000 + 0x80000 * k) 393344
/-- SET_GEN. -/
def setGen (r : List Byte) : Nat := bitField (leNat (cut r 0 64)) 32 32
/-- Is a copy valid? -/
def pressedValid (r : List Byte) : Bool :=
  bitField (leNat (cut r 0 64)) 0 2 = 1 && bitField (leNat (cut r 0 64)) 64 64 = moduleIdentity
    && cut r 393280 393344 == Config.shake256 (cut r 0 393280) 64

/-- The copy used, if one is (R450). -/
def State.pressedCopy (s : State) : Option Nat :=
  let r0 := s.pressed 0
  let r1 := s.pressed 1
  if pressedValid r0 && pressedValid r1 then
    if r0 == r1 || isLater 32 (setGen r0) (setGen r1) then some 0
    else if isLater 32 (setGen r1) (setGen r0) then some 1 else none
  else if pressedValid r0 then some 0 else if pressedValid r1 then some 1 else none

/-- After READY a new set goes over the copy that is invalid or earlier; the records' layout is the device's own (R450). -/
def State.putPressed (s : State) : State :=
  if !s.boot.fullTrain then s
  else
    let keep := s.pressedCopy.getD (if pressedValid (s.pressed 0) then 0 else 1)
    let gen := if pressedValid (s.pressed keep) then setGen (s.pressed keep) + 1 else 1
    let s := s.use
    let body := leBytes (1 + 2 ^ 32 * (gen % 2 ^ 32) + 2 ^ 64 * moduleIdentity) 64
      ++ leBytes (Config.freeValue 3145728 s.mem.tick).toNat 393216
    let at0 := 0x100000 + 0x80000 * (1 - keep)
    (s.eraseCfg at0 0x80000).putCfg at0 (body ++ Config.shake256 body 64)

/-! What the training of a channel found: bits 71:0 its lanes that failed step 3 of R235, bit 72 that its pressed settings
failed step 2 and it trained in full, bit 73 that it failed step 5. -/

/-- The result of channel `c` of stack `st`. -/
def chanResult (r : List Nat) (st c : Nat) : Nat := r.getD (24 + 32 * st + c) 0

/-- The lanes of a channel to be replaced: those that the field map lists, which are not tested, and those that failed. -/
def State.badLanes (s : State) (r : List Nat) (st c : Nat) : List Nat :=
  let listed := (s.boot.map.filter (fun e => e.kind = 3 && e.unit = st && e.channel = c)).map (fun e => e.lane)
  let v := chanResult r st c % 2 ^ 72
  sortAsc ((if v = 0 then listed else listed ++ setBitsOf v 72).eraseDups)

/-- Did a channel train in full? -/
def chanFull (r : List Nat) (st : Nat) : Bool :=
  r.getD st 0 = 1 || (List.range 32).any (fun c => Nat.testBit (chanResult r st c) 72)

/-- A stack is trained (R235). Its code is 0 or 1, every channel from pressed settings or not, or 2, a stack that cannot be trained.
It is fenced when a channel has more than two lanes to replace, or fails step 5 (R238). (DEDUCED, log 138.) -/
def State.bootStack (s : State) (r : List Nat) (st : Nat) : State :=
  let cs := List.range 32
  let fails := (s.inMap 4 st 0 && !s.boot.refurb) || r.getD st 0 = 2
    || cs.any (fun c => 2 < (s.badLanes r st c).length || Nat.testBit (chanResult r st c) 73)
  let lost := (s.boot.map.filter (fun e => e.kind = 2 && e.unit = st)).map (fun e => e.slot)
  let lanes := cs.flatMap (fun c => ((s.badLanes r st c).take 2).map (fun l => 72 * c + l))
  let pressed := !chanFull r st && !s.boot.allFull
  let s := s.setStack st { s.stack st with retired := sortAsc lost.eraseDups, lanesOut := lanes }
  let s := s.setF .BASE_RETIRED st lost.eraseDups.length
  let s := cs.foldl (fun t c => t.setSub .BASE_SELVEDGE_SPARES st (2 * c) 2 (natMin (t.badLanes r st c).length 2)) s
  let s := s.setF .BASE_STATUS_PRESSED st (flagBit pressed)
  if fails then (s.setF .BASE_STATUS_STATE st 4).ledger 0x06 (unitPayload .stack st 0 causeUnit 0 0)
  else (s.setF .BASE_STATUS_STATE st 2).regainDir st

/-- In refurbish mode units that pass their test return: stacks, and the slots and lanes listed (R241, R493). -/
def State.refurbStacks (s : State) (r : List Nat) : State :=
  if !s.boot.refurb then s
  else
    let s := s.mapRemove (fun e => e.kind = 4 && r.getD e.unit 0 ≠ 2)
    (r.drop 792).foldl (fun t c =>
      if c < 2 ^ 30 then t.mapRemove (fun e => e.kind = 2 && e.unit = c % 32 && e.slot = c / 32)
      else t.mapRemove (fun e => e.kind = 3 && e.unit = c % 32 && e.channel = c / 32 % 32 && e.lane = c / 1024 % 128)) s

/-- The reserved area reads zero: descriptors, core images, limp areas (R446). -/
def State.zeroReserved (s : State) : State :=
  let hbm := s.mem.rsvSet.foldl (fun m st =>
    FMap.clearRange m (stackBytes * st + 65536 * (1572864 - rsvCount s.mem.rsvSet st)) (stackBytes * (st + 1))) s.mem.st.hbm
  s.setStores { s.mem.st with hbm := hbm, sram := [] }

/-- A cold bring-up: the directory is initialised, the placement set fixed anew, and what lies above T1 empty. A wipe zeroes
every slot (R487). (DEDUCED, log 141.) -/
def State.coldStores (s : State) : State :=
  let old := s.mem.rsvSet
  let s := s.setMem { s.mem with
    dir := [], dirOut := [], advanced := [], cancels := [], pendTier := [], named := [], rsvSet := (List.range 24).filter s.stackServes
    st := { s.mem.st with pocket := [], scratch := [], flash := [] } }
  let s := s.setMem { s.mem with flash := s.mem.flash.map (fun p => (p.1, { p.2 with buffer := [] })) }
  let s := if s.boot.wiping then
      ((s.setStores { s.mem.st with hbm := [] }).setF .TIER_T3_BASE_BASE 0 0).setF .TIER_T3_SIZE_BOLTS 0 0
    else s
  let s := { s with thm := { s.thm with
    media := FMap.upd 0 (FMap.upd 0 s.thm.media 0 (fun n => n + 1)) 1 (fun n => n + 1) } }
  let s := s.zeroReserved
  if s.mem.rsvSet = old then s else s.putMap (s.thm.newest)

/-- Step 5 ends. A warm bring-up that has lost a stack of the placement set goes on as a cold one (R267). -/
def State.bootHbm (s : State) (r : List Nat) : State :=
  let all := s.pressedCopy.isNone || s.boot.refurb || (match s.boot.pat with
      | some p => bitAt p.body 84
      | none => false)
  let full := all || (List.range 24).any (chanFull r)
  let s := ({ s with boot := { s.boot with fullTrain := full, allFull := all } }).refurbStacks r
  let s := (List.range 24).foldl (fun t st => t.bootStack r st) (s.setF .HUB_BOOT_FAST 0 (flagBit (!full)))
  let lost := !s.boot.cold && s.mem.rsvSet.any (fun st => !s.stackServes st)
  let s := if lost then
      { s.setF .HUB_BOOT_WARM 0 0 with boot := { s.boot with cold := true, capacity := none } }
    else s
  (if s.boot.cold then s.coldStores else s).toStep 6

/-! Step 6: the flash controllers. -/

/-- A controller that cannot start, or that the map lists, is fenced; firmware shows the wear it reads from the dies (R11,
R304). -/
def State.bootFlash (s : State) (r : List Nat) : State :=
  let s := if s.boot.refurb then s.mapRemove (fun e => e.kind = 5 && r.getD e.unit 0 ≠ 1) else s
  let s := (List.range 2).foldl (fun t c =>
    let bad := r.getD c 0 = 1 || t.inMap 5 c 0
    let t := (t.setFlc c { t.flc c with fenced := bad }).setF .FLC_STATUS_STATE c (if bad then 2 else 1)
    let t := (t.setF .FLC_CAPACITY_SLOTS c (25165824 - (t.flc c).withdrawn.length)).showBudget c
    let t := ((t.setF .FLC_WEAR_AVG_PE c (r.getD (2 + 3 * c) 0)).setF .FLC_WEAR_MAX_PE c (r.getD (3 + 3 * c) 0)).setF
      .FLC_WEAR_WA c (r.getD (4 + 3 * c) 0)
    if bad then t.ledger 0x06 (unitPayload .flash c 0 causeUnit 0 0) else t) s
  s.toStep 7

/-! Step 7: the fuse map; step 8: the fitting run (R451). -/

/-- The fuses of every region and what the field map holds of its cores. -/
def State.bootFuses (s : State) (r : List Nat) : State :=
  let s := (List.range 48).foldl (fun t g =>
    let field := (t.boot.map.filter (fun e => e.kind = 0 && e.unit = g)).foldl (fun m e => putBit m e.sub true) 0
    ((t.setF .RGN_CORE_MAP_FUSED g (r.getD g 0 % 512)).setF .RGN_CORE_MAP_FIELD g field).setF .RGN_STATUS_STATE g 1) s
  s.toStep 8

/-- The fitting run's results: 48 masks of failed physical cores, bit 9 the pocket, router or controller; then the weave, the
mask of base dies, the seam dies, the mask of ports, the hubs and the mask of flash controllers. -/
def State.bootFitting (s : State) (r : List Nat) : State :=
  if r.getD 52 0 ≠ 0 then s.bootStop 1
  else if r.getD 48 0 ≠ 0 then s.bootStop 2
  else if r.getD 50 0 ≠ 0 then s.bootStop 3
  else
    let s := (setBitsOf (r.getD 49 0) 24).foldl (fun t st =>
      (t.setF .BASE_STATUS_STATE st 5).ledger 0x06 (unitPayload .baseDie st 0 causeUnit 0 0)) s
    let s := (setBitsOf (r.getD 53 0) 2).foldl (fun t c =>
      ((t.setFlc c { t.flc c with fenced := true }).setF .FLC_STATUS_STATE c 2).ledger 0x06
        (unitPayload .flash c 0 causeUnit 0 0)) s
    let fit := (List.range 48).foldl (fun m g => FMap.set 0 m g (r.getD g 0 % 1024)) ([] : FMap Nat)
    let s := { s with boot := { s.boot with fit := fit, badPorts := r.getD 51 0 % 65536 } }
    let s := (List.range 48).foldl (fun t g => t.setF .RGN_CORE_MAP_FIT_FAIL g (r.getD g 0 % 512)) s
    s.toStep 9

/-! Step 9: the merge (R455 to R457, R463). -/

/-- Is a physical core usable? -/
def State.usable (s : State) (r p : Nat) : Bool :=
  !bitAt (s.f .RGN_CORE_MAP_FUSED r) p && !bitAt (s.f .RGN_CORE_MAP_FIELD r) p && !bitAt (s.f .RGN_CORE_MAP_FIT_FAIL r) p

/-- Physical core `p` of a region is classified (R455). -/
def State.classify (s : State) (r p : Nat) : State :=
  let fused := bitAt (s.f .RGN_CORE_MAP_FUSED r) p
  let field := bitAt (s.f .RGN_CORE_MAP_FIELD r) p
  let failed := bitAt (s.f .RGN_CORE_MAP_FIT_FAIL r) p
  if fused then s
  else if field then
    if s.boot.refurb && !failed then
      (s.mapRemove (fun e => e.kind = 0 && e.unit = r && e.sub = p)).setF .RGN_CORE_MAP_FIELD r
        (putBit (s.f .RGN_CORE_MAP_FIELD r) p false)
    else s
  else if failed then
    (s.mapAdd { kind := 0, unit := r, sub := p }).setF .RGN_CORE_MAP_FIELD r (putBit (s.f .RGN_CORE_MAP_FIELD r) p true)
  else s

/-- The logical core that the spare carried when it was last assigned. -/
def State.spareWas (s : State) (r : Nat) : Option Nat :=
  ((s.boot.map.filter (fun e => e.kind = 6 && e.unit = r)).getLast?).map (fun e => e.sub)

/-- The logical core that the spare carries: the latest assignment's while its own core is off, else the lowest that is
off (R456). -/
def State.spareFor (s : State) (r : Nat) : Option Nat :=
  let off := (List.range 8).filter (fun k => !s.usable r k)
  if !s.usable r 8 then none
  else match s.spareWas r with
    | some k => if off.contains k then some k else off.head?
    | none => off.head?

/-- The logical cores of a region are assigned. -/
def State.assignRegion (s : State) (r : Nat) : State :=
  let spare := s.spareFor r
  let s := (List.range 8).foldl (fun t k =>
    t.assign r k (if t.usable r k then k else if spare = some k then 8 else 15)) s
  match spare with
  | some k => if s.spareWas r = some k then s else s.mapAdd { kind := 6, unit := r, sub := k }
  | none => s

/-- A region is merged: classified, and out or assigned. -/
def State.mergeRegion (s : State) (r : Nat) : State :=
  let s := (List.range 9).foldl (fun t p => t.classify r p) s
  let listed := s.inMap 1 r 0
  let bad := bitAt (FMap.get 0 s.boot.fit r) 9 || !(List.range 9).any (fun p => s.usable r p)
  let s := (List.range 8).foldl (fun t k =>
    (t.setF .CORE_ID_LOGICAL (8 * r + k) (8 * r + k)).setF .CORE_ID_REGION (8 * r + k) r) s
  if listed && !s.boot.refurb || bad then
    let map := s.boot.map
    let s := if listed then { s.regionGoesOut r with boot := { s.boot with map := map }, ledgQ := s.ledgQ } else s.regionGoesOut r
    s
  else
    let s := if listed then s.mapRemove (fun e => e.kind = 1 && e.unit = r) else s
    let s := s.assignRegion r
    s.setF .RGN_STATUS_STATE r (if (s.holesOf r).isEmpty then 2 else 3)

/-- The descriptor area of the reserved bolts, each byte at 256 × swatch + offset. -/
def State.descArea (s : State) : Memory :=
  (List.range 256).foldl (fun m i => Memory.copy 0 s.mem.st.hbm (rsvAddr s (32768 + i) 0) 65536 m (65536 * i)) []

/-- Each hub reloads its SRAM from the backing copy (R349). -/
def State.loadDescs (s : State) : State :=
  s.setStores { s.mem.st with
    sram := s.descArea.foldl (fun m p => Memory.write 0 m (descAt (p.1 / 256) + p.1 % 256) [p.2]) [] }

/-- Step 9: the merge, scratch from the core images, hub SRAM from the descriptors' backing copy. -/
def State.bootMerge (s : State) : State :=
  let s := (List.range 48).foldl State.mergeRegion s
  let s := if s.boot.cold then s
    else
      let s := s.setStores { s.mem.st with scratch := [] }
      let s := (List.range 384).foldl (fun t c =>
        let p := t.physK (c / 8) (c % 8)
        if p = 15 then t else t.loadImage c p) s
      s.loadDescs
  let s := (List.range 4).foldl (fun t h => t.setF .DIR_CFG_SLICE h h) s
  s.countFree.toStep 10

/-! Steps 10 to 12: ports, topology, READY (R458 to R460, R493, R494). -/

/-- EXPECT_PORTS. -/
def State.expectPorts (s : State) : Nat :=
  match s.boot.pat with
  | some p => bitField p.body 68 16
  | none => 0

/-- Step 10 ends once every expected port is up, or after 2 s. -/
def portWaitEnd (s : State) : State :=
  if s.bootStep = 10 && ((setBitsOf s.expectPorts 16).all s.portUp || s.boot.stepAt + sec 2 ≤ s.now) then s.toStep 11 else s

/-- PORT_WAIT_END. -/
def execPortWaitEnd (s : State) : Host.Outcome State Fault Refusal := act true (whenUp portWaitEnd) s

/-- A wipe that the bring-up completed is recorded (R487, R488). -/
def State.wipeEnd (s : State) : State :=
  if s.boot.wiping then
    ({ s.ledger 0x0E 1 with thm := { s.thm with clean := true } }).raise .THM_STATUS_CLEAN 0
  else s

/-- HUB_CAPACITY as a word. (DEDUCED, log 142.) -/
def State.capacityWord (s : State) : Nat := s.regWord 0 .hub 0 8

/-- READY: a ledger entry when the capacity has changed, new pressed settings, and JOIN for each domain enabled. -/
def State.ready (s : State) : State :=
  let s := (((s.toStep 12).raise .HUB_BOOT_READY 0).setF .THM_STATUS_STATE 0 1).bootMs.showCapacity
  let w := s.capacityWord
  let s := if s.boot.capacity = some w then s else s.ledger 0x09 w
  let s := ({ s with boot := { s.boot with capacity := some w } }).putPressed
  ((List.range 16).filter s.domEnabled).foldl (fun t d => (t.sendJoin d).trigger d) s

/-- Is an expected port in fault: MISWIRED or OUT_OF_REACH? -/
def State.portFault (s : State) (p : Nat) : Bool := s.f .SEAM_STATUS_STATE p = 4 || s.f .SEAM_STATUS_STATE p = 5

/-- Why a module does not reach READY: 0, or FAIL_WHY 4 to 6 (R459). -/
def State.readyWhy (s : State) : Nat :=
  let min (lo w : Nat) : Nat := match s.boot.pat with
    | some p => bitField p.body lo w
    | none => 0
  if s.f .HUB_CAPACITY_CORES 0 < min 54 9 then 4
  else if s.f .HUB_CAPACITY_STACKS 0 < min 63 5 then 5
  else if (setBitsOf s.expectPorts 16).any s.portFault then 6
  else 0

/-- Step 11. A module in refurbish mode goes on to its flash pass and grade test. -/
def State.bootTopology (s : State) : State :=
  let e := s.expectPorts
  let ps := List.range 16
  let s := s.setF .HUB_BOOT_MISSING 0 (maskOf (ps.filter (fun p => bitAt e p && !s.portUp p && !s.portFault p)))
  let s := s.setF .HUB_BOOT_UNEXPECTED 0 (maskOf (ps.filter (fun p => !bitAt e p && s.portUp p)))
  let s := s.showCapacity
  if s.boot.refurb then s.wipeEnd.toStep 12
  else if s.readyWhy ≠ 0 then s.bootStop s.readyWhy
  else s.wipeEnd.ready

/-- Ceiling of P and power limit of a grade (R2, R434). -/
def gradeLimits (g : Nat) : Nat × Nat := if g = 0 then (120, 2600) else if g = 1 then (112, 2300) else (100, 1950)

/-- Withdrawn slots return in units of 1 GiB, while the spare area stays at 64 GiB or more (R289, R493). -/
def State.returnSlots (s : State) (c gib : Nat) : State :=
  let v := s.flc c
  let n := natMin (natMin gib (v.withdrawn.length / 16384)) (v.spareGiB - 64)
  let s := s.setFlc c { v with withdrawn := v.withdrawn.drop (16384 * n), spareGiB := v.spareGiB - n }
  s.setF .FLC_CAPACITY_SLOTS c (s.f .FLC_CAPACITY_SLOTS c + 16384 * n)

/-- The flash pass and the grade test end (R493, R494): the first grade from the factory's downward that passed, above 2 none;
and the GiB returned by each controller. (DEDUCED, log 143.) -/
def State.refurbEnd (s : State) (r : List Nat) : State :=
  let s := ((s.returnSlots 0 (r.getD 1 0)).returnSlots 1 (r.getD 2 0)).countFree.showCapacity
  let g := natMax (r.getD 0 3) s.thm.factory
  let pass := decide (g ≤ 2)
  let l := gradeLimits g
  let s := if pass then s.ledger 0x01 (g + 2 ^ 8 * l.1 + 2 ^ 16 * l.2 + 2 ^ 32 * ((s.thm.refurbs + 1) % 65536)) else s
  let secs := natMin ((s.now - s.boot.bootAt) / sec 1) 0xFFFFFFFF
  let s := s.ledger 0x0F (2 + 2 ^ 8 * flagBit (!pass) + 2 ^ 16 * (if pass then g else 0) + 2 ^ 24 * secs)
  ((s.ledger 0x09 s.capacityWord).toStep 13).bootMs

/-- Physical core `p` of a region has failed a test in service: its logical core is faulty, or the free spare off (R461). -/
def State.physFails (s : State) (r p : Nat) : State :=
  let s := s.setF .RGN_CORE_MAP_FIT_FAIL r (putBit (s.f .RGN_CORE_MAP_FIT_FAIL r) p true)
  match (List.range 8).find? (fun k => s.physK r k = p) with
  | some k => s.fenceCore (8 * r + k) 2
  | none =>
    (s.mapAdd { kind := 0, unit := r, sub := p, cause := 3 }).setF .RGN_CORE_MAP_FIELD r
      (putBit (s.f .RGN_CORE_MAP_FIELD r) p true)

/-- The fitting run of a withdrawn module that serves on (R218, R219, R327, R451): its results, laid out as those of step 8, show in
the registers and are faults of the units concerned; then the module asks to join its domains. (DESIGN CHOICE, log 180.) -/
def State.refitRun (s : State) (r : List Nat) : State :=
  let region (t : State) (g : Nat) : State :=
    let v := r.getD g 0
    let t := ((setBitsOf v 9).filter (fun p => t.usable g p)).foldl (fun u p => u.physFails g p) t
    if bitAt v 9 then unitFault 2 g t else t
  let s := (List.range 48).foldl region s
  let s := if r.getD 48 0 ≠ 0 || r.getD 52 0 ≠ 0 then unitFault 6 0 s else s
  let s := (setBitsOf (r.getD 49 0) 24).foldl (fun t st => unitFault 4 st t) s
  let s := (setBitsOf (r.getD 50 0) 8).foldl (fun t d => unitFault 5 d t) s
  let s := (setBitsOf (r.getD 53 0) 2).foldl (fun t c => unitFault 7 c t) s
  let ds := s.refit
  ds.foldl (fun t d => (t.sendJoin d).trigger d) { s with refit := [] }

/-- The step in progress completes. Operand: what the step's tests found. (DESIGN CHOICE, log 138.) -/
def bringUpStep (r : List Nat) (s : State) : State :=
  let n := s.bootStep
  if s.f .THM_STATUS_STATE 0 = 2 then s
  else if s.f .HUB_BOOT_READY 0 = 1 && !s.refit.isEmpty && s.startedSws.isEmpty then s.refitRun r
  else if n = 1 then s.bootHubs (decide (r.getD 0 0 ≠ 0))
  else if n = 2 then s.bootFirmware
  else if n = 3 then s.bootPattern
  else if n = 4 then s.bootClocks
  else if n = 5 then s.bootHbm r
  else if n = 6 then s.bootFlash r
  else if n = 7 then s.bootFuses r
  else if n = 8 then s.bootFitting r
  else if n = 9 then s.bootMerge
  else if n = 11 then s.bootTopology
  else if n = 12 && s.boot.refurb && s.f .HUB_BOOT_READY 0 = 0 then s.refurbEnd r
  else s

/-- BRING_UP_STEP. Operand results: step 1, 1 when a hub fails; step 5, 24 codes of the stacks, the results of 768 channels and, in
refurbish mode, what came back; step 6, 1 for each of the two controllers that does not start, then the wear of each; step 7, 48
fuse masks; step 8, the fitting run, which a withdrawn module runs in service too; in refurbish mode at the end, the grade and the
GiB returned. -/
def execBringUpStep (results : List Nat) (s : State) : Host.Outcome State Fault Refusal :=
  actAll true (whenUp (bringUpStep results)) s

/-! Fitting slices (R461). -/

/-- A slice has run on a physical core: one that fails makes its logical core faulty, or the free spare off.
(DESIGN CHOICE, log 144.) -/
def fittingSlice (r p : Nat) (pass : Bool) (s : State) : State :=
  if !(s.f .RGN_STATUS_STATE r = 2 || s.f .RGN_STATUS_STATE r = 3) || !s.usable r p then s
  else
    let s := s.tally .RGN_SLICES r 1
    if pass then s
    else (s.tally .RGN_SLICE_FAIL r 1).physFails r p

/-- FITTING_SLICE. -/
def execFittingSlice (region phys : Nat) (pass : Bool) (s : State) : Host.Outcome State Fault Refusal :=
  act (region < 48 && phys < 9) (whenUp (fittingSlice region phys pass)) s

end Sys2Proof.Machine
end

