-- ==== Sys2Proof/Machine/Mgmt.lean ====
section
/-! DEFINITION. The management target (R424 to R426) and the host link's state (R386, R388, R389). -/

namespace Sys2Proof.Machine

/-! The SMBus target (R424, R425). -/

/-- The target serves from 100 ms after `PWRGD` rises until it falls. -/
def State.smbServes (s : State) : Bool := s.pwrgd && s.meters.onAt + msec 100 ≤ s.now

/-- Runs a command of the target while it serves. (DEDUCED, log 145.) -/
def whenServed (f : State → State) (s : State) : State := if s.smbServes then f s else s

/-- Command 00h: part code, grade, identity, firmware version, GEN, as one little-endian number of 16 bytes. -/
def smbIdentity (s : State) : State :=
  s.emit (.data (leNat (leBytes Config.partCode 2 ++ leBytes s.thm.grade 1 ++ leBytes moduleIdentity 8
    ++ leBytes (s.imageVersion (s.f .THM_STATUS_SLOT 0)) 4 ++ leBytes 1 1)))

/-- SMB_IDENTITY. -/
def execSmbIdentity (s : State) : Host.Outcome State Fault Refusal := act true (whenServed smbIdentity) s

/-- Command 01h. -/
def smbStatus (s : State) : State :=
  s.emit (.data (s.f .HUB_BOOT_READY 0 + 2 * s.f .HUB_BOOT_DEGRADED 0 + 4 * flagBit s.isWithdrawn
    + 8 * flagBit (s.f .PAT_STATUS_SOURCE 0 = 3) + 16 * s.f .HUB_BOOT_STEP 0))

/-- SMB_STATUS. -/
def execSmbStatus (s : State) : Host.Outcome State Fault Refusal := act true (whenServed smbStatus) s

/-- Command 02h: the latest sample; zeros before the first. -/
def smbTemps (s : State) : State := s.emit (.data (leNat ((List.range 31).map (fun i => BitVec.ofNat 8 (s.smb.temps.getD i 0)))))

/-- SMB_TEMPS. -/
def execSmbTemps (s : State) : Host.Outcome State Fault Refusal := act true (whenServed smbTemps) s

/-- Input current in mA, from the latest sample's power and voltage. -/
def State.inputMa (s : State) : Nat := 100000 * s.pwr.samples.headD 0 / natMax (s.f .PWR_INPUT_MV 0) 1

/-- Command 03h: input voltage in mV, current in mA, power in 0.1 W, grade power limit in W. -/
def smbPower (s : State) : State :=
  s.emit (.data (leNat (leBytes (s.f .PWR_INPUT_MV 0) 2 ++ leBytes s.inputMa 4 ++ leBytes (s.f .PWR_INPUT_DW 0) 4
    ++ leBytes s.thm.watts 2)))

/-- SMB_POWER. -/
def execSmbPower (s : State) : Host.Outcome State Fault Refusal := act true (whenServed smbPower) s

/-- Command 04h. -/
def smbAlertRead (s : State) : State := s.emit (.data s.smb.alerts)

/-- SMB_ALERT_READ. -/
def execSmbAlertRead (s : State) : Host.Outcome State Fault Refusal := act true (whenServed smbAlertRead) s

/-- Command 05h: causes written as 1 are cleared. -/
def smbAlertClear (v : Nat) (s : State) : State := { s with smb := { s.smb with alerts := s.smb.alerts &&& (127 - v % 128) } }

/-- SMB_ALERT_CLEAR. -/
def execSmbAlertClear (val : Nat) (s : State) : Host.Outcome State Fault Refusal :=
  act (val < 65536) (whenServed (smbAlertClear val)) s

/-- Is `ALERT#` asserted: is an unmasked cause set (R387)? -/
def State.alertPin (s : State) : Bool := (List.range 7).any (fun c => bitAt s.smb.alerts c && !bitAt s.smb.mask c)

/-- Command 06h: the mask. A cause that is set and no longer masked asserts `ALERT#`. (DEDUCED, log 146.) -/
def smbAlertMask (v : Nat) (s : State) : State :=
  let was := s.alertPin
  let s := { s with smb := { s.smb with mask := v } }
  if !was && s.alertPin then s.interrupt 0 3 else s

/-- SMB_ALERT_MASK. -/
def execSmbAlertMask (val : Nat) (s : State) : Host.Outcome State Fault Refusal :=
  act (val < 65536) (whenServed (smbAlertMask val)) s

/-- Command 10h: the ledger read index. -/
def smbLedgerIndex (v : Nat) (s : State) : State := { s with smb := { s.smb with index := v } }

/-- SMB_LEDGER_INDEX. -/
def execSmbLedgerIndex (val : Nat) (s : State) : Host.Outcome State Fault Refusal :=
  act (val < 2 ^ 32) (whenServed (smbLedgerIndex val)) s

/-- Command 11h: 32 B of the ledger, FFh beyond its area or its written end; the index advances. -/
def smbLedgerRead (s : State) : State :=
  let byte (i : Nat) : Byte := if i < 0x3000000 then FMap.get 255 s.mem.st.cfg (0x5000000 + i) else 255
  let s := s.emit (.data (leNat ((List.range 32).map (fun j => byte (s.smb.index + j)))))
  { s with smb := { s.smb with index := (s.smb.index + 32) % 2 ^ 32 } }

/-- SMB_LEDGER_READ. -/
def execSmbLedgerRead (s : State) : Host.Outcome State Fault Refusal := act true (whenServed smbLedgerRead) s

/-- A read at the Alert Response Address is answered with the target's address while `ALERT#` is asserted. -/
def smbAlertResponse (s : State) : State := if s.alertPin then s.emit (.data (0x58 + s.bpos)) else s

/-- SMB_ALERT_RESPONSE. -/
def execSmbAlertResponse (s : State) : Host.Outcome State Fault Refusal := act true (whenServed smbAlertResponse) s

/-! The host link (R388, R389). -/

/-- The link trains, goes down (0) or recovers. It needs `CLKREF` (R386). Moves to and from T3 wait while it is down (R291).
(DEDUCED, log 147.) -/
def linkChange (rate width : Nat) (flit : Bool) (s : State) : State :=
  if rate ≠ 0 && s.clk.refGone then s else s.setLink rate width flit

/-- LINK_STATE_CHANGE. -/
def execLinkStateChange (rate width : Nat) (flit : Bool) (s : State) : Host.Outcome State Fault Refusal :=
  act (rate < 5 && (width = 0 || width = 1 || width = 2 || width = 4)) (whenUp (linkChange rate width flit)) s

/-- A selective IDE stream is set up or ended: up to 4. -/
def ideRequest (setup : Bool) (s : State) : State :=
  let n := s.f .HST_LINK_IDE_STREAMS 0
  s.setF .HST_LINK_IDE_STREAMS 0 (if setup then natMin 4 (n + 1) else n - 1)

/-- IDE_KM_REQUEST. -/
def execIdeKmRequest (setup : Bool) (s : State) : Host.Outcome State Fault Refusal := act true (whenUp (ideRequest setup)) s

end Sys2Proof.Machine
end

