-- ==== Sys2Proof/Machine/Vector.lean ====
section
/-! DEFINITION. The vector unit (R125 to R139, R144, R155): one command for each chunk of 256 elements that it
processes. Results are gathered with the word and reach scratch when the word ends, which R128 allows. -/

namespace Sys2Proof.Machine

/-! Shapes of a queued vector word. -/

/-- X of a vector word. -/
def QEnt.vx (e : QEnt) : Nat := e.descs.getD 0 0
/-- Y. -/
def QEnt.vy (e : QEnt) : Nat := e.descs.getD 1 0
/-- Z. -/
def QEnt.vz (e : QEnt) : Nat := e.descs.getD 2 0
/-- TR. -/
def QEnt.vr (e : QEnt) : Nat := e.descs.getD 3 0
/-- OP. -/
def QEnt.op (e : QEnt) : Nat := opOf e.word
/-- FN. -/
def QEnt.fn (e : QEnt) : Nat := bitField e.word 34 4
/-- Columns that the word walks: those of X, of Z for VRSC, none for CLOSE and VSTI. -/
def QEnt.walk (e : QEnt) : Nat :=
  if e.op = 0x2D then (if e.fn = 2 then 0 else dCols e.vz)
  else if e.op = 0x2E then 0 else dCols e.vx
/-- Chunks of a row (R127); a row without elements is one. -/
def QEnt.chunks (e : QEnt) : Nat := natMax (ceilDiv e.walk 256) 1
/-- Elements of chunk `t`. -/
def QEnt.chunkLen (e : QEnt) (t : Nat) : Nat := natMin e.walk (256 * t + 256) - 256 * t
/-- Passes over each row (R138). -/
def QEnt.passes (e : QEnt) : Nat := if e.op = 0x2B then (if e.fn = 0 then 2 else 3) else 1
/-- The tag of the destination: of Z, or of TR where the word has no Z. -/
def QEnt.vtag (e : QEnt) : Nat := if (vecUses e.op e.fn).2.2.1 then dTag e.vz else dTag e.vr

/-! Operands and rounding. -/

/-- A rounding of a value, and whether it saturated. -/
def roundC (f : FpFmt) (v : Fv) : Fv × Nat :=
  let r := fpRound f v
  (fpDecode f r.1, flagBit r.2)

/-- Elements of a row of a tensor in scratch, as FP32 values or W48 values, with the saturations of decoding (R129). -/
def State.vecElems (s : State) (c d i j0 n : Nat) : List Fv × Nat :=
  let ps := (s.readElems c d i j0 n).2
  if dFmt d = 7 then (ps.map w48, 0)
  else
    let vs := ps.zipIdx.map (fun p => roundC fmtFP32 (Fv.mul (elemValue (dFmt d) p.1) (e8m0 (s.readScale c d i (j0 + p.2)).2)))
    (vs.map Prod.fst, vs.foldl (fun m x => m + x.2) 0)

/-- Elements of Y for row `i`: its single row serves every row (R133). (DEDUCED, log 32.) -/
def State.vecY (s : State) (c : Nat) (e : QEnt) (i j0 n : Nat) : List Fv × Nat :=
  s.vecElems c e.vy (if dRows e.vy = 1 then 0 else i) j0 n

/-- Results with a saturation count each, gathered. -/
def tallied (l : List (Fv × Nat)) : List Fv × Nat := (l.map Prod.fst, l.foldl (fun m x => m + x.2) 0)

/-- Appends results and counts to the word's state. -/
def VecSt.put (v : VecSt) (r : List Fv × Nat) : VecSt := { v with cur := v.cur ++ r.1, sat := v.sat + r.2 }

/-! Element functions. -/

/-- The exact result of a VMAP function other than EXP2, LOG2, RSQRT and RECIP (R133). -/
def mapExact (fn beta : Nat) (x y : Fv) : Fv :=
  if fn = 1 then Fv.add x y
  else if fn = 2 then Fv.sub x y
  else if fn = 3 then Fv.mul x y
  else if fn = 4 then Fv.maxNum x y
  else if fn = 5 then Fv.minNum x y
  else if fn = 6 then x.abs
  else if fn = 7 then x.negate
  else if fn = 0xC then Fv.mul x (f32 beta)
  else x

/-- A VMAP function on one element (R129, R136): with a W48 operand the exact result is left to the one rounding into
the destination; EXP2, LOG2, RSQRT and RECIP work on the operand rounded to FP32. -/
def mapElem (fn beta : Nat) (wide : Bool) (x y : Fv) : Fv × Nat :=
  if 8 ≤ fn && fn ≤ 0xB then
    let a := roundC fmtFP32 x
    let b := toF32 a.1
    let r := if fn = 8 then exp2Fn b else if fn = 9 then log2Fn b else if fn = 0xA then rsqrtFn b else recipFn b
    (r.1, a.2 + flagBit r.2)
  else if wide then (mapExact fn beta x y, 0)
  else roundC fmtFP32 (mapExact fn beta x y)

/-- A running maximum of a row that holds NaN is NaN (R137). -/
def maxSticky (a x : Fv) : Fv := if a = .nan || x = .nan then .nan else Fv.maxNum a x

/-- A W48 sum of terms, each addition rounded once (R137). -/
def sumW (a : Fv × Nat) (ts : List Fv) : Fv × Nat :=
  ts.foldl (fun acc t =>
    let r := roundC fmtW48 (Fv.add acc.1 t)
    (r.1, acc.2 + r.2)) a

/-- One score of VSMAX under its record (R144). A masked column, or a score of -Inf, gives +0 whatever the record holds;
a NaN record makes the rest NaN. (DEDUCED, log 31.) -/
def smaxElem (e : QEnt) (i j : Nat) (r : Nat × Nat × Nat) (x : Fv) : Fv × Nat :=
  let y := roundC fmtFP32 (Fv.mul (f32 e.beta) x)
  if e.masked i j || y.1 = .inf true then (.zero false, y.2)
  else if f32 r.1 = .nan then (.nan, y.2)
  else
    let d := roundC fmtFP32 (Fv.sub y.1 (f32 r.1))
    let p := expw d.1
    let l := w48 r.2.2
    let v := if bitAt e.fn 0 then (if l.isZero then .zero false else Fv.div p.1 l) else p.1
    (v, y.2 + d.2 + flagBit p.2)

/-- One score gradient of VSBWD (R144). -/
def sbwdElem (e : QEnt) (r : Nat × Nat × Nat) (p dp : Fv) : Fv × Nat :=
  if f32 r.1 = .nan then (.nan, 0)
  else
    let a := roundC fmtFP32 (Fv.sub dp (f32 r.2.1))
    let b := roundC fmtFP32 (Fv.mul p a.1)
    let z := roundC fmtFP32 (Fv.mul b.1 (if bitAt e.fn 2 then f32 e.beta else .fin false 1 0))
    (z.1, a.2 + b.2 + z.2)

/-- The factor of VRSC RESCALE (R144). -/
def rescaleBy (r : Nat × Nat × Nat) : Fv × Nat :=
  let m := f32 r.1
  let aux := f32 r.2.1
  if m = .nan then (.nan, 0)
  else if aux ≠ .nan && !Fv.lt aux m && !Fv.lt m aux then (.fin false 1 0, 0)
  else
    let d := roundC fmtFP32 (Fv.sub aux m)
    let p := expw d.1
    (p.1, d.2 + flagBit p.2)

/-- One element of VRSC FINAL (R144). -/
def finalElem (r : Nat × Nat × Nat) (z : Fv) : Fv × Nat :=
  if f32 r.1 = .nan then (.nan, 0)
  else if (w48 r.2.2).isZero then (.zero false, 0)
  else roundC fmtFP32 (Fv.div z (w48 r.2.2))

/-- A finite value that is an integer. -/
def Fv.toInt? : Fv → Option Int
  | .fin s m e =>
    let sign (n : Nat) : Int := if s then -Int.ofNat n else Int.ofNat n
    if 0 ≤ e then some (sign (m * 2 ^ e.toNat))
    else if m % 2 ^ (-e).toNat = 0 then some (sign (m / 2 ^ (-e).toNat)) else none
  | _ => none

/-! One chunk of each word. -/

/-- The record of row `i` of TR. -/
def State.vecRec (s : State) (c : Nat) (e : QEnt) (i : Nat) : Nat × Nat × Nat := (s.readRec c e.vr i).2

/-- VMAP. -/
def chunkMap (s : State) (c : Nat) (e : QEnt) (v : VecSt) (j0 n : Nat) : VecSt :=
  let x := s.vecElems c e.vx v.row j0 n
  let two := 1 ≤ e.fn && e.fn ≤ 5
  let y := if two then s.vecY c e v.row j0 n else (x.1, 0)
  let wide := dFmt e.vx = 7 || (two && dFmt e.vy = 7)
  (v.put (tallied ((x.1.zip y.1).map (fun p => mapElem e.fn e.beta wide p.1 p.2)))).put ([], x.2 + y.2)

/-- VFMA: the exact value is rounded once, into Z (R132). -/
def chunkFma (s : State) (c : Nat) (e : QEnt) (v : VecSt) (j0 n : Nat) : VecSt :=
  let x := s.vecElems c e.vx v.row j0 n
  let y := s.vecY c e v.row j0 n
  let z := s.vecElems c e.vz v.row j0 n
  v.put (((x.1.zip y.1).zip z.1).map (fun p => Fv.add (Fv.mul p.1.1 p.1.2) p.2), x.2 + y.2 + z.2)

/-- VROW (R137). -/
def chunkRow (s : State) (c : Nat) (e : QEnt) (v : VecSt) (j0 n : Nat) : VecSt :=
  let x := s.vecElems c e.vx v.row j0 n
  let start := if e.fn = 2 then Fv.inf true else Fv.zero false
  let a := if v.chunk = 0 then start else v.acc
  let r := if e.fn = 0 then sumW (a, 0) x.1
    else if e.fn = 1 then sumW (a, 0) (x.1.map (fun t => Fv.mul t t))
    else (x.1.foldl (fun m t => maxSticky m (if e.fn = 3 then t.abs else t)) a, 0)
  let v := { v with acc := r.1, sat := v.sat + x.2 + r.2 }
  if v.chunk + 1 = e.chunks then v.put ([r.1], 0) else v

/-- The reciprocal root of a row's mean square: steps 1 and 3 of R138. -/
def normScale (e : QEnt) (sum : Fv) : Fv × Nat :=
  let q := roundC fmtW48 (Fv.div sum (Fv.ofInt (Int.ofNat e.walk)))
  let a := roundC fmtFP32 (Fv.add q.1 (f32 e.eps))
  let r := rsqrtFn (toF32 a.1)
  (r.1, q.2 + a.2 + flagBit r.2)

/-- The terms of a pass of VNORM: x, x² or the square of roundw(x - μ). -/
def normTerm (e : QEnt) (v : VecSt) (x : Fv) : Fv :=
  if e.fn = 0 then Fv.mul x x
  else if v.pass = 0 then x
  else
    let d := roundw (Fv.sub x v.mu)
    Fv.mul d d

/-- One result of VNORM (R138, step 4). -/
def normElem (e : QEnt) (v : VecSt) (x g : Fv) : Fv × Nat :=
  let d := if e.fn = 0 then (x, 0) else roundC fmtW48 (Fv.sub x v.mu)
  let a := roundC fmtFP32 (Fv.mul d.1 v.scale)
  let z := roundC fmtFP32 (Fv.mul a.1 g)
  (z.1, d.2 + a.2 + z.2)

/-- VNORM: a summing pass, or the last pass, which writes. -/
def chunkNorm (s : State) (c : Nat) (e : QEnt) (v : VecSt) (j0 n : Nat) : VecSt :=
  let x := s.vecElems c e.vx v.row j0 n
  if v.pass + 1 = e.passes then
    let g := s.vecY c e v.row j0 n
    (v.put (tallied ((x.1.zip g.1).map (fun p => normElem e v p.1 p.2)))).put ([], x.2 + g.2)
  else
    let r := sumW (if v.chunk = 0 then .zero false else v.acc, 0) (x.1.map (normTerm e v))
    let v := { v with acc := r.1, sat := v.sat + x.2 + r.2 }
    if v.chunk + 1 < e.chunks || e.walk = 0 then v
    else if e.fn = 1 && v.pass = 0 then
      let m := roundC fmtW48 (Fv.div r.1 (Fv.ofInt (Int.ofNat e.walk)))
      { v with mu := m.1, sat := v.sat + m.2 }
    else
      let q := normScale e r.1
      { v with scale := q.1, sat := v.sat + q.2 }

/-- VSMAX. -/
def chunkSmax (s : State) (c : Nat) (e : QEnt) (v : VecSt) (j0 n : Nat) : VecSt :=
  let x := s.vecElems c e.vx v.row j0 n
  let r := s.vecRec c e v.row
  (v.put (tallied (x.1.zipIdx.map (fun p => smaxElem e v.row (j0 + p.2) r p.1)))).put ([], x.2)

/-- VRSC. -/
def chunkRsc (s : State) (c : Nat) (e : QEnt) (v : VecSt) (j0 n : Nat) : VecSt :=
  let r := s.vecRec c e v.row
  let last := v.chunk + 1 = e.chunks
  let aux := { v with recs := if last then v.recs ++ [(v.row, r.1, r.1, r.2.2)] else v.recs }
  if e.fn = 2 then aux
  else
    let z := s.vecElems c e.vz v.row j0 n
    if e.fn = 1 then
      let none := f32 r.1 ≠ .nan && (w48 r.2.2).isZero && last
      ({ v with empty := v.empty + flagBit none }.put (tallied (z.1.map (finalElem r)))).put ([], z.2)
    else
      let k := rescaleBy r
      (aux.put (tallied (z.1.map (fun x => roundC fmtFP32 (Fv.mul x k.1))))).put
        ([], z.2 + (if v.chunk = 0 then k.2 else 0))

/-- VDOT: a NaN record makes its row's AUX NaN (R144), and a non-finite AUX counts (R129, R158). (DEDUCED, log 37.) -/
def chunkDot (s : State) (c : Nat) (e : QEnt) (v : VecSt) (j0 n : Nat) : VecSt :=
  let x := s.vecElems c e.vx v.row j0 n
  let y := s.vecY c e v.row j0 n
  let r := sumW (if v.chunk = 0 then .zero false else v.acc, 0) ((x.1.zip y.1).map (fun p => Fv.mul p.1 p.2))
  let v := { v with acc := r.1, sat := v.sat + x.2 + y.2 + r.2 }
  if v.chunk + 1 = e.chunks then
    let d := s.vecRec c e v.row
    let a := if f32 d.1 = .nan then (.nan, 0) else roundC fmtFP32 r.1
    { v with
      recs := v.recs ++ [(v.row, d.1, toF32 a.1, d.2.2)], sat := v.sat + a.2
      nonfin := v.nonfin + flagBit (!a.1.isFinite) }
  else v

/-- VSBWD. -/
def chunkSbwd (s : State) (c : Nat) (e : QEnt) (v : VecSt) (j0 n : Nat) : VecSt :=
  let x := s.vecElems c e.vx v.row j0 n
  let y := s.vecY c e v.row j0 n
  let r := s.vecRec c e v.row
  (v.put (tallied ((x.1.zip y.1).map (fun p => sbwdElem e r p.1 p.2)))).put ([], x.2 + y.2)

/-- What VLOSS makes of a target: skip the row, a column, or invalid (R139). -/
def lossTarget (cols : Nat) (t : Fv) : Option (Option Nat) :=
  match t.toInt? with
  | none => some none
  | some i =>
    if i = -1 then none
    else if 0 ≤ i && i < Int.ofNat cols then some (some i.toNat) else some none

/-- VLOSS: the target's logit is taken as its chunk passes; the loss is added at the row's end (R139).
(DEDUCED, log 33.) -/
def chunkLoss (s : State) (c : Nat) (e : QEnt) (v : VecSt) (j0 n : Nat) : VecSt :=
  let x := s.vecElems c e.vx v.row j0 n
  let y := s.vecElems c e.vy v.row 0 1
  let v := if v.row = 0 && v.chunk = 0 then { v with acc := (s.vecElems c e.vz 0 0 1).1.getD 0 (.zero false) } else v
  let v := { v with sat := v.sat + x.2 + (if v.chunk = 0 then y.2 else 0) }
  let t := lossTarget (dCols e.vx) (y.1.getD 0 .nan)
  let v := match t with
    | some (some j) =>
      if j0 ≤ j && j < j0 + n then
        let a := roundC fmtFP32 (Fv.mul (f32 e.beta) (x.1.getD (j - j0) .nan))
        { v with mu := a.1, sat := v.sat + a.2 }
      else v
    | _ => v
  if v.chunk + 1 < e.chunks then v
  else
    let v := match t with
      | none => v
      | some none =>
        let a := roundC fmtW48 (Fv.add v.acc .nan)
        { v with acc := a.1, nonfin := v.nonfin + 1 }
      | some (some _) =>
        let r := s.vecRec c e v.row
        let a := roundC fmtW48 (Fv.add (f32 r.1) (lnw (w48 r.2.2)))
        let l := roundC fmtW48 (Fv.sub a.1 v.mu)
        let z := roundC fmtW48 (Fv.add v.acc l.1)
        { v with acc := z.1, sat := v.sat + a.2 + l.2 + z.2 }
    if v.row + 1 = e.n then v.put ([v.acc], 0) else v

/-- VQNT: at first use a first read of all rows finds the amax (R155); then the values go to the conversion. -/
def chunkQnt (s : State) (c : Nat) (e : QEnt) (first : Bool) (v : VecSt) (j0 n : Nat) : VecSt :=
  let x := s.vecElems c e.vx v.row j0 n
  if first && v.pass = 0 then
    { v with amax := x.1.foldl (fun a t => if t.isFinite && Fv.lt a t.abs then t.abs else a) v.amax }
  else v.put x

/-- The chunk at the word's position. -/
def chunkOf (s : State) (c : Nat) (e : QEnt) (first : Bool) (v : VecSt) : VecSt :=
  let j0 := 256 * v.chunk
  let n := e.chunkLen v.chunk
  if e.op = 0x28 then chunkMap s c e v j0 n
  else if e.op = 0x29 then chunkFma s c e v j0 n
  else if e.op = 0x2A then chunkRow s c e v j0 n
  else if e.op = 0x2B then chunkNorm s c e v j0 n
  else if e.op = 0x2C then chunkSmax s c e v j0 n
  else if e.op = 0x2D then chunkRsc s c e v j0 n
  else if e.op = 0x2E then { v with recs := v.recs ++ [(v.row, recEmpty)] }
  else if e.op = 0x2F then chunkDot s c e v j0 n
  else if e.op = 0x30 then chunkSbwd s c e v j0 n
  else if e.op = 0x31 then chunkLoss s c e v j0 n
  else chunkQnt s c e first v j0 n

/-- The next position: chunk, then pass, then row; for VQNT at first use the passes enclose the rows. True at the
word's end. -/
def nextChunk (e : QEnt) (first : Bool) (v : VecSt) : VecSt × Bool :=
  if v.chunk + 1 < e.chunks then ({ v with chunk := v.chunk + 1 }, false)
  else if v.pass + 1 < e.passes then ({ v with chunk := 0, pass := v.pass + 1 }, false)
  else
    let more := decide (v.row + 1 < e.n)
    let v := if (e.op = 0x31 && more) || (first && v.pass = 0) then v else { v with cur := [], out := v.out ++ [v.cur] }
    if more then ({ v with chunk := 0, pass := if first then v.pass else 0, row := v.row + 1 }, false)
    else if first && v.pass = 0 then ({ v with chunk := 0, pass := 1, row := 0 }, false)
    else (v, true)

/-- Bytes of `n` elements of a row and of their block scales: with blocks along the row one for 32 elements, otherwise one
for each element. -/
def spanBytes (d n : Nat) (along scales : Bool) : Nat :=
  (fmtWidth (dFmt d) * n + 7) / 8 + (if dScaled d && scales then (if along then ceilDiv n 32 else n) else 0)

/-- Bytes that a chunk reads: its elements with their scales, a row's target and record with its first chunk, and the loss
sum with the word's first (R127). -/
def chunkReads (e : QEnt) (last : Bool) (v : VecSt) : Nat :=
  let n := e.chunkLen v.chunk
  let u := vecUses e.op e.fn
  let row (d : Nat) : Nat := spanBytes d n (!dBaxis d) true
  (if u.1 then row e.vx else 0)
    + (if u.2.1 && e.op ≠ 0x31 && last then row e.vy else 0)
    + (if e.op = 0x29 || (e.op = 0x2D && e.fn ≠ 2) then row e.vz else 0)
    + (if e.op = 0x31 && v.chunk = 0 then spanBytes e.vy 1 true true + (if v.row = 0 then spanBytes e.vz 1 true false else 0)
      else 0)
    + (if u.2.2.2 && e.op ≠ 0x2E && v.chunk = 0 then 16 else 0)

/-- Bytes that a chunk writes in the word's last pass: its elements, or with a row's last chunk the row's one; the scales of a
block with its last row; a record with a row's last chunk, and the loss sum with the word's last (R127). -/
def chunkWrites (e : QEnt) (last : Bool) (v : VecSt) : Nat :=
  let n := e.chunkLen v.chunk
  let rowEnd := v.chunk + 1 = e.chunks
  let along := vecT e.op e.fn = dBaxis e.vz
  let z := if !(vecUses e.op e.fn).2.2.1 || !last || (e.op = 0x2D && e.fn = 2) then 0
    else if e.op = 0x31 then (if rowEnd && v.row + 1 = e.n then spanBytes e.vz 1 true false else 0)
    else if e.op = 0x2A then (if rowEnd then spanBytes e.vz 1 true true else 0)
    else spanBytes e.vz n along (along || v.row % 32 = 31 || v.row + 1 = e.n)
  let rec16 := (e.op = 0x2D && e.fn ≠ 1) || e.op = 0x2E || e.op = 0x2F
  z + (if rec16 && rowEnd then 16 else 0)

/-- The bytes of scratch traffic of a chunk (R127). (DEDUCED, log 166.) -/
def chunkBytes (e : QEnt) (first : Bool) (v : VecSt) : Nat :=
  let last := v.pass + 1 = natMax e.passes (if first then 2 else 1)
  chunkReads e last v + chunkWrites e last v

/-- A matrix of results turned over: element (i, j) at (j, i) (R133). -/
def transposed (cols : Nat) (rows : List (List Fv)) : List (List Fv) :=
  (List.range cols).map (fun j => rows.map (fun r => r.getD j .nan))

/-- The word ends: its results are converted, binned, counted and written, and it leaves the queue. A loss sum that invalid
targets have made NaN counts by them alone. (DEDUCED, log 33.) -/
def State.vecEnd (s : State) (c : Nat) (e : QEnt) (v : VecSt) : State :=
  let k := s.swOf c
  let rows := if vecT e.op e.fn then transposed e.walk v.out else v.out
  let placed := ((rows.zipIdx.map (fun p => (p.2, p.1))).filter (fun p => !p.2.isEmpty))
  let w := convertRows (s.recipe k (dTag e.vz)) e.vz placed
  let fu := !placed.isEmpty && s.atFirstUse k e.vz
  let s := if fu then s.firstUse c k (dTag e.vz) else s
  let s := s.satVec c k e.vtag (v.sat + w.sat)
  let s := (s.tally .VEC_NONFINITE c (v.nonfin + (if e.op = 0x31 && v.nonfin ≠ 0 then 0 else w.nonfin))).tally .VEC_EMPTY_NORM c v.empty
  let s := s.binAll k (dTag e.vz) (placed.flatMap Prod.snd)
  let s := s.putRows c (s.rq c e.vz) e.vz w
  let s := v.recs.foldl (fun t r => t.putRec c e.vr r.1 r.2) s
  (s.setCore c { s.core c with vec := {}, vecQ := (s.core c).vecQ.filter (fun x => x.seq ≠ e.seq) }).showVec c

/-- The vector unit processes one chunk of the oldest vector word, once the grants of its traffic are there, 64 B each
(R127); without them the cycle counts as a stall. (DESIGN CHOICE, log 21.) -/
def vectorChunk (c : Nat) (s : State) : State :=
  let k := s.core c
  if !s.works c then s
  else
    match k.vecQ with
    | [] => s
    | e :: _ =>
      if e.wst && !e.go then s
      else
        let first := e.op = 0x32 && s.atFirstUse (s.swOf c) e.vz
        let need := ceilDiv (chunkBytes e first k.vec) 64
        let k := { k with vec := { k.vec with busy := true } }
        let s := ((s.setCore c k).showVec c).setF .VEC_STATUS_OP c e.op
        if k.grants < need then s.tally .VEC_STALL_SCRATCH c 1
        else
          let s := (s.setCore c { k with grants := k.grants - need }).tally .VEC_BUSY c 1
          let v := chunkOf s c e first k.vec
          let r := nextChunk e first v
          if r.2 then s.vecEnd c e r.1 else s.setCore c { s.core c with vec := r.1 }

/-- VECTOR_CHUNK. -/
def execVectorChunk (c : Nat) (s : State) : Host.Outcome State Fault Refusal :=
  act (coreOk c) (whenUp (vectorChunk c)) s

end Sys2Proof.Machine
end

