-- ==== Sys2Proof/Machine/Write.lean ====
section
/-! DEFINITION. Writes of the host to BAR0 and to swatch descriptors (R10, R351, R391, R395, R419). -/

namespace Sys2Proof.Machine

/-- THM_CMD (R500). -/
def thmCmd (op slot : Nat) (s : State) : State :=
  if op = 1 then attest s
  else if op = 2 then wipe s
  else if op = 3 then refurbish s
  else if op = 4 then s.authorised 4 (fun t => (t.putOwner, 0))
  else if op = 5 then commitSvn s
  else if op = 6 then revokeF0 s
  else if op = 7 then rcvBegin slot s
  else if op = 8 then rcvEnd s
  else s

/-- A write of a register with WO fields: `w` is the register's word, zero in the half that an access leaves out (R10).
(DESIGN CHOICE, log 148.) -/
def State.command (s : State) (fn : Nat) (b : Block) (unit off w : Nat) (whole : Bool) : State :=
  let op := bitField w 0 2
  match b, off with
  | .coll, 0x8 =>
    let d := bitField w 0 4
    let c := bitField w 4 3
    if c = 1 then collJoin d s else if c = 2 then collLeave d s
    else if c = 3 || c = 4 then collConvener d c (bitField w 7 13) s else s
  | .swt, 0x10 =>
    let c := bitField w 16 3
    if c = 1 then resume fn (bitField w 0 16) s else if c = 2 then park fn (bitField w 0 16) s else s
  | .txn, 0 => if op = 1 then txnBegin unit s else if op = 2 then txnCommit unit s else if op = 3 then txnRollback unit s else s
  | .pat, 0x8 =>
    let c := bitField w 0 3
    if c = 1 then selectNext (bitField w 3 2) s else if c = 2 then clearNext s
    else if c = 3 then patWrite (bitField w 3 2) s else s
  | .clk, 0x8 => if op = 1 then reacquire s else s
  | .hub, 0x10 =>
    if unit ≠ 0 then s else if op = 1 then s.resetPart 2 (bitField w 2 3) else if op = 2 then s.moduleReset else s
  | .rgn, 0x20 => if op = 1 then resetCore unit (bitField w 2 3) s else if op = 2 then resetRegion unit s else s
  | .thm, 0x8 => thmCmd (bitField w 0 4) (bitField w 4 1) s
  | .thm, 0x28 => if whole then rcvData w s else s
  | .ledg, 0x20 => if op = 1 then archive (bitField w 2 10) s else s
  | _, _ => s

/-- The bits of W1C fields written as 1 are cleared. With CORE_STATUS.REFUSED its LAST_REFUSAL is cleared too (R86),
and with BASE_UNCORR_LOC.VALID the whole record (R258). -/
def State.clearWritten (s : State) (fn : Nat) (fs : List (FieldName × Nat)) (w : Nat) : State :=
  (fs.filter (fun p => (fieldDesc p.1).access = .W1C)).foldl (fun t p =>
    let d := fieldDesc p.1
    let i := heldIndex fn p.1 p.2
    let bits := bitField w d.lo d.width
    let t := t.setF p.1 i (t.f p.1 i &&& (2 ^ d.width - 1 - bits))
    if p.1 = .CORE_STATUS_REFUSED && bits = 1 then t.setF .CORE_STATUS_LAST_REFUSAL i 0
    else if p.1 = .BASE_UNCORR_LOC_VALID && bits = 1 then
      (((t.setF .BASE_UNCORR_LOC_SLOT i 0).setF .BASE_UNCORR_LOC_PCH i 0).setF .BASE_UNCORR_LOC_GRANULE i 0).setF
        .BASE_UNCORR_LOC_UNIT i 0
    else t) s

/-- A write of a register of a block (R10, R391): staged in an open transaction where R419 says so, else performed. -/
def State.writeReg (s : State) (fn : Nat) (b : Block) (unit off at8 size v : Nat) : State :=
  let fs := fieldsAt b unit off
  let w := v * 2 ^ coverLo at8
  let full := if size = 8 then v else setBits (s.mergeBase fn b unit off) (coverLo at8) 32 v
  let addr := at8 - at8 % 8
  if s.txnOpen fn && stageable b unit off then
    s.stage fn { dev := false, addr := addr, mask := if size = 8 then 255 else if at8 % 8 = 4 then 0xF0 else 0x0F, data := w }
  else if !s.mayWrite fn b off full then s.mmioDenied fn
  else
    let s := if fs.any (fun p => (fieldDesc p.1).access = .RW) then
        (s.writeRw fn b unit off full).noteWrite allFns false addr
      else s
    (s.clearWritten fn fs w).command fn b unit off w (size = 8)

/-- A write of BAR0 by a function (R391, R395, R402, R409). (DESIGN CHOICE, log 116.) -/
def registerWrite (fn off size v : Nat) (s : State) : State :=
  let t := targetAt fn off
  if !aligned off size || !s.reaches fn t then s.mmioDenied fn
  else if !s.served fn t then s
  else
    match t with
    | .reg b u o => s.writeReg fn b u o off size v
    | .msix o =>
      let key := 512 * fn + o / 8
      { s with msix := FMap.set 0 s.msix key (setBits (FMap.get 0 s.msix key) (coverLo off) (8 * size) v) }
    | .board p o =>
      s.setStores { s.mem.st with jobs := Memory.write 0 s.mem.st.jobs (0x40000 * p + o) (leBytes v size) }
    | .slot p o =>
      if o % 64 < 8 && bitAt (v * 2 ^ coverLo off) 33 then slotRelease fn p (o / 64) s else s
    | .hole => s

/-- REGISTER_WRITE: a write of 8 B or 4 B at a BAR0 offset. -/
def execRegisterWrite (fn off size val : Nat) (s : State) : Host.Outcome State Fault Refusal :=
  actAll (fn < 9 && off < 0x10000000 && (size = 1 || size = 2 || size = 4 || size = 8) && val < 2 ^ (8 * size))
    (whenUp (registerWrite fn off size val)) s

/-- INT_MASK_WRITE: HST_INT_MASK. -/
def execIntMaskWrite (fn val : Nat) (s : State) : Host.Outcome State Fault Refusal :=
  act (fn < 9 && val < 2 ^ 64) (whenUp (registerWrite fn 0x20 8 val)) s

/-- DP_ADDR_WRITE: DP_ADDR. -/
def execDpAddrWrite (fn val : Nat) (s : State) : Host.Outcome State Fault Refusal :=
  act (fn < 9 && val < 2 ^ 64) (whenUp (registerWrite fn 0x1000 8 val)) s

/-- TIER_T3_WRITE: TIER_T3_BASE, or TIER_T3_SIZE, by the physical function. -/
def execTierT3Write (size : Bool) (val : Nat) (s : State) : Host.Outcome State Fault Refusal :=
  act (val < 2 ^ 64) (whenUp (registerWrite 0 (if size then 0x9010 else 0x9008) 8 val)) s

/-- COLL_DOM_CFG_WRITE: COLL_DOM_CFG of domain number `d` (R345). -/
def execCollDomCfgWrite (fn d val : Nat) (s : State) : Host.Outcome State Fault Refusal :=
  act (fn < 9 && d < 16 && val < 2 ^ 64) (whenUp (registerWrite fn (0xA100 + 16 * d) 8 val)) s

/-- PARTITION_WRITE: HUB_PART_CFG (`which` 0) or HUB_PART_SWT (1) of partition `p` (R371, R373). -/
def execPartitionWrite (fn p which val : Nat) (s : State) : Host.Outcome State Fault Refusal :=
  act (fn < 9 && p < 8 && which < 2 && val < 2 ^ 64) (whenUp (registerWrite fn (0x10900 + 16 * p + 8 * which) 8 val)) s

/-- A data-port write of word `w` of a swatch's descriptor (R351, R419). (DEDUCED, log 97.) -/
def descriptorWrite (fn k w v : Nat) (s : State) : State :=
  let a := descBase + 256 * k + 8 * w
  if s.txnOpen fn then s.stage fn { dev := true, addr := a, mask := 255, data := v }
  else if !s.fnHasSwatch fn k then s.dpErr fn 1
  else (s.writeDesc k w v).noteWrite allFns true a

/-- DESCRIPTOR_WRITE. -/
def execDescriptorWrite (fn k w v : Nat) (s : State) : Host.Outcome State Fault Refusal :=
  act (fn < 9 && k < 65536 && w < 32 && v < 2 ^ 64) (whenUp (descriptorWrite fn k w v)) s

end Sys2Proof.Machine
end

