-- ==== Sys2Proof/Machine/Dispatch.lean ====
section
/-! DEFINITION. One arm for each command. -/

namespace Sys2Proof.Machine

/-- The effect of a command on everything but the queue. -/
def exec (i : Instr) (s : State) : Host.Outcome State Fault Refusal :=
  match i with
  | .registerWrite fn off size val => Sys2Proof.Machine.execRegisterWrite fn off size val s
  | .rcRead fn off size events => Sys2Proof.Machine.execRcRead fn off size events s
  | .nop core => Sys2Proof.Machine.execNop core s
  | .mma core => Sys2Proof.Machine.execMma core s
  | .tdld core => Sys2Proof.Machine.execTdld core s
  | .tdadd core => Sys2Proof.Machine.execTdadd core s
  | .cpy core => Sys2Proof.Machine.execCpy core s
  | .fence core => Sys2Proof.Machine.execFence core s
  | .sync core => Sys2Proof.Machine.execSync core s
  | .loop core => Sys2Proof.Machine.execLoop core s
  | .stepend core => Sys2Proof.Machine.execStepend core s
  | .wstRelease core queue => Sys2Proof.Machine.execWstRelease core queue s
  | .fenceComplete core => Sys2Proof.Machine.execFenceComplete core s
  | .syncRelease sw scope barrier region => Sys2Proof.Machine.execSyncRelease sw scope barrier region s
  | .stependDone core => Sys2Proof.Machine.execStependDone core s
  | .issueResume core => Sys2Proof.Machine.execIssueResume core s
  | .arrayCycle core upset => Sys2Proof.Machine.execArrayCycle core upset s
  | .bobbinSwap core => Sys2Proof.Machine.execBobbinSwap core s
  | .loadShuttleStage core => Sys2Proof.Machine.execLoadShuttleStage core s
  | .storeDrain core => Sys2Proof.Machine.execStoreDrain core s
  | .cpyTransfer core eng => Sys2Proof.Machine.execCpyTransfer core eng s
  | .coreFault region phys cause => Sys2Proof.Machine.execCoreFault region phys cause s
  | .vmap core => Sys2Proof.Machine.execVmap core s
  | .vfma core => Sys2Proof.Machine.execVfma core s
  | .vrow core => Sys2Proof.Machine.execVrow core s
  | .vnorm core => Sys2Proof.Machine.execVnorm core s
  | .vsmax core => Sys2Proof.Machine.execVsmax core s
  | .vrscRescale core => Sys2Proof.Machine.execVrscRescale core s
  | .vrscFinal core => Sys2Proof.Machine.execVrscFinal core s
  | .vrscClose core => Sys2Proof.Machine.execVrscClose core s
  | .vsti core => Sys2Proof.Machine.execVsti core s
  | .vdot core => Sys2Proof.Machine.execVdot core s
  | .vsbwd core => Sys2Proof.Machine.execVsbwd core s
  | .vloss core => Sys2Proof.Machine.execVloss core s
  | .vqnt core => Sys2Proof.Machine.execVqnt core s
  | .vpos core => Sys2Proof.Machine.execVpos core s
  | .vsetf core => Sys2Proof.Machine.execVsetf core s
  | .vectorChunk core => Sys2Proof.Machine.execVectorChunk core s
  | .scratchGrant core bank store load vec => Sys2Proof.Machine.execScratchGrant core bank store load vec s
  | .switchRequest core sw => Sys2Proof.Machine.execSwitchRequest core sw s
  | .coreSwitch core => Sys2Proof.Machine.execCoreSwitch core s
  | .switchComplete core => Sys2Proof.Machine.execSwitchComplete core s
  | .schedule part => Sys2Proof.Machine.execSchedule part s
  | .stepStart sw => Sys2Proof.Machine.execStepStart sw s
  | .preempt sw => Sys2Proof.Machine.execPreempt sw s
  | .swatchReturn sw => Sys2Proof.Machine.execSwatchReturn sw s
  | .stepBoundary sw => Sys2Proof.Machine.execStepBoundary sw s
  | .limpSwitch region carrier => Sys2Proof.Machine.execLimpSwitch region carrier s
  | .packJob stack => Sys2Proof.Machine.execPackJob stack s
  | .updateJob stack badBlocks => Sys2Proof.Machine.execUpdateJob stack badBlocks s
  | .foreignErrorPass stack => Sys2Proof.Machine.execForeignErrorPass stack s
  | .stepCommit sw => Sys2Proof.Machine.execStepCommit sw s
  | .pendingRowAppend sw span row rows => Sys2Proof.Machine.execPendingRowAppend sw span row rows s
  | .pendingRowApply stack sw entry => Sys2Proof.Machine.execPendingRowApply stack sw entry s
  | .closingHop sw span block => Sys2Proof.Machine.execClosingHop sw span block s
  | .roundTrailerSend dom sw => Sys2Proof.Machine.execRoundTrailerSend dom sw s
  | .trailer dom raw sender => Sys2Proof.Machine.execTrailer dom raw sender s
  | .collectiveTimeout dom seq => Sys2Proof.Machine.execCollectiveTimeout dom seq s
  | .holdNoticeTick sw => Sys2Proof.Machine.execHoldNoticeTick sw s
  | .hold dom epoch seqs sender => Sys2Proof.Machine.execHold dom epoch seqs sender s
  | .agreeLocalise sw info => Sys2Proof.Machine.execAgreeLocalise sw info s
  | .agreeRepair sw info => Sys2Proof.Machine.execAgreeRepair sw info s
  | .stateTransferSend dom sw => Sys2Proof.Machine.execStateTransferSend dom sw s
  | .stateTransferDone dom sw => Sys2Proof.Machine.execStateTransferDone dom sw s
  | .hbmRequest stack pch arrivals syms => Sys2Proof.Machine.execHbmRequest stack pch arrivals syms s
  | .laneSwap stack chan => Sys2Proof.Machine.execLaneSwap stack chan s
  | .patrolScrub stack slot syms => Sys2Proof.Machine.execPatrolScrub stack slot syms s
  | .arbiterGrant arb waiting => Sys2Proof.Machine.execArbiterGrant arb waiting s
  | .pocketAccess region sw tag addr write data parity => Sys2Proof.Machine.execPocketAccess region sw tag addr write data parity s
  | .pocketZeroingDone region way => Sys2Proof.Machine.execPocketZeroingDone region way s
  | .pocketSweep region => Sys2Proof.Machine.execPocketSweep region s
  | .thermalSample temps dies => Sys2Proof.Machine.execThermalSample temps dies s
  | .stackFitSlice stack => Sys2Proof.Machine.execStackFitSlice stack s
  | .stackSliceResult stack pass => Sys2Proof.Machine.execStackSliceResult stack pass s
  | .alloc => Sys2Proof.Machine.execAlloc s
  | .free => Sys2Proof.Machine.execFree s
  | .promoteRequest => Sys2Proof.Machine.execPromoteRequest s
  | .evict => Sys2Proof.Machine.execEvict s
  | .pin => Sys2Proof.Machine.execPin s
  | .unpin => Sys2Proof.Machine.execUnpin s
  | .query => Sys2Proof.Machine.execQuery s
  | .moveReserve bolt => Sys2Proof.Machine.execMoveReserve bolt s
  | .moveCopyDone bolt bad => Sys2Proof.Machine.execMoveCopyDone bolt bad s
  | .moveHold bolt => Sys2Proof.Machine.execMoveHold bolt s
  | .holdAck bolt holder => Sys2Proof.Machine.execHoldAck bolt holder s
  | .moveFlip bolt => Sys2Proof.Machine.execMoveFlip bolt s
  | .moveFreeSource bolt => Sys2Proof.Machine.execMoveFreeSource bolt s
  | .dirNotice holder bolt gen freed => Sys2Proof.Machine.execDirNotice holder bolt gen freed s
  | .translationFill bolt holder sw write => Sys2Proof.Machine.execTranslationFill bolt holder sw write s
  | .layerMark sw => Sys2Proof.Machine.execLayerMark sw s
  | .stallLimit sw cause => Sys2Proof.Machine.execStallLimit sw cause s
  | .dirScrub => Sys2Proof.Machine.execDirScrub s
  | .flashProgram ctl spareLost => Sys2Proof.Machine.execFlashProgram ctl spareLost s
  | .flashBudgetHour ctl => Sys2Proof.Machine.execFlashBudgetHour ctl s
  | .tierT3Write size val => Sys2Proof.Machine.execTierT3Write size val s
  | .portDetect port => Sys2Proof.Machine.execPortDetect port s
  | .portUp port lanes rtt => Sys2Proof.Machine.execPortUp port lanes rtt s
  | .hello port fields => Sys2Proof.Machine.execHello port fields s
  | .flitReceive port header payload err crcOk => Sys2Proof.Machine.execFlitReceive port header payload err crcOk s
  | .nak port seq => Sys2Proof.Machine.execNak port seq s
  | .replayTimeout port => Sys2Proof.Machine.execReplayTimeout port s
  | .retrain port => Sys2Proof.Machine.execRetrain port s
  | .signalLoss port => Sys2Proof.Machine.execSignalLoss port s
  | .join fields => Sys2Proof.Machine.execJoin fields s
  | .leave fields => Sys2Proof.Machine.execLeave fields s
  | .propose fields => Sys2Proof.Machine.execPropose fields s
  | .announce fields => Sys2Proof.Machine.execAnnounce fields s
  | .adopt fields => Sys2Proof.Machine.execAdopt fields s
  | .clkstat port depth => Sys2Proof.Machine.execClkstat port depth s
  | .cmd fields => Sys2Proof.Machine.execCmd fields s
  | .proposeRetry dom => Sys2Proof.Machine.execProposeRetry dom s
  | .adoptTimeout dom => Sys2Proof.Machine.execAdoptTimeout dom s
  | .joinResend dom => Sys2Proof.Machine.execJoinResend dom s
  | .memberStrike dom place => Sys2Proof.Machine.execMemberStrike dom place s
  | .collIssue dom => Sys2Proof.Machine.execCollIssue dom s
  | .sequenceComplete dom seq sender => Sys2Proof.Machine.execSequenceComplete dom seq sender s
  | .runBarrier sw => Sys2Proof.Machine.execRunBarrier sw s
  | .runPack sw => Sys2Proof.Machine.execRunPack sw s
  | .runCollExchange sw => Sys2Proof.Machine.execRunCollExchange sw s
  | .collReduceScatter sw => Sys2Proof.Machine.execCollReduceScatter sw s
  | .collAllGather sw => Sys2Proof.Machine.execCollAllGather sw s
  | .collAllReduce sw => Sys2Proof.Machine.execCollAllReduce sw s
  | .collBroadcast sw => Sys2Proof.Machine.execCollBroadcast sw s
  | .runTier sw => Sys2Proof.Machine.execRunTier sw s
  | .runEnd sw => Sys2Proof.Machine.execRunEnd sw s
  | .barrierStall sw => Sys2Proof.Machine.execBarrierStall sw s
  | .resume fn sw => Sys2Proof.Machine.execResume fn sw s
  | .park fn sw => Sys2Proof.Machine.execPark fn sw s
  | .partitionWrite fn part which val => Sys2Proof.Machine.execPartitionWrite fn part which val s
  | .partitionChangeApply part => Sys2Proof.Machine.execPartitionChangeApply part s
  | .descriptorWrite fn sw word val => Sys2Proof.Machine.execDescriptorWrite fn sw word val s
  | .collDomCfgWrite fn dom val => Sys2Proof.Machine.execCollDomCfgWrite fn dom val s
  | .collCmdJoin dom => Sys2Proof.Machine.execCollCmdJoin dom s
  | .collCmdLeave dom => Sys2Proof.Machine.execCollCmdLeave dom s
  | .collCmdRemove dom place => Sys2Proof.Machine.execCollCmdRemove dom place s
  | .collCmdForce dom => Sys2Proof.Machine.execCollCmdForce dom s
  | .sourceLaneLost => Sys2Proof.Machine.execSourceLaneLost s
  | .rampReached => Sys2Proof.Machine.execRampReached s
  | .rootLocked => Sys2Proof.Machine.execRootLocked s
  | .clockAcquire => Sys2Proof.Machine.execClockAcquire s
  | .reacquire => Sys2Proof.Machine.execReacquire s
  | .clkrefLost => Sys2Proof.Machine.execClkrefLost s
  | .dividerStep dom => Sys2Proof.Machine.execDividerStep dom s
  | .passStep => Sys2Proof.Machine.execPassStep s
  | .voltageSettled => Sys2Proof.Machine.execVoltageSettled s
  | .powerSample mv dw => Sys2Proof.Machine.execPowerSample mv dw s
  | .pwrgdAssert => Sys2Proof.Machine.execPwrgdAssert s
  | .pwrgdDeassert => Sys2Proof.Machine.execPwrgdDeassert s
  | .perstAssert => Sys2Proof.Machine.execPerstAssert s
  | .perstDeassert straps => Sys2Proof.Machine.execPerstDeassert straps s
  | .bringUpStep results => Sys2Proof.Machine.execBringUpStep results s
  | .portWaitEnd => Sys2Proof.Machine.execPortWaitEnd s
  | .fittingSlice region phys pass => Sys2Proof.Machine.execFittingSlice region phys pass s
  | .resetCore region k => Sys2Proof.Machine.execResetCore region k s
  | .resetRegion region => Sys2Proof.Machine.execResetRegion region s
  | .partitionReset part => Sys2Proof.Machine.execPartitionReset part s
  | .moduleReset => Sys2Proof.Machine.execModuleReset s
  | .resetComplete scope id => Sys2Proof.Machine.execResetComplete scope id s
  | .functionLevelReset fn => Sys2Proof.Machine.execFunctionLevelReset fn s
  | .linkStateChange rate width flit => Sys2Proof.Machine.execLinkStateChange rate width flit s
  | .intMaskWrite fn val => Sys2Proof.Machine.execIntMaskWrite fn val s
  | .dpAddrWrite fn val => Sys2Proof.Machine.execDpAddrWrite fn val s
  | .dataPortAccess fn write off units => Sys2Proof.Machine.execDataPortAccess fn write off units s
  | .dpReadStall fn => Sys2Proof.Machine.execDpReadStall fn s
  | .jobBoardCheck part => Sys2Proof.Machine.execJobBoardCheck part s
  | .jobRun => Sys2Proof.Machine.execJobRun s
  | .jobTier => Sys2Proof.Machine.execJobTier s
  | .jobStop => Sys2Proof.Machine.execJobStop s
  | .slotRead fn part slot => Sys2Proof.Machine.execSlotRead fn part slot s
  | .slotRelease fn part slot => Sys2Proof.Machine.execSlotRelease fn part slot s
  | .begin fn => Sys2Proof.Machine.execBegin fn s
  | .commit fn => Sys2Proof.Machine.execCommit fn s
  | .rollback fn => Sys2Proof.Machine.execRollback fn s
  | .selectNext num => Sys2Proof.Machine.execSelectNext num s
  | .clearNext => Sys2Proof.Machine.execClearNext s
  | .patWrite num => Sys2Proof.Machine.execPatWrite num s
  | .patWriteDone ok => Sys2Proof.Machine.execPatWriteDone ok s
  | .smbIdentity => Sys2Proof.Machine.execSmbIdentity s
  | .smbStatus => Sys2Proof.Machine.execSmbStatus s
  | .smbTemps => Sys2Proof.Machine.execSmbTemps s
  | .smbPower => Sys2Proof.Machine.execSmbPower s
  | .smbAlertRead => Sys2Proof.Machine.execSmbAlertRead s
  | .smbAlertClear val => Sys2Proof.Machine.execSmbAlertClear val s
  | .smbAlertMask val => Sys2Proof.Machine.execSmbAlertMask val s
  | .smbLedgerIndex val => Sys2Proof.Machine.execSmbLedgerIndex val s
  | .smbLedgerRead => Sys2Proof.Machine.execSmbLedgerRead s
  | .smbAlertResponse => Sys2Proof.Machine.execSmbAlertResponse s
  | .attest => Sys2Proof.Machine.execAttest s
  | .spdmRequest kind nonce => Sys2Proof.Machine.execSpdmRequest kind nonce s
  | .wipe => Sys2Proof.Machine.execWipe s
  | .refurbish => Sys2Proof.Machine.execRefurbish s
  | .owner => Sys2Proof.Machine.execOwner s
  | .commitSvn => Sys2Proof.Machine.execCommitSvn s
  | .revokeF0 => Sys2Proof.Machine.execRevokeF0 s
  | .rcvBegin slot => Sys2Proof.Machine.execRcvBegin slot s
  | .rcvDataWrite val => Sys2Proof.Machine.execRcvDataWrite val s
  | .rcvEnd => Sys2Proof.Machine.execRcvEnd s
  | .ledgerProgram => Sys2Proof.Machine.execLedgerProgram s
  | .ledgerPeriodic => Sys2Proof.Machine.execLedgerPeriodic s
  | .archive count => Sys2Proof.Machine.execArchive count s
  | .illegalWord core => Sys2Proof.Machine.execIllegalWord core s
  | .unitFault kind num => Sys2Proof.Machine.execUnitFault kind num s
  | .moveHoldNotice holder bolt => Sys2Proof.Machine.execMoveHoldNotice holder bolt s
  | .generationSpacingEnd bolt => Sys2Proof.Machine.execGenerationSpacingEnd bolt s
  | .resetDrainEnd => Sys2Proof.Machine.execResetDrainEnd s
  | .perBankRefresh stack pch bank => Sys2Proof.Machine.execPerBankRefresh stack pch bank s
  | .clkrefReturn => Sys2Proof.Machine.execClkrefReturn s
  | .ideKmRequest setup => Sys2Proof.Machine.execIdeKmRequest setup s

end Sys2Proof.Machine
end

