-- ==== Sys2Proof/WellFormed.lean ====
section
/-! DEFINITION. Which commands are well formed: their operands name units, fields and indices that the module has. -/

namespace Sys2Proof

/-- How many units of a kind of UNIT_FAULT there are: pockets, region routers, stacks, base dies, seam dies, hubs, flash
controllers (R15 to R25). -/
def unitsOfKind (kind : Nat) : Nat :=
  if kind = 1 || kind = 2 then 48 else if kind = 3 || kind = 4 then 24 else if kind = 5 then 8 else if kind = 6 then 4
  else if kind = 7 then 2 else 0

/-- Does a weave stop have a link to its west, east, north or south, on the mesh of 10 by 10 stops (R23, R25)? -/
def weaveLink (x d : Nat) : Bool :=
  if d = 0 then x % 10 ≠ 0 else if d = 1 then x % 10 ≠ 9 else if d = 2 then 10 ≤ x else x < 90

/-- Is a command well formed? -/
def Instr.wellFormed (i : Instr) : Bool :=
  match i with
  | .registerWrite fn off size val => fn < 9 && off < 0x10000000 && (size = 1 || size = 2 || size = 4 || size = 8) && val < 2 ^ (8 * size)
  | .rcRead fn off _ _ => fn < 9 && off < 0x10000000
  | .nop core => core < 384
  | .mma core => core < 384
  | .tdld core => core < 384
  | .tdadd core => core < 384
  | .cpy core => core < 384
  | .fence core => core < 384
  | .sync core => core < 384
  | .loop core => core < 384
  | .stepend core => core < 384
  | .wstRelease core queue => core < 384 && queue < 3
  | .fenceComplete core => core < 384
  | .syncRelease sw scope barrier region => sw < 65536 && scope < 3 && barrier < 256 && region < 48
  | .stependDone core => core < 384
  | .issueResume core => core < 384
  | .arrayCycle core upset => core < 384 && upset ≤ 39936
  | .bobbinSwap core => core < 384
  | .loadShuttleStage core => core < 384
  | .storeDrain core => core < 384
  | .cpyTransfer core eng => core < 384 && eng < 2
  | .coreFault region phys cause => region < 48 && phys < 9 && cause < 3
  | .vmap core => core < 384
  | .vfma core => core < 384
  | .vrow core => core < 384
  | .vnorm core => core < 384
  | .vsmax core => core < 384
  | .vrscRescale core => core < 384
  | .vrscFinal core => core < 384
  | .vrscClose core => core < 384
  | .vsti core => core < 384
  | .vdot core => core < 384
  | .vsbwd core => core < 384
  | .vloss core => core < 384
  | .vqnt core => core < 384
  | .vpos core => core < 384
  | .vsetf core => core < 384
  | .vectorChunk core => core < 384
  | .scratchGrant core bank _ _ _ => core < 384 && bank < 32
  | .switchRequest core sw => core < 384 && sw < 65536
  | .coreSwitch core => core < 384
  | .switchComplete core => core < 384
  | .schedule part => part < 8
  | .stepStart sw => sw < 65536
  | .preempt sw => sw < 65536
  | .swatchReturn sw => sw < 65536
  | .stepBoundary sw => sw < 65536
  | .limpSwitch region carrier => region < 48 && carrier < 8
  | .packJob stack => stack < 24
  | .updateJob stack _ => stack < 24
  | .foreignErrorPass stack => stack < 24
  | .stepCommit sw => sw < 65536
  | .pendingRowAppend sw _ _ _ => sw < 65536
  | .pendingRowApply stack sw _ => stack < 24 && sw < 65536
  | .closingHop sw _ _ => sw < 65536
  | .roundTrailerSend dom sw => dom < 16 && sw < 65536
  | .trailer dom _ sender => dom < 16 && sender < 8192
  | .collectiveTimeout dom _ => dom < 16
  | .holdNoticeTick sw => sw < 65536
  | .hold dom _ _ sender => dom < 16 && sender < 8192
  | .agreeLocalise sw _ => sw < 65536
  | .agreeRepair sw _ => sw < 65536
  | .stateTransferSend dom sw => dom < 16 && sw < 65536
  | .stateTransferDone dom sw => dom < 16 && sw < 65536
  | .hbmRequest stack pch _ _ => stack < 24 && pch < 64
  | .laneSwap stack chan => stack < 24 && chan < 32
  | .patrolScrub stack slot _ => stack < 24 && slot < 1572864
  | .arbiterGrant arb _ => arb < 992 && (400 ≤ arb || weaveLink (arb / 4) (arb % 4))
  | .pocketAccess region sw tag addr _ _ _ => region < 48 && sw < 65536 && tag ≤ 4096 && addr % 64 = 0 && addr + 64 ≤ 2 ^ 43
  | .pocketZeroingDone region way => region < 48 && way < 16
  | .pocketSweep region => region < 48
  | .thermalSample temps dies => temps.length = 31 && dies.length = 24 && temps.all (fun x => x < 256) && dies.all (fun x => x ≤ 16)
  | .stackFitSlice stack => stack < 24
  | .stackSliceResult stack _ => stack < 24
  | .alloc => true
  | .free => true
  | .promoteRequest => true
  | .evict => true
  | .pin => true
  | .unpin => true
  | .query => true
  | .moveReserve bolt => bolt < 2 ^ 27
  | .moveCopyDone bolt bad => bolt < 2 ^ 27 && bad.all (fun g => g < 256)
  | .moveHold bolt => bolt < 2 ^ 27
  | .holdAck bolt holder => holder < 86 && bolt < 2 ^ 27
  | .moveFlip bolt => bolt < 2 ^ 27
  | .moveFreeSource bolt => bolt < 2 ^ 27
  | .dirNotice holder bolt gen _ => holder < 86 && bolt < 2 ^ 27 && gen < 65536
  | .translationFill bolt holder sw _ => holder < 86 && bolt < 2 ^ 27 && sw < 65536
  | .layerMark sw => sw < 65536
  | .stallLimit sw cause => sw < 65536 && cause < 6
  | .dirScrub => true
  | .flashProgram ctl _ => ctl < 2
  | .flashBudgetHour ctl => ctl < 2
  | .tierT3Write _ val => val < 2 ^ 64
  | .portDetect port => port < 16
  | .portUp port _ rtt => port < 16 && rtt < 65536
  | .hello port _ => port < 16
  | .flitReceive port header _ _ _ => port < 16 && header < 2 ^ 64
  | .nak port seq => port < 16 && seq < 4096
  | .replayTimeout port => port < 16
  | .retrain port => port < 16
  | .signalLoss port => port < 16
  | .join _ => true
  | .leave _ => true
  | .propose _ => true
  | .announce _ => true
  | .adopt _ => true
  | .clkstat port depth => port < 16 && depth < 32
  | .cmd _ => true
  | .proposeRetry dom => dom < 16
  | .adoptTimeout dom => dom < 16
  | .joinResend dom => dom < 16
  | .memberStrike dom place => dom < 16 && place < 8192
  | .collIssue dom => dom < 16
  | .sequenceComplete dom _ sender => dom < 16 && sender < 8192
  | .runBarrier sw => sw < 65536
  | .runPack sw => sw < 65536
  | .runCollExchange sw => sw < 65536
  | .collReduceScatter sw => sw < 65536
  | .collAllGather sw => sw < 65536
  | .collAllReduce sw => sw < 65536
  | .collBroadcast sw => sw < 65536
  | .runTier sw => sw < 65536
  | .runEnd sw => sw < 65536
  | .barrierStall sw => sw < 65536
  | .resume fn sw => fn < 9 && sw < 65536
  | .park fn sw => fn < 9 && sw < 65536
  | .partitionWrite fn part which val => fn < 9 && part < 8 && which < 2 && val < 2 ^ 64
  | .partitionChangeApply part => part < 8
  | .descriptorWrite fn sw word val => fn < 9 && sw < 65536 && word < 32 && val < 2 ^ 64
  | .collDomCfgWrite fn dom val => fn < 9 && dom < 16 && val < 2 ^ 64
  | .collCmdJoin dom => dom < 16
  | .collCmdLeave dom => dom < 16
  | .collCmdRemove dom place => dom < 16 && place < 8192
  | .collCmdForce dom => dom < 16
  | .sourceLaneLost => true
  | .rampReached => true
  | .rootLocked => true
  | .clockAcquire => true
  | .reacquire => true
  | .clkrefLost => true
  | .dividerStep dom => dom < 5
  | .passStep => true
  | .voltageSettled => true
  | .powerSample mv dw => mv < 65536 && dw < 2 ^ 32
  | .pwrgdAssert => true
  | .pwrgdDeassert => true
  | .perstAssert => true
  | .perstDeassert straps => straps < 32
  | .bringUpStep _ => true
  | .portWaitEnd => true
  | .fittingSlice region phys _ => region < 48 && phys < 9
  | .resetCore region k => region < 48 && k < 8
  | .resetRegion region => region < 48
  | .partitionReset part => part < 8
  | .moduleReset => true
  | .resetComplete scope id => (scope = 0 && id < 384) || (scope = 1 && id < 48) || (scope = 2 && id < 8)
  | .functionLevelReset fn => fn < 9
  | .linkStateChange rate width _ => rate < 5 && (width = 0 || width = 1 || width = 2 || width = 4)
  | .intMaskWrite fn val => fn < 9 && val < 2 ^ 64
  | .dpAddrWrite fn val => fn < 9 && val < 2 ^ 64
  | .dataPortAccess fn _ off _ => fn < 9 && off < 65536
  | .dpReadStall fn => fn < 9
  | .jobBoardCheck part => part < 8
  | .jobRun => true
  | .jobTier => true
  | .jobStop => true
  | .slotRead fn part slot => fn < 9 && part < 8 && slot < 4096
  | .slotRelease fn part slot => fn < 9 && part < 8 && slot < 4096
  | .begin fn => fn < 9
  | .commit fn => fn < 9
  | .rollback fn => fn < 9
  | .selectNext num => num < 4
  | .clearNext => true
  | .patWrite num => num < 4
  | .patWriteDone _ => true
  | .smbIdentity => true
  | .smbStatus => true
  | .smbTemps => true
  | .smbPower => true
  | .smbAlertRead => true
  | .smbAlertClear val => val < 65536
  | .smbAlertMask val => val < 65536
  | .smbLedgerIndex val => val < 2 ^ 32
  | .smbLedgerRead => true
  | .smbAlertResponse => true
  | .attest => true
  | .spdmRequest kind nonce => kind < 2 && nonce < 2 ^ 256
  | .wipe => true
  | .refurbish => true
  | .owner => true
  | .commitSvn => true
  | .revokeF0 => true
  | .rcvBegin slot => slot < 2
  | .rcvDataWrite val => val < 2 ^ 64
  | .rcvEnd => true
  | .ledgerProgram => true
  | .ledgerPeriodic => true
  | .archive _ => true
  | .illegalWord core => core < 384
  | .unitFault kind num => num < unitsOfKind kind
  | .moveHoldNotice holder bolt => holder < 86 && bolt < 2 ^ 27
  | .generationSpacingEnd bolt => bolt < 2 ^ 27
  | .resetDrainEnd => true
  | .perBankRefresh stack pch bank => stack < 24 && pch < 64 && bank < 64
  | .clkrefReturn => true
  | .ideKmRequest _ => true

end Sys2Proof
end

