-- ==== Sys2Proof/Safety.lean ====
section
/-! DEFINITION. What the claims speak of: which registers two states share, the frames of commands, and what holds of
every state of a safe run: clocks within their ranges (R433, R434, R440) and memories in their canonical form. -/

namespace Sys2Proof.Machine

/-- The state a meaning runs on: nothing of an earlier command is left in the output. -/
def fresh (s : State) : State := { s with out := [] }

/-- The state after a command whose operations lead from `fresh s` to `x`: it takes no time and leaves the queue alone. -/
def wrapAll (s x : State) : State := { x with pending := s.pending, now := s.now }

/-- The same for a command outside the clocks, which stay as they are (R439). -/
def wrap (s x : State) : State := { x with clk := s.clk, pending := s.pending, now := s.now }

/-- Every register field but the listed ones reads alike in the two states. -/
def SameRegs (s t : State) (but : List (FieldName × Nat)) : Prop :=
  ∀ n i, (n, i) ∉ but → t.f n i = s.f n i

/-- Registers alone differ, the listed fields, and what the command puts out. -/
def OnlyRegs (s t : State) (but : List (FieldName × Nat)) : Prop :=
  t = { s with regs := t.regs, out := t.out } ∧ SameRegs s t but

/-- A command that runs outside a reset on a powered module (R386, R471). -/
abbrev State.up (s : State) : Prop := s.pwrgd = true ∧ s.inReset = false

/-- The dividers stand between their nominal values and twice those (R433, R438), P between 60 and the highest P of the
voltage level in force, no higher than 120, and its target from 60 to 120 (R434, R440). -/
structure Clk.Ok (c : Clk) : Prop where
  array  : 8 ≤ c.array ∧ c.array ≤ 16
  fabric : 4 ≤ c.fabric ∧ c.fabric ≤ 8
  vector : 4 ≤ c.vector ∧ c.vector ≤ 8
  hbmc   : 5 ≤ c.hbmc ∧ c.hbmc ≤ 10
  ctrl   : 12 ≤ c.ctrl ∧ c.ctrl ≤ 24
  pass   : 60 ≤ c.pass ∧ c.pass ≤ levelBound c.level
  target : 60 ≤ c.target ∧ c.target ≤ 120
  level  : c.level ≤ 3

/-- Every store is in its canonical form. -/
def Stores.wf (t : Stores) : Bool :=
  Memory.wf 0 t.hbm && Memory.wf 0 t.pocket && Memory.wf 0 t.flash && Memory.wf 0 t.host && Memory.wf 0 t.scratch
    && Memory.wf 0xFF t.cfg && Memory.wf 0 t.sram && Memory.wf 0 t.jobs

/-- A state of a safe run: the clocks in their ranges and the stores in their canonical form. -/
def State.safe (s : State) : Prop := s.clk.Ok ∧ s.mem.st.wf = true

/-- The pins, which act on a module without power (R385 to R387, R447). -/
def isPin (c : Instr) : Bool :=
  match c with
  | .pwrgdAssert | .pwrgdDeassert | .perstAssert | .perstDeassert _ => true
  | _ => false

/-- What goes on during a module reset: the pins, the clock sequencer, the drain, the ledger's programming and the SMBus
target (R424, R471). -/
def inResetToo (c : Instr) : Bool :=
  match c with
  | .pwrgdAssert | .pwrgdDeassert | .perstAssert | .perstDeassert _ => true
  | .dividerStep _ | .passStep | .voltageSettled | .clkrefReturn | .resetDrainEnd | .ledgerProgram => true
  | .smbIdentity | .smbStatus | .smbTemps | .smbPower | .smbAlertRead | .smbAlertClear _ | .smbAlertMask _
  | .smbLedgerIndex _ | .smbLedgerRead | .smbAlertResponse => true
  | _ => false

/-- The commands that may change the clocks or the array rail: the clock and power families, resets and power, and
REGISTER_WRITE, WIPE and BRING_UP_STEP, which can reset the module, reacquire or run a bring-up. -/
def touchesClocks (c : Instr) : Bool :=
  match c with
  | .registerWrite _ _ _ _ | .dividerStep _ | .passStep | .voltageSettled | .powerSample _ _ | .clockAcquire | .reacquire
  | .sourceLaneLost | .rampReached | .rootLocked | .clkstat _ _ | .clkrefLost | .clkrefReturn => true
  | .pwrgdAssert | .pwrgdDeassert | .perstAssert | .perstDeassert _ | .bringUpStep _ | .moduleReset | .resetDrainEnd
  | .wipe => true
  | _ => false

/-- The sequencer of core `c` issues, and the word at its PC lies in its window and reads as `x` (R65, R66, R354). -/
abbrev State.reads (s : State) (c : Nat) (x : CoreWord) : Prop :=
  s.issues c = true ∧ s.inWindow (s.swOf c) (8 * s.f .CORE_PC_PC c) 8 = true ∧ decodeWord (s.wordAt c) = some x

/-- The word counts as issued and the next one follows it (R65, R89). -/
def State.counted (s t : State) (c : Nat) : Prop :=
  t.f .CORE_ISSUED c = satAdd (s.f .CORE_ISSUED c) 1 ∧ t.f .CORE_PC_PC c = (s.f .CORE_PC_PC c + 1) % 2 ^ 19 ∧
    (t.core c).issued = (s.core c).issued + 1

/-- Nothing but core `c`'s context and the listed registers changes, and nothing is put out. -/
def CoreOnly (s t : State) (c : Nat) (but : List (FieldName × Nat)) : Prop :=
  t = { s with regs := t.regs, cores := t.cores, out := [] } ∧ SameRegs s t but ∧ ∀ d, d ≠ c → t.core d = s.core d

/-- The words of the vector unit that queue: the command and which words it recognises (R131 to R133). -/
def vectorCommands (c : Nat) : List (Instr × (Nat → Bool)) :=
  [(.vmap c, isOp 0x28), (.vfma c, isOp 0x29), (.vrow c, isOp 0x2A), (.vnorm c, isOp 0x2B), (.vsmax c, isOp 0x2C),
   (.vrscRescale c, isVrsc (fun f => f = 0 || 2 < f)), (.vrscFinal c, isVrsc (fun f => f = 1)),
   (.vrscClose c, isVrsc (fun f => f = 2)), (.vsti c, isOp 0x2E), (.vdot c, isOp 0x2F), (.vsbwd c, isOp 0x30),
   (.vloss c, isOp 0x31), (.vqnt c, isOp 0x32)]

/-- The words of the program: the command of each and which words it recognises (R70). -/
def wordCommands (c : Nat) : List (Instr × (Nat → Bool)) :=
  [(.nop c, isOp 0x00), (.mma c, isOp 0x01), (.tdld c, isOp 0x08), (.tdadd c, isOp 0x09), (.cpy c, isOp 0x10),
   (.fence c, isOp 0x18), (.sync c, isOp 0x19), (.loop c, isOp 0x20), (.vpos c, isOp 0x33), (.vsetf c, isOp 0x34),
   (.stepend c, isOp 0x3F), (.illegalWord c, unassigned)] ++ vectorCommands c

/-- Core `c`'s word is refused with a code (R67, R79, R89): the code and the place are recorded, the event is counted,
CORE_STATUS shows REFUSED, and the swatch's step, if it runs and is not latched, is broken with cause BROKEN; otherwise
the cause counts toward its next step (R198). The PC stays, and nothing is written to memory. -/
def State.refusedAs (s t : State) (c code : Nat) : Prop :=
  let r := s.sw (s.swOf c)
  let live := r.started && !r.latched
  t.f .CORE_STATUS_LAST_REFUSAL c = code ∧ t.f .CORE_STATUS_REFUSAL_PC c = s.f .CORE_PC_PC c % 2 ^ 19 ∧
    t.f .CORE_STATUS_REFUSED c = 1 ∧ t.f .CORE_REFUSALS c = satAdd (s.f .CORE_REFUSALS c) 1 ∧
    t.f .CORE_ISSUED c = satAdd (s.f .CORE_ISSUED c) 1 ∧
    t.sw (s.swOf c) = { r with
      cause := if live then putBit r.cause causeBroken true else r.cause
      nextCause := if live then r.nextCause else putBit r.nextCause causeBroken true
      bit0 := r.bit0 || live
      nextBit0 := r.nextBit0 || !live
      broken := r.broken || live } ∧
    (∀ k, k ≠ s.swOf c → t.sw k = s.sw k) ∧
    t = { s with regs := t.regs, cores := t.cores, sws := t.sws } ∧
    ∀ n i, n ∉ [.CORE_STATUS_BROKEN, .CORE_STATUS_STATE, .VEC_STATUS_BUSY] → (n, i) ∉ [(.CORE_STATUS_LAST_REFUSAL, c),
      (.CORE_STATUS_REFUSAL_PC, c), (.CORE_STATUS_REFUSED, c), (.CORE_REFUSALS, c), (.CORE_ISSUED, c)] → t.f n i = s.f n i

/-- A request of opcode `op` over one bolt waits in front of the tier queue, nothing of it done (R253). -/
abbrev State.asked (s : State) (op : Nat) (q : TierReq) (rest : List TierReq) : Prop :=
  s.up ∧ s.mem.tierQ = q :: rest ∧ trOp q.bits = op ∧ s.trIllegal q.bits = false ∧ trFirst q.bits + 1 ≤ 2 ^ 27 ∧
    trCount q.bits = 1 ∧ q.done = 0

/-- An engine's work for swatch `k` goes on at once: every bolt it reads or writes is served, and none is denied (R271,
R277). -/
def State.engineFree (s : State) (k : Nat) (rd wr : List (Nat × Nat)) : Prop :=
  s.boltsServed k (rangeBolts rd) (rangeBolts wr) = true ∧ (∀ b ∈ rangeBolts rd, s.boltDenied k b false = false) ∧
    ∀ b ∈ rangeBolts wr, s.boltDenied k b true = false

/-- The cutter stands at entry `e` of swatch `k`'s run plan, whose bolt is served, and no collective holds the walk (R264,
R368). -/
abbrev State.atEntry (s : State) (k e : Nat) : Prop :=
  s.up ∧ k < 65536 ∧ s.planNow k = some e ∧ s.planHeld k = false ∧ s.engineFree k [(s.planAt k (s.sw k).plan, 16)] []

/-- The state in which the cutter has read its entry. -/
def State.readEntry (s : State) (k : Nat) : State := (fresh s).streams [(s.planAt k (s.sw k).plan, 16)] []

/-- Of the memories, only the stores, marks of dirty granules and the base caches' own bookkeeping differ. -/
def MemOnly (m n : Mem) : Prop :=
  n = { m with st := n.st, moves := n.moves, cache := n.cache, plru := n.plru, tick := n.tick }

/-- Every register field but the listed ones and the base caches' counters reads alike. -/
def SameButCache (s t : State) (but : List (FieldName × Nat)) : Prop :=
  ∀ n i, n ∉ [.BASE_HIT, .BASE_MISS, .BASE_DALU_DROP] → (n, i) ∉ but → t.f n i = s.f n i

end Sys2Proof.Machine
end

