-- ==== Sys2Proof/Certificates/Slice0/Obligations.lean ====
section
/-! DEFINITION. The statements for the provers. -/

open Sys2Proof Sys2Proof.Machine

/-! The queue, time and the whole module. -/

/-- A step with a command at the front of the queue is exec of it with the queue's rest. -/
def Obligations.StepRunsFrontCommand : Prop :=
  ∀ (c : Instr) (rest : List Instr) (s : State), s.pending = c :: rest → step s = exec c { s with pending := rest }

/-- On an empty queue a step is one count of the timestamp (the model's choice, log entry 1): registers alone change
with it, and of these only the counters of waiting (R190, R191, R196, R253, R292, R344). Rests on the model's choices of
log entries 1, 46, 175. -/
def Obligations.IdleStepCountsTimeAndWaiting : Prop :=
  ∀ s : State, s.pending = [] → ∃ t, step s = .next t ∧ t.now = s.now + 1 ∧
    t = { s with now := s.now + 1, regs := t.regs } ∧
    ∀ n i, n ∉ [.TIER_STALL_FLASH, .TIER_STALL_HOT, .TIER_STALL_DIR, .TIER_STALL_QUOTA, .TIER_STALL_HOST,
      .TIER_STALL_SEAM, .SEAM_CREDIT_WAIT, .BASE_HOT_CYC, .PRESS_ROW_WAIT, .PRESS_PEND_FULL] → t.f n i = s.f n i

/-- A command runs exactly when its operands name units, fields and indices the module has; no command is refused (the
fault noSuchUnit is log entry 150). Rests on the model's choices of log entries 2, 150. -/
def Obligations.CommandsRunIffWellFormed : Prop :=
  ∀ (c : Instr) (s : State),
    (c.wellFormed = true → ∃ t, exec c s = .next t) ∧ (c.wellFormed = false → exec c s = .fault .noSuchUnit)

/-- A command takes no time and leaves the queue alone (the model's choice, log entries 2 and 80). The clocks and the
array rail change only in commands of the clocks, of power and of resets. Rests on the model's choices of log entries 2,
80. -/
def Obligations.CommandsKeepQueueTimeAndOtherClocks : Prop :=
  (∀ (c : Instr) (s t : State), exec c s = .next t → t.pending = s.pending ∧ t.now = s.now) ∧
  (∀ (c : Instr) (s t : State), touchesClocks c = false → exec c s = .next t → t.clk = s.clk)

/-- Without power (`PWRGD` low, R386) no command but a pin has an effect. In a module reset (R471) only the pins, the
clock sequencer, the drain, ledger programming and SMBus act. Rests on the model's choices of log entry 137. -/
def Obligations.UnpoweredAndHeldModulesKeepState : Prop :=
  (∀ (c : Instr) (s t : State), s.pwrgd = false → isPin c = false → exec c s = .next t → t = { s with out := [] }) ∧
  (∀ (c : Instr) (s t : State), s.inReset = true → inResetToo c = false → exec c s = .next t → t = { s with out := [] })

/-- The clocks and the array rail of the reset state are within their ranges (R433, R434, R440). Rests on the model's
choices of log entry 151. -/
def Obligations.ResetClocksInRange : Prop := State.reset.clk.Ok ∧ State.reset.clk.atDouble = true ∧ State.reset.clk.pass = 60

/-- Whatever a step does, the dividers stay between nominal and twice nominal, P between 60 and the bound of the voltage
level, and the target between 60 and 120 (R433, R434, R437, R438, R440). Rests on the model's choices of log entries 81,
82. -/
def Obligations.EveryStepKeepsClocksInRange : Prop :=
  ∀ s t : State, s.clk.Ok → step s = .next t → t.clk.Ok

/-! Clocks, pass gate, voltage and power. -/

/-- The source lane is lost while the root is locked to it (R443, R445): HOLDOVER, a ramp of every domain, the loss
counted and flagged, and the port no longer the source. `CLKREF` comes back: only that is noted. Acquisition (R444): it
starts at CLOCK_ACQUIRE when a try is due and at REACQUIRE, and ramps every domain; once the ramp is done the lane is
the reference, the lock ramps back with the port as source, and the ramp's end is RECOVERED. A link peer's CLKSTAT
(R337): its depth is recorded, and a module locked to that link takes one more. Rests on the model's choices of log
entries 83, 84. -/
def Obligations.ClockSourceIsLostAcquiredAndTold : Prop :=
  (∀ s : State, s.up → s.clk.onSource = true →
    ∃ t, exec .sourceLaneLost s = .next t ∧
      t.clk = { s.clk.ramp true s.now with root := .holdover, onLane := false, locked := false } ∧
      t.f .CLK_LOSSES 0 = satAdd (s.f .CLK_LOSSES 0) 1 ∧ t.f .CLK_STATUS_LOST_SEEN 0 = 1 ∧
      t.f .SEAM_STATUS_CLK_SRC s.sourcePort = 0 ∧ t = { s with clk := t.clk, regs := t.regs, out := [] } ∧
      SameRegs s t [(.CLK_LOSSES, 0), (.CLK_STATUS_LOST_SEEN, 0), (.SEAM_STATUS_CLK_SRC, s.sourcePort)]) ∧
  (∀ s : State, s.pwrgd = true → exec .clkrefReturn s = .next { s with clk := { s.clk with refGone := false }, out := [] }) ∧
  (∀ s : State, s.up → s.canAcquire = true → s.boot.acquireDue = true →
    exec .clockAcquire s = .next { s with
        out := [], boot := { s.boot with acquireDue := false },
        clk := { s.clk.ramp true s.now with root := .acquiring, onLane := false, locked := false } }) ∧
  (∀ s : State, s.up → s.canAcquire = true →
    exec .reacquire s = .next { s with
        out := [], boot := { s.boot with acquireDue := false },
        clk := { s.clk.ramp true s.now with root := .acquiring, onLane := false, locked := false } }) ∧
  (∀ s : State, s.up → s.clk.root = .acquiring → s.clk.locked = false → s.clk.onLane = false → s.clk.atDouble = true →
    exec .rampReached s = .next { s with out := [], clk := { s.clk with onLane := true } }) ∧
  (∀ s : State, s.up → s.clk.root = .acquiring → s.clk.onLane = true → s.clk.locked = false →
    ∃ t, exec .rootLocked s = .next t ∧
      t.clk = { s.clk.ramp false s.now with locked := true, depth := natMin 31 (s.f .SEAM_STATUS_PEER_DEPTH s.sourcePort + 1) } ∧
      t.f .CLK_SWITCHES 0 = satAdd (s.f .CLK_SWITCHES 0) 1 ∧ t.f .SEAM_STATUS_CLK_SRC s.sourcePort = 1 ∧
      t = { s with clk := t.clk, regs := t.regs, out := t.out, ports := t.ports } ∧
      ∀ n i, n ≠ .SEAM_TX_MFLITS → (n, i) ∉ [(.CLK_SWITCHES, 0), (.SEAM_STATUS_CLK_SRC, s.sourcePort)] → t.f n i = s.f n i) ∧
  (∀ s : State, s.up → s.clk.root = .acquiring → s.clk.locked = true → s.clk.atNominal = true →
    exec .rampReached s = .next { s with out := [], clk := { s.clk with root := .recovered } }) ∧
  (∀ (s : State) (p d : Nat), s.up → p < 16 → d < 32 → s.portUp p = true →
     ∃ t, exec (.clkstat p d) s = .next t ∧ t.f .SEAM_STATUS_PEER_DEPTH p = d ∧
       t.clk = { s.clk with depth := if s.clk.onSource && p = s.sourcePort then natMin 31 (d + 1) else s.clk.depth } ∧
       t = { s with clk := t.clk, regs := t.regs, out := t.out, ports := t.ports } ∧
       ∀ n i, n ≠ .SEAM_TX_MFLITS → (n, i) ≠ (.SEAM_STATUS_PEER_DEPTH, p) → t.f n i = s.f n i)

/-- `CLKREF` is lost outside RECOVERED (R445): the host link goes down, the root holds over, hub 0 has a unit fault with
its ledger entry, and the module is set to withdraw, without asking to join again; memory, ports and domains stay. Rests
on the model's choices of log entries 7, 83, 102. -/
def Obligations.ClkrefLossHoldsOverAndWithdraws : Prop :=
  ∀ s : State, s.up → s.clk.refGone = false → s.clk.root ≠ .recovered →
    ∃ t, exec .clkrefLost s = .next t ∧
      t.clk = { s.clk.ramp true s.now with root := .holdover, onLane := false, locked := false, refGone := true } ∧
      t.f .CLK_STATUS_REF_LOST 0 = 1 ∧ t.f .HST_LINK_RATE 0 = 0 ∧ t.f .HST_LINK_WIDTH 0 = 0 ∧ t.f .HST_LINK_FLIT 0 = 0 ∧
      t.ledgQ = s.ledgQ ++ [⟨0x06, unitPayload .hub 0 0 0 0 0, s.clkTime⟩] ∧
      t.withdraw = some (s.withdraw.getD (2 ^ causeUnit)) ∧ t.timedOut = false ∧ t.rejoin = 0 ∧ t.hostLink = false ∧
      t = { s with
          clk := t.clk, regs := t.regs, out := t.out, ledgQ := t.ledgQ, sws := t.sws, cores := t.cores,
          withdraw := t.withdraw, timedOut := t.timedOut, rejoin := 0, hostLink := false } ∧
      ∀ n i, n ∉ [.CLK_STATUS_REF_LOST, .HST_LINK_RATE, .HST_LINK_WIDTH, .HST_LINK_FLIT, .LEDG_STATUS_QUEUE,
        .CORE_STATUS_BROKEN, .CORE_STATUS_STATE, .VEC_STATUS_BUSY, .HST_INT_CAUSE_CAUSE] → t.f n i = s.f n i

/-- One step of a divider (R437, R438), of P (R434, R437) and of the array rail (R440). A sample of input voltage and
power (R441): PWR_INPUT_MV shows the voltage; one sample above 1.15 of the limit cuts P by 20 at once, down to 60 at the
least, and counts PWR_FAST. The rest of the machine stays. Rests on the model's choices of log entries 81, 82. -/
def Obligations.DividersPassAndPowerLimiterStep : Prop :=
  (∀ (s : State) (d : Nat), s.pwrgd = true → d < 5 →
    s.clk.div d ≠ (if s.clk.up then 2 * nominalDiv d else nominalDiv d) → FMap.get 0 s.clk.held d + 64 * s.clk.div d ≤ s.now →
    ∃ t, exec (.dividerStep d) s = .next t ∧
      t.clk.div d = (if s.clk.div d < (if s.clk.up then 2 * nominalDiv d else nominalDiv d) then s.clk.div d + 1 else s.clk.div d - 1) ∧
      (∀ e, e < 5 → e ≠ d → t.clk.div e = s.clk.div e) ∧ FMap.get 0 t.clk.held d = s.now ∧
      (∀ e, e ≠ d → FMap.get 0 t.clk.held e = FMap.get 0 s.clk.held e) ∧
      t = { s with
          out := [],
          clk := { s.clk with array := t.clk.array, fabric := t.clk.fabric, vector := t.clk.vector, hbmc := t.clk.hbmc, ctrl := t.clk.ctrl, held := t.clk.held } }) ∧
  (∀ s : State, s.pwrgd = true → s.clk.pass ≠ s.clk.target → s.clk.passAt + 7680 * s.clk.array / natMax s.clk.pass 1 ≤ s.now →
    ∃ t, exec .passStep s = .next t ∧ t = { s with out := [], clk := t.clk } ∧
      (s.clk.target < s.clk.pass →
        t.clk = { s.clk with pass := s.clk.pass - 1, passAt := s.now, level := levelOf (s.clk.pass - 1), rising := false }) ∧
      (s.clk.pass < s.clk.target → s.clk.pass + 1 ≤ levelBound s.clk.level →
        t.clk = { s.clk with pass := s.clk.pass + 1, passAt := s.now }) ∧
      (s.clk.pass < s.clk.target → levelBound s.clk.level < s.clk.pass + 1 → t.clk = { s.clk with rising := true })) ∧
  (∀ s : State, s.pwrgd = true → s.clk.rising = true → s.clk.level < 3 →
    exec .voltageSettled s = .next { s with out := [], clk := { s.clk with rising := false, level := s.clk.level + 1 } }) ∧
  (∀ (s : State) (mv dw : Nat), s.up → mv < 65536 → dw < 2 ^ 32 → 1150 * s.powerLimit < 100 * dw →
     ∃ t, exec (.powerSample mv dw) s = .next t ∧ t.f .PWR_INPUT_MV 0 = mv ∧
       t.pwr.samples = (dw :: s.pwr.samples).take 100 ∧
       t.clk.pass = natMax 60 (s.clk.pass - 20) ∧ t.clk.level = levelOf (natMax 60 (s.clk.pass - 20)) ∧
       t.f .PWR_FAST 0 = satAdd (s.f .PWR_FAST 0) 1 ∧
       t = { s with regs := t.regs, out := t.out, clk := t.clk, pwr := t.pwr, smb := t.smb, ledgQ := t.ledgQ } ∧
       ∀ n i, n ∉ [.PWR_INPUT_MV, .PWR_INPUT_DW, .PWR_FAST, .PWR_STATUS_LIMITING, .PWR_STATUS_LIMIT_SEEN, .PWR_LIMIT_MS,
         .PWR_STATUS_FLOOR_SEEN, .LEDG_STATUS_QUEUE, .HST_INT_CAUSE_CAUSE] → t.f n i = s.f n i)

/-! The sequencer of a needle core. -/

/-- Program words and their bits agree (R70 to R75, R131 to R134): a legal word encodes to 64 bits that read as that
word, and 64 bits that read as a legal word are its encoding; no bit of a word is dropped. Rests on the model's choices
of log entry 17. -/
def Obligations.ProgramWordsRoundTrip : Prop :=
  (∀ x : CoreWord, x.ok = true → encodeWord x < 2 ^ 64 ∧ decodeWord (encodeWord x) = some x) ∧
  (∀ (w : Nat) (x : CoreWord), w < 2 ^ 64 → decodeWord w = some x → x.ok = true ∧ encodeWord x = w)

/-- NOP (R70), TDADD (R74), VPOS and VSETF (R134) and STEPEND (R75) issue: each has its effect on the core and its
registers, counts as issued, and changes nothing else. -/
def Obligations.PlainWordsIssue : Prop :=
  (∀ (s : State) (c : Nat), s.up → c < 384 → s.reads c .nop →
    ∃ t, exec (.nop c) s = .next t ∧ s.counted t c ∧ t.core c = { s.core c with issued := (s.core c).issued + 1 } ∧
      CoreOnly s t c [(.CORE_ISSUED, c), (.CORE_PC_PC, c)]) ∧
  (∀ (s : State) (c i delta : Nat) (scale : Bool), s.up → c < 384 → s.reads c (.tdadd i scale delta) →
    ∃ t, exec (.tdadd c) s = .next t ∧ s.counted t c ∧ t.slot c i = dMoved (s.slot c i) scale delta ∧
      (∀ j, j ≠ i → t.slot c j = s.slot c j) ∧
      t.core c = { s.core c with issued := (s.core c).issued + 1, slots := (t.core c).slots } ∧
      CoreOnly s t c [(.CORE_ISSUED, c), (.CORE_PC_PC, c)]) ∧
  (∀ (s : State) (c q k m : Nat), s.up → c < 384 → s.reads c (.vpos q k m) → q < 2 ^ 22 → k < 2 ^ 22 → m < 2 →
    ∃ t, exec (.vpos c) s = .next t ∧ s.counted t c ∧ t.f .VEC_POS_QBASE c = q ∧ t.f .VEC_POS_KBASE c = k ∧
      t.f .VEC_POS_MASK c = m ∧ t.core c = { s.core c with issued := (s.core c).issued + 1 } ∧
      CoreOnly s t c [(.CORE_ISSUED, c), (.CORE_PC_PC, c), (.VEC_POS_QBASE, c), (.VEC_POS_KBASE, c), (.VEC_POS_MASK, c)]) ∧
  (∀ (s : State) (c r v : Nat), s.up → c < 384 → s.reads c (.vsetf r v) → r < 2 → v < 2 ^ 32 →
    ∃ t, exec (.vsetf c) s = .next t ∧ s.counted t c ∧
      t.f .VEC_BETA_BETA c = (if r = 0 then v else s.f .VEC_BETA_BETA c) ∧
      t.f .VEC_EPS_EPS c = (if r = 0 then s.f .VEC_EPS_EPS c else v) ∧
      t.core c = { s.core c with issued := (s.core c).issued + 1 } ∧
      CoreOnly s t c [(.CORE_ISSUED, c), (.CORE_PC_PC, c), (.VEC_BETA_BETA, c), (.VEC_EPS_EPS, c)]) ∧
  (∀ (s : State) (c : Nat), s.up → c < 384 → s.reads c .stepend →
    ∃ t, exec (.stepend c) s = .next t ∧ s.counted t c ∧
      t.core c = { s.core c with issued := (s.core c).issued + 1, wait := .stepend, waitSince := s.now } ∧
      CoreOnly s t c [(.CORE_ISSUED, c), (.CORE_PC_PC, c)])

/-- TDADD (R74) with SCALE clear adds its signed 40-bit offset to BASE modulo 2^52 and leaves every other field of the
image; with SCALE set it does the same to SCALE_BASE. -/
def Obligations.TdaddMovesOneBase : Prop :=
  ∀ d delta : Nat, d < 2 ^ 256 →
    (dBase (dMoved d false delta) : Int) = ((dBase d : Int) + signedOf delta 40) % 2 ^ 52 ∧
    bitField (dMoved d false delta) 0 32 = bitField d 0 32 ∧ bitField (dMoved d false delta) 84 172 = bitField d 84 172 ∧
    (dScaleBase (dMoved d true delta) : Int) = ((dScaleBase d : Int) + signedOf delta 40) % 2 ^ 52 ∧
    bitField (dMoved d true delta) 0 192 = bitField d 0 192 ∧ bitField (dMoved d true delta) 244 12 = bitField d 244 12

/-- TDLD (R75) of an image inside the window, with zero reserved bits and GEN 01b, puts the 32 bytes into its slot. -/
def Obligations.TdldLoadsSlot : Prop :=
  ∀ (s : State) (c i o : Nat), s.up → c < 384 → s.reads c (.tdld i o) → s.inWindow (s.swOf c) (32 * o) 32 = true →
    dReservedZero (leNat (s.scr c (32 * o) 32)) = true → dGen (leNat (s.scr c (32 * o) 32)) = 1 →
    ∃ t, exec (.tdld c) s = .next t ∧ s.counted t c ∧ t.slot c i = leNat (s.scr c (32 * o) 32) ∧
      (∀ j, j ≠ i → t.slot c j = s.slot c j) ∧
      t.core c = { s.core c with issued := (s.core c).issued + 1, slots := (t.core c).slots } ∧
      CoreOnly s t c [(.CORE_ISSUED, c), (.CORE_PC_PC, c)]

/-- The first MMA of a step opens it (R197) and takes its swatch's settings anew (R18): limits of SWT_CFG and TIER_CFG,
shuttle settings within their ranges (R84). MMA (R64, R72, R73) and CPY (R75) that then pass their checks with room in
the queue join it with copies of their descriptors, and an MMA of K beyond 2^20 counts as compensated (R107). Rests on
the model's choices of log entries 42, 43. -/
def Obligations.MatrixAndCopyWordsQueue : Prop :=
  (∀ (s : State) (k : Nat), let u := s.openStep k
    ((s.sw k).opened = true ∨ (s.sw k).started = false → u = s) ∧
    ((s.sw k).opened = false → (s.sw k).started = true →
      (u.sw k).opened = true ∧ (u.sw k).maxOut = s.f .SWT_CFG_MAX_OUT 0 ∧ (u.sw k).preempt = s.f .SWT_CFG_PREEMPT 0 ∧
      (u.sw k).stallMs = s.f .TIER_CFG_STALL_LIMIT 0 ∧
      ∀ c ∈ u.swCores k, (u.core c).dist = clampTo (s.f .CORE_SHUTTLE_CFG_LOAD_DIST c) 32 ∧
        (u.core c).ringBase = 16384 * s.f .CORE_SHUTTLE_CFG_STAGE_BASE c)) ∧
  (∀ (s : State) (c ta tw tc ti ts pi n : Nat) (acc fuse wst : Bool), s.up → c < 384 →
    s.reads c (.mma ta tw tc ti ts acc fuse pi wst n) → isOp 0x01 (s.wordAt c) = true → 0 < n →
    let u := (fresh s).openStep (s.swOf c)
    u.mmaCheck c (s.slot c ta) (s.slot c tw) (s.slot c tc) (s.slot c ti) (s.slot c ts) acc fuse n = 0 →
    (u.core c).matQ.length < 16 →
    ∃ t, exec (.mma c) s = .next t ∧ u.counted t c ∧
      t.core c = { u.core c with
          issued := (u.core c).issued + 1,
          matQ := (u.core c).matQ ++ [u.entry c (u.wordAt c) [s.slot c ta, s.slot c tw, s.slot c tc, s.slot c ti, s.slot c ts]] } ∧
      t.f .ARR_COMP_INSTR c =
        (if 2 ^ 20 < dRows (s.slot c tw) then satAdd (u.f .ARR_COMP_INSTR c) 1 else u.f .ARR_COMP_INSTR c) ∧
      (∀ j, FMap.get {} t.tags j =
        (if 2 ^ 20 < dRows (s.slot c tw) ∧ j = 4096 * s.swOf c + dTag (s.slot c tc) then
          { FMap.get {} u.tags j with comp := satAdd (FMap.get {} u.tags j).comp 1 } else FMap.get {} u.tags j)) ∧
      t = { u with regs := t.regs, cores := t.cores, tags := t.tags } ∧
      SameRegs u t [(.CORE_ISSUED, c), (.CORE_PC_PC, c), (.ARR_COMP_INSTR, c)] ∧ ∀ d, d ≠ c → t.core d = u.core d) ∧
  (∀ (s : State) (c a b rows : Nat) (eng wst : Bool), s.up → c < 384 → s.reads c (.cpy a b eng wst rows) →
    isOp 0x10 (s.wordAt c) = true → s.cpyCheck c (s.slot c a) (s.slot c b) rows = 0 → (s.core c).shQ.length < 16 →
    ∃ t, exec (.cpy c) s = .next t ∧ s.counted t c ∧
      t.core c = { s.core c with
          issued := (s.core c).issued + 1, shQ := (s.core c).shQ ++ [s.entry c (s.wordAt c) [s.slot c a, s.slot c b]] } ∧
      CoreOnly s t c [(.CORE_ISSUED, c), (.CORE_PC_PC, c)])

/-- Every vector word of R131 to R133 that passes its checks (R135) joins the vector queue with copies of its
descriptors and of BETA, EPS and the positions (R134). -/
def Obligations.VectorWordsQueue : Prop :=
  ∀ (s : State) (c op tx ty tz tr fn n : Nat) (wst : Bool), s.up → c < 384 → s.reads c (.vec op tx ty tz tr fn wst n) →
    0 < n → s.vecCheck c op fn n (s.slot c tx) (s.slot c ty) (s.slot c tz) (s.slot c tr) = 0 →
    (s.core c).vecQ.length < 16 →
    ∀ i ∈ vectorCommands c, i.2 (s.wordAt c) = true →
      ∃ t, exec i.1 s = .next t ∧ s.counted t c ∧
        t.core c = { s.core c with
            issued := (s.core c).issued + 1,
            vecQ := (s.core c).vecQ ++ [s.entry c (s.wordAt c) [s.slot c tx, s.slot c ty, s.slot c tz, s.slot c tr]] } ∧
        CoreOnly s t c [(.CORE_ISSUED, c), (.CORE_PC_PC, c)]

/-- FENCE and SYNC (R74, R75): the sequencer waits for the named shuttles, or at the barrier with CORE_STATUS.STATE 2.
Rests on the model's choices of log entries 22, 45. -/
def Obligations.FenceAndSyncWait : Prop :=
  (∀ (s : State) (c : Nat) (ld st : Bool), s.up → c < 384 → s.reads c (.fence ld st) → isOp 0x18 (s.wordAt c) = true →
    ∃ t, exec (.fence c) s = .next t ∧ s.counted t c ∧
      t.core c = (if ld || st then { s.core c with
          issued := (s.core c).issued + 1, wait := .fence ld st (s.core c).issued, waitSince := s.now }
        else { s.core c with issued := (s.core c).issued + 1 }) ∧
      CoreOnly s t c [(.CORE_ISSUED, c), (.CORE_PC_PC, c)]) ∧
  (∀ (s : State) (c scope barrier : Nat), s.up → c < 384 → s.reads c (.sync scope barrier) →
    isOp 0x19 (s.wordAt c) = true →
    ∃ t, exec (.sync c) s = .next t ∧ s.counted t c ∧ t.f .CORE_STATUS_STATE c = 2 ∧
      t.core c = { s.core c with
        issued := (s.core c).issued + 1, wait := .sync scope barrier (s.core c).issued, waitSince := s.now } ∧
      CoreOnly s t c [(.CORE_ISSUED, c), (.CORE_PC_PC, c), (.CORE_STATUS_STATE, c)])

/-- LOOP (R75) outside any loop, of a body that is no fifth level: with COUNT 1 it goes on; with more it opens the loop,
of depth 1, and the BACK words before it run again. The last run of the innermost loop closes it. Rests on the model's
choices of log entry 44. -/
def Obligations.LoopRepeatsBody : Prop :=
  ∀ (s : State) (c count back : Nat), s.up → c < 384 → s.reads c (.loop count back) → isOp 0x20 (s.wordAt c) = true →
    ((s.core c).loops = [] → (s.core c).nestAt (s.f .CORE_PC_PC c) back ≤ 4 → 1 < count →
      ∃ t, exec (.loop c) s = .next t ∧ t.f .CORE_ISSUED c = satAdd (s.f .CORE_ISSUED c) 1 ∧
        t.f .CORE_PC_PC c = (s.f .CORE_PC_PC c + 2 ^ 19 - back) % 2 ^ 19 ∧ t.f .CORE_PC_DEPTH c = 1 ∧
        (t.core c).loops = [(s.f .CORE_PC_PC c, count - 1)] ∧
        t.core c = { s.core c with
          issued := (s.core c).issued + 1, loops := (t.core c).loops, nest := (t.core c).nest } ∧
        CoreOnly s t c [(.CORE_ISSUED, c), (.CORE_PC_PC, c), (.CORE_PC_DEPTH, c)]) ∧
    ((s.core c).loops = [] → (s.core c).nestAt (s.f .CORE_PC_PC c) back ≤ 4 → count = 1 →
      ∃ t, exec (.loop c) s = .next t ∧ s.counted t c ∧ (t.core c).loops = [] ∧
        t.core c = { s.core c with issued := (s.core c).issued + 1, nest := (t.core c).nest } ∧
        CoreOnly s t c [(.CORE_ISSUED, c), (.CORE_PC_PC, c)]) ∧
    (∀ left rest, (s.core c).loops = (s.f .CORE_PC_PC c, left) :: rest → left ≤ 1 → rest.length < 8 →
      ∃ t, exec (.loop c) s = .next t ∧ s.counted t c ∧ t.f .CORE_PC_DEPTH c = rest.length ∧
        t.core c = { s.core c with issued := (s.core c).issued + 1, loops := rest } ∧
        CoreOnly s t c [(.CORE_ISSUED, c), (.CORE_PC_PC, c), (.CORE_PC_DEPTH, c)]) ∧
    (∀ left rest, (s.core c).loops = (s.f .CORE_PC_PC c, left) :: rest → 1 < left →
      ∃ t, exec (.loop c) s = .next t ∧ t.f .CORE_ISSUED c = satAdd (s.f .CORE_ISSUED c) 1 ∧
        t.f .CORE_PC_PC c = (s.f .CORE_PC_PC c + 2 ^ 19 - back) % 2 ^ 19 ∧
        t.core c = { s.core c with
          issued := (s.core c).issued + 1, loops := (s.f .CORE_PC_PC c, left - 1) :: rest } ∧
        CoreOnly s t c [(.CORE_ISSUED, c), (.CORE_PC_PC, c)])

/-- Every word is checked at issue, and one that fails a check is refused (R66): a fetch outside the window with BOUNDS
(R354), a word that reads as none or has no opcode with ILLEGAL (R70, R71), an MMA, CPY or vector word with the code of
its first failing check (R73, R75, R135), a TDLD image with BOUNDS, ILLEGAL or GEN, and a LOOP of a fifth level with
ILLEGAL (R75). -/
def Obligations.WordsThatFailChecksAreRefused : Prop :=
  ∀ (s : State) (c : Nat), s.up → c < 384 → s.issues c = true →
    let inside := s.inWindow (s.swOf c) (8 * s.f .CORE_PC_PC c) 8
    let w := s.wordAt c
    let pc := s.f .CORE_PC_PC c
    let refused (i : Instr) (code : Nat) : Prop := ∃ t, exec i s = .next t ∧ (fresh s).refusedAs t c code
    let opened := (fresh s).openStep (s.swOf c)
    (inside = false → ∀ i ∈ wordCommands c, refused i.1 rfBounds) ∧
    (inside = true → decodeWord w = none → ∀ i ∈ wordCommands c, i.2 w = true → refused i.1 rfIllegal) ∧
    (inside = true → unassigned w = true → refused (.illegalWord c) rfIllegal) ∧
    (∀ ta tw tc ti ts acc fuse pi wst n, s.reads c (.mma ta tw tc ti ts acc fuse pi wst n) → isOp 0x01 w = true →
      let code := opened.mmaCheck c (s.slot c ta) (s.slot c tw) (s.slot c tc) (s.slot c ti) (s.slot c ts) acc fuse n
      code ≠ 0 → ∃ t, exec (.mma c) s = .next t ∧ opened.refusedAs t c code) ∧
    (∀ a b eng wst rows, s.reads c (.cpy a b eng wst rows) → isOp 0x10 w = true →
      let code := s.cpyCheck c (s.slot c a) (s.slot c b) rows
      code ≠ 0 → refused (.cpy c) code) ∧
    (∀ op tx ty tz tr fn wst n, s.reads c (.vec op tx ty tz tr fn wst n) →
      let code := s.vecCheck c op fn n (s.slot c tx) (s.slot c ty) (s.slot c tz) (s.slot c tr)
      code ≠ 0 → ∀ i ∈ vectorCommands c, i.2 w = true → refused i.1 code) ∧
    (∀ slot o, s.reads c (.tdld slot o) → isOp 0x08 w = true →
      let d := leNat (s.scr c (32 * o) 32)
      let here := s.inWindow (s.swOf c) (32 * o) 32
      (here = false → refused (.tdld c) rfBounds) ∧
      (here = true → dReservedZero d = false → refused (.tdld c) rfIllegal) ∧
      (here = true → dReservedZero d = true → dGen d ≠ 1 → refused (.tdld c) rfGen)) ∧
    (∀ count back, s.reads c (.loop count back) → isOp 0x20 w = true →
      (∀ left rest, (s.core c).loops ≠ (pc, left) :: rest) →
      4 < (s.core c).nestAt pc back ∨ (count ≠ 1 ∧ 4 ≤ (s.core c).loops.length) → refused (.loop c) rfIllegal)

/-- The ends of waits: a word with WST = 1 begins when nothing before it is left (R63, R128), a FENCE completes (R74), a
full queue with room again lets the sequencer go on (R65), and a core at STEPEND with empty queues is done: STATE 5
(R75). SYNC_RELEASE (R75): when every core of the scope stands at the barrier, each goes on: it waits no more, has
passed the barrier, and runs (STATE 1); other cores and everything else stay. Rests on the model's choices of log
entries 22, 45. -/
def Obligations.CoreWaitsAndBarriersEnd : Prop :=
  (∀ (k : Core) (pre post : List QEnt) (e : QEnt), (∀ x ∈ pre, x.wst = false ∨ x.go = true) → e.wst = true →
    e.go = false → k.clearBefore e.seq = true → k.release (pre ++ e :: post) = pre ++ { e with go := true } :: post) ∧
  (∀ (s : State) (c q : Nat), s.up → c < 384 → q < 3 →
    ∃ t, exec (.wstRelease c q) s = .next t ∧ CoreOnly s t c [] ∧
      t.core c = (if q = 0 then { s.core c with matQ := (s.core c).release (s.core c).matQ }
        else if q = 1 then { s.core c with shQ := (s.core c).release (s.core c).shQ }
        else { s.core c with vecQ := (s.core c).release (s.core c).vecQ })) ∧
  (∀ (s : State) (c seq : Nat) (ld st : Bool), s.up → c < 384 → (s.core c).wait = .fence ld st seq →
    (ld = true → (s.core c).loadedBefore seq = true) → (st = true → (s.core c).clearBefore seq = true) →
    ∃ t, exec (.fenceComplete c) s = .next t ∧
      t.core c = { s.core c with wait := .none, waitSince := s.now } ∧ CoreOnly s t c []) ∧
  (∀ (s : State) (c q : Nat), s.up → c < 384 → (s.core c).wait = .full q →
    (if q = 0 then (s.core c).matQ.length else if q = 1 then (s.core c).shQ.length else (s.core c).vecQ.length) < 16 →
    ∃ t, exec (.issueResume c) s = .next t ∧
      t.core c = { s.core c with wait := .none, waitSince := s.now } ∧ CoreOnly s t c []) ∧
  (∀ (s : State) (c : Nat), s.up → c < 384 → (s.core c).wait = .stepend → (s.core c).matQ = [] → (s.core c).shQ = [] →
    (s.core c).vecQ = [] →
    ∃ t, exec (.stependDone c) s = .next t ∧ t.f .CORE_STATUS_STATE c = 5 ∧
      t.core c = { s.core c with wait := .none, waitSince := s.now } ∧ CoreOnly s t c [(.CORE_STATUS_STATE, c)]) ∧
  (∀ (s : State) (k scope barrier region : Nat), s.up → k < 65536 → scope < 3 → barrier < 256 → region < 48 →
     (∀ c ∈ s.scopeCores k scope region, ∃ seq, (s.core c).wait = .sync scope barrier seq ∧ (s.core c).clearBefore seq = true) →
     ∃ t, exec (.syncRelease k scope barrier region) s = .next t ∧
       (∀ c ∈ s.scopeCores k scope region, t.f .CORE_STATUS_STATE c = 1 ∧
         t.core c = { s.core c with wait := .none, passed := (256 * scope + barrier) :: (s.core c).passed }) ∧
       (∀ c, c ∉ s.scopeCores k scope region → t.core c = s.core c ∧ t.f .CORE_STATUS_STATE c = s.f .CORE_STATUS_STATE c) ∧
       t = { s with regs := t.regs, cores := t.cores, out := [] } ∧
       ∀ n i, n ≠ .CORE_STATUS_STATE → t.f n i = s.f n i)

/-! Arrays, shuttles and the vector unit. -/

/-- BOBBIN_SWAP (R47, R54, R55): when all rows of the tile in the faces have entered, and after the last pass of a
K-tile no switch is asked for, the faces take the next tile once it is filled and staged and a long promotion is over,
and the row position starts anew. At a K-tile boundary of a broken step the program is abandoned with CORE_STATUS.STATE
6 instead (R67), and at one where a switch is asked for nothing is swapped in (R69). Rests on the model's choices of log
entry 164. -/
def Obligations.BobbinSwapTakesNextTile : Prop :=
  ∀ (s : State) (c : Nat), s.up → c < 384 → (s.f .CORE_STATUS_STATE c = 1 ∨ s.f .CORE_STATUS_STATE c = 2) →
    (s.core c).asleep = false → (s.core c).tileDone = true →
    ((s.core c).kTileDone = true → s.f .CORE_STATUS_BROKEN c = 1 →
      ∃ t, exec (.bobbinSwap c) s = .next t ∧ t.f .CORE_STATUS_STATE c = 6 ∧ t.f .ARR_STATUS_ACTIVE c = 0 ∧
        t.f .ARR_STATUS_MODE c = 0 ∧ t.f .ARR_STATUS_FACE_VALID c = 0 ∧ t.f .VEC_STATUS_BUSY c = 0 ∧
        t.core c = { s.core c with
          matQ := [], shQ := [], vecQ := [], wait := .none, loops := [], arr := {}, vec := {} } ∧
        CoreOnly s t c [(.CORE_STATUS_STATE, c), (.ARR_STATUS_ACTIVE, c), (.ARR_STATUS_MODE, c),
          (.ARR_STATUS_FACE_VALID, c), (.VEC_STATUS_BUSY, c)]) ∧
    ((s.core c).kTileDone = true → s.f .CORE_STATUS_BROKEN c ≠ 1 → FMap.get none s.switches c ≠ none →
      exec (.bobbinSwap c) s = .next { s with out := [] }) ∧
    ((s.core c).kTileDone = false ∨ (s.f .CORE_STATUS_BROKEN c ≠ 1 ∧ FMap.get none s.switches c = none) →
      ∀ (g : Face) (e : QEnt), (s.core c).nextFace = some g → (s.core c).mat g.seq = some e →
      e.fillTime ≤ (s.core c).arr.fill →
      (∀ f o, (s.core c).arr.face = some f → (s.core c).mat f.seq = some o → o.promTime f.blk f.tile ≤ (s.core c).arr.cyc) →
      ∃ t, exec (.bobbinSwap c) s = .next t ∧ (t.core c).arr.face = some g ∧ (t.core c).arr.slot = 0 ∧
        (t.core c).arr.cyc = 0 ∧ (t.core c).arr.fill = 0 ∧ t.f .ARR_STATUS_FACE_VALID c = 1 ∧
        (t.core c).arr.pipe = (s.core c).arr.pipe ∧ (t.core c).arr.edge = (s.core c).arr.edge ∧
        (t.core c).arr.partials = (s.core c).arr.partials ∧
        t.core c = { s.core c with arr := (s.core c).arr.swapIn e g } ∧
        CoreOnly s t c [(.ARR_STATUS_ACTIVE, c), (.ARR_STATUS_MODE, c), (.ARR_STATUS_FACE_VALID, c)])

/-- ARRAY_CYCLE (R57): with no tile in the faces or queued and no promotion due, rows in the pipelines age by one; those
at age 7 join their sums to the partials where their residues and flags agree (R102), those at age 8 leave; no row
enters. -/
def Obligations.ArrayCycleAdvancesRows : Prop :=
  ∀ (s : State) (c upset : Nat), s.up → c < 384 → upset ≤ 39936 → s.f .CORE_STATUS_STATE c ∈ [1, 2] →
    (s.core c).asleep = false → (s.core c).arr.face = none → (s.core c).nextFill = 0 → (s.core c).arr.due = [] →
    (∀ p ∈ (s.core c).arr.pipe, p.age ≠ 7) →
    let aged := (s.core c).arr.pipe.map (fun p => { p with age := p.age + 1 })
    let j := (aged.filter (fun p => p.age = 7)).foldl (fun acc p => p.cols.zipIdx.foldl (joinColumn upset p.row) acc)
      ({ partials := (s.core c).arr.partials } : Joined)
    firstBad j.bad = none →
    ∃ t, exec (.arrayCycle c upset) s = .next t ∧ (t.core c).arr.pipe = aged.filter (fun p => p.age < 8) ∧
      (t.core c).arr.partials = j.partials ∧
      t.core c = { s.core c with arr := { (s.core c).arr with pipe := (t.core c).arr.pipe, partials := j.partials } } ∧
      (j.tileSat = 0 → j.joinSat = 0 → t.f .ARR_SAT c = s.f .ARR_SAT c) ∧
      (0 < j.tileSat → j.joinSat = 0 → t.f .ARR_SAT c = satAdd (s.f .ARR_SAT c) j.tileSat) ∧
      t.f .ARR_STATUS_FACE_VALID c = 0 ∧
      t = { s with regs := t.regs, cores := t.cores, tags := t.tags, out := [] } ∧
      (∀ d, d ≠ c → t.core d = s.core d) ∧
      SameRegs s t [(.ARR_SAT, c), (.ARR_NUMERIC_SAT_SEEN, c), (.ARR_NUMERIC_LAST_SAT_STAGE, c),
        (.ARR_NUMERIC_LAST_SAT_TAG, c), (.ARR_STATUS_ACTIVE, c), (.ARR_STATUS_MODE, c), (.ARR_STATUS_FACE_VALID, c)]

/-- A residue or a flag that does not match (R27, R57, R81, R90, R103) fences the logical core of the physical core that
runs the context: STATE 4, the place of the lowest mismatch in ARR_FAULT, and a UNIT entry for the ledger; every other
context awake on it is abandoned (R29). CORE_FAULT fences the core that the physical one carries. Rests on the model's
choices of log entry 7. -/
def Obligations.ResidueMismatchAndFaultFenceCore : Prop :=
  (∀ (s : State) (c upset a col slot : Nat), s.up → c < 384 → upset ≤ 39936 → s.f .CORE_STATUS_STATE c ∈ [1, 2] →
    (s.core c).asleep = false → s.f .ARR_FAULT_VALID c = 0 → a < 4 → col < 64 → slot < 64 →
    let own := s.carrierOf c
    s.f .CORE_STATUS_STATE own ≠ 4 →
    firstBad ((((s.core c).arr.pipe.map (fun p => { p with age := p.age + 1 })).filter (fun p => p.age = 7)).foldl
      (fun acc p => p.cols.zipIdx.foldl (joinColumn upset p.row) acc)
      ({ partials := (s.core c).arr.partials } : Joined)).bad = some (a, col, slot) →
    ∃ t, exec (.arrayCycle c upset) s = .next t ∧ t.f .CORE_STATUS_STATE own = 4 ∧ t.f .ARR_FAULT_VALID c = 1 ∧
      t.f .ARR_FAULT_ARRAY c = a ∧ t.f .ARR_FAULT_COLUMN c = col ∧ t.f .ARR_FAULT_SLOT c = slot ∧
      (∀ x, x / 8 = own / 8 → x % 8 ∈ s.contexts (own / 8) (own % 8) → x ≠ own → (s.core x).asleep = false →
        t.f .CORE_STATUS_STATE x = 6 ∧ (t.core x).matQ = [] ∧ (t.core x).shQ = [] ∧ (t.core x).vecQ = []) ∧
      t.ledgQ = s.ledgQ ++
        [⟨0x06, unitPayload .core (own / 8) (own % 8) 0 (s.swOf own) (s.sw (s.swOf own)).step, s.clkTime⟩] ∧
      t.mem = s.mem ∧ t.doms = s.doms ∧ t.ports = s.ports) ∧
  (∀ (s : State) (r p cause k : Nat), s.up → r < 48 → p < 9 → cause < 3 → s.carried r p = some k →
    s.f .CORE_STATUS_STATE k ≠ 4 →
    ∃ t, exec (.coreFault r p cause) s = .next t ∧ t.f .CORE_STATUS_STATE k = 4 ∧
      t.f .RGN_CORE_MAP_FIT_FAIL r = (if cause = 2 then putBit (s.f .RGN_CORE_MAP_FIT_FAIL r) p true % 2 ^ 9
        else s.f .RGN_CORE_MAP_FIT_FAIL r) ∧
      t.ledgQ = s.ledgQ ++
        [⟨0x06, unitPayload .core (k / 8) (k % 8) cause (s.swOf k) (s.sw (s.swOf k)).step, s.clkTime⟩] ∧
      t.mem = s.mem ∧ t.doms = s.doms ∧ t.ports = s.ports)

/-- LOAD_SHUTTLE_STAGE (R60): within LOAD_DIST and the ring, with no operand to wait for, the next step's weight tile is
staged, with a block's first also its accumulate-in rows; then its A rows follow, and the instruction has one more step
staged; operands in scratch change nothing else. STORE_DRAIN (R62, R110): with no access to wait for, the oldest
complete row block leaves its edge bank and the instruction goes on or, after its last block, leaves the queue. An
output in core scratch without FUSE is stored at its rows' addresses in the converted format, and every other byte of
every store stays. CPY_TRANSFER (R75): with nothing to wait for, the oldest copy of the shuttle runs, rows and then
block scales, and leaves the queue. From scratch to scratch nothing but the destination's scratch changes. Rests on the
model's choices of log entries 18, 19, 20, 28, 29, 40, 41, 163. -/
def Obligations.ShuttlesStageDrainAndCopy : Prop :=
  (∀ (s : State) (c : Nat) (e : QEnt), s.up → c < 384 → s.f .CORE_STATUS_STATE c ∈ [1, 2] → (s.core c).asleep = false →
     (s.core c).stageNext = some e → e.k ≠ 0 →
     let b := e.staged / natMax e.kt 1
     let i := e.staged % natMax e.kt 1
     let held := (s.core c).arr.ringHeld
     let step (x : Staged) : Bool := x.seq = e.seq && x.blk = b && x.tile = i
     ((s.core c).arr.staged.find? step = none → (s.core c).arr.ahead < (s.core c).dist →
       (held = 0 ∨ held + e.ringBytes b i + e.inBytes b i ≤ (s.core c).ring) → (fresh s).tileWaits c e b i = none →
       exec (.loadShuttleStage c) s = .next (wrap s ((fresh s).stageTile c e b i)) ∧
       (dSpace e.w = 0 → (e.acc = false ∨ i ≠ 0 ∨ dSpace e.i = 0) →
         ∃ x : Staged, step x = true ∧ x.aRows = [] ∧ x.wCols.length = e.nc ∧
           x.bytes = e.ringBytes b i ∧ x.inBytes = e.inBytes b i ∧
           exec (.loadShuttleStage c) s = .next { s with
             out := []
             cores := FMap.set {} s.cores c { s.core c with
               arr := { (s.core c).arr with staged := (s.core c).arr.staged ++ [x] } } })) ∧
     (∀ x, (s.core c).arr.staged.find? step = some x → dSpace e.a = 0 →
       let is := (List.range (e.rows b)).drop x.aRows.length
       let rows := is.map (fun r => (s.readElems c e.a (256 * b + r) (64 * i) (e.tileRows i)).2)
       let scales := is.map (fun r => (s.readScales c e.a (256 * b + r) i e.k false).2)
       ∃ t, exec (.loadShuttleStage c) s = .next t ∧ t = { s with cores := t.cores, out := [] } ∧
         (∀ d, d ≠ c → t.core d = s.core d) ∧
         t.core c = { (s.core c).markMat e.seq (fun x => { x with staged := x.staged + 1 }) with
           arr := { (s.core c).arr with
             staged := (s.core c).arr.staged.map (fun y =>
               if step y then { y with aRows := y.aRows ++ rows, aScale := y.aScale ++ scales } else y) } })) ∧
  (∀ (s : State) (c : Nat) (job : DrainJob) (rest : List DrainJob) (e : QEnt), s.up → c < 384 → s.works c = true →
     (s.core c).arr.drains = job :: rest → (s.core c).mat job.seq = some e →
     (∀ x ∈ (s.core c).shQ, x.seq < e.seq → bitAt x.word 47 = false) → dSpace e.c = 0 → e.fuse = false →
     let out := (List.range (e.rows job.blk)).map (fun i => (256 * job.blk + i, (List.range e.nc).map (fun j =>
       (f32 (drainEdge e.comp (FMap.get (0, 0) job.edge (64 * i + j))).1))))
     let w := convertRows (s.recipe (s.swOf c) e.tag) e.c out
     ∃ t, exec (.storeDrain c) s = .next t ∧ (t.core c).arr.drains = rest ∧
       (ceilDiv e.n 256 ≤ e.drained + 1 → (t.core c).matQ = (s.core c).matQ.filter (fun x => x.seq ≠ e.seq)) ∧
       (e.drained + 1 < ceilDiv e.n 256 → (t.core c).matQ =
         (s.core c).matQ.map (fun x => if x.seq = e.seq then { x with drained := x.drained + 1 } else x)) ∧
       t.mem.st.scratch = (s.putRows c (s.rq c e.c) e.c w).mem.st.scratch ∧
       (∀ a, (∀ p ∈ w.rows, a < s.scrAddr c (dRowAddr e.c p.1) ∨
           s.scrAddr c (dRowAddr e.c p.1) + (packRow (fmtWidth (dFmt e.c)) p.2).length ≤ a) →
         (∀ p ∈ w.scales, a ≠ s.scrAddr c p.1) → FMap.get 0 t.mem.st.scratch a = FMap.get 0 s.mem.st.scratch a) ∧
       t.mem = { s.mem with st := { s.mem.st with scratch := t.mem.st.scratch } } ∧
       t.f .ARR_NONFINITE c = satAdd (s.f .ARR_NONFINITE c) w.nonfin ∧ (∀ d, d ≠ c → t.core d = s.core d) ∧
       t = { s with regs := t.regs, cores := t.cores, mem := t.mem, tags := t.tags, out := [] }) ∧
  (∀ (s : State) (c eng : Nat) (e : QEnt), s.up → c < 384 → eng < 2 → s.works c = true →
     (s.core c).shQ.find? (fun e => bitAt e.word 47 = (eng = 1)) = some e →
     (∀ x ∈ (s.core c).matQ, x.seq < e.seq → eng = 0 ∧ x.steps ≤ x.staged) → (e.wst = true → e.go = true) →
     let a := e.descs.getD 0 0
     let b := e.descs.getD 1 0
     (fresh s).tensorWaits (s.rq c a) a e.copyRows false = none →
     (fresh s).tensorWaits (s.rq c b) b e.copyRows true = none →
     let u := (scaleBlocks b e.copyRows (dCols a)).foldl (fun t p => t.copyScale c a b e.copyRows p)
       ((List.range e.copyRows).foldl (fun t i => t.copyRow c a b i) (fresh s))
     ∃ t, exec (.cpyTransfer c eng) s = .next t ∧ (t.core c).shQ = (u.core c).shQ.filter (fun x => x.seq ≠ e.seq) ∧
       t.mem = u.mem ∧ t.regs = u.regs ∧
       (dSpace a = 0 → dSpace b = 0 →
         t = { s with cores := t.cores, mem := t.mem, out := [] } ∧ (∀ d, d ≠ c → t.core d = s.core d) ∧
         t.mem = { s.mem with st := { s.mem.st with scratch := t.mem.st.scratch } } ∧
         t.core c = { s.core c with shQ := (s.core c).shQ.filter (fun x => x.seq ≠ e.seq) }))

/-- VECTOR_CHUNK (R127, R130): without the grants of its traffic the cycle is a stall; with them they are spent, the
chunk is done and the position moves on. Rests on the model's choices of log entries 21, 30, 166. -/
def Obligations.VectorChunkSpendsGrants : Prop :=
  ∀ (s : State) (c : Nat) (e : QEnt) (rest : List QEnt), s.up → c < 384 → s.works c = true → (s.core c).vecQ = e :: rest →
    (e.wst = true → e.go = true) →
    let first := decide (e.op = 0x32) && s.atFirstUse (s.swOf c) e.vz
    let need := ceilDiv (chunkBytes e first (s.core c).vec) 64
    ((s.core c).grants < need → ∃ t, exec (.vectorChunk c) s = .next t ∧
      t.f .VEC_STALL_SCRATCH c = satAdd (s.f .VEC_STALL_SCRATCH c) 1 ∧ t.f .VEC_STATUS_BUSY c = 1 ∧
      CoreOnly s t c [(.VEC_STALL_SCRATCH, c), (.VEC_STATUS_BUSY, c), (.VEC_STATUS_OP, c)] ∧
      t.core c = { s.core c with vec := { (s.core c).vec with busy := true } }) ∧
    (need ≤ (s.core c).grants →
      let v := { (s.core c).vec with busy := true }
      let u := ((((fresh s).raise .VEC_STATUS_BUSY c).setF .VEC_STATUS_OP c e.op).setCore c
        { s.core c with grants := (s.core c).grants - need, vec := v }).tally .VEC_BUSY c 1
      let r := nextChunk e first (chunkOf u c e first v)
      (r.2 = false → ∃ t, exec (.vectorChunk c) s = .next t ∧ t.f .VEC_BUSY c = satAdd (s.f .VEC_BUSY c) 1 ∧
        t.f .VEC_STATUS_BUSY c = 1 ∧ t.core c = { s.core c with grants := (s.core c).grants - need, vec := r.1 } ∧
        CoreOnly s t c [(.VEC_BUSY, c), (.VEC_STATUS_BUSY, c), (.VEC_STATUS_OP, c)]) ∧
      (r.2 = true → ∃ t, exec (.vectorChunk c) s = .next t ∧ t.f .VEC_STATUS_BUSY c = 0 ∧ (t.core c).vec = {} ∧
        (∀ x ∈ (t.core c).vecQ, x.seq ≠ e.seq) ∧
        (dSpace e.vz = 0 → dSpace e.vr = 0 →
          t.core c = { s.core c with
            grants := (s.core c).grants - need, vec := {}, vecQ := (s.core c).vecQ.filter (fun x => x.seq ≠ e.seq) } ∧
          (∀ d, d ≠ c → t.core d = s.core d) ∧
          t.mem = { s.mem with st := { s.mem.st with scratch := t.mem.st.scratch } } ∧
          t = { s with regs := t.regs, cores := t.cores, mem := t.mem, tags := t.tags, out := [] })))

/-- SCRATCH_GRANT (R28): in a FABRIC cycle a bank that something waits on grants one requester. If one has waited 16
cycles or more it is the one that has waited longest, otherwise the first of store shuttle (0), load shuttle (1) and
vector unit (2). It no longer waits, the others' waits grow by one, and a grant to the vector unit is kept for it (the
model's choice, log entry 30). Nothing else changes. Rests on the model's choices of log entry 30. -/
def Obligations.ScratchBankGrantsByPriorityAndAge : Prop :=
  ∀ (s : State) (c bank : Nat) (store load vec : Bool), s.up → c < 384 → bank < 32 → (store || load || vec) = true →
    let asks (r : Nat) : Bool := (r = 0 && store) || (r = 1 && load) || (r = 2 && vec)
    let age (r : Nat) : Nat := FMap.get 0 (s.core c).ages (3 * bank + r)
    ∃ t win, exec (.scratchGrant c bank store load vec) s = .next t ∧ asks win = true ∧
      ((∃ r, asks r = true ∧ 16 ≤ age r) → 16 ≤ age win ∧ ∀ r, asks r = true → age r ≤ age win) ∧
      ((∀ r, asks r = true → age r < 16) → ∀ r, r < win → asks r = false) ∧
      (∀ r, r < 3 → FMap.get 0 (t.core c).ages (3 * bank + r) = (if r = win ∨ asks r = false then 0 else age r + 1)) ∧
      (∀ j, (j < 3 * bank ∨ 3 * bank + 3 ≤ j) → FMap.get 0 (t.core c).ages j = FMap.get 0 (s.core c).ages j) ∧
      t.core c = { s.core c with
        ages := (t.core c).ages, grants := (s.core c).grants + (if win = 2 then 1 else 0) } ∧
      CoreOnly s t c []

/-! The presses and the commit of a step. -/

/-- PACK_JOB (R170, R174): with every bolt of the job served, its reads and writes pass the base caches, each block's
values, gradient plus error terms, are quantised into the plane and their saturations counted, a scale of FFh makes the
bit 0, and the job leaves the queue, whose next job is then the one in progress (R194); the last pack of a step lets a
domain of one latch (R198), and the engines of the swatch's domain go on. Rests on the model's choices of log entries
49, 176, 179. -/
def Obligations.PackJobQuantisesSpan : Prop :=
  ∀ (s : State) (st : Nat) (j : PressJob) (rest : List PressJob), s.up → st < 24 → s.jobs st = j :: rest → j.kind = 0 →
    let v := s.span j.sw j.span
    let base := if s.packsReduced j.sw then spRed v else spSend v
    let rd := s.spanReads j.sw j.span v
    let wr := [(base, 33 * spBlocks v)]
    s.engineFree j.sw rd wr →
    let w := (List.range (spBlocks v)).foldl (fun (t : State) b =>
      let p := t.packValues (gWide (s.group j.sw (spGroup v))) v b
      let u := (t.putPlane base b (quantE5M2 p.1)).tally .PRESS_SAT st p.2
      if (quantE5M2 p.1).1 = 0xFF then u.failStep j.sw causeNonFinite else u) ((fresh s).streams rd wr)
    let u := w.setJobs st rest
    let x := u.packsDone j.sw
    exec (.packJob st) s = .next (wrap s (if (x.sw j.sw).domain < 16 then x.advanceDom (x.sw j.sw).domain else x)) ∧
      u.jobs st = rest ∧ (∀ p, p ≠ st → u.jobs p = s.jobs p) ∧
      u.f .PRESS_STATUS_STATE st = ((rest.head?.map (fun i => i.kind + 1)).getD 0) % 2 ^ (fieldDesc .PRESS_STATUS_STATE).width ∧
      u.f .PRESS_QUEUE_DEPTH st = natMin rest.length 1023 ∧
      MemOnly s.mem u.mem ∧ u.doms = s.doms ∧ u.ports = s.ports ∧ u.thm = s.thm

/-- UPDATE_JOB (R176, R184) without an unreadable record or a stack out of service: the group's constants are formed
once (R169), every block's record, working elements and scale are written, the cycles and the far bolts are counted
(R165, R183, R192), the job leaves the queue, and only the press's registers, the stores, the marks of dirty granules,
the base caches and the swatch's counts of limited blocks change. FOREIGN_ERROR_PASS (R184): once the swatch's updates
are done, the new error terms of a foreign span's blocks are written, the job leaves the queue, and nothing else of the
machine changes. Rests on the model's choices of log entries 49, 176, 177. -/
def Obligations.UpdateAndErrorJobsWriteRecords : Prop :=
  (∀ (s : State) (st : Nat) (j : PressJob) (rest : List PressJob), s.up → st < 24 → s.jobs st = j :: rest → j.kind = 1 →
     let v := s.span j.sw j.span
     let wide := gWide (s.group j.sw (spGroup v))
     let n := spBlocks v
     let rd := s.spanReads j.sw j.span v ++ [(spRed v, 33 * n)]
     let wr := s.updateWrites j.sw v
     (∀ b ∈ rangeBolts (rd ++ wr), (s.dirE b).state ≠ 0 → (s.dirE b).tier = 1 → s.stackFenced (t1Stack (s.dirE b).home) = false) →
     s.engineFree j.sw rd wr →
     ∃ t, exec (.updateJob st []) s = .next t ∧ t.jobs st = rest ∧ (∀ p, p ≠ st → t.jobs p = s.jobs p) ∧
       t.mem = (((List.range n).foldl (fun (x : State) b => x.updateBlock j.sw st v b)
         (((fresh s).streams rd wr).formConsts j.sw st (spGroup v))).zeroTails wide v).mem ∧
       t.f .PRESS_UPD_CYC st = satAdd (s.f .PRESS_UPD_CYC st) (pressCycles (updateBytes wide (spRows v * spCols v) n)) ∧
       t.f .PRESS_FAR st = satAdd (s.f .PRESS_FAR st) (s.farBolts st (rd.drop 2 ++ wr)) ∧
       (∀ k, k ≠ j.sw → t.sw k = s.sw k) ∧
       t.sw j.sw = { s.sw j.sw with clipped := (t.sw j.sw).clipped, formed := (t.sw j.sw).formed } ∧
       (st, spGroup v) ∈ (t.sw j.sw).formed ∧ MemOnly s.mem t.mem ∧
       t = { s with regs := t.regs, mem := t.mem, sws := t.sws, pressQ := t.pressQ, out := [] } ∧
       SameButCache s t [(.PRESS_SAT, st), (.PRESS_BLOCKS, st), (.PRESS_FAR, st), (.PRESS_UPD_CYC, st),
         (.PRESS_STATUS_STATE, st), (.PRESS_STATUS_SPAN, st), (.PRESS_STATUS_SWATCH, st), (.PRESS_QUEUE_DEPTH, st)]) ∧
  (∀ (s : State) (st : Nat) (j : PressJob) (rest : List PressJob), s.up → st < 24 → s.jobs st = j :: rest → j.kind = 2 →
     s.jobsOf j.sw 1 = [] →
     let v := s.span j.sw j.span
     let rd := s.spanReads j.sw j.span v
     let wr := [s.recRange j.sw v]
     s.engineFree j.sw rd wr →
     ∃ t, exec (.foreignErrorPass st) s = .next t ∧ t.jobs st = rest ∧ (∀ p, p ≠ st → t.jobs p = s.jobs p) ∧
       t.mem = ((List.range (spBlocks v)).foldl (fun (x : State) b => x.putDev (errAt false v b)
         ((newErrors (x.packValues false v b).1).flatMap (fun e => leBytes e 2))) ((fresh s).streams rd wr)).mem ∧
       t.f .PRESS_FAR st = satAdd (s.f .PRESS_FAR st) (s.farBolts st (rd.drop 2)) ∧ MemOnly s.mem t.mem ∧
       t = { s with regs := t.regs, mem := t.mem, pressQ := t.pressQ, out := [] } ∧
       SameButCache s t [(.PRESS_FAR, st), (.PRESS_STATUS_STATE, st), (.PRESS_STATUS_SPAN, st),
         (.PRESS_STATUS_SWATCH, st), (.PRESS_QUEUE_DEPTH, st)])

/-- PENDING_ROW_APPEND (R186, R188, R189, R191): earlier appends of the swatch are tried again; then the members'
contributions to the row are summed. A row above the norm or not finite is skipped and counted. One that passes its
checks takes the lowest free entry, with its header and gradients, and each bolt of the row, all in T1, one more pin;
with no entry free it waits. PENDING_ROW_APPLY (R180, R182, R189): the application at the front of its press's queue is
performed by the rule ROW, but for blocks that cannot be read, for which the module withdraws (R187); the entry becomes
free, the pins of its bolts are dropped and reads of the row go on. Rests on the model's choices of log entries 50, 51,
52, 173, 175, 177, 178. -/
def Obligations.PendingRowsAppendAndApply : Prop :=
  (∀ (s : State) (k i row : Nat) (rows : List (List Nat)), s.up → k < 65536 →
     let u := (fresh s).retryAppends k
     let v := u.span k i
     let g := u.group k (spGroup v)
     let ms := u.members k
     let r := (rowGrad g (rowSum (spCols v) (ms.findIdx (fun x => x = u.place)) rows)).run 0
     (u.sw k).started = true → i < u.spanCount k → gRule g = 3 → gActive g = true → row < spRows v →
     rows.length = natMax ms.length 1 → (∀ x ∈ rows, x = [] ∨ x.length = spCols v) → (∃ x ∈ rows, x ≠ []) →
     (r.1.2.2 = true → ∃ t, exec (.pendingRowAppend k i row rows) s = .next t ∧
       t.f .PRESS_ROW_SKIP (spPress v) = satAdd (u.f .PRESS_ROW_SKIP (spPress v)) 1 ∧
       FMap.get 0 (t.sw k).rowSkips (spGroup v) = satAdd (FMap.get 0 (u.sw k).rowSkips (spGroup v)) 1 ∧
       t = wrap s { u with regs := t.regs, sws := t.sws } ∧
       SameRegs u t [(.PRESS_ROW_SKIP, spPress v), (.PRESS_SAT, spPress v)]) ∧
     (r.1.2.2 = false → (u.sw k).final = none →
       (∀ j, (List.range (u.desc k 1024 32)).find? (fun j => phState (u.pendHead k j) = 0) = some j →
         (∀ b ∈ rowBolts (gWide g) v row, (u.dirE b).state ≠ 0 ∧ (u.dirE b).pins < 255 ∧ (u.dirE b).tier ≤ 1) →
         let h := 1 + 2 ^ 2 + 2 ^ 8 * i + 2 ^ 24 * row + 2 ^ 64 * (gStep g + 1) + 2 ^ 128 * toF32 r.1.2.1
         ∃ t, exec (.pendingRowAppend k i row rows) s = .next t ∧
           t.mem.st = (u.putDev (u.pendAt k j) (leBytes h 32 ++ r.1.1.flatMap (fun x => leBytes (toF32 x) 4))).mem.st ∧
           (∀ b ∈ rowBolts (gWide g) v row, t.dirE b = { u.dirE b with pins := (u.dirE b).pins + 1 }) ∧
           (∀ b, b ∉ rowBolts (gWide g) v row → t.dirE b = u.dirE b) ∧
           t.f .PRESS_SAT (spPress v) = satAdd (u.f .PRESS_SAT (spPress v)) r.2 ∧
           t = wrap s { u with regs := t.regs, mem := t.mem } ∧ SameRegs u t [(.PRESS_SAT, spPress v)]) ∧
       ((List.range (u.desc k 1024 32)).find? (fun j => phState (u.pendHead k j) = 0) = none →
         ∃ t, exec (.pendingRowAppend k i row rows) s = .next t ∧
           t.rowAppends = u.rowAppends ++ [⟨k, i, row, spPress v, r.1.1.map toF32, toF32 r.1.2.1, rowBolts (gWide g) v row⟩] ∧
           (∃ x ∈ t.mem.waiters, x.sw = k ∧ x.key = pendKey k (spPress v) ∧ x.stuck = true) ∧
           t = wrap s { u with
             regs := t.regs, rowAppends := t.rowAppends, mem := { u.mem with waiters := t.mem.waiters } } ∧
           SameRegs u t [(.PRESS_SAT, spPress v)]))) ∧
  (∀ (s : State) (st k j : Nat) (bad : List Nat) (rest : List PressJob), s.up → st < 24 → k < 65536 →
     let u := ((fresh s).retryAppends k).queueRows k
     u.jobs st = ⟨3, k, j⟩ :: rest →
     let h := u.pendHead k j
     let v := u.span k (phSpan h)
     let g := u.group k (spGroup v)
     let n := spRowBlocks v
     let rows := rowRanges (gWide g) v (phRow h)
     let rd := (u.pendAt k j, u.pendSize k) :: rows
     let wr := (u.pendAt k j, 32) :: rows
     u.engineFree k rd wr →
     let y := u.streams rd wr
     let gs := (y.devNats (y.pendAt k j + 32) 4 (spCols v)).map f32
     let ws := ((List.range n).flatMap (fun i => y.masters (gWide g) v (phRow h * n + i))).take (spCols v)
     let lost := (bad.filter (fun i => i < n)).eraseDups
     let acc := if lost.contains 0 then f32 (Config.freeValue 32 y.mem.tick).toNat
       else f32 (y.devNat (recAt (gWide g) v (phRow h * n) + 128) 4)
     let x := (ruleRow g (spCols v) acc ws gs).run 0
     let w := (((y.formConsts k st (spGroup v)).use).putRow (gWide g) v (phRow h) lost x.1.1 x.1.2).tally .PRESS_SAT st x.2
     let q := (lost.foldl (fun u i => u.rowUncorr st v (phRow h) (gWide g) i) w).tally .PRESS_FAR st (y.farBolts st rows)
     let z := ((q.tally .PRESS_BLOCKS st (n - lost.length)).pendFree k j).setJobs st rest
     exec (.pendingRowApply st k (j, bad)) s = .next (wrap s (z.queueRows k)) ∧
       ((∀ a ∈ u.rowAppends, a.sw ≠ k) →
         ∀ r ∈ FMap.get [] (z.queueRows k).rowsDue k, r.1 ≠ j))

/-- STEP_COMMIT (R184): with the final verdict 1, no update or error pass left and no row due that stands in T1, working
planes that have come are taken and those of owned spans sent. Once none is missing, and the bolts the commit touches
are served, the groups advance, the residual selector flips, LAST_STEP becomes the step, HUB_TACK_PASS counts, and the
step is settled; while one is, the swatch waits on the seam. Rests on the model's choices of log entries 53, 67, 173,
179. -/
def Obligations.StepCommitAdvancesSwatch : Prop :=
  ∀ (s : State) (k : Nat) (f : Fold), s.up → k < 65536 → (s.sw k).started = true → (s.sw k).settled = false →
    (s.sw k).failed = false → (s.sw k).final = some f → f.v = true → s.jobsOf k 1 = [] → s.jobsOf k 2 = [] →
    (∀ p ∈ s.pendEntries k, phState p.2 = 2 → s.allInT1 (s.pendBolts k p.2) = false) →
    let u := ((fresh s).takePlanes (s.sw k).domain k).sendPlanes k
    (u.planesDue k ≠ [] ∨ u.planesOwed k ≠ [] → exec (.stepCommit k) s = .next (wrap s (u.waitAs k 5 (2 ^ 29 + k) true))) ∧
    (u.planesDue k = [] → u.planesOwed k = [] → u.engineFree k (u.commitRanges k).1 (u.commitRanges k).2 →
      let y := (u.streams (u.commitRanges k).1 (u.commitRanges k).2).endWaits (2 ^ 29 + k)
      let a := ((List.range 4096).foldl (fun t i => t.commitGroup k i) y).matchedRoot k f true
      let b := a.setDesc k 1944 1 (1 - a.desc k 1944 1)
      let c := (if b.compared k then b.storeTree k (s.sw k).step else b).setDesc k 1856 64 (s.sw k).step
      ∃ t, exec (.stepCommit k) s = .next t ∧
        t = wrap s ((c.tally .HUB_TACK_PASS 0 1).updSw k (fun x => { x with settled := true })) ∧
        (t.sw k).settled = true ∧ t.f .HUB_TACK_PASS 0 = satAdd (c.f .HUB_TACK_PASS 0) 1 ∧
        t.desc k 1944 1 = 1 - s.desc k 1944 1 ∧ t.desc k 1856 64 = (s.sw k).step % 2 ^ 64)

/-- CLOSING_HOP (R173): with the bolts of the residuals and of the reduced plane served, the residual half in force is
added to the running sum of a block, the sum quantised, the other half takes the new error terms, the reduced plane
takes the quantised block, and the hop is done. Rests on the model's choices of log entries 68, 174, 179. -/
def Obligations.ClosingHopWritesReducedBlock : Prop :=
  ∀ (s : State) (k span block : Nat) (c : Coll), s.up → k < 65536 →
    (s.dom (s.sw k).domain).colls.find? (fun c => c.req.sw = k && c.req.kind = 0
      && c.sums.any (fun x => x.1 = span && x.2.1 = block) && !c.hops.contains (span, block)) = some c →
    let d := (s.sw k).domain
    let v := s.span k span
    let len := resLen v (s.dom d).members.length
    let i := if spRole v = 1 then block else block - s.position d * len
    let half (h : Nat) : Nat := spRes v + h * (64 * len) + 64 * i
    let cur := s.desc k 1944 1
    let rd := [(half cur, 64)]
    let wr := [(half (1 - cur), 64), (spRed v + 33 * block, 33)]
    s.engineFree k rd wr →
    let y := (fresh s).streams rd wr
    let acc := ((c.sums.find? (fun x => x.1 = span && x.2.1 = block)).map (fun x => x.2.2)).getD []
    let r := (acc.zip ((s.devNats (half cur) 2 32).map (fpDecode fmtBF16))).map (fun p => round32 (Fv.add (f32 p.1) p.2))
    let u := ((y.putDev (half (1 - cur)) ((newErrors r).flatMap (fun e => leBytes e 2))).putPlane (spRed v) block
      (quantE5M2 r)).updColl d c.seq (fun x => { x with hops := x.hops ++ [(span, block)] })
    exec (.closingHop k span block) s = .next (wrap s (u.advanceDom d)) ∧ MemOnly s.mem u.mem ∧ u.sws = s.sws ∧
      u = { s with mem := u.mem, regs := u.regs, doms := u.doms, out := [] } ∧ SameButCache s u []

/-! Switches, scheduling and what the host says to swatches. -/

/-- SWITCH_REQUEST (R363, R364) stops the core's sequencer under a record, replaces a request not yet begun, or waits
behind one that moves. CORE_SWITCH: a core at a K-tile boundary that is not fenced saves the open, unbroken step of its
swatch and takes the incoming one, showing STATE 3 (R86): no swatch leaves it idle, and one with a save record goes on
from it. SWITCH_COMPLETE (R366, R383): the switch and its time in ns are counted, the core goes on, abandoning a step
broken meanwhile (R67), and a request that waited follows. LIMP_SWITCH (R465, R466): a carrier leaves a context at its
end for the next of its contexts that can run: the scratch windows change places, the old context sleeps, the new one
wakes, and RGN_LIMP_SWAPS counts. Rests on the model's choices of log entries 91, 92, 96, 99, 100. -/
def Obligations.CoresSwitchContexts : Prop :=
  (∀ (s : State) (c k : Nat), s.up → c < 384 → k < 65536 →
    exec (.switchRequest c k) s = .next { s with
      out := []
      switches := FMap.set none s.switches c (some (match FMap.get none s.switches c with
        | none => { sw := k, since := s.now, moving := false }
        | some r => if r.moving then { r with next := some k } else { r with sw := k })) }) ∧
  (∀ (s : State) (c : Nat) (r : SwitchRec), s.up → c < 384 → FMap.get none s.switches c = some r → r.moving = false →
    s.f .CORE_STATUS_STATE c ≠ 4 → (s.core c).parked = true →
    let x := ((fresh s).switchOut c).switchIn c r.sw
    ∃ t, exec (.coreSwitch c) s = .next t ∧ t.f .CORE_STATUS_STATE c = 3 ∧
      FMap.get none t.switches c = some { r with moving := true, after := x.f .CORE_STATUS_STATE c } ∧
      (∀ d, d ≠ c → FMap.get none t.switches d = FMap.get none s.switches d) ∧
      t = wrap s { x with switches := t.switches, regs := t.regs } ∧ SameRegs x t [(.CORE_STATUS_STATE, c)] ∧
      (r.sw = noSwatch → t.core c = {} ∧ x.f .CORE_STATUS_STATE c = 0 ∧ t.f .CORE_STATUS_BROKEN c = 0 ∧
        t.f .ARR_STATUS_FACE_VALID c = 0 ∧ t.f .VEC_STATUS_BUSY c = 0 ∧
        ((s.sw (s.swOf c)).started = false → t = { s with out := [], switches := t.switches, cores := t.cores, regs := t.regs }) ∧
        ((s.sw (s.swOf c)).started = true → (s.sw (s.swOf c)).broken = false → s.f .CORE_STATUS_STATE c ∈ [1, 2, 5] →
          (∃ d ∈ s.swCores (s.swOf c), s.f .CORE_STATUS_STATE d ≠ 5) → s.homeLive (s.saveAt (s.swOf c) c) = true →
          FMap.get none t.saved (saveKey (s.swOf c) c) = some (s.saveRec c) ∧ t.sws = s.sws ∧
          t.mem = ((fresh s).putSave (s.saveAt (s.swOf c) c) (s.core c).arr).mem)) ∧
      (∀ v, r.sw < 65536 → s.f .CORE_STATUS_STATE c = 0 → s.physK (c / 8) (c % 8) ≠ 15 → (s.sw r.sw).started = true →
        (s.sw r.sw).broken = false → (s.sw r.sw).lostSave = false → s.homeLive (s.saveAt r.sw c) = true →
        FMap.get none s.saved (saveKey r.sw c) = some v →
        t.core c = v.core ∧ t.f .CORE_STATUS_SWATCH c = r.sw ∧ t.f .CORE_PC_PC c = v.pc % 2 ^ 19 ∧
        x.f .CORE_STATUS_STATE c = (if v.state = 3 then 1 else v.state) % 8 ∧
        FMap.get none t.saved (saveKey r.sw c) = none ∧ (∀ d, d ≠ c → t.core d = s.core d) ∧
        t = { s with out := [], switches := t.switches, cores := t.cores, regs := t.regs, saved := t.saved })) ∧
  (∀ (s : State) (c : Nat) (r : SwitchRec), s.up → c < 384 → FMap.get none s.switches c = some r → r.moving = true →
    s.f .SWT_SWITCH_MAX 0 < 2 ^ 32 → s.f .CORE_STATUS_STATE c = 3 →
    ∃ t, exec (.switchComplete c) s = .next t ∧ t.f .SWT_SWITCHES 0 = satAdd (s.f .SWT_SWITCHES 0) 1 ∧
      t.f .SWT_SWITCH_MAX 0 = natMax (s.f .SWT_SWITCH_MAX 0) (natMin ((s.now - r.since) * 5 / 6) 0xFFFFFFFF) ∧
      FMap.get none t.switches c = (r.next.map (fun k => { sw := k, since := s.now, moving := false })) ∧
      (∀ d, d ≠ c → FMap.get none t.switches d = FMap.get none s.switches d) ∧
      t = { s with out := [], switches := t.switches, cores := t.cores, regs := t.regs } ∧
      (∀ d, d ≠ c → t.core d = s.core d) ∧
      (s.f .CORE_STATUS_BROKEN c = 1 → r.after ∈ [1, 2] → t.f .CORE_STATUS_STATE c = 6 ∧ (t.core c).matQ = [] ∧
        (t.core c).shQ = [] ∧ (t.core c).vecQ = [] ∧ (t.core c).wait = .none) ∧
      (s.f .CORE_STATUS_BROKEN c ≠ 1 → t.f .CORE_STATUS_STATE c = r.after % 8 ∧ t.core c = s.core c ∧
        SameRegs s t [(.SWT_SWITCHES, 0), (.SWT_SWITCH_MAX, 0), (.CORE_STATUS_STATE, c)])) ∧
  (∀ (s : State) (r carrier cur next : Nat), s.up → r < 48 → carrier < 8 → s.physK r carrier ≠ 15 → s.regionOut r = false →
     2 ≤ (s.contexts r carrier).length →
     (s.contexts r carrier).find? (fun k => !(s.core (8 * r + k)).asleep) = some cur →
     s.contextRuns (8 * r + cur) = false → s.f .CORE_STATUS_STATE (8 * r + carrier) ≠ 4 →
     ((s.contexts r carrier).filter (fun k => cur < k) ++ (s.contexts r carrier).filter (fun k => k < cur)).find?
       (fun k => s.contextRuns (8 * r + k)) = some next →
     ∃ t, exec (.limpSwitch r carrier) s = .next t ∧
       t.core (8 * r + cur) = { s.core (8 * r + cur) with asleep := true } ∧
       t.core (8 * r + next) = { s.core (8 * r + next) with asleep := false, entered := true } ∧
       (∀ d, d ≠ 8 * r + cur → d ≠ 8 * r + next → t.core d = s.core d) ∧
       t.mem = ((fresh s).swapWindow (s.swOf (8 * r + cur)) (8 * r + cur) (8 * r + next) (9 * r + s.physK r carrier)).mem ∧
       t.f .RGN_LIMP_SWAPS r = satAdd (s.f .RGN_LIMP_SWAPS r) 1 ∧
       t = { s with out := [], cores := t.cores, mem := t.mem, regs := t.regs } ∧ SameRegs s t [(.RGN_LIMP_SWAPS, r)])

/-- SCHEDULE (R358, R359): after the work between steps (R18, R31) the partition's scheduler picks a runnable swatch
whose regions nobody holds, one that no other such swatch ranks before; without one it picks none. STEP_START (R352,
R358): a picked swatch with no switch under way on its cores and its tables served starts its step on all of them at the
program's start if its descriptor is valid, with the lowest reason else: RUN 7. A step whose bit is 0 from the start is
broken at once (R199). Rests on the model's choices of log entries 42, 91, 95, 162. -/
def Obligations.SchedulerPicksAndStepStarts : Prop :=
  (∀ s : State, (∀ c, c < 384 → s.f .CORE_STATUS_STATE c = 4 → s.physK (c / 8) (c % 8) = 15) →
    (s.withdraw = none ∨ s.startedSws ≠ []) → s.betweenSteps = s) ∧
  (∀ (s : State) (p : Nat), s.up → p < 8 →
    let x := (fresh s).betweenSteps
    (∀ k, x.choice p = some k → exec (.schedule p) s = .next (wrap s (x.setSw k { x.sw k with picked := true })) ∧
      x.runnable k = true ∧ x.partOf k = p ∧ x.holdersOf (x.desc k 64 48) = [] ∧
      ∀ j ∈ x.swatches, x.partOf j = p → x.runnable j = true → x.holdersOf (x.desc j 64 48) = [] →
        (∀ i ∈ x.swatches, x.run i = 2 → (x.sw i).started = true → (x.sw i).regions &&& x.desc j 64 48 = 0) →
        x.ranksBefore j k = false) ∧
    (x.choice p = none → exec (.schedule p) s = .next (wrap s x))) ∧
  (∀ (s : State) (k : Nat), s.up → k < 65536 → (s.sw k).picked = true →
    (coresOf (s.desc k 64 48)).any (fun c => (FMap.get none s.switches c).isSome) = false →
    let y := (fresh s).betweenSteps
    let plan := [(y.desc k 320 52, 16 * y.desc k 960 17)]
    y.engineFree k plan [] →
    let x := y.streams plan []
    (x.descReason k ≠ 0 → exec (.stepStart k) s = .next (wrap s (x.invalid k (x.descReason k)))) ∧
    (x.descReason k = 0 → x.engineFree k (x.startReads k) (x.tagTables k) →
      let z := x.streams (x.startReads k) (x.tagTables k)
      ∃ t, exec (.stepStart k) s = .next t ∧ t = wrap s (z.beginStep k (z.desc k 64 48)) ∧ (t.sw k).started = true ∧
        (t.sw k).picked = false ∧ (t.sw k).opened = false ∧ (t.sw k).latched = false ∧ (t.sw k).cause = (z.sw k).nextCause ∧
        (t.sw k).broken = (z.sw k).nextBit0 ∧ (t.sw k).regions = z.desc k 64 48 ∧ (t.sw k).domain = z.desc k 6 5 ∧
        (t.sw k).step = (if z.desc k 1792 64 = 0 then 1 else z.desc k 1792 64) ∧ (∀ j, j ≠ k → t.sw j = z.sw j) ∧
        ∀ c ∈ coresOf (z.desc k 64 48), t.f .CORE_STATUS_SWATCH c = k ∧ t.f .CORE_PC_PC c = t.desc k 44 19 ∧
          (t.core c).matQ = [] ∧ (t.core c).wait = .none ∧
          ((z.sw k).nextBit0 = false → t.f .CORE_STATUS_STATE c = 1 ∧ t.f .CORE_STATUS_BROKEN c = 0) ∧
          ((z.sw k).nextBit0 = true → t.f .CORE_STATUS_STATE c = 6 ∧ t.f .CORE_STATUS_BROKEN c = 1)))

/-- PREEMPT (R360): a runnable swatch of higher priority puts out every swatch that holds its regions, RUN 2, and is
picked. SWATCH_RETURN (R361): a swatch that is out returns to its regions when nobody holds them, or after MAX_OUT by
putting out those that do; the return is counted, and every core of its regions is asked to switch to it. Rests on the
model's choices of log entry 91. -/
def Obligations.PreemptionPutsOutAndReturns : Prop :=
  (∀ (s : State) (k : Nat), s.up → k < 65536 → s.runnable k = true →
    let held := (s.holdersOf (s.desc k 64 48)).filter (fun j => j ≠ k)
    held ≠ [] → (∀ j ∈ held, s.displaceable j = true ∧ (s.sw j).preempt = 1 ∧ s.desc j 11 2 < s.desc k 11 2) →
    ∃ t, exec (.preempt k) s = .next t ∧ (t.sw k).picked = true ∧ t.cores = s.cores ∧
      (∀ j ∈ held, (t.sw j).preempted = true ∧ (t.sw j).outAt = some s.now ∧ t.run j = 2) ∧
      (∀ j, j ≠ k → j ∉ held → t.sw j = s.sw j) ∧ t.f .SWT_PREEMPTS 0 = satAdd (s.f .SWT_PREEMPTS 0) held.length ∧
      t = { s with out := [], sws := t.sws, mem := t.mem, regs := t.regs, switches := t.switches } ∧
      SameRegs s t [(.SWT_PREEMPTS, 0)]) ∧
  (∀ (s : State) (k : Nat), s.up → k < 65536 → s.run k = 2 → (s.sw k).started = true →
    let held := (s.holdersOf (s.sw k).regions).filter (fun j => j ≠ k)
    (held = [] →
      ∃ t, exec (.swatchReturn k) s = .next t ∧ t.sw k = { s.sw k with outAt := none, returned := true } ∧
        t.mem = ((fresh s).setRun k 1).mem ∧ t.f .SWT_RETURNS 0 = satAdd (s.f .SWT_RETURNS 0) 1 ∧
        t.switches = ((coresOf (s.sw k).regions).foldl (fun u c => u.askSwitch c k) (fresh s)).switches ∧
        (∀ j, j ≠ k → t.sw j = s.sw j) ∧
        t = { s with out := [], sws := t.sws, mem := t.mem, regs := t.regs, switches := t.switches } ∧
        SameRegs s t [(.SWT_RETURNS, 0)]) ∧
    (∀ since, (s.sw k).outAt = some since → since + usec (natMax (s.sw k).maxOut 1) ≤ s.now →
      (∀ j ∈ held, s.displaceable j = true ∧ (s.sw j).picked = false) →
      ∃ t, exec (.swatchReturn k) s = .next t ∧ t.sw k = { s.sw k with outAt := none, returned := true } ∧ t.run k = 1 ∧
        (∀ j ∈ held, (t.sw j).preempted = true ∧ t.run j = 2) ∧ (∀ j, j ≠ k → j ∉ held → t.sw j = s.sw j) ∧
        t.f .SWT_RETURNS 0 = satAdd (s.f .SWT_RETURNS 0) 1 ∧
        t = { s with out := [], sws := t.sws, mem := t.mem, regs := t.regs, switches := t.switches } ∧
        SameRegs s t [(.SWT_RETURNS, 0), (.SWT_PREEMPTS, 0)]))

/-- RESUME (R208, R381): RUN returns to 0, or to 6 for a swatch that awaits state transfer. PARK (R381): an idle swatch
parks at once and another at its boundary. PARTITION_WRITE (R371, R373): a configuration that overlaps another enabled
one is rejected, another waits, and PARTITION_CHANGE_APPLY puts it into force once its swatches are idle.
DESCRIPTOR_WRITE (R351): at once on an idle swatch; on another it waits for the boundary of the open step. Rests on the
model's choices of log entries 94, 97, 149, 162, 180. -/
def Obligations.HostDirectsSwatches : Prop :=
  (∀ (s : State) (fn k : Nat), s.up → fn < 9 → k < 65536 → s.fnHasSwatch fn k = true → s.run k ∈ [3, 4, 5, 7] →
    exec (.resume fn k) s = .next (wrap s ((fresh s).setRun k (if (s.sw k).behind then 6 else 0)))) ∧
  (∀ (s : State) (fn k : Nat), s.up → fn < 9 → k < 65536 → s.fnHasSwatch fn k = true →
    ((s.sw k).started = false → s.run k = 0 → exec (.park fn k) s = .next (wrap s ((fresh s).setRun k 3))) ∧
    ((s.sw k).started = true → exec (.park fn k) s = .next (wrap s ((fresh s).setSw k { s.sw k with parkDue := true })))) ∧
  (∀ (s : State) (p : Nat) (c : PartCfg), s.up → p < 8 → FMap.get none s.parts p = some c → s.partIdle p = true →
    c.regions < 2 ^ 48 → c.first < 2 ^ 16 → c.count < 2 ^ 17 →
    ∃ t, exec (.partitionChangeApply p) s = .next t ∧ t.f .HUB_PART_CFG_REGIONS p = c.regions ∧
      t.f .HUB_PART_CFG_ENABLE p = flagBit c.enable ∧ t.f .HUB_PART_SWT_FIRST p = c.first ∧
      t.f .HUB_PART_SWT_COUNT p = c.count ∧ t.f .HUB_PART_SWT_PENDING p = 0 ∧ FMap.get none t.parts p = none ∧
      t = { s with out := [], parts := t.parts, regs := t.regs } ∧
      SameRegs s t [(.HUB_PART_CFG_REGIONS, p), (.HUB_PART_CFG_ENABLE, p), (.HUB_PART_SWT_FIRST, p),
        (.HUB_PART_SWT_COUNT, p), (.HUB_PART_SWT_PENDING, p)]) ∧
  (∀ (s : State) (p which v : Nat), s.up → p < 8 → which < 2 → v < 2 ^ 64 →
    s.served 0 (targetAt 0 (0x10900 + 16 * p + 8 * which)) = true → s.txnOpen 0 = false →
    let c : PartCfg := if which = 0 then { s.partNext p with regions := bitField v 0 48, enable := bitAt v 48 }
      else { s.partNext p with first := bitField v 0 16, count := natMin (bitField v 16 17) (65536 - bitField v 0 16) }
    ∃ t, exec (.partitionWrite 0 p which v) s = .next t ∧
      ((∃ q, q < 8 ∧ q ≠ p ∧ (c.clashes (s.partNext q) = true ∨ c.clashes (s.partCfg q) = true)) →
        t.f .SWT_STATUS_PART_REJECT 0 = 1 ∧ t.parts = s.parts ∧ SameRegs s t [(.SWT_STATUS_PART_REJECT, 0)]) ∧
      ((∀ q, q < 8 → q ≠ p → c.clashes (s.partNext q) = false ∧ c.clashes (s.partCfg q) = false) →
        (∃ k ∈ s.startedSws, (s.partCfg p).has k = true) → FMap.get none t.parts p = some c ∧
        t.f .HUB_PART_SWT_PENDING p = 1 ∧ SameRegs s t [(.HUB_PART_SWT_PENDING, p)])) ∧
  (∀ (s : State) (fn k w v : Nat), s.up → fn < 9 → k < 65536 → w < 32 → v < 2 ^ 64 → s.txnOpen fn = false →
    s.fnHasSwatch fn k = true →
    let a := descBase + 256 * k + 8 * w
    ((s.sw k).started = false →
      exec (.descriptorWrite fn k w v) s = .next (wrap s (((fresh s).putDescWord k w v).noteWrite allFns true a))) ∧
    ((s.sw k).started = true → ∃ t, exec (.descriptorWrite fn k w v) s = .next t ∧
      t.held = s.held ++ [⟨k, true, 8 * w, (leBytes v 8).map BitVec.toNat, 0, 0⟩] ∧
      t = { s with out := [], held := t.held, txns := t.txns }))

/-! Run plans, collectives, verdicts and the step boundary. -/

/-- The cutter's walk (R284, R367 to R370): at an entry of each kind whose condition holds, and whose bolt is served,
the entry's action is taken and the walk goes on (RUN_BARRIER, LAYER_MARK, RUN_PACK, RUN_COLL_EXCHANGE, the four COLL
commands and RUN_TIER); RUN_END: END is passed once every core has ended; BARRIER_STALL: a barrier that waits past the
stall limit breaks the step. Rests on the model's choices of log entries 14, 51, 75, 95, 172, 179. -/
def Obligations.RunPlanWalksEntries : Prop :=
  ∀ (s : State) (k e : Nat), s.atEntry k e →
    let u := s.readEntry k
    let on : SwRun := { s.sw k with plan := (s.sw k).plan + 1, planSince := s.now }
    let d := (s.sw k).domain
    let ask (kind : Nat) : CollReq := ⟨k, kind, rpClosing e, rpValue e, rpCount e, rpAddr e, rpRoot e⟩
    (rpOp e = 1 → ((s.sw k).broken = true ∨ ∀ c ∈ s.swCores k, 512 + rpValue e % 256 ∈ (s.core c).passed) →
      exec (.runBarrier k) s = .next (wrap s { u with sws := FMap.set {} s.sws k on })) ∧
    (rpOp e = 1 → (s.sw k).latched = false → (s.sw k).limitHit = false →
      msec (s.stallMs k) < s.now - (s.sw k).planSince →
      ∃ t, exec (.barrierStall k) s = .next t ∧ t.f .TIER_STALL_FAIL 0 = satAdd (s.f .TIER_STALL_FAIL 0) 1 ∧
        (t.sw k).broken = true ∧ (t.sw k).bit0 = true ∧ (t.sw k).limitHit = true ∧
        bitAt (t.sw k).cause causeStall = true ∧ ∀ j, j ≠ k → t.sw j = s.sw j) ∧
    (rpOp e = 2 → rpValue e ≤ s.desc k 1920 16 →
      exec (.layerMark k) s = .next (wrap s { u with sws := FMap.set {} s.sws k on })) ∧
    (rpOp e = 2 → s.desc k 1920 16 < rpValue e →
      exec (.layerMark k) s = .next (wrap s (((((u.streamRead (u.prefRange k).1 (u.prefRange k).2).setDesc k 1920 16
        (rpValue e)).prefPass k (rpValue e) true).prefPass k (rpValue e) false).planNext k))) ∧
    (rpOp e = 3 → ∃ t, exec (.runPack k) s = .next t ∧ t.sw k = on ∧ (∀ j, j ≠ k → t.sw j = s.sw j) ∧
      (∀ p ∈ s.planSpans k e, s.dense k p.2 = true → ⟨0, k, p.1⟩ ∈ t.jobs (spPress p.2)) ∧
      t = wrap s { u with sws := t.sws, pressQ := t.pressQ, regs := t.regs }) ∧
    (rpOp e = 4 → rpMode e = false → s.alone k = false → s.lining d = false →
      exec (.runCollExchange k) s = .next (wrap s { u with
        sws := FMap.set {} s.sws k on
        doms := FMap.set {} (FMap.set {} s.doms d { s.dom d with reqs := (s.dom d).reqs ++ [ask 0] }) d
          { s.dom d with reqs := (s.dom d).reqs ++ [ask 0] ++ [ask 1] } })) ∧
    (∀ i cop, (i, cop) ∈ [(Instr.collReduceScatter k, 0), (.collAllGather k, 1), (.collAllReduce k, 2), (.collBroadcast k, 3)] →
      rpOp e = 4 → rpMode e = true → rpCop e = cop →
      (s.alone k = false → exec i s = .next (wrap s { u with
        sws := FMap.set {} s.sws k on
        doms := FMap.set {} s.doms d { s.dom d with reqs := (s.dom d).reqs ++ [ask (2 + cop)] } })) ∧
      (s.alone k = true → u.engineFree k [(rpAddr e, 64)] [] →
        let y := u.streams [(rpAddr e, 64)] []
        let p := y.tnPair (rpAddr e)
        tnOk p.1 = true → tnOk p.2 = true → tnBlocks p.1 = tnBlocks p.2 → y.engineFree k (tnRanges p.1) (tnRanges p.2) →
        exec i s = .next (wrap s (((List.range (tnBlocks p.1)).foldl (fun t b => t.tnWrite p.2 b (t.tnRead p.1 b))
          (y.streams (tnRanges p.1) (tnRanges p.2))).planNext k)))) ∧
    (rpOp e = 5 → u.engineFree k [(rpAddr e, 32)] [] →
      let y := u.streams [(rpAddr e, 32)] []
      let bits := y.devNat (rpAddr e) 32
      trOp bits ≤ 6 → exec (.runTier k) s = .next (wrap s { y with
        sws := FMap.set {} s.sws k on
        mem := { y.mem with
          tierQ := s.mem.tierQ ++ [⟨bits, 0, 0, 0, 0, 0, false, s.now, (s.dirE (trFirst bits)).generation, k⟩] } })) ∧
    (rpOp e = 0 → (s.jobsOf k 0 ≠ [] ∨ (s.sw k).latched = true) → (∀ c ∈ s.swCores k, s.coreEnded c = true) →
      exec (.runEnd k) s = .next (wrap s { u with sws := FMap.set {} s.sws k { s.sw k with ended := true } })) ∧
    MemOnly s.mem u.mem ∧ SameButCache s u [] ∧ u = { s with mem := u.mem, regs := u.regs, out := [] }

/-- Collectives (R200, R202, R204, R214, R330, R331): issue takes the domain's next COLL_SEQ; a sequence whose bytes and
trailer are here is complete, a gathered shard's once its bolts are served; a round trailer carries the fold of the
round before with the member's own fields; a trailer of an open collective is acted on, a first-round root that differs
from this member's own being a mismatch, and one of a domain this module is not in is counted as stale. Timers of
collectives (R206, R207, R335): 50 ms without a flit sets the module to withdraw and drops the step's collectives; a
holding member tells its ring neighbours every 10 ms; a HOLD of the epoch restarts the timers it lists. Rests on the
model's choices of log entries 55, 60, 62, 63, 64, 66, 179, 180. -/
def Obligations.CollectivesNumberSequenceAndTime : Prop :=
  (∀ (s : State) (d : Nat) (q : CollReq) (rest : List CollReq), s.up → d < 16 → (s.dom d).reqs = q :: rest →
    (s.dom d).colls.length < 8 → s.isMember d = true → (q.kind ≠ 1 ∨ q.closing = false) →
    let c : Coll := { seq := s.nextSeq d, step := (s.sw q.sw).step, req := q, timer := s.now }
    let u := (fresh s).setDom d { s.dom d with reqs := rest, colls := (s.dom d).colls ++ [c] }
    let v := (u.setF .COLL_DOM_SEQ_NEXT d ((s.nextSeq d + 1) % 2 ^ 32)).tally .COLL_ISSUED 0 1
    exec (.collIssue d) s = .next (wrap s ((((v.takeEarly d (s.nextSeq d)).showOpen d).takeHeld d).advanceDom d)) ∧
      v.nextSeq d = (s.nextSeq d + 1) % 2 ^ 32 ∧ v.f .COLL_ISSUED 0 = satAdd (s.f .COLL_ISSUED 0) 1 ∧
      (v.dom d).reqs = rest ∧ c ∈ (v.dom d).colls ∧ ∀ e, e ≠ d → v.dom e = s.dom e) ∧
  (∀ (s : State) (d seq sender : Nat) (c : Coll) (x : Part), s.up → d < 16 → sender < 8192 → s.coll d seq = some c →
    c.arrived.find? (fun p => p.sender = sender || p.sender = 8192) = some x → sender ∈ c.ended →
    let c' : Coll := { c with
      arrived := c.arrived.erase x, ended := c.ended.erase sender
      parts := if x.phase = 2 then c.parts else c.parts ++ [x] }
    (x.phase ≠ 2 → exec (.sequenceComplete d seq sender) s = .next (wrap s (((fresh s).setColl d c').advanceDom d))) ∧
    (x.phase = 2 → s.engineFree c.req.sw (pairRanges c.req) [] →
      let y := (fresh s).streams (pairRanges c.req) []
      y.engineFree c.req.sw [] (y.outputRanges c.req) →
      exec (.sequenceComplete d seq sender) s = .next (wrap s
        ((((y.streams [] (y.outputRanges c.req)).setColl d c').takeShard d c' x).advanceDom d)))) ∧
  (∀ (s : State) (d k : Nat) (c : Coll) (own : Fold), s.up → d < 16 → k < 65536 → s.closing d k = some c →
    c.rout + 1 < (s.dom d).members.length → c.contributed = true → c.rout ≤ c.rin → c.rout ≠ 0 → c.own = some own →
    let ms := (s.dom d).members
    let f := (c.foldOf c.rout).join { own with mm := (s.sw k).mm }
    let root := if s.dig k then s.devNat (s.desc k 768 52 + 64) 32 else 0
    let raw := trailerBits false (s.dig k) f k (s.epoch d) c.seq c.step root
    exec (.roundTrailerSend d k) s = .next (wrap s ((((fresh s).sendTrailer d
        (ms.getD ((s.position d + 1) % natMax ms.length 1) 0) raw).updColl d c.seq
          (fun x => { x with rout := x.rout + 1, own := some { own with mm := (s.sw k).mm } })).formFinal d c.seq)) ∧
      tlFold raw = { f with cause := f.cause % 256, folded := f.folded % 2 ^ 14 } ∧ tlFinal raw = false) ∧
  (∀ (s : State) (d raw sender : Nat) (c : Coll), s.up → d < 16 → sender < 8192 → s.isMember d = true →
    bitField raw 0 2 = 1 → tlEpoch raw = s.epoch d → s.coll d (tlSeq raw) = some c → c.req.sw = tlSwatch raw →
    c.step = tlStep raw →
    let u := (fresh s).setDom d { s.dom d with heardAt := FMap.set 0 (s.dom d).heardAt sender s.now }
    exec (.trailer d raw sender) s = .next (wrap s (u.takeTrailer d raw sender c)) ∧
      (s.dig (tlSwatch raw) = true → tlDig raw = true → tlRoot raw ≠ s.devNat (s.desc (tlSwatch raw) 768 52 + 64) 32 →
        (s.compareRoot (tlSwatch raw) raw).sw (tlSwatch raw) = { s.sw (tlSwatch raw) with mm := true } ∧
        (s.compareRoot (tlSwatch raw) raw).f .HUB_AGREE_MISMATCH 0 = satAdd (s.f .HUB_AGREE_MISMATCH 0) 1)) ∧
  (∀ (s : State) (d raw sender : Nat), s.up → d < 16 → sender < 8192 → s.isMember d = false →
    exec (.trailer d raw sender) s = .next (wrap s ((fresh s).tally .HUB_TACK_STALE 0 1))) ∧
  (∀ (s : State) (d seq : Nat) (c : Coll), s.up → d < 16 → s.coll d seq = some c → msec 50 ≤ s.now - c.timer →
    ∃ t, exec (.collectiveTimeout d seq) s = .next t ∧ t.f .HUB_TACK_TIMEOUT 0 = satAdd (s.f .HUB_TACK_TIMEOUT 0) 1 ∧
      t.withdraw = some (s.withdraw.getD (2 ^ causeWithdraw)) ∧ t.timedOut = s.withdraw.isNone ∧
      (t.sw c.req.sw).failed = true ∧ (∀ x ∈ (t.dom d).colls, x.req.sw ≠ c.req.sw) ∧
      (∀ q ∈ (t.dom d).reqs, q.sw ≠ c.req.sw) ∧ (∀ e, e ≠ d → t.dom e = s.dom e) ∧
      t.rejoin = 0 ∧ (∀ a ∈ t.rowAppends, a.sw ≠ c.req.sw) ∧
      ((∀ p ∈ s.pendEntries c.req.sw, phState p.2 ≠ 1) → t.mem = { s.mem with waiters := t.mem.waiters })) ∧
  (∀ (s : State) (k : Nat), s.up → k < 65536 → (s.sw k).domain < 16 → s.alone k = false → s.holding k = true →
    msec 10 ≤ s.now - (s.sw k).holdAt →
    let d := (s.sw k).domain
    let m := (s.dom d).members.length
    let seqs := (((s.dom d).colls.filter (fun c => c.req.sw = k)).map Coll.seq).take 8
    ∃ t, exec (.holdNoticeTick k) s = .next t ∧ t.sw k = { s.sw k with holdAt := s.now } ∧
      (∀ p ∈ [(s.dom d).members.getD ((s.position d + m - 1) % m) 0, (s.dom d).members.getD ((s.position d + 1) % m) 0],
        Out.message p 7 (s.epoch d :: k :: seqs) ∈ t.out) ∧
      (∀ q ∈ seqs, ∀ c, t.coll d q = some c → c.timer = s.now)) ∧
  (∀ (s : State) (d : Nat) (seqs : List Nat) (sender : Nat), s.up → d < 16 → sender < 8192 →
    ∃ t, exec (.hold d (s.epoch d) seqs sender) s = .next t ∧ t.f .COLL_HOLD_RX 0 = satAdd (s.f .COLL_HOLD_RX 0) 1 ∧
      (∀ q ∈ seqs.take 8, ∀ c, t.coll d q = some c → c.timer = s.now) ∧
      (∀ q, q ∉ seqs.take 8 → t.coll d q = s.coll d q) ∧
      t = { s with out := [], doms := t.doms, regs := t.regs } ∧ SameRegs s t [(.COLL_HOLD_RX, 0)])

/-- AGREE_LOCALISE (R216) with the digest area served: the member sends its swatch root to every other one; with all
roots here a majority is sought: without one the swatch is to halt, with one the reference and the odd members go on,
and any other member is done. AGREE_REPAIR (R218): without a majority the swatch halts; the odd members of more than 16
withdraw, to rejoin after a fitting run. Units that such a stage cannot read are noted before it. STATE_TRANSFER_SEND
(R221): a source sends a commit once; STATE_TRANSFER_DONE: a receiver that has every block installs it and asks to join.
Rests on the model's choices of log entries 61, 76, 78, 79, 179, 180. -/
def Obligations.AgreementAndStateTransfer : Prop :=
  (∀ (s : State) (k : Nat), s.up → k < 65536 → s.disagrees k = true → (s.sw k).stage = 0 →
    s.engineFree k (s.treeRange k) [] →
    let d := (s.sw k).domain
    let m := (s.members k).length
    let me := s.myPos k
    let root (p : Nat) : Option Nat :=
      if p = me then some (s.stored k 0) else (s.agreeIn k 7 p 0 32).map (fun l => l.headD 0)
    ∃ t, exec (.agreeLocalise k []) s = .next t ∧ t.f .HUB_AGREE_STATUS_SWATCH 0 = k ∧ MemOnly s.mem t.mem ∧
      (∀ j, j ≠ k → t.sw j = s.sw j) ∧ (t.sw k).rootSent = true ∧
      t = { s with out := t.out, sws := t.sws, ports := t.ports, regs := t.regs, mem := t.mem } ∧
      (∀ n i, n ∉ [.SEAM_TX_MFLITS, .BASE_HIT, .BASE_MISS, .BASE_DALU_DROP, .HUB_AGREE_STATUS_STATE,
        .HUB_AGREE_STATUS_SWATCH] → t.f n i = s.f n i) ∧
      ((s.sw k).rootSent = false → ∀ p, p < m → p ≠ me →
        Out.sequence ((s.members k).getD p 0) d (s.doneSeq d) 7 me k ((leBytes (s.stored k 0) 32).map BitVec.toNat) ∈ t.out) ∧
      ((∃ p, p < m ∧ root p = none) → t.sw k = { s.sw k with rootSent := true } ∧ t.f .HUB_AGREE_STATUS_STATE 0 = 1) ∧
      (∀ roots : List Nat, (List.range m).map root = roots.map some →
        (s.lining d = true ∨ majorityOf roots = none →
          t.sw k = { s.sw k with rootSent := true, stage := 4, majority := false } ∧ t.f .HUB_AGREE_STATUS_STATE 0 = 1) ∧
        (∀ x, s.lining d = false → majorityOf roots = some x →
          let ref := roots.findIdx (fun y => y = x)
          let odd := (List.range m).filter (fun i => roots.getD i 0 ≠ x)
          let stage := if me ∈ odd then (if 16 < m then 4 else 1) else if me = ref ∧ m ≤ 16 then 1 else 5
          t.sw k = { s.sw k with rootSent := true, stage := stage, majority := true, refPos := ref, odd := odd } ∧
          t.f .HUB_AGREE_STATUS_STATE 0 = (if stage = 5 then 0 else 1)))) ∧
  (∀ (s : State) (k : Nat), s.up → k < 65536 → s.disagrees k = true → (s.sw k).stage = 4 →
    ((s.sw k).majority = false → ∃ t, exec (.agreeRepair k []) s = .next t ∧ t = wrap s ((fresh s).haltDisagree k) ∧
      (t.sw k).stage = 5 ∧ t.f .HUB_AGREE_STATUS_HALT_SEEN 0 = 1 ∧ t.f .HUB_AGREE_STATUS_STATE 0 = 3 ∧
      t.f .HUB_AGREE_STATUS_SWATCH 0 = k) ∧
    ((s.sw k).majority = true → 16 < (s.members k).length → s.withdraw = none →
      ∃ t, exec (.agreeRepair k []) s = .next t ∧ t = wrap s ((fresh s).withdrawDisagree k) ∧ (t.sw k).stage = 5 ∧
        (t.sw k).lostState = true ∧ t.withdraw = some (2 ^ causeDisagree) ∧ t.rejoin = natMax 2 s.rejoin ∧
        t.f .HUB_AGREE_STATUS_WITHDRAW_SEEN 0 = 1 ∧ t.f .HUB_AGREE_STATUS_STATE 0 = 0 ∧ t.mem = s.mem) ∧
    (∀ l : List (Nat × Nat × Nat), (s.sw k).majority = true → (s.members k).length ≤ 16 → s.isReference k = false →
      (s.sw k).oddBlocks.map (fun p => (s.agreeIn k 11 p.1 p.2 (recCovered (s.spanWide k p.1))).map (fun l =>
        (p.1, p.2, l.headD 0))) = l.map some →
      let wr := s.repairWrites k (s.sw k).oddBlocks
      s.engineFree k (s.treeReads k) wr →
      exec (.agreeRepair k []) s = .next (wrap s (((fresh s).streams (s.treeReads k) wr).repair k l)))) ∧
  (∀ (s : State) (k : Nat) (bad : List Nat), s.up → k < 65536 → s.disagrees k = true →
    ((s.sw k).stage < 4 →
      exec (.agreeLocalise k bad) s = .next (wrap s (agreeStage k ((fresh s).spoilAll k bad)))) ∧
    ((s.sw k).stage = 4 → exec (.agreeRepair k bad) s = .next (wrap s (agreeMend k ((fresh s).spoilAll k bad))))) ∧
  (∀ (s : State) (d k : Nat), s.up → d < 16 → k < 65536 → FMap.get 0 (s.dom d).source k = s.place + 1 →
    s.isMember d = true → s.idle k = true → FMap.get 0 (s.dom d).sent k ≠ s.desc k 1856 64 + 1 →
    s.engineFree k (s.treeReads k ++ s.groupTable k) [] →
    ∃ t, exec (.stateTransferSend d k) s = .next t ∧
      t.dom d = { s.dom d with sent := FMap.set 0 (s.dom d).sent k (s.desc k 1856 64 + 1) } ∧
      (∀ e, e ≠ d → t.dom e = s.dom e) ∧ MemOnly s.mem t.mem ∧
      (∀ p ∈ (s.dom d).members, p ≠ s.place →
        ∃ bs, Out.sequence p d (s.doneSeq d) 5 0 k bs ∈ t.out ∧ bs.take 8 = (leBytes (s.desc k 1856 64) 8).map BitVec.toNat) ∧
      t = { s with out := t.out, doms := t.doms, ports := t.ports, regs := t.regs, mem := t.mem } ∧
      ∀ n i, n ∉ [.SEAM_TX_MFLITS, .BASE_HIT, .BASE_MISS, .BASE_DALU_DROP] → t.f n i = s.f n i) ∧
  (∀ (s : State) (d k : Nat) (fs : List Byte), s.up → d < 16 → k < 65536 → s.transferred d k 5 0 = some fs → s.run k = 6 →
    s.isMember d = true → (∀ i ∈ s.replicated k, (s.transferred d k 4 i).map List.length =
      some (spBlocks (s.span k i) * recCovered (gWide (s.group k (spGroup (s.span k i)))))) →
    s.engineFree k [] (s.transferWrites d k) →
    let a := (s.replicated k).foldl (fun t i => t.installSpan d k i) ((fresh s).streams [] (s.transferWrites d k))
    let b := (a.zeroResiduals k (a.dom d).members.length).setDesc k 1856 64 (leNat (fs.take 8))
    let c := (List.range ((fs.length - 8) / 28)).foldl (fun t j => t.putGroupFields k ((fs.drop (8 + 28 * j)).take 28)) b
    let u := (c.setDom d { c.dom d with incoming := (c.dom d).incoming.filter (fun p => p.1 ≠ k) }).updSw k
      (fun r => { r with behind := false, lostState := false })
    exec (.stateTransferDone d k) s = .next (wrap s ((u.sendJoin d).trigger d)) ∧ c.doms = s.doms ∧ SameButCache s c [] ∧
      MemOnly s.mem c.mem)

/-- STEP_BOUNDARY (R121, R207, R211, R284, R369, R405, R464): when the step has ended, is settled and its localisation
done, and the tables that it writes are served, its work is carried out in order, the swatch's step state gives way to
what is kept, its cores are idle, and its next step is one later. Rests on the model's choices of log entries 101, 102,
103, 120, 173. -/
def Obligations.StepBoundaryClosesStep : Prop :=
  ∀ (s : State) (k : Nat), s.up → k < 65536 → s.atBoundary k = true →
    let tables := rangeBolts (s.tagTables k)
    s.boltsServed k tables tables = true →
    let r := s.sw k
    let v := match r.final with
      | some f => f.v && !r.failed
      | none => false
    let a := (setBitsOf r.regions 48).foldl State.remapRegion (if r.failed then ((fresh s).dropRows k).dropJobs k else fresh s)
    (∀ b ∈ tables, a.boltDenied k b false = false ∧ a.boltDenied k b true = false) →
    let b := (((((a.streams (a.tagTables k) (a.tagTables k)).foldTags k v).restoreLost k).clearAgree k).retireMoves.clearCancels
      k).stampOn k r.regions |>.setDesc k 1792 64 (r.step + 1)
    let c := (b.countStep k).nextRun k
    let e := if c.run k = 4 || c.run k = 5 then c.endRuns k 2 else if r.stopDue then c.endRuns k 1 else c
    let g := (e.idleCores k).updSw k SwRun.rest
    let h := { g with saved := g.saved.filter (fun p => p.1 / 512 ≠ k) }
    let l := (((h.applyHelds k).loadRecipes k).putImage k).layerZero k
    let w := (l.withdrawNow.domainTurn r.domain).tryWays
    exec (.stepBoundary k) s = .next (wrap s (boardCheck (w.partOf k)
        ((List.range 8).foldl (fun t p => partitionChangeApply p t) w))) ∧
      (g.sw k).started = false ∧ (g.sw k).final = none ∧ (g.sw k).cause = 0 ∧ (g.sw k).bit0 = false ∧
      (∀ x ∈ e.swCores k, g.f .CORE_STATUS_STATE x = 0 ∧ g.f .CORE_STATUS_BROKEN x = 0 ∧ g.f .ARR_FAULT_VALID x = 0 ∧
        g.core x = {}) ∧
      b.desc k 1792 64 = (r.step + 1) % 2 ^ 64 ∧ l.desc k 1920 16 = 0

/-! Stacks, pockets and unit faults. -/

/-- Class arbiters and pseudo-channels (R25, R30, R230, R231, R237, R239, R376). ARBITER_GRANT: one unit of a queue is
granted, of the lowest class where no floor offer stands; the rest keep their order, and a unit granted at a weave link
waits at the next arbiter of its route; a unit that comes alone to a router or seam port is granted at once.
HBM_REQUEST: a burst alone in its queue is granted and reads or writes its 64 B unit. PER_BANK_REFRESH closes its bank's
row. LANE_SWAP: a lane due takes a spare. PATROL_SCRUB: a clean read moves the scrubber on. Rests on the model's choices
of log entries 105, 106, 107, 161, 167, 168, 181. -/
def Obligations.StackControllersGrantAndRepair : Prop :=
  (∀ (s : State) (i : Nat), s.up → arbOk i = true → (s.arb i).queue ≠ [] → (∀ x ∈ (s.arb i).queue, x.cls < 6) →
    ∃ t j p, exec (.arbiterGrant i []) s = .next t ∧ (s.arb i).queue[j]? = some p ∧ t.out = [.data (p.cls + 256 * p.tag)] ∧
      (t.arb i).grant = (s.arb i).grant + 1 ∧
      (t.arb i).queue = ((s.arb i).queue.eraseIdx j).map (fun x =>
        { x with through := x.through || (x.cls < 2 && 2 ≤ p.cls) }) ∧
      ((s.arb i).owed = [] → floorClass (s.arb i).grant = [] → ∀ x ∈ (s.arb i).queue, p.cls ≤ x.cls) ∧
      (∀ d n, i < 400 → nextLink (i / 4) p.stop = some d → nextArb (linkEnd (i / 4) d) p = some n →
        { p with through := false } ∈ (t.arb n).queue) ∧
      t = { s with out := t.out, arbs := t.arbs }) ∧
  (∀ (s : State) (i c stop port tag : Nat), s.up → arbOk i = true → 400 ≤ i → (s.arb i).queue = [] → c < 6 → stop < 100 →
    port < 12 → ∃ t, exec (.arbiterGrant i [c, stop, port, tag]) s = .next t ∧ t.out = [.data (c + 256 * tag)] ∧
      (t.arb i).queue = [] ∧ (t.arb i).grant = (s.arb i).grant + 1 ∧ t = { s with out := t.out, arbs := t.arbs }) ∧
  (∀ (s : State) (st p cls port slot g u v h part : Nat) (write : Bool), s.up → st < 24 → p < 64 →
    s.f .BASE_STATUS_STATE st = 2 → (s.stack st).stopped = false → s.f .BASE_STATUS_LEVEL st ≠ 2 →
    (s.pch st p).queue = [] →
    cls < 6 → port < 4 → slot < 1572864 → g < 256 → u < 4 → (g + slot) % 64 = p → part < 8 → v < 2 ^ 512 →
    let a := stackBytes * st + 65536 * slot + 256 * g + 64 * u
    ∃ t, exec (.hbmRequest st p [cls, port, slot, g, u, flagBit write, v, h, part] []) s = .next t ∧
      t.out = (if write then [] else [.data (leNat (Memory.bytes 0 s.mem.st.hbm a 64))]) ∧
      t.mem.st = (if write then { s.mem.st with hbm := Memory.write 0 s.mem.st.hbm a (leBytes v 64) } else s.mem.st) ∧
      (t.pch st p).queue = [] ∧ (t.pch st p).arb.grant = (s.pch st p).arb.grant + 1 ∧
      FMap.get none (t.pch st p).rows (slot % 64) = some (slot / 64) ∧
      t = { s with out := t.out, mem := t.mem, regs := t.regs }) ∧
  (∀ (s : State) (st p b : Nat), s.up → st < 24 → p < 64 → b < 64 → s.dramOn st = true →
    ∃ t, exec (.perBankRefresh st p b) s = .next t ∧ FMap.get none (t.pch st p).rows b = none ∧
      FMap.get 0 (t.pch st p).acts b = 0 ∧
      FMap.get 0 (t.pch st p).refresh b = FMap.get 0 (s.pch st p).refresh b + 1 ∧
      (∀ c, c ≠ b → FMap.get none (t.pch st p).rows c = FMap.get none (s.pch st p).rows c) ∧
      t = { s with out := [], mem := { s.mem with pchs := t.mem.pchs } }) ∧
  (∀ (s : State) (st ch l : Nat), s.up → st < 24 → ch < 32 →
    (s.stack st).laneDue.find? (fun l => l / 72 = ch) = some l → s.spareLeft st ch = true → s.boot.map.length < 32000 →
    ∃ t, exec (.laneSwap st ch) s = .next t ∧ l ∉ (t.stack st).laneDue ∧ l ∈ (t.stack st).lanesOut ∧
      t.sub .BASE_SELVEDGE_SPARES st (2 * ch) 2 = s.sub .BASE_SELVEDGE_SPARES st (2 * ch) 2 + 1 ∧
      t.f .BASE_LANE_SWAP st = satAdd (s.f .BASE_LANE_SWAP st) 1 ∧
      t.boot.map = s.boot.map ++
        [{ kind := 3, unit := st, channel := ch, lane := l % 72, cause := 4, seq := s.thm.newest + s.ledgQ.length + 1 }]) ∧
  (∀ (s : State) (st slot : Nat), s.up → st < 24 → slot < 1572864 → s.stackServes st = true → slot = (s.stack st).scrubAt →
    ∃ t, exec (.patrolScrub st slot []) s = .next t ∧ t.stack st = { s.stack st with scrubAt := (slot + 1) % 1572864 } ∧
      t.f .BASE_SCRUB_PASS st =
        (if slot = 1572863 then satAdd (s.f .BASE_SCRUB_PASS st) 1 else s.f .BASE_SCRUB_PASS st) ∧
      t.mem.st = s.mem.st ∧ SameRegs s t [(.BASE_SCRUB_PASS, st)])

/-- Temperatures and unit faults (R32, R197, R252, R254, R255): a sample shows each stack's temperature and level and
fences a stack that becomes critical, and at 115 °C all DRAM access of a stack stops; a stack fenced and cool begins its
slice, whose pass lifts the fence and whose failure keeps it; a unit fault takes a ledger entry, sets the module to
withdraw, and, of a unit of the module, makes the bit of every step not yet latched 0. Rests on the model's choices of
log entries 7, 102, 110, 111, 162, 170. -/
def Obligations.ThermalLevelsAndUnitFaults : Prop :=
  (∀ (s : State) (temps dies : List Nat), s.up → temps.length = 31 → dies.length = 24 → (∀ x ∈ temps, x < 256) →
    (∀ x ∈ dies, x ≤ 16) →
    ∃ t, exec (.thermalSample temps dies) s = .next t ∧ t.smb.temps = temps ∧
      ∀ st, st < 24 → t.f .BASE_TEMP_CUR st = temps.getD st 0 ∧ t.f .BASE_TEMP_DIE st = dies.getD st 0 ∧
        t.f .BASE_STATUS_LEVEL st = thermalLevel (s.f .BASE_STATUS_LEVEL st) (signedOf (temps.getD st 0) 8) ∧
        (thermalLevel (s.f .BASE_STATUS_LEVEL st) (signedOf (temps.getD st 0) 8) = 3 → s.f .BASE_STATUS_LEVEL st ≠ 3 →
          s.f .BASE_STATUS_STATE st ≤ 2 → t.f .BASE_STATUS_STATE st = 3 ∧ t.f .BASE_STATUS_CRIT_SEEN st = 1) ∧
        (115 ≤ signedOf (temps.getD st 0) 8 → (t.stack st).stopped = true)) ∧
  (∀ (s : State) (st since : Nat), s.up → st < 24 → (s.stack st).below82 = some since → s.f .BASE_STATUS_STATE st = 3 →
    (s.stack st).pending = 0 → (s.stack st).stopped = false → since + sec 1 ≤ s.now →
    exec (.stackFitSlice st) s = .next { s with
      out := []
      mem := { s.mem with
        stackDies := FMap.set {} s.mem.stackDies st { s.stack st with pending := 1, pendingAt := s.now } } }) ∧
  (∀ (s : State) (st : Nat) (pass : Bool), s.up → st < 24 → (s.stack st).pending ≠ 0 → (s.stack st).stopped = false →
    ∃ t, exec (.stackSliceResult st pass) s = .next t ∧ (t.stack st).pending = 0 ∧
      t.f .BASE_STATUS_STATE st = (if pass then 2 else 4) ∧
      (pass = true → t.f .BASE_STATUS_LEVEL st = 0 ∧ t.ledgQ = s.ledgQ ∧ t.boot = s.boot) ∧
      (pass = false → (∃ e, t.ledgQ = s.ledgQ ++ [e] ∧ e.type = 0x07) ∧ t.f .BASE_STATUS_LEVEL st = s.f .BASE_STATUS_LEVEL st)) ∧
  (∀ (s : State) (kind num : Nat), s.up → num < unitsOf kind →
    ∃ t, exec (.unitFault kind num) s = .next t ∧ (∃ e, t.ledgQ = s.ledgQ ++ [e] ∧ e.type = 0x06) ∧
      t.withdraw = some (s.withdraw.getD (2 ^ causeUnit)) ∧ t.timedOut = false ∧ t.rejoin = 0 ∧
      (kind = 1 → t.f .RGN_PKT_STATUS_FAULT_SEEN num = 1) ∧ (kind = 3 ∨ kind = 4 → t.f .BASE_STATUS_STATE num = 5) ∧
      (kind = 7 → t.f .FLC_STATUS_STATE num = 2 ∧ (t.flc num).fenced = true) ∧
      (3 ≤ kind → ∀ k ∈ s.startedSws, (s.sw k).latched = false →
        bitAt (t.sw k).cause causeUnit = true ∧ (t.sw k).bit0 = true) ∧
      (s.mem.moves = [] → t.mem.st = s.mem.st ∧
        ((kind = 3 ∨ kind = 4 → num ∉ s.mem.rsvSet) → t.mem.dir = s.mem.dir)))

/-- Pockets (R247 to R250): an access inside a swatch's scratch window reads or writes its 64 bytes; when a way has been
zeroed its 4 MiB read zero, the rest of the pockets stays, and ZEROING no longer shows it; a sweep leaves no line of a
shared way of the region with a stale stamp. Rests on the model's choices of log entries 27, 103, 109. -/
def Obligations.PocketWindowsZeroingAndSweeps : Prop :=
  (∀ (s : State) (r k a v : Nat) (write : Bool), s.up → r < 48 → k < 65536 → a % 64 = 0 → a + 64 ≤ s.window r k →
    a + 64 ≤ 2 ^ 43 → s.zeroingAt r k a 64 = false →
    let p := s.windowAddr r k a
    exec (.pocketAccess r k 4096 a write v false) s = .next (if write then { s with
        out := []
        mem := { s.mem with st := { s.mem.st with pocket := Memory.write 0 s.mem.st.pocket p (leBytes v 64) } } }
      else { s with out := [.data (leNat (Memory.bytes 0 s.mem.st.pocket p 64))] })) ∧
  (∀ (s : State) (r w : Nat), s.up → r < 48 → w < 16 → FMap.get 0 s.mem.zeroing (16 * r + w) ≠ 0 →
    let a := 67108864 * r + 4194304 * w
    ∃ t, exec (.pocketZeroingDone r w) s = .next t ∧ FMap.get 0 t.mem.zeroing (16 * r + w) = 0 ∧
      (∀ j, FMap.get 0 t.mem.st.pocket j = if a ≤ j ∧ j < a + 4194304 then 0 else FMap.get 0 s.mem.st.pocket j) ∧
      bitAt (t.f .RGN_PKT_STATUS_ZEROING r) w = false ∧
      t.mem.st = { s.mem.st with pocket := t.mem.st.pocket } ∧
      t = { s with
          out := [], regs := t.regs
          mem := { s.mem with st := t.mem.st, zeroing := t.mem.zeroing, waiters := t.mem.waiters } }) ∧
  (∀ (s : State) (r : Nat), s.up → r < 48 →
    ∃ t, exec (.pocketSweep r) s = .next t ∧
      (∀ p ∈ t.mem.lines, ∀ l, p.2 = some l → p.1 / 16 / 16384 = r → (s.way r (p.1 % 16)).1 = 1 → l.stamp = s.stamp l.sw) ∧
      (∀ p ∈ s.mem.lines, p.1 / 16 / 16384 ≠ r → p ∈ t.mem.lines) ∧
      (∀ k, k < 65536 → FMap.get 0 t.mem.stampRun (65536 * r + k) = 0) ∧
      t = { s with out := [], mem := { s.mem with lines := t.mem.lines, stampRun := t.mem.stampRun } })

/-! The tier layer. -/

/-- Tier requests of one bolt (R276, R278 to R280, R282, R299). ALLOC takes the location that placement gives and zeroes
it, FREE makes an unpinned bolt's entry FREE, PROMOTE_REQUEST and EVICT start a move, which takes its destination at
once where there is room and waits where the quota is used up, a promote cancels an eviction that has not flipped, an
evict of a pinned bolt is deferred, PIN and UNPIN count, QUERY posts the entry, and each that ran is taken from the
queue; the entries of other bolts stay. Rests on the model's choices of log entries 6, 9, 10, 15, 25, 47, 156, 160. -/
def Obligations.TierRequestsActOnBolt : Prop :=
  (∀ (s : State) (q : TierReq) (rest : List TierReq) (loc : Nat), s.asked 0 q rest →
    let b := trFirst q.bits
    let k := trSwatch q.bits
    let ti := trTier q.bits
    (s.dirE b).state = 0 → s.usage k ti < s.quota k ti → s.spaced b = true →
    ((fresh s).lookup b).choose b ti k (trIlv q.bits) (trPlace q.bits) (trPlace q.bits) = some loc →
    ∃ t, exec .alloc s = .next t ∧ t.mem.tierQ = rest ∧ (∀ c, c ≠ b → t.dirE c = s.dirE c) ∧
      t.dirE b = { ({} : DirEntry) with
        state := 1, tier := ti, share := trShare q.bits, ilv := trIlv q.bits, home := loc
        generation := ((s.dirE b).generation + 1) % 65536, owner := k
        cancelled := (s.dirE b).cancelled } ∧
      t.mem.st = if ti = 3 then s.mem.st else s.mem.st.zero (s.placeOf ti loc k 0) 65536) ∧
  (∀ (s : State) (q : TierReq) (rest : List TierReq), s.asked 1 q rest →
    let b := trFirst q.bits
    (s.dirE b).state = 1 → (s.dirE b).pins = 0 → s.spaced b = true →
    s.shareAllows (s.dirE b) (trSwatch q.bits) true = true →
    ∃ t, exec .free s = .next t ∧ t.mem.tierQ = rest ∧ (∀ c, c ≠ b → t.dirE c = s.dirE c) ∧ t.moveOf b = none ∧
      t.dirE b = { s.dirE b with
        state := 0, pendFree := false, pendEvict := false, generation := ((s.dirE b).generation + 1) % 65536 } ∧
      Out.notice b (((s.dirE b).generation + 1) % 65536) true ∈ t.out) ∧
  (∀ (s : State) (q : TierReq) (rest : List TierReq) (i : Instr), (i, trOp q.bits) ∈ [(.promoteRequest, 2), (.evict, 3)] →
    s.asked (trOp q.bits) q rest →
    let b := trFirst q.bits
    let ti := trTier q.bits
    let e := s.dirE b
    let up := decide (trOp q.bits = 2)
    let m : MoveRec :=
      { phase := .reserve, up := up, dtier := ti, place := if up then trPlace q.bits else 0, cls := 3, dirty := [], passes := 0,
        await := [], held := [], since := s.now, inTier := false, gen := e.generation }
    let u := ((fresh s).lookup b).setMove b (some m)
    e.state = 1 → s.shareAllows e (trSwatch q.bits) false = true → s.moveOf b = none →
    (if up then ti < e.tier else e.tier < ti ∧ e.pins = 0) → (s.movesOf (hubOf b)).length < 256 →
    (∀ loc, u.usage e.owner ti < u.quota e.owner ti → (ti = 2 → u.overBudget (loc % 2) = false) →
      (ti = 3 → u.linkUp = true) →
      (ti = 0 → u.windowZeroing (t0Region loc) e.owner (65536 * t0Pos loc) = false) →
      u.choose b ti e.owner e.ilv m.place (u.nearOf b e.owner (u.firstRegion e.owner)) = some loc →
      ∃ t, exec i s = .next t ∧ t.mem.tierQ = rest ∧ t.mem.st = s.mem.st ∧ t.moveOf b = some { m with phase := .copy } ∧
        t.dirE b = { e with state := if up then 2 else 3, dtier := ti, dest := loc, mrec := (t.dirE b).mrec } ∧
        ∀ c, c ≠ b → t.moveOf c = s.moveOf c ∧ t.dirE c = s.dirE c) ∧
    (ti < 2 → u.quota e.owner ti ≤ u.usage e.owner ti →
      ∃ t, exec i s = .next t ∧ t.mem.tierQ = rest ∧ t.mem.st = s.mem.st ∧ t.mem.dir = s.mem.dir ∧
        t.moveOf b = some { m with obst := 3 } ∧ ∀ c, c ≠ b → t.moveOf c = s.moveOf c)) ∧
  (∀ (s : State) (q : TierReq) (rest : List TierReq) (m : MoveRec), s.asked 2 q rest →
    let b := trFirst q.bits
    let e := s.dirE b
    e.state = 3 → e.flipped = false → e.cancelled = false → e.pendFree = false → e.pendEvict = false →
    s.shareAllows e (trSwatch q.bits) false = true → e.tier ≤ trTier q.bits → s.moveOf b = some m → m.held = [] →
    (FMap.get [] s.mem.cancels (hubOf b)).length < 4096 →
    ∃ t, exec .promoteRequest s = .next t ∧ t.mem.tierQ = rest ∧ t.moveOf b = none ∧
      t.dirE b = { e with state := 1, dtier := 0, dest := 0, mrec := 0, cancelled := true } ∧
      b ∈ FMap.get [] t.mem.cancels (hubOf b) ∧ t.f .TIER_CANCELS 0 = satAdd (s.f .TIER_CANCELS 0) 1 ∧
      ∀ c, c ≠ b → t.moveOf c = s.moveOf c ∧ t.dirE c = s.dirE c) ∧
  (∀ (s : State) (q : TierReq) (rest : List TierReq), s.asked 3 q rest →
    let b := trFirst q.bits
    let e := s.dirE b
    e.state = 1 → 0 < e.pins → e.tier < trTier q.bits → s.shareAllows e (trSwatch q.bits) false = true →
    ∃ t, exec .evict s = .next t ∧ t.mem.tierQ = rest ∧ t.dirE b = { e with pendEvict := true } ∧
      t.f .TIER_DEFERS 0 = satAdd (s.f .TIER_DEFERS 0) 1 ∧ (∀ c, c ≠ b → t.dirE c = s.dirE c) ∧
      t.mem.st = s.mem.st ∧ t.mem.moves = s.mem.moves) ∧
  (∀ (s : State) (q : TierReq) (rest : List TierReq), s.asked 4 q rest →
    let b := trFirst q.bits
    (s.dirE b).state ≠ 0 → (s.dirE b).pins < 255 → s.shareAllows (s.dirE b) (trSwatch q.bits) false = true →
    ∃ t, exec .pin s = .next t ∧ t.mem.tierQ = rest ∧ t.dirE b = { s.dirE b with pins := (s.dirE b).pins + 1 } ∧
      (∀ c, c ≠ b → t.dirE c = s.dirE c) ∧ t.mem.st = s.mem.st ∧ t.mem.moves = s.mem.moves) ∧
  (∀ (s : State) (q : TierReq) (rest : List TierReq), s.asked 5 q rest →
    let b := trFirst q.bits
    (s.dirE b).state ≠ 0 → 1 < (s.dirE b).pins → s.shareAllows (s.dirE b) (trSwatch q.bits) false = true →
    (∀ p ∈ s.mem.dir, p.2.pendEvict = true → p.1 = b) →
    ∃ t, exec .unpin s = .next t ∧ t.dirE b = { s.dirE b with pins := (s.dirE b).pins - 1 } ∧
      (∀ c, c ≠ b → t.dirE c = s.dirE c) ∧ t.mem.st = s.mem.st ∧ t.mem.moves = s.mem.moves ∧
      t.mem.tierQ = (s.mem.tierWait.filter (fun x => hubOf (trFirst x.bits + x.done) = hubOf b)) ++ rest) ∧
  (∀ (s : State) (q : TierReq) (rest : List TierReq), s.asked 6 q rest →
    let b := trFirst q.bits
    let r : Result := { seq := q.seq, status := tsOK, sw := q.recSw, bolts := 1, entry := (s.dirE b).bits }
    ((s.dirE b).state = 0 ∨ s.shareAllows (s.dirE b) (trSwatch q.bits) false = true) → q.job ≠ 0 →
    ∃ t, exec .query s = .next t ∧ t.mem.tierQ = rest ∧ t.mem.dir = s.mem.dir ∧ t.mem.st = s.mem.st ∧
      FMap.get {} t.slots (4096 * q.part + q.slot) = ⟨true, some r.bits⟩)

/-- The phases of a move (R272 to R275): MOVE_RESERVE takes a destination, MOVE_COPY_DONE carries the data in the copy
and recopy phases, MOVE_HOLD begins the hold with its notice, MOVE_HOLD_NOTICE stops a holder and HOLD_ACK acknowledges,
MOVE_FLIP swaps HOME and DEST under a new generation, and MOVE_FREE_SOURCE ends the move; at GENERATION_SPACING_END a
bolt's pending free is carried out (R295). Rests on the model's choices of log entries 8, 12, 15, 157, 158, 171. -/
def Obligations.MovePhasesCarryBolt : Prop :=
  (∀ (s : State) (b : Nat) (m : MoveRec) (loc : Nat), s.up → b < 2 ^ 27 → s.moveOf b = some m → m.phase = .reserve →
    m.dtier ≠ 2 → (m.dtier = 3 → s.linkUp = true) →
    let e := s.dirE b
    (m.up = false → e.pins = 0) → (m.dtier = 0 → s.windowZeroing (t0Region loc) e.owner (65536 * t0Pos loc) = false) →
    s.usage e.owner m.dtier < s.quota e.owner m.dtier →
    s.choose b m.dtier e.owner e.ilv m.place (s.nearOf b e.owner (if m.place < 48 && m.cls = 2 then m.place else
      s.firstRegion e.owner)) = some loc →
    ∃ t, exec (.moveReserve b) s = .next t ∧ t.moveOf b = some { m with phase := .copy, gen := e.generation } ∧
      (∀ c, c ≠ b → t.moveOf c = s.moveOf c ∧ t.dirE c = s.dirE c) ∧ t.mem.st = s.mem.st ∧
      t.dirE b = { e with
        state := if m.inTier || m.dtier < e.tier then 2 else 3, dtier := m.dtier, dest := loc, mrec := (t.dirE b).mrec }) ∧
  (∀ (s : State) (b : Nat) (m : MoveRec), s.up → b < 2 ^ 27 → s.moveOf b = some m →
    let e := s.dirE b
    e.tier ≠ 3 → e.dtier ≠ 3 → (e.tier = 1 → s.f .BASE_STATUS_STATE (t1Stack e.home) < 3) →
    (m.phase = .copy → e.dtier ≠ 2 → ∃ t, exec (.moveCopyDone b []) s = .next t ∧
      t.mem.st = s.mem.st.move (s.placeOf e.tier e.home e.owner 0) (s.placeOf e.dtier e.dest e.owner 0) 65536 ∧
      t.moveOf b = some { m with phase := .recopy, dirty := [], passes := 0 } ∧ t.mem.dir = s.mem.dir) ∧
    (m.phase = .recopy → ∃ t, exec (.moveCopyDone b []) s = .next t ∧ t.mem = ((s.copyGranules e m.dirty).setMove b
      (some { m with dirty := [], passes := m.passes + 1 })).mem ∧
      t = { s with out := [], mem := t.mem, regs := t.regs } ∧ SameButCache s t [])) ∧
  (∀ (s : State) (b : Nat) (m : MoveRec), s.up → b < 2 ^ 27 → s.moveOf b = some m → m.phase = .recopy →
    (m.dirty = [] ∨ 4 ≤ m.passes) → s.moveLink (s.dirE b) = true → s.spaced b = true →
    exec (.moveHold b) s = .next { s with
      out := [.holdNotice b]
      mem := { s.mem with
        moves := FMap.set none s.mem.moves b (some { m with phase := .hold, await := List.range 86 }) } }) ∧
  (∀ (s : State) (b h : Nat) (m : MoveRec), s.up → b < 2 ^ 27 → h < 86 → s.moveOf b = some m → m.phase = .hold →
    (b ∉ (s.holder h).stopped → (h < 48 → s.regionInReset h = false) →
      exec (.moveHoldNotice h b) s = .next { s with
        out := []
        mem := { s.mem with
          holders := FMap.set {} s.mem.holders h { s.holder h with stopped := (s.holder h).stopped ++ [b] } } }) ∧
    (b ∈ (s.holder h).stopped →
      exec (.holdAck b h) s = .next { s with
        out := []
        mem := { s.mem with
          moves := FMap.set none s.mem.moves b (some { m with await := m.await.filter (fun x => x ≠ h) }) } })) ∧
  (∀ (s : State) (b : Nat) (m : MoveRec), s.up → b < 2 ^ 27 → s.moveOf b = some m → m.phase = .hold → m.await = [] →
    s.moveLink (s.dirE b) = true →
    let e := s.dirE b
    let g := (e.generation + 1) % 65536
    ∃ t, exec (.moveFlip b) s = .next t ∧ t.moveOf b = some { m with phase := .flipped, dirty := [], gen := g } ∧
      t.dirE b = { e with
        home := e.dest, dest := e.home, tier := e.dtier, dtier := e.tier, flipped := true, generation := g } ∧
      (∀ c, c ≠ b → t.dirE c = s.dirE c) ∧ t.mem.st = (s.copyGranules e m.dirty).mem.st ∧
      t.f .TIER_MOVES 0 = satAdd (s.f .TIER_MOVES 0) 1 ∧ t.out = [.notice b g false, .release b g e.dest e.dtier]) ∧
  (∀ (s : State) (b : Nat) (m : MoveRec), s.up → b < 2 ^ 27 → s.moveOf b = some m → m.phase = .flipped → m.held = [] →
    let e := s.dirE b
    e.pendFree = false → e.pendEvict = false → (∀ p ∈ s.mem.dir, p.2.pendEvict = true → p.1 = b) →
    ∃ t, exec (.moveFreeSource b) s = .next t ∧ t.moveOf b = none ∧
      t.dirE b = { e with state := 1, dtier := 0, dest := 0, mrec := 0, flipped := false } ∧
      (∀ c, c ≠ b → t.moveOf c = s.moveOf c ∧ t.dirE c = s.dirE c)) ∧
  (∀ (s : State) (b : Nat), s.up → b < 2 ^ 27 → s.spaced b = true → (s.dirE b).state = 1 → (s.dirE b).pins = 0 →
    s.moveOf b = none → (s.dirE b).pendFree = true → (∀ p ∈ s.mem.dir, p.2.pendEvict = true → p.1 = b) →
    ∃ t, exec (.generationSpacingEnd b) s = .next t ∧
      t.dirE b = { s.dirE b with
        state := 0, pendFree := false, pendEvict := false, generation := ((s.dirE b).generation + 1) % 65536 } ∧
      ∀ c, c ≠ b → t.dirE c = s.dirE c)

/-- Translation buffers (R270, R296, R297): after a DIR_NOTICE no entry of the bolt is of an earlier generation; a
TRANSLATION_FILL that no later notice forbids puts the bolt's entry in; DIR_SCRUB leaves no entry, and no tier request
queued, waiting or held, whose generation is not that of its directory entry or less than 2^14 behind it, and counts a
pass at every hub. Rests on the model's choices of log entries 6, 12, 13. -/
def Obligations.TranslationBuffersFollowDirectory : Prop :=
  (∀ (s : State) (h b gen : Nat) (freed : Bool), s.up → h < 86 → b < 2 ^ 27 → gen < 65536 →
    (h < 48 → s.regionInReset h = false) →
    ∃ t, exec (.dirNotice h b gen freed) s = .next t ∧ FMap.get none (t.holder h).noticed b = some gen ∧
      (∀ p ∈ (t.holder h).entries, p.1 = b → isEarlier 16 p.2.generation gen = false) ∧
      (∀ p, p.1 ≠ b → (p ∈ (t.holder h).entries ↔ p ∈ (s.holder h).entries)) ∧
      (t.holder h).stopped = (s.holder h).stopped ∧ (∀ j, j ≠ h → t.holder j = s.holder j) ∧
      t = { s with out := [], mem := { s.mem with holders := t.mem.holders } }) ∧
  (∀ (s : State) (h b k : Nat) (write : Bool) (ti loc owner : Nat), s.up → h < 86 → b < 2 ^ 27 → k < 65536 →
    s.serve b (fun x => s.shareAllows x k write) = .at ti loc owner →
    (∀ g, FMap.get none (s.holder h).noticed b = some g → isEarlier 16 (s.dirE b).generation g = false) →
    ∃ t, exec (.translationFill b h k write) s = .next t ∧
      (b, ⟨ti, loc, (s.dirE b).share, owner, (s.dirE b).generation⟩) ∈ (t.holder h).entries ∧
      (∀ j, j ≠ h → t.holder j = s.holder j) ∧ t.mem.dir = s.mem.dir ∧ t.mem.st = s.mem.st ∧
      t = { s with out := [], mem := t.mem, regs := t.regs }) ∧
  (∀ s : State, s.up → ∃ t, exec .dirScrub s = .next t ∧
      (∀ p ∈ t.mem.holders, ∀ x ∈ p.2.entries, let cur := (s.dirE x.1).generation
        x.2.generation = cur ∨ (isEarlier 16 x.2.generation cur = true ∧ (cur + 65536 - x.2.generation) % 65536 < 2 ^ 14)) ∧
      (∀ q ∈ t.mem.tierQ ++ t.mem.tierWait, s.lagging q.bolt q.gen = false) ∧
      (∀ p ∈ t.mem.moves, ∀ m, p.2 = some m → ∀ h ∈ m.held, s.lagging p.1 h.gen = false) ∧
      (∀ h, h < 4 → t.f .DIR_SCRUB_PASS h = satAdd (s.f .DIR_SCRUB_PASS h) 1) ∧
      t = { s with
        out := [], regs := t.regs
        mem := { s.mem with
          holders := t.mem.holders, tierQ := t.mem.tierQ, tierWait := t.mem.tierWait, moves := t.mem.moves } } ∧
      ∀ n i, n ≠ .DIR_SCRUB_PASS → n ≠ .DIR_SCRUB_FIX → t.f n i = s.f n i)

/-- STALL_LIMIT: a wait past the limit of a step not yet latched records itself, makes the step's bit 0 for STALL and
counts once; one that a latched step cannot leave makes the member not complete it and withdraw (R293). FLASH_PROGRAM: a
flash controller programs the oldest bolt of its buffer and counts it (R286, R288). FLASH_BUDGET_HOUR moves its window
on. TIER_T3_WRITE: the T3 window takes what is written while no bolt uses T3 (R290). Rests on the model's choices of log
entries 5, 48, 149, 173. -/
def Obligations.StallLimitsFlashAndHostWindow : Prop :=
  (∀ (s : State) (k cause : Nat) (w : Waiter), s.up → k < 65536 → cause < 6 →
    s.mem.waiters.find? (fun x => x.sw = k && s.causeNow x = cause && !x.past && msec (s.stallMs k) < s.now - x.since) = some w →
    (s.sw k).started = true → (s.sw k).latched = false →
    ∃ t, exec (.stallLimit k cause) s = .next t ∧ bitAt (t.sw k).cause causeStall = true ∧ (t.sw k).bit0 = true ∧
      (t.sw k).broken = true ∧
      (t.sw k).limitHit = true ∧ w ∉ t.mem.waiters ∧ t.f .TIER_STALL_LAST_SWATCH 0 = k ∧
      t.f .TIER_STALL_LAST_CAUSE 0 = cause ∧ t.f .TIER_STALL_LAST_FAILED 0 = 1 ∧
      t.f .TIER_STALL_FAIL 0 =
        (if (s.sw k).limitHit then s.f .TIER_STALL_FAIL 0 else satAdd (s.f .TIER_STALL_FAIL 0) 1) ∧
      ∀ j, j ≠ k → t.sw j = s.sw j) ∧
  (∀ (s : State) (k cause : Nat) (w : Waiter), s.up → k < 65536 → cause < 6 →
    s.mem.waiters.find? (fun x => x.sw = k && s.causeNow x = cause && !x.past && msec (s.stallMs k) < s.now - x.since) = some w →
    (s.sw k).started = true → (s.sw k).latched = true → w.stuck = true →
    ∃ t, exec (.stallLimit k cause) s = .next t ∧ (t.sw k).failed = true ∧ (t.sw k).limitHit = true ∧
      t.withdraw = some (s.withdraw.getD (2 ^ causeStall)) ∧ t.timedOut = false ∧ t.rejoin = 0 ∧ { w with past := true } ∈ t.mem.waiters) ∧
  (∀ (s : State) (c lost x : Nat) (rest : List Nat), s.up → c < 2 → (s.flc c).buffer = x :: rest →
    64 ≤ (s.flc c).spareGiB - lost →
    let hours := match (s.flc c).hours with
      | [] => [65536]
      | h :: hs => (h + 65536) :: hs
    ∃ t, exec (.flashProgram c lost) s = .next t ∧
      t.flc c = { s.flc c with buffer := rest, hours := hours, spareGiB := (s.flc c).spareGiB - lost } ∧
      t.f .FLC_WRITES c = satAdd (s.f .FLC_WRITES c) 1 ∧
      t.f .FLC_BUDGET_WRITTEN c = (hours.foldl (· + ·) 0 / 2 ^ 30) % 2 ^ 24 ∧
      t = { s with out := [], regs := t.regs, mem := { s.mem with flash := t.mem.flash } } ∧
      SameRegs s t [(.FLC_WRITES, c), (.FLC_BUDGET_WRITTEN, c), (.FLC_STATUS_BUDGET_HIT, c)]) ∧
  (∀ (s : State) (c : Nat), s.up → c < 2 →
    ∃ t, exec (.flashBudgetHour c) s = .next t ∧ t.flc c = { s.flc c with hours := 0 :: (s.flc c).hours.take 23 } ∧
      t = { s with out := [], regs := t.regs, mem := { s.mem with flash := t.mem.flash } } ∧
      SameRegs s t [(.FLC_BUDGET_WRITTEN, c)]) ∧
  (∀ (s : State) (size : Bool) (v : Nat), s.up → v < 2 ^ 64 → s.t3Used = false → s.txnOpen 0 = false →
    s.served 0 (.reg .tier 0 (if size then 0x10 else 0x8)) = true →
    ∃ t, exec (.tierT3Write size v) s = .next t ∧
      (size = true → t.f .TIER_T3_SIZE_BOLTS 0 = v % 2 ^ 32 ∧ SameRegs s t [(.TIER_T3_SIZE_BOLTS, 0)]) ∧
      (size = false → t.f .TIER_T3_BASE_BASE 0 = v / 65536 ∧ SameRegs s t [(.TIER_T3_BASE_BASE, 0)]) ∧
      t = { s with out := [], regs := t.regs, txns := t.txns })

/-! Seam ports and membership. -/

/-- Training (R305 to R307, R313, R316, R320): a signal starts it with HELLO; the peer's HELLO is noted; it ends at full
or half width, or not up for a round trip, a cabling or a lane count that does not do; a port retrains until nine times
in 60 s, and goes down with its signal. Rests on the model's choices of log entries 85, 89, 90. -/
def Obligations.PortsTrainRetrainAndFall : Prop :=
  (∀ (s : State) (p : Nat), s.up → p < 16 → s.f .SEAM_STATUS_STATE p = 0 → bitAt s.boot.badPorts p = false →
    ∃ t, exec (.portDetect p) s = .next t ∧ t.f .SEAM_STATUS_STATE p = 1 ∧
      t.out = [.message ((s.peerAt p).getD 0) 1 ((s.helloFields p).set 1 s.boot.moduleId)] ∧ (t.port p).present = true ∧
      (t.port p).tx = 0 ∧ (t.port p).rx = 0 ∧ (t.port p).unacked = [] ∧ (t.port p).waiting = (s.port p).waiting ∧
      (∀ q, q ≠ p → t.port q = s.port q) ∧ t = { s with out := t.out, ports := t.ports, regs := t.regs } ∧
      SameRegs s t [(.SEAM_STATUS_STATE, p)]) ∧
  (∀ (s : State) (p : Nat) (l : List Nat), s.up → p < 16 → s.f .SEAM_STATUS_STATE p = 1 ∨ s.f .SEAM_STATUS_STATE p = 7 →
    ∃ t, exec (.hello p l) s = .next t ∧ t.port p = { s.port p with hello := some (s.helloFits p l) } ∧
      t.f .SEAM_STATUS_GEN p = natMin 1 (l.getD 0 0) ∧ t.f .SEAM_PEER_ID_PEER_ID p = l.getD 1 0 % 2 ^ 64 ∧
      t.f .SEAM_STATUS_PEER_DEPTH p = l.getD 12 31 % 2 ^ 5 ∧ t = { s with out := [], ports := t.ports, regs := t.regs } ∧
      SameRegs s t [(.SEAM_STATUS_GEN, p), (.SEAM_PEER_ID_PEER_ID, p), (.SEAM_STATUS_PEER_PLACE, p),
        (.SEAM_STATUS_PEER_PORT, p), (.SEAM_STATUS_PEER_DEPTH, p)]) ∧
  (∀ (s : State) (p rtt : Nat) (lanes : List Nat), s.up → p < 16 → rtt < 65536 → s.f .SEAM_STATUS_STATE p = 1 →
    let own := sortAsc (lanes.filter (fun l => l < 18))
    let weak := lanes.foldl (fun n l => if 18 ≤ l then natMin n (l - 18) else n) own.length
    ∃ t, exec (.portUp p lanes rtt) s = .next t ∧
      ((s.port p).hello = some false → t.f .SEAM_STATUS_STATE p = 4 ∧ t.ports = s.ports) ∧
      ((s.port p).hello = some true → 2000 < rtt → t.f .SEAM_STATUS_STATE p = 5 ∧ t.f .SEAM_RTT_RTT p = rtt ∧
        t.ports = s.ports) ∧
      ((s.port p).hello = some true → rtt ≤ 2000 → weak < 8 → t.f .SEAM_STATUS_STATE p = 0 ∧ t.ports = s.ports) ∧
      ((s.port p).hello = some true → rtt ≤ 2000 → 8 ≤ weak → t.f .SEAM_RTT_RTT p = rtt ∧
        t.f .SEAM_STATUS_STATE p = (if 16 ≤ weak then 2 else 3) ∧
        t.f .SEAM_LANES_UNUSED p = (0x3FFFF - maskOf (own.take (if 16 ≤ weak then 16 else 8))) % 2 ^ 18 ∧
        (weak < 16 → t.f .SEAM_STATUS_HALF_SEEN p = 1) ∧ ∀ q, q ≠ p → t.port q = s.port q)) ∧
  (∀ (s : State) (p : Nat), s.up → p < 16 → s.portUp p = true →
    let times := s.now :: (s.port p).retrains.filter (fun t => s.now < t + sec 60)
    ∃ t, exec (.retrain p) s = .next t ∧ t.f .SEAM_RETRAIN p = satAdd (s.f .SEAM_RETRAIN p) 1 ∧
      t.port p = { s.port p with retrains := times, hello := none, naked := false } ∧
      t.f .SEAM_STATUS_STATE p = (if 8 < times.length then 6 else 7) ∧
      (8 < times.length → t.f .SEAM_STATUS_RETIRED_SEEN p = 1 ∧ t.out = []) ∧ (∃ e, t.ledgQ = s.ledgQ ++ [e] ∧ e.type = 0x05)) ∧
  (∀ (s : State) (p : Nat), s.up → p < 16 → s.f .SEAM_STATUS_STATE p ≠ 6 →
    ∃ t, exec (.signalLoss p) s = .next t ∧ t.f .SEAM_STATUS_STATE p = 0 ∧ t.f .SEAM_STATUS_GEN p = 0 ∧
      t.port p = { s.port p with present := false, hello := none } ∧ (∀ q, q ≠ p → t.port q = s.port q) ∧
      t = { s with out := [], ports := t.ports, regs := t.regs } ∧
      SameRegs s t [(.SEAM_STATUS_STATE, p), (.SEAM_STATUS_GEN, p)])

/-- Flits (R309 to R312): a flit in error is asked for again once; a DATA or CTRL flit of the expected SEQ moves the
receiver on by one; a NAK or 4 µs without an acknowledgement replays every flit from the one named on, in order. Rests
on the model's choices of log entries 57, 59, 87. -/
def Obligations.FlitsAreDeliveredOrReplayed : Prop :=
  (∀ (s : State) (p h x : Nat) (err : List Nat), s.up → p < 16 → h < 2 ^ 64 → s.portUp p = true → (s.port p).naked = false →
    ∃ t, exec (.flitReceive p h x err false) s = .next t ∧ (t.port p).naked = true ∧ (t.port p).rx = (s.port p).rx ∧
      t.out = [.flit p (ackHead { s.port p with naked := true } (flitHead 4 0 false 0 0)).1 0] ∧
      (∀ q, q ≠ p → t.port q = s.port q) ∧ t = { s with out := t.out, ports := t.ports, regs := t.regs } ∧
      SameRegs s t [(.SEAM_FEC_CORR, p)]) ∧
  (∀ (s : State) (p h x : Nat), s.up → p < 16 → h < 2 ^ 64 → s.portUp p = true → hType h = 1 ∨ hType h = 2 → hClass h ≤ 5 →
    hSeq h = (s.port p).rx →
    ∃ t, exec (.flitReceive p h x [] true) s = .next t ∧
      (let u := ((fresh s).takeAck p h).deliver p h x
       t = wrap s ((u.pump p (u.port p).waiting.length).idleBack p)) ∧
      (t.port p).rx = ((s.port p).rx + 1) % 4096 ∧ (t.port p).naked = false) ∧
  (∀ (s : State) (p : Nat) (f : Flit) (before rest : List Flit) (i : Instr), s.up → p < 16 → s.portUp p = true →
    (s.port p).unacked = before ++ f :: rest → (∀ g ∈ before, g.seq ≠ f.seq) → (∀ g ∈ f :: rest, g.replays < 15) →
    ((i = .nak p f.seq ∧ f.seq < 4096) ∨ (i = .replayTimeout p ∧ f.sentAt + usec 4 ≤ s.now ∧
      ∀ g ∈ before, s.now < g.sentAt + usec 4)) →
    ∃ t, exec i s = .next t ∧ t.out = (f :: rest).map (fun g => .flit p g.header g.payload) ∧
      t.port p = { s.port p with
        unacked := before ++ (f :: rest).map (fun g => { g with replays := g.replays + 1, sentAt := s.now }) } ∧
      t.f .SEAM_REPLAY p = satAdd (s.f .SEAM_REPLAY p) (rest.length + 1) ∧ (∀ q, q ≠ p → t.port q = s.port q) ∧
      t = { s with out := t.out, ports := t.ports, regs := t.regs } ∧ SameRegs s t [(.SEAM_REPLAY, p)])

/-- Membership messages at a serving module for a domain it is enabled in (R208, R323 to R326): JOIN and LEAVE change
the next list, a later PROPOSE is accepted and holds the domain's steps, an ANNOUNCE is noted, an ADOPT awaited enters
its epoch with the sorted list, and CMD acts at the convener. Rests on the model's choices of log entries 56, 70, 71,
86, 180. -/
def Obligations.MembershipMessagesChangeEpochs : Prop :=
  ∀ (s : State) (id d : Nat) (l : List Nat), s.up → s.domOf id = some d → s.serving = true →
    let v := s.dom d
    let at0 := l.getD 0 0
    let at1 := l.getD 1 0
    exec (.join (id :: l)) s = .next (wrap s (((fresh s).setDom d { v with
        seen := laterEpoch v.seen at1
        joins := (v.joins.filter (fun j => j.1 ≠ at0)) ++ [(at0, at1)]
        leaving := v.leaving.filter (fun x => x ≠ at0) }).trigger d)) ∧
    (at1 ∈ v.members → at1 ∉ v.leaving → exec (.leave (id :: l)) s = .next (wrap s (((fresh s).setDom d { v with
        leaving := at1 :: v.leaving, joins := v.joins.filter (fun j => j.1 ≠ at1) }).trigger d))) ∧
    (s.place ∈ l.drop 2 → isLater 32 at0 v.seen = true → s.openIn d ≠ [] →
      exec (.propose (id :: l)) s = .next (wrap s (((fresh s).setDom d { v with
        seen := at0, accepted := some ⟨at0, at1, l.drop 2, s.now, false⟩ }).setDomState d 3))) ∧
    (∀ p, v.proposal = some p → p.epoch = at0 → at1 ∈ p.list →
      (∃ x ∈ p.list, x ≠ at1 ∧ ∀ h ∈ p.heard, h.1 ≠ x) →
      exec (.announce (id :: l)) s = .next (wrap s ((fresh s).setDom d { v with
        seen := laterEpoch v.seen at0
        proposal := some { p with heard := (p.heard.filter (fun h => h.1 ≠ at1)) ++ [(at1, pairsOf (l.drop 2))] } }))) ∧
    (∀ a : Accepted, v.accepted = some a → a.epoch = at0 → a.announced = true → s.epoch d ≠ at0 →
      let x : Adopt := ⟨at0, (l.drop 3).take (l.getD 2 0), at1 ≠ 0, quadsOf (l.drop (3 + l.getD 2 0))⟩
      s.place ∈ x.list → ∃ t, exec (.adopt (id :: l)) s = .next t ∧ t = wrap s ((fresh s).enter d x) ∧
        (t.dom d).members = sortAsc x.list ∧ (t.dom d).seen = at0 ∧ (t.dom d).accepted = none ∧ (t.dom d).colls = [] ∧
        t.f .COLL_DOM_STATE_EPOCH d = at0 % 2 ^ 32 ∧ t.f .COLL_DOM_SEQ_NEXT d = 1 ∧
        t.f .COLL_EPOCHS 0 = satAdd (s.f .COLL_EPOCHS 0) 1) ∧
    (s.convenes d = true → at0 = 3 → exec (.cmd (id :: l)) s = .next (wrap s ((fresh s).removePlace d at1))) ∧
    (s.convenes d = true → at0 = 4 → exec (.cmd (id :: l)) s = .next (wrap s ((fresh s).forceDom d)))

/-- The host's commands and the timers of membership (R325 to R327, R345, R346). Rests on the model's choices of log
entries 70, 71, 72, 73. -/
def Obligations.MembershipCommandsAndTimers : Prop :=
  ∀ (s : State) (d : Nat), s.up → d < 16 →
    let v := s.dom d
    (s.domEnabled d = true → s.serving = true → s.isMember d = false →
      exec (.collCmdJoin d) s = .next (wrap s (((fresh s).sendJoin d).trigger d))) ∧
    (s.isMember d = true → s.openIn d ≠ [] →
      exec (.collCmdLeave d) s = .next { s with out := [], doms := FMap.set {} s.doms d { v with leaveDue := true } }) ∧
    (s.isMember d = true → s.openIn d = [] → ∃ t, exec (.collCmdLeave d) s = .next t ∧
      t = wrap s ((fresh s).leaveDom d (2 ^ causeWithdraw)) ∧ (t.dom d).members = [] ∧ (t.dom d).colls = [] ∧
      t.f .COLL_DOM_STATE_EPOCH d = 0 ∧ t.ledgQ = s.ledgQ ++
        [⟨0x08, s.domId d + 2 ^ 32 * s.epoch d + 2 ^ 64 * 2 ^ causeWithdraw, s.clkTime⟩]) ∧
    (∀ place, place < 8192 → s.domEnabled d = true → s.convener d = some s.place →
      exec (.collCmdRemove d place) s = .next (wrap s ((fresh s).removePlace d place)) ∧
      exec (.collCmdForce d) s = .next (wrap s ((fresh s).forceDom d)) ∧
      (place ∈ v.members → place ≠ s.place → msec 50 ≤ s.now - FMap.get 0 v.heardAt place →
        exec (.memberStrike d place) s = .next (wrap s ((fresh s).removePlace d place)))) ∧
    (∀ (fn val : Nat), fn = 0 → val < 2 ^ 64 → s.isMember d = true → bitAt val 32 = true → s.txnOpen 0 = false →
      s.served 0 (.reg .coll 0 (0x100 + 16 * d)) = true →
      ∃ t, exec (.collDomCfgWrite fn d val) s = .next t ∧ t.dom d = { v with cfgDue := some val } ∧
        t = { s with out := [], doms := t.doms, txns := t.txns }) ∧
    (∀ p, v.proposal = some p → msec 100 ≤ s.now - p.since → (∃ x ∈ p.list, ∀ h ∈ p.heard, h.1 ≠ x) →
      let silent := p.list.filter (fun x => !p.heard.any (fun h => h.1 = x) && x ≠ s.place)
      exec (.proposeRetry d) s = .next (wrap s ((((fresh s).setDom d { v with
        leaving := v.leaving ++ silent.filter v.members.contains
        joins := v.joins.filter (fun j => !silent.contains j.1) }).tally .COLL_PROPOSE_RETRY 0 1).propose d
          (p.list.filter (fun x => !silent.contains x))))) ∧
    (∀ a, v.accepted = some a → a.announced = true → msec 200 ≤ s.now - a.since →
      exec (.adoptTimeout d) s = .next (wrap s ((((fresh s).setDom d { v with
        accepted := none, proposal := none }).sendJoin d).trigger d))) ∧
    (s.f .COLL_DOM_STATE_STATE d = 1 → s.domEnabled d = true → msec 100 ≤ s.now - v.joinAt →
      exec (.joinResend d) s = .next (wrap s (((fresh s).sendJoin d).trigger d)))

/-! Registers, the data port, jobs, slots and transactions. -/

/-- Host accesses (R10, R86, R391, R392, R395, R399, R400, R402): an access unaligned or out of reach is counted and has
no other effect; a read takes the register and clears the RC fields it covers; a write puts its bytes into a job board,
and clears a W1C field written as 1; HST_INT_MASK sends causes that wait; DP_ADDR starts a row; the port reads one unit
of the directory and steps its address; a stalled read ends with zero. The host link (R386, R388, R389): its state shows
what it trained to, a link at 5.0 GT/s flags SLOW_SEEN and raises LINK, none trains without CLKREF, and up to four IDE
streams are set up. Rests on the model's choices of log entries 115, 116, 117, 147, 149. -/
def Obligations.HostAccessesAndLinkShowState : Prop :=
  (∀ (s : State) (fn off size v : Nat), s.up → fn < 9 → off < 0x10000000 → size ∈ [1, 2, 4, 8] → v < 2 ^ (8 * size) →
    aligned off size = false ∨ s.reaches fn (targetAt fn off) = false →
    (∃ t, exec (.registerWrite fn off size v) s = .next t ∧ t.f .HST_MMIO_DENIED fn = satAdd (s.f .HST_MMIO_DENIED fn) 1 ∧
      t = { s with out := [], regs := t.regs } ∧ SameRegs s t [(.HST_MMIO_DENIED, fn)]) ∧
    ∀ e, ∃ t, exec (.rcRead fn off size e) s = .next t ∧ t.f .HST_MMIO_DENIED fn = satAdd (s.f .HST_MMIO_DENIED fn) 1 ∧
      t = { s with out := [.data 0], regs := t.regs } ∧ SameRegs s t [(.HST_MMIO_DENIED, fn)]) ∧
  (∀ (s : State) (fn off size events : Nat) (b : Block) (u o : Nat), s.up → fn < 9 → off < 0x10000000 →
    aligned off size = true → targetAt fn off = .reg b u o → s.reaches fn (.reg b u o) = true →
    s.served fn (.reg b u o) = true →
    ∃ t, exec (.rcRead fn off size events) s = .next t ∧
      t = { s with out := t.out, regs := t.regs, mem := { s.mem with stackDies := t.mem.stackDies } } ∧
      (b ≠ .base → t.mem.stackDies = s.mem.stackDies) ∧
      (∀ st, t.stack st = { s.stack st with sampled := (t.stack st).sampled }) ∧
      t.out = [.data (part8 (s.regWord fn b u o) off size)] ∧
      (∀ p ∈ fieldsAt b u o, (fieldDesc p.1).access = .RC → covers off size (fieldDesc p.1) = true →
        t.f p.1 (heldIndex fn p.1 p.2) = satAdd (fieldDesc p.1).reset (if (fieldDesc p.1).width = 32 then events else 0) %
          2 ^ (fieldDesc p.1).width) ∧
      ∀ n i, ((fieldDesc n).access ≠ .RC ∨ ∀ p ∈ fieldsAt b u o, (n, i) ≠ (p.1, heldIndex fn p.1 p.2)) → t.f n i = s.f n i) ∧
  (∀ (s : State) (fn p o v : Nat), s.up → p < 8 → fn = 0 ∨ fn = p + 1 → o < 0x40000 → o % 8 = 0 → v < 2 ^ 64 →
    s.served fn (.board p o) = true →
    exec (.registerWrite fn (0x2000000 + 0x40000 * p + o) 8 v) s = .next { s with
      out := []
      mem := { s.mem with
        st := { s.mem.st with jobs := Memory.write 0 s.mem.st.jobs (0x40000 * p + o) (leBytes v 8) } } }) ∧
  (∀ (s : State) (c : Nat), s.up → c < 384 → s.served 0 (.reg .core c 8) = true →
    ∃ t, exec (.registerWrite 0 (0x1000000 + 4096 * c + 8) 8 8) s = .next t ∧ t.f .CORE_STATUS_REFUSED c = 0 ∧
      t.f .CORE_STATUS_LAST_REFUSAL c = 0 ∧ t = { s with out := [], regs := t.regs } ∧
      SameRegs s t [(.CORE_STATUS_REFUSED, c), (.CORE_STATUS_LAST_REFUSAL, c)]) ∧
  (∀ (s : State) (fn v : Nat), s.up → fn < 9 → v < 2 ^ 64 → s.served fn (.reg .hst fn 0x20) = true →
    ∃ t, exec (.intMaskWrite fn v) s = .next t ∧ t.f .HST_INT_MASK_ENABLE fn = v % 256 ∧
      t = { s with out := t.out, regs := t.regs, txns := t.txns } ∧ SameRegs s t [(.HST_INT_MASK_ENABLE, fn)] ∧
      ∀ c, c < 8 → bitAt (s.f .HST_INT_MASK_ENABLE fn) c = false → bitAt v c = true →
        bitAt (s.f .HST_INT_CAUSE_CAUSE fn) c = true →
        let w := s.sub .HST_INT_VEC_VEC fn (6 * c) 6
        Out.msix fn (if fn ≠ 0 && 8 ≤ w then 0 else w) ∈ t.out) ∧
  (∀ (s : State) (fn v : Nat), s.up → fn < 9 → v < 2 ^ 64 → s.served fn (.reg .dp fn 0) = true →
    ∃ t, exec (.dpAddrWrite fn v) s = .next t ∧ t.dp fn = { s.dp fn with row := v % 2 ^ 52, off := 0 } ∧
      (∀ g, g ≠ fn → t.dp g = s.dp g) ∧ t = { s with out := [], dps := t.dps, txns := t.txns }) ∧
  (∀ (s : State) (off x : Nat), s.up → off < 65536 → off % 8 = 0 → (s.dp 0).reqs = [] → s.f .HUB_BOOT_STEP 0 ≠ 14 →
    let v := s.dp 0
    let a := (v.row + v.off) % 2 ^ 52
    let n := 8 * s.f .DP_COUNT_COUNT 0
    dirBase ≤ a → a < dirBase + 0x80000000 → a % 16 = 0 →
    ∃ t, exec (.dataPortAccess 0 false off [x]) s = .next t ∧
      t.out = [.data ((s.dirE ((a - dirBase) / 16)).bits % 2 ^ 64)] ∧
      t.dp 0 = (if n ≠ 0 ∧ v.off + 8 = n then { v with row := (v.row + 8 * s.f .DP_STRIDE_STRIDE 0) % 2 ^ 52, off := 0 }
        else { v with off := v.off + 8 }) ∧
      t.f .DP_DONE 0 = satAdd (s.f .DP_DONE 0) 1 ∧ t = { s with out := t.out, dps := t.dps, regs := t.regs } ∧
      SameRegs s t [(.DP_DONE, 0)]) ∧
  (∀ (s : State) (fn x : Nat) (r : DpReq), s.up → fn < 9 → (s.dp fn).reqs = [r] → r.write = false → r.units = [x] →
    r.since ≠ 0 → msec (natMin (natMax (s.f .TIER_CFG_STALL_LIMIT 0) 1) 10000) < s.now + 1 - r.since →
    ∃ t, exec (.dpReadStall fn) s = .next t ∧ t.out = (r.got ++ [0]).map Out.data ∧ (t.dp fn).reqs = [] ∧
      t.f .DP_ERR fn = satAdd (s.f .DP_ERR fn) 1 ∧ t.f .DP_STATUS_ERR_SEEN fn = 1 ∧ t.f .DP_STATUS_LAST_ERR fn = 4 ∧
      t.f .DP_DONE fn = satAdd (s.f .DP_DONE fn) 1 ∧ t = { s with out := t.out, dps := t.dps, regs := t.regs } ∧
      SameRegs s t [(.DP_ERR, fn), (.DP_STATUS_ERR_SEEN, fn), (.DP_STATUS_LAST_ERR, fn), (.DP_DONE, fn)]) ∧
  (∀ (s : State) (rate width : Nat) (flit : Bool), s.up → rate < 5 → width ∈ [0, 1, 2, 4] →
    (rate ≠ 0 → s.clk.refGone = true → exec (.linkStateChange rate width flit) s = .next { s with out := [] }) ∧
    (rate = 0 ∨ s.clk.refGone = false → ∃ t, exec (.linkStateChange rate width flit) s = .next t ∧
      t.f .HST_LINK_RATE 0 = rate ∧ t.f .HST_LINK_WIDTH 0 = width ∧ t.f .HST_LINK_FLIT 0 = flagBit flit ∧
      (rate = 1 → t.f .HST_LINK_SLOW_SEEN 0 = 1 ∧ bitAt (t.f .HST_INT_CAUSE_CAUSE 0) 7 = true) ∧
      t = { s with out := t.out, regs := t.regs, hostLink := decide (rate ≠ 0) } ∧
      SameRegs s t ([(.HST_LINK_RATE, 0), (.HST_LINK_WIDTH, 0), (.HST_LINK_FLIT, 0)] ++
        if rate = 1 then [(.HST_LINK_SLOW_SEEN, 0), (.HST_INT_CAUSE_CAUSE, 0)] else []))) ∧
  (∀ s : State, s.up → s.f .HST_LINK_IDE_STREAMS 0 ≤ 4 →
    (∃ t, exec (.ideKmRequest true) s = .next t ∧
      t.f .HST_LINK_IDE_STREAMS 0 = natMin 4 (s.f .HST_LINK_IDE_STREAMS 0 + 1) ∧ t = { s with out := [], regs := t.regs } ∧
      SameRegs s t [(.HST_LINK_IDE_STREAMS, 0)]) ∧
    ∃ t, exec (.ideKmRequest false) s = .next t ∧ t.f .HST_LINK_IDE_STREAMS 0 = s.f .HST_LINK_IDE_STREAMS 0 - 1 ∧
      t = { s with out := [], regs := t.regs } ∧ SameRegs s t [(.HST_LINK_IDE_STREAMS, 0)])

/-- Job boards and slots (R402 to R405, R408 to R410): a check takes a good record that carries the next sequence,
reserving its slot; a record whose slot is reserved stops it; the front record acts by its type; a slot reads as posted
and RELEASE empties it. Rests on the model's choices of log entries 93, 94. -/
def Obligations.JobBoardsTakeAndPost : Prop :=
  (∀ (s : State) (p n : Nat), p < 8 →
    let v := s.boardRec p
    s.f .HUB_PART_CFG_ENABLE p = 1 → s.f .HUB_BOOT_READY 0 = 1 →
    (s.up → exec (.jobBoardCheck p) s = .next (wrap s ((fresh s).boardLoop p 64))) ∧
    (bitField v 0 32 ≠ s.boardSeq p → let t := s.boardLoop p n
      t.boardSeq p = s.boardSeq p ∧ t.f .HST_JOB_STALLED (p + 1) = 0 ∧ t.f .HST_JOB_WHY (p + 1) = 0 ∧ t.slots = s.slots ∧
        t.taken = s.taken) ∧
    (bitField v 0 32 = s.boardSeq p → (FMap.get {} s.slots (4096 * p + jrSlot v)).reserved = true →
      let t := s.boardLoop p (n + 1)
      t.boardSeq p = s.boardSeq p ∧ t.f .HST_JOB_STALLED (p + 1) = 1 ∧ t.f .HST_JOB_WHY (p + 1) = 1 ∧ t.slots = s.slots ∧
        t.taken = s.taken) ∧
    (bitField v 0 32 = s.boardSeq p → s.boardWhy p v = 0 → jrBad v = false → s.partHasSwatch p (jrSwatch v) = true →
      s.boardLoop p (n + 1) = (s.takeRecord p v).boardLoop p n ∧
        FMap.get {} (s.takeRecord p v).slots (4096 * p + jrSlot v) = ⟨true, none⟩ ∧
        (s.takeRecord p v).boardSeq p = (s.boardSeq p + 1) % 2 ^ 32 ∧ (s.takeRecord p v).taken = s.taken ++ [(p, v)] ∧
        (s.takeRecord p v).f .HST_JOBS (p + 1) = satAdd (s.f .HST_JOBS (p + 1)) 1)) ∧
  (∀ (s : State) (p v : Nat) (rest : List (Nat × Nat)), s.up → s.taken = (p, v) :: rest →
    let k := jrSwatch v
    let r : RunJob :=
      { seq := bitField v 0 32, slot := jrSlot v, part := p, irq := bitAt v 36, left := jrSteps v, ckpt := bitAt v 37 }
    (jrType v = 0 → jrSteps v ≠ 0 → exec .jobRun s = .next { s with
      out := [], taken := rest, sws := FMap.set {} s.sws k { s.sw k with runs := (s.sw k).runs ++ [r] } }) ∧
    (jrType v = 0 → jrSteps v = 0 → bitAt v 36 = false → exec .jobRun s = .next { s with
      out := [], taken := rest
      slots := FMap.set {} s.slots (4096 * p + jrSlot v) ⟨true, some ({ seq := bitField v 0 32, sw := k } : Result).bits⟩ }) ∧
    (jrType v = 1 → trOp (bitField v 256 256) ≤ 6 → exec .jobTier s = .next { s with
      out := [], taken := rest
      mem := { s.mem with
        tierQ := s.mem.tierQ ++
          [⟨bitField v 256 256, 0, 1, p, bitField v 0 32, jrSlot v, bitAt v 36, s.now,
            (s.dirE (trFirst (bitField v 256 256))).generation, k⟩] } }) ∧
    (jrType v = 2 → bitAt v 36 = false → (s.sw k).started = true → exec .jobStop s = .next { s with
      out := [], taken := rest, sws := FMap.set {} s.sws k { s.sw k with stopDue := true }
      slots := FMap.set {} s.slots (4096 * p + jrSlot v) ⟨true, some ({ seq := bitField v 0 32, sw := k } : Result).bits⟩ })) ∧
  (∀ (s : State) (fn p i : Nat), s.up → fn < 9 → p < 8 → i < 4096 →
    let v := FMap.get {} s.slots (4096 * p + i)
    (fnReaches fn p = false → ∃ t u, exec (.slotRead fn p i) s = .next t ∧ exec (.slotRelease fn p i) s = .next u ∧
      t.out = [.data 0] ∧ t.f .HST_MMIO_DENIED fn = satAdd (s.f .HST_MMIO_DENIED fn) 1 ∧ t.slots = s.slots ∧
      u.f .HST_MMIO_DENIED fn = satAdd (s.f .HST_MMIO_DENIED fn) 1 ∧ u.slots = s.slots) ∧
    (fnReaches fn p = true → v.posted = none → ∃ t, exec (.slotRead fn p i) s = .next t ∧ t.out = [.data 0] ∧
      t.f .HST_EARLY_READS fn = satAdd (s.f .HST_EARLY_READS fn) 1 ∧ t = { s with out := t.out, regs := t.regs } ∧
      SameRegs s t [(.HST_EARLY_READS, fn)]) ∧
    (∀ x, fnReaches fn p = true → v.posted = some x →
      exec (.slotRead fn p i) s = .next { s with out := [.data x] } ∧
      ∃ t, exec (.slotRelease fn p i) s = .next t ∧ FMap.get {} t.slots (4096 * p + i) = {} ∧
        (∀ j, j ≠ 4096 * p + i → FMap.get {} t.slots j = FMap.get {} s.slots j) ∧
        t = { s with out := [], slots := t.slots }))

/-- Transactions (R420 to R422): BEGIN opens an empty one, ROLLBACK closes it unapplied, and a COMMIT that fails a check
closes it with the check's result; one accepted takes the function's number and puts its entry in place. Without a
transaction open, or with one open, RESULT says so. Rests on the model's choices of log entries 119, 120. -/
def Obligations.TransactionsOpenAndClose : Prop :=
  ∀ (s : State) (fn : Nat), s.up → fn < 9 →
    let v := s.txn fn
    (s.txnOpen fn = true → ∃ t, exec (.begin fn) s = .next t ∧ t.f .TXN_STATUS_RESULT fn = 2 ∧
      t = { s with out := [], regs := t.regs } ∧ SameRegs s t [(.TXN_STATUS_RESULT, fn)]) ∧
    (s.txnOpen fn = false → ∃ t, exec (.begin fn) s = .next t ∧ t.f .TXN_STATUS_OPEN fn = 1 ∧
      t.f .TXN_STATUS_OVERFLOW fn = 0 ∧ t.f .TXN_STATUS_RESULT fn = 0 ∧ t.txn fn = { v with ents := [], written := [] } ∧
      t = { s with out := [], regs := t.regs, txns := t.txns } ∧
      SameRegs s t [(.TXN_STATUS_OPEN, fn), (.TXN_STATUS_OVERFLOW, fn), (.TXN_STATUS_RESULT, fn)]) ∧
    (s.txnOpen fn = false → ∀ i ∈ [Instr.rollback fn, .commit fn], ∃ t, exec i s = .next t ∧
      t.f .TXN_STATUS_RESULT fn = 1 ∧ t = { s with out := [], regs := t.regs } ∧
      SameRegs s t [(.TXN_STATUS_RESULT, fn)]) ∧
    (∀ i code num, (i, code, num) ∈ [(Instr.rollback fn, 0, v.next), (.commit fn, s.commitCheck fn, (v.next + 1) % 2 ^ 32)] →
      s.txnOpen fn = true → (i = .commit fn → code ≠ 0) → ∃ t, exec i s = .next t ∧ t.f .TXN_STATUS_OPEN fn = 0 ∧
      t.f .TXN_STATUS_OVERFLOW fn = 0 ∧ t.f .TXN_STATUS_RESULT fn = code ∧
      t.txn fn = { v with next := num, ents := [], written := [] } ∧ t = { s with out := [], regs := t.regs, txns := t.txns } ∧
      SameRegs s t [(.TXN_STATUS_OPEN, fn), (.TXN_STATUS_OVERFLOW, fn), (.TXN_STATUS_RESULT, fn)]) ∧
    (∀ e, s.commitCheck fn = 0 → v.ents = [e] → s.txnParts fn [e] = [] → ∃ t, exec (.commit fn) s = .next t ∧
      t.f .TXN_STATUS_OPEN fn = 0 ∧ t.f .TXN_STATUS_RESULT fn = 0 ∧ t.f .TXN_STATUS_LAST_COMMIT fn = v.next % 2 ^ 32 ∧
      (t.txn fn).ents = [] ∧ (t.txn fn).next = (v.next + 1) % 2 ^ 32 ∧
      t.mem = (((fresh s).setTxn fn { v with next := (v.next + 1) % 2 ^ 32 }).applyEnt fn v.next e).mem ∧
      t.held = (((fresh s).setTxn fn { v with next := (v.next + 1) % 2 ^ 32 }).applyEnt fn v.next e).held)

/-! Patterns, SMBus, the thimble and the ledger. -/

/-- PAT_CMD (R414, R417): SELECT_NEXT and CLEAR_NEXT set the pattern of the next bring-up; WRITE is BUSY during another,
refuses an image that is not there, unsigned, invalid or not later, and writes one it accepts over one copy; when it
ends BUSY goes and the result shows. Rests on the model's choices of log entries 54, 129, 130. -/
def Obligations.PatternCommandsSelectAndWrite : Prop :=
  ∀ (s : State) (n : Nat), s.up → n < 4 →
    (∃ t, exec (.selectNext n) s = .next t ∧ t.f .PAT_STATUS_NEXT 0 = n ∧ t.f .PAT_STATUS_NEXT_VALID 0 = 1 ∧
      t = { s with out := [], regs := t.regs } ∧ SameRegs s t [(.PAT_STATUS_NEXT, 0), (.PAT_STATUS_NEXT_VALID, 0)]) ∧
    (∃ t, exec .clearNext s = .next t ∧ t.f .PAT_STATUS_NEXT 0 = 0 ∧ t.f .PAT_STATUS_NEXT_VALID 0 = 0 ∧
      t = { s with out := [], regs := t.regs } ∧ SameRegs s t [(.PAT_STATUS_NEXT, 0), (.PAT_STATUS_NEXT_VALID, 0)]) ∧
    (∀ code, (s.f .PAT_STATUS_BUSY 0 = 1 ∧ code = 4) ∨ (s.f .PAT_STATUS_BUSY 0 ≠ 1 ∧ s.patImage = none ∧ code = 2) →
      ∃ t, exec (.patWrite n) s = .next t ∧ t.f .PAT_STATUS_WRITE_RESULT 0 = code ∧
      t = { s with out := [], regs := t.regs } ∧ SameRegs s t [(.PAT_STATUS_WRITE_RESULT, 0)]) ∧
    (∀ r, s.f .PAT_STATUS_BUSY 0 ≠ 1 → s.patImage = some r → r.length = 65536 → patLength r + 178 ≤ 65536 →
      let k := s.patTarget n
      ∃ t, exec (.patWrite n) s = .next t ∧
        if patSigned s.ownerKey r = true ∧ patValid s.ownerKey n r = true ∧ s.patLater n r = true then
          t.f .PAT_STATUS_BUSY 0 = 1 ∧ t.thm.patWrite = some (n, k) ∧ t.patCopy n k = r ∧
          (∀ a, a < patAt n k ∨ patAt n k + 65536 ≤ a → FMap.get 255 t.mem.st.cfg a = FMap.get 255 s.mem.st.cfg a) ∧
          t.ledgQ = s.ledgQ ++ [⟨0x0A, n + 2 ^ 8 * k + 2 ^ 24 * patGen r, s.clkTime⟩] ∧
          SameRegs s t [(.PAT_STATUS_BUSY, 0), (.LEDG_STATUS_QUEUE, 0)]
        else
          t.f .PAT_STATUS_WRITE_RESULT 0 =
            (if patSigned s.ownerKey r = false then 1 else if patValid s.ownerKey n r = false then 2 else 3) ∧
          t = { s with out := [], regs := t.regs } ∧ SameRegs s t [(.PAT_STATUS_WRITE_RESULT, 0)]) ∧
    (∀ m k ok, s.thm.patWrite = some (m, k) → ∃ t, exec (.patWriteDone ok) s = .next t ∧ t.thm.patWrite = none ∧
      t.f .PAT_STATUS_BUSY 0 = 0 ∧ t.f .PAT_STATUS_WRITE_RESULT 0 = (if ok then 0 else 5) ∧
      (∀ a, a < patAt m k ∨ patAt m k + 65536 ≤ a → FMap.get 255 t.mem.st.cfg a = FMap.get 255 s.mem.st.cfg a) ∧
      (ok = true → t.mem = s.mem))

/-- The SMBus target while it serves (R424 to R426): each read returns its data, ALERT_CLEAR clears the causes written
as 1, ALERT_MASK takes the mask, and the ledger index moves on by 32 with a read. Rests on the model's choices of log
entries 77, 111, 145, 146. -/
def Obligations.SmbusCommandsReadAndClear : Prop :=
  ∀ s : State, s.smbServes = true →
    exec .smbIdentity s = .next { s with
        out := [.data (leNat (leBytes Config.partCode 2 ++ leBytes s.thm.grade 1 ++ leBytes moduleIdentity 8 ++ leBytes (s.imageVersion (s.f .THM_STATUS_SLOT 0)) 4 ++ leBytes 1 1))] } ∧
    exec .smbStatus s = .next { s with
        out := [.data (s.f .HUB_BOOT_READY 0 + 2 * s.f .HUB_BOOT_DEGRADED 0 + 4 * flagBit s.isWithdrawn + 8 * flagBit (s.f .PAT_STATUS_SOURCE 0 = 3) + 16 * s.f .HUB_BOOT_STEP 0)] } ∧
    exec .smbTemps s = .next { s with
        out := [.data (leNat ((List.range 31).map (fun i => BitVec.ofNat 8 (s.smb.temps.getD i 0))))] } ∧
    exec .smbPower s = .next { s with
        out := [.data (leNat (leBytes (s.f .PWR_INPUT_MV 0) 2 ++ leBytes s.inputMa 4 ++ leBytes (s.f .PWR_INPUT_DW 0) 4 ++ leBytes s.thm.watts 2))] } ∧
    exec .smbAlertRead s = .next { s with out := [.data s.smb.alerts] } ∧
    (∀ v, v < 65536 → ∃ t, exec (.smbAlertClear v) s = .next t ∧
      (∀ c, c < 7 → bitAt t.smb.alerts c = (bitAt s.smb.alerts c && !bitAt v c)) ∧
      t = { s with out := [], smb := { s.smb with alerts := t.smb.alerts } }) ∧
    (∀ v, v < 65536 → ∃ t, exec (.smbAlertMask v) s = .next t ∧ t.smb = { s.smb with mask := v } ∧
      (s.alertPin = false → t.alertPin = true → bitAt (t.f .HST_INT_CAUSE_CAUSE 0) 3 = true) ∧
      t = { s with out := t.out, smb := t.smb, regs := t.regs } ∧ SameRegs s t [(.HST_INT_CAUSE_CAUSE, 0)]) ∧
    (∀ v, v < 2 ^ 32 → exec (.smbLedgerIndex v) s = .next { s with out := [], smb := { s.smb with index := v } }) ∧
    exec .smbLedgerRead s = .next { s with
      out := [.data (leNat ((List.range 32).map (fun j => if s.smb.index + j < 0x3000000 then
        FMap.get 255 s.mem.st.cfg (0x5000000 + (s.smb.index + j)) else (255 : Byte))))]
      smb := { s.smb with index := (s.smb.index + 32) % 2 ^ 32 } } ∧
    exec .smbAlertResponse s = .next { s with out := if s.alertPin then [.data (0x58 + s.bpos)] else [] }

/-- Commands of the thimble (R482 to R487, R500): BUSY while it boots or wipes; REFURBISH, OWNER, COMMIT_SVN and
REVOKE_F0 need an authorisation that checks; ATTEST writes its report behind the nonce; SPDM returns the device
certificate chain; WIPE records its beginning and resets the module; recovery writes a slot. Rests on the model's
choices of log entries 54, 124, 125, 126, 127, 128, 148. -/
def Obligations.ThimbleCommandsActUnderTheirChecks : Prop :=
  ∀ s : State, s.up →
    let refused (t : State) (op code : Nat) : Prop := t.f .THM_RESULT_RESULT 0 = code ∧ t.f .THM_RESULT_OP 0 = op ∧
      t = { s with out := [], regs := t.regs } ∧ SameRegs s t [(.THM_RESULT_RESULT, 0), (.THM_RESULT_OP, 0)]
    (∀ i op, (i, op) ∈ [(Instr.refurbish, 3), (.owner, 4), (.commitSvn, 5), (.revokeF0, 6)] → s.f .THM_STATUS_STATE 0 ≠ 4 →
      s.thmBusy ≠ 0 → ∃ t, exec i s = .next t ∧ refused t op s.thmBusy) ∧
    (s.thmBusy = 0 → s.f .THM_STATUS_STATE 0 ≠ 4 → ∃ t, exec .refurbish s = .next t ∧
      if s.authCheck 3 = 0 then t.f .THM_STATUS_REFURB_REQ 0 = 1 ∧ t.f .THM_RESULT_RESULT 0 = 0 ∧
        t.f .THM_RESULT_OP 0 = 3 ∧ t.ledgQ = s.ledgQ ++ [⟨0x0F, 0, s.clkTime⟩] ∧ t.thm = s.thm ∧ t.mem.st = s.mem.st
      else refused t 3 (s.authCheck 3)) ∧
    (s.thmBusy = 0 → ∃ t, exec .owner s = .next t ∧
      if s.authCheck 4 = 0 then t.mem.st = s.putOwner.mem.st ∧ t.ledgQ = s.putOwner.ledgQ ∧
        t.f .THM_RESULT_RESULT 0 = 0 ∧ t.f .THM_RESULT_OP 0 = 4
      else refused t 4 (s.authCheck 4)) ∧
    (s.thmBusy = 0 →
      let v := natMax s.thm.minSvn (natMin 64 (s.f .THM_STATUS_SVN 0))
      let ok := (List.range 2).any (fun i => s.imageOk i v s.thm.revoked)
      ∃ t, exec .commitSvn s = .next t ∧
        if s.authCheck 5 = 0 then t.thm = { s.thm with minSvn := if ok then v else s.thm.minSvn } ∧
          t.f .THM_RESULT_RESULT 0 = (if ok then 0 else 4) ∧ t.f .THM_RESULT_OP 0 = 5
        else refused t 5 (s.authCheck 5)) ∧
    (s.thmBusy = 0 →
      let ok := (List.range 2).any (fun i => s.imageOk i s.thm.minSvn true)
      ∃ t, exec .revokeF0 s = .next t ∧
        if s.authCheck 6 = 0 then t.thm = { s.thm with revoked := s.thm.revoked || ok } ∧
          t.f .THM_RESULT_RESULT 0 = (if ok then 0 else 4) ∧ t.f .THM_RESULT_OP 0 = 6
        else refused t 6 (s.authCheck 6)) ∧
    (let a := s.f .THM_ARG_ADDR 0
     s.thmBusy = 0 → a % 64 = 0 → a + 576 ≤ 2 ^ 43 → (∀ b ∈ boltsOf a 576, (s.dirE b).state ≠ 0) →
     ∃ t, exec .attest s = .next t ∧ t.f .THM_RESULT_RESULT 0 = 0 ∧ t.f .THM_RESULT_OP 0 = 1 ∧
       t.mem = (s.putDev (a + 64) (s.report (s.dev a 32) ++ (Config.ed448Sign (aliasSecret
         (s.imageDigest (s.f .THM_STATUS_SLOT 0))) (s.report (s.dev a 32))).take 114)).mem) ∧
    (∀ nonce, nonce < 2 ^ 256 → let digest := s.imageDigest (s.f .THM_STATUS_SLOT 0)
      exec (.spdmRequest 0 nonce) s = .next { s with
        out := [.data (leNat (cut (s.header (s.ownCopy.getD 0)) 8 179 ++ (aliasPublic digest ++
          Config.ed448Sign Config.deviceSeed (aliasPublic digest))))] }) ∧
    (s.thmBusy = 0 → s.f .THM_STATUS_STATE 0 ≠ 4 →
      exec .wipe s = .next (wrapAll s ((fresh s).ledger 0x0E 0).moduleReset)) ∧
    (s.f .THM_STATUS_STATE 0 = 2 → ∀ slot, slot < 2 → ∃ t, exec (.rcvBegin slot) s = .next t ∧ t.thm.rcv = some (slot, 0) ∧
      t.f .THM_RESULT_RESULT 0 = 0 ∧ t.f .THM_RESULT_OP 0 = 7 ∧
      ∀ a, FMap.get 255 t.mem.st.cfg a =
        if imageAt slot ≤ a ∧ a < imageAt slot + 0x2000000 then 255 else FMap.get 255 s.mem.st.cfg a) ∧
    (∀ slot o v, s.thm.rcv = some (slot, o) → o < 0x2000000 → v < 2 ^ 64 →
      exec (.rcvDataWrite v) s = .next { s with
        out := [], thm := { s.thm with rcv := some (slot, o + 8) }
        mem := { s.mem with
          st := { s.mem.st with cfg := Memory.write 255 s.mem.st.cfg (imageAt slot + o) (leBytes v 8) } } }) ∧
    (∀ slot o, s.thm.rcv = some (slot, o) → ∃ t, exec .rcvEnd s = .next t ∧ t.thm = { s.thm with rcv := none } ∧
      t.f .THM_RESULT_RESULT 0 = (if s.imageValid slot then 0 else 2) ∧ t.f .THM_RESULT_OP 0 = 8 ∧
      ∃ e, t.ledgQ = s.ledgQ ++ [e] ∧ e.type = 0x0B)

/-- The service ledger (R489 to R492): the queue's front entry is programmed behind the newest one, its bytes chained to
the one before it and signed; HOURS and FLASH are queued when due; an archive erases the oldest sectors under a SUMMARY.
Rests on the model's choices of log entries 54, 122, 123, 128. -/
def Obligations.LedgerProgramsQueuesAndArchives : Prop :=
  (∀ (s : State) (e : LedgEnt) (rest : List LedgEnt), s.pwrgd = true → s.ledgQ = e :: rest → e.type ≠ 0x07 →
    let q := s.thm.newest + 1
    (q - 1) / 256 - (s.thm.oldest - 1) / 256 + 1 < 767 →
    ∃ t, exec .ledgerProgram s = .next t ∧ t.ledgQ = rest ∧ t.thm = { s.thm.learn q e.type e.payload with newest := q } ∧
      t.mem.st = { s.mem.st with cfg := Memory.write 255 s.mem.st.cfg (entryAt q) (s.entryBytes e q) } ∧
      t.f .LEDG_WRITES 0 = satAdd (s.f .LEDG_WRITES 0) 1 ∧ t.f .LEDG_HEAD_SEQ 0 = q % 2 ^ 64 ∧
      t.f .LEDG_TAIL_SEQ 0 = (t.thm.oldest) % 2 ^ 64) ∧
  (∀ s : State, s.up → sec 14400 ≤ s.now - s.meters.hoursAt → sec 14400 ≤ s.now - s.meters.flashAt →
    s.now - s.meters.stackAt < sec 86400 →
    ∃ t h f0 f1, exec .ledgerPeriodic s = .next t ∧ t.ledgQ = s.ledgQ ++ [h, f0, f1] ∧ h.type = 0x02 ∧ f0.type = 0x04 ∧
      f1.type = 0x04 ∧ h.time = s.clkTime ∧ t.meters.hoursAt = s.now ∧ t.meters.flashAt = s.now ∧
      t = { s with out := [], ledgQ := t.ledgQ, meters := t.meters, regs := t.regs } ∧
      SameRegs s t [(.LEDG_STATUS_QUEUE, 0)]) ∧
  (∀ (s : State) (n : Nat), s.up →
    let first := (s.thm.oldest - 1) / 256
    let m := natMin n ((s.thm.newest - 1) / 256 - first)
    m ≠ 0 → ∃ t e, exec (.archive n) s = .next t ∧ t.thm = { s.thm with oldest := 256 * (first + m) + 1 } ∧
      t.ledgQ = s.ledgQ ++ [e] ∧ e.type = 0x11 ∧ t.f .LEDG_STATUS_ARCHIVED_SEEN 0 = 1 ∧
      ∀ a, FMap.get 255 t.mem.st.cfg a = if ∃ i, i < m ∧ 0x5000000 + 65536 * ((first + i) % 768) ≤ a ∧
        a < 0x5000000 + 65536 * ((first + i) % 768) + 65536 then 255 else FMap.get 255 s.mem.st.cfg a)

/-! Power, bring-up and resets. -/

/-- The pins and the module reset (R288, R385, R386, R447, R471): PWRGD starts and ends power, a flash window being
taken from the ledger; PERST# and HUB_RESET reset the module, which keeps the next pattern, the T3 window and the
straps; when the drain ends, or PERST# rises, a bring-up begins. Rests on the model's choices of log entries 135, 136,
137, 159, 170. -/
def Obligations.PinsPowerResetAndStartTheModule : Prop :=
  (∀ s : State, s.pwrgd = false →
    (∃ t, exec .pwrgdAssert s = .next t ∧ (∀ c, c < 2 → t.flc c = s.flashRestored c) ∧ t = { s with
      out := [], pwrgd := true, meters := { s.meters with onAt := s.now }, mem := { s.mem with flash := t.mem.flash } }) ∧
    exec .perstAssert s = .next { s with out := [], boot := { s.boot with perst := true } }) ∧
  (∀ s : State, s.pwrgd = true → ∃ t, exec .pwrgdDeassert s = .next t ∧ t.pwrgd = false ∧ t.inReset = true ∧ t.regs = [] ∧
    t.cores = [] ∧ t.sws = [] ∧ t.ledgQ = [] ∧ t.mem.dir = [] ∧
    (s.thm.patWrite = none → t.mem.st = { ({} : Stores) with cfg := s.mem.st.cfg, host := s.mem.st.host }) ∧
    t.thm = { s.thm with rcv := none, patWrite := none, clean := false }) ∧
  (∀ (s : State) (i : Instr), i ∈ [Instr.moduleReset, .perstAssert] → s.up → s.held = [] → s.mem.moves = [] →
    ∃ t, exec i s = .next t ∧ t.inReset = true ∧ t.boot.draining = true ∧
      t.boot.perst = (s.boot.perst || decide (i = .perstAssert)) ∧ t.cores = [] ∧ t.sws = [] ∧ t.doms = [] ∧ t.ports = [] ∧
      t.slots = [] ∧ t.mem.st.sram = [] ∧ t.mem.st.jobs = [] ∧ t.mem.st.cfg = s.mem.st.cfg ∧
      t.mem.st.pocket = s.mem.st.pocket ∧ t.mem.st.flash = s.mem.st.flash ∧ t.mem.st.host = s.mem.st.host ∧
      t.mem.st.scratch = s.mem.st.scratch ∧ t.clk = s.clk.fresh s.now ∧
      ∀ n j, t.f n j = if n ∈ keptFields ∧ j = 0 then s.f n j else (fieldDesc n).reset) ∧
  (∀ s : State, s.pwrgd = true → s.boot.draining = true → s.ledgQ = [] →
    (s.boot.perst = true → exec .resetDrainEnd s = .next { s with
      out := [], thm := { s.thm with patWrite := none }, boot := { s.boot with draining := false } }) ∧
    (s.boot.perst = false → ∃ t, exec .resetDrainEnd s = .next t ∧ t.inReset = false ∧ t.boot.draining = false ∧
      t.f .HUB_BOOT_STEP 0 = 1 ∧ t.clk = { s.clk.fresh s.now with zeroAt := s.now } ∧ t.meters.boots = s.meters.boots + 1)) ∧
  (∀ (s : State) (x : Nat), s.pwrgd = true → x < 32 → s.boot.perst = true → s.boot.draining = false →
    ∃ t, exec (.perstDeassert x) s = .next t ∧ t.inReset = false ∧ t.boot.perst = false ∧ t.f .HUB_BOOT_STEP 0 = 1 ∧
      t.f .HST_STRAPS_BOARDPOS 0 = x % 8 ∧ t.f .HST_STRAPS_PATSEL 0 = x / 8 ∧ t.boot.begun = true ∧
      t.f .HUB_BOOT_WARM 0 = flagBit (s.boot.begun && !s.thm.wipeOpen && !s.thm.refurbDue && !s.thm.refurbOpen))

/-- The steps of a bring-up follow each other while their tests find nothing (R447), a stack with more than two lanes of
a channel to replace, or that fails its test, is fenced (R238), a controller's wear is shown (R11), a failed hub, weave
or seam stops it with FAIL_WHY (R459), and without a valid image or boot header the module is in recovery (R482). A
fitting slice (R461) counts; one that fails on a core in use makes it faulty, and on the free spare takes it off the map
under a ledger entry. Rests on the model's choices of log entries 138, 139, 140, 144, 180. -/
def Obligations.BringUpStepsAndFittingSlices : Prop :=
  (∀ (s : State) (r : List Nat), s.up → s.f .THM_STATUS_STATE 0 ≠ 2 →
     s.f .HUB_BOOT_READY 0 = 0 ∨ s.refit = [] →
     let stopped (why : Nat) : Prop := ∃ t, exec (.bringUpStep r) s = .next t ∧ t.f .HUB_BOOT_STEP 0 = 13 ∧
       t.f .HUB_BOOT_FAIL_WHY 0 = why ∧ t.f .THM_STATUS_STATE 0 = 1 ∧ t.mem = s.mem ∧ t.ledgQ = s.ledgQ
     let goes (n : Nat) : Prop := ∃ t, exec (.bringUpStep r) s = .next t ∧ t.f .HUB_BOOT_STEP 0 = n ∧ t.boot.stepAt = s.now
     (s.bootStep = 1 → s.clk.refGone = false → (r.getD 0 0 = 0 → goes 2) ∧ (r.getD 0 0 ≠ 0 → stopped 1)) ∧
     (s.bootStep = 2 → s.ownCopy = none ∨ (s.imageValid 0 = false ∧ s.imageValid 1 = false) →
       ∃ t, exec (.bringUpStep r) s = .next t ∧ t.f .THM_STATUS_STATE 0 = 2 ∧ t.f .HUB_BOOT_STEP 0 = 2) ∧
     (s.bootStep = 4 → s.clk.atNominal = true → s.clk.pass = s.clk.target → goes 5 ∧
       ∀ t, exec (.bringUpStep r) s = .next t → t.clk = s.clk ∧ ∀ st, st < 24 → t.f .BASE_STATUS_STATE st = 1) ∧
     (s.bootStep = 5 → goes 6 ∧ ∀ t, exec (.bringUpStep r) s = .next t → s.boot.refurb = false → ∀ st, st < 24 →
       let bad := s.inMap 4 st 0 = true ∨ r.getD st 0 = 2 ∨
         ∃ c, c < 32 ∧ (2 < (s.badLanes r st c).length ∨ Nat.testBit (chanResult r st c) 73 = true)
       (bad → t.f .BASE_STATUS_STATE st = 4) ∧ (¬bad → t.f .BASE_STATUS_STATE st = 2)) ∧
     (s.bootStep = 6 → goes 7 ∧ ∀ t, exec (.bringUpStep r) s = .next t → s.boot.refurb = false → ∀ c, c < 2 →
       let bad := r.getD c 0 = 1 ∨ s.inMap 5 c 0 = true
       (bad → (t.flc c).fenced = true ∧ t.f .FLC_STATUS_STATE c = 2) ∧
       (¬bad → (t.flc c).fenced = false ∧ t.f .FLC_STATUS_STATE c = 1) ∧
       t.f .FLC_WEAR_AVG_PE c = r.getD (2 + 3 * c) 0 % 2 ^ 16) ∧
     (s.bootStep = 7 → goes 8 ∧ ∀ t, exec (.bringUpStep r) s = .next t → ∀ g, g < 48 →
       t.f .RGN_CORE_MAP_FUSED g = r.getD g 0 % 512 ∧ t.f .RGN_STATUS_STATE g = 1) ∧
     (s.bootStep = 8 →
       (r.getD 52 0 ≠ 0 → stopped 1) ∧ (r.getD 52 0 = 0 → r.getD 48 0 ≠ 0 → stopped 2) ∧
       (r.getD 52 0 = 0 → r.getD 48 0 = 0 → r.getD 50 0 ≠ 0 → stopped 3) ∧
       (r.getD 52 0 = 0 → r.getD 48 0 = 0 → r.getD 50 0 = 0 → goes 9)) ∧
     (s.bootStep = 9 → goes 10) ∧
     (s.bootStep = 10 → (∀ p, p < 16 → bitAt s.expectPorts p = true → s.portUp p = true) ∨ s.boot.stepAt + sec 2 ≤ s.now →
       exec .portWaitEnd s = .next (wrap s ((fresh s).toStep 11)) ∧ ((fresh s).toStep 11).f .HUB_BOOT_STEP 0 = 11)) ∧
  (∀ (s : State) (r p : Nat), s.up → r < 48 → p < 9 → s.f .RGN_STATUS_STATE r = 2 ∨ s.f .RGN_STATUS_STATE r = 3 →
     s.usable r p = true →
     (∃ t, exec (.fittingSlice r p true) s = .next t ∧ t.f .RGN_SLICES r = satAdd (s.f .RGN_SLICES r) 1 ∧
       t = { s with out := [], regs := t.regs } ∧ SameRegs s t [(.RGN_SLICES, r)]) ∧
     (∃ t, exec (.fittingSlice r p false) s = .next t ∧ t.f .RGN_SLICES r = satAdd (s.f .RGN_SLICES r) 1 ∧
       t.f .RGN_SLICE_FAIL r = satAdd (s.f .RGN_SLICE_FAIL r) 1 ∧ t.usable r p = false ∧
       (∀ k, (List.range 8).find? (fun k => s.physK r k = p) = some k → t.f .CORE_STATUS_STATE (8 * r + k) = 4) ∧
       ((∀ k, k < 8 → s.physK r k ≠ p) → (∃ e, t.ledgQ = s.ledgQ ++ [e] ∧ e.type = 0x07) ∧ t.cores = s.cores ∧ t.sws = s.sws)))

/-- Core, region and partition resets (R467 to R470) begin by stopping what they cover, and a core's ends with its
registers and context reset; a function-level reset clears what is the function's own (R393). Rests on the model's
choices of log entries 132, 133, 134, 135. -/
def Obligations.ResetsStopAndReleaseUnits : Prop :=
  (∀ (s : State) (r k : Nat), s.up → r < 48 → k < 8 →
    let c := 8 * r + k
    s.coreInReset c = false → (s.sw (s.swOf c)).started = false →
    (s.f .CORE_STATUS_STATE c = 0 → exec (.resetCore r k) s = .next { s with
      out := [], boot := { s.boot with resets := s.boot.resets ++ [(0, c)] } }) ∧
    (s.f .CORE_STATUS_STATE c = 1 → ∃ t, exec (.resetCore r k) s = .next t ∧ t.f .CORE_STATUS_STATE c = 6 ∧
      (t.core c).matQ = [] ∧ (t.core c).wait = .none ∧ t.coreInReset c = true ∧ (∀ d, d ≠ c → t.core d = s.core d) ∧
      t = { s with out := [], regs := t.regs, cores := t.cores, boot := t.boot } ∧
      SameRegs s t [(.CORE_STATUS_STATE, c), (.ARR_STATUS_ACTIVE, c), (.ARR_STATUS_MODE, c), (.ARR_STATUS_FACE_VALID, c),
        (.VEC_STATUS_BUSY, c)])) ∧
  (∀ (s : State) (r : Nat), s.up → r < 48 → s.regionInReset r = false →
    (∀ c ∈ regionCores r, s.f .CORE_STATUS_STATE c = 0 ∧ (s.sw (s.swOf c)).started = false) →
    ∃ t, exec (.resetRegion r) s = .next t ∧ t.regionInReset r = true ∧
      t.f .RGN_STATUS_STATE r = (if s.regionOut r then 4 else 0) ∧ t = { s with out := [], regs := t.regs, boot := t.boot } ∧
      SameRegs s t [(.RGN_STATUS_STATE, r)]) ∧
  (∀ (s : State) (p : Nat), s.up → p < 8 → (∀ x ∈ s.boot.resets, ¬(2 ≤ x.1 ∧ x.2 = p)) → s.startedSws = [] →
    (∀ c ∈ coresOf (s.f .HUB_PART_CFG_REGIONS p), s.f .CORE_STATUS_STATE c = 0) →
    ∃ t, exec (.partitionReset p) s = .next t ∧ (2, p) ∈ t.boot.resets ∧
      (∀ r, r < 48 → bitAt (s.f .HUB_PART_CFG_REGIONS p) r = true → t.regionInReset r = true ∧
        t.f .RGN_STATUS_STATE r = if s.regionOut r then 4 else 0) ∧
      t = { s with out := [], regs := t.regs, boot := t.boot } ∧ ∀ n i, n ≠ .RGN_STATUS_STATE → t.f n i = s.f n i) ∧
  (∀ (s : State) (c : Nat), s.up → c < 384 → (0, c) ∈ s.boot.resets → FMap.get none s.switches c = none →
    (s.sw (s.swOf c)).started = false → s.f .CORE_STATUS_STATE c ≠ 4 →
    ∃ t, exec (.resetComplete 0 c) s = .next t ∧ (0, c) ∉ t.boot.resets ∧ t.f .CORE_STATUS_STATE c = 0 ∧
      t.core c = { ({} : Core) with faultCause := (s.core c).faultCause } ∧ (∀ d, d ≠ c → t.core d = s.core d) ∧
      (s.boot.image = [] → t.f .CORE_ISSUED c = 0) ∧ t.f .CORE_ID_LOGICAL c = s.f .CORE_ID_LOGICAL c ∧ t.sws = s.sws) ∧
  (∀ (s : State) (fn : Nat), s.up → fn < 9 →
    exec (.functionLevelReset fn) s = .next (wrap s (functionReset fn (fresh s))) ∧
    (fn = 0 → ∃ t, exec (.functionLevelReset fn) s = .next t ∧ t.txn 0 = { ({} : Txn) with next := (s.txn 0).next } ∧
      t.dp 0 = {} ∧ (∀ j, j < 512 → FMap.get 0 t.msix j = 0) ∧ (∀ g, g ≠ 0 → t.txn g = s.txn g ∧ t.dp g = s.dp g) ∧
      (s.boot.image = [] → t.f .HST_INT_MASK_ENABLE 0 = 0 ∧ t.f .TXN_STATUS_OPEN 0 = 0 ∧ t.f .HST_LINK_RATE 0 = 0) ∧
      t.hostLink = s.hostLink ∧
      t = { s with out := [], regs := t.regs, txns := t.txns, dps := t.dps, msix := t.msix }))
end

