-- ==== Sys2Proof/Laws/Maps.lean ====
section
/-! SUPPORT. Finite maps and memories: a read after a write, and that every operation keeps the canonical form. -/

namespace Sys2Proof.Laws

open Sys2Proof.Machine

variable {α : Type}

@[simp] theorem get_nil (d : α) (j : Nat) : FMap.get d ([] : FMap α) j = d := rfl

theorem get_insert (d : α) (m : FMap α) (k : Nat) (v : α) (j : Nat) :
    FMap.get d (FMap.insert m k v) j = if k = j then v else FMap.get d m j := by
  induction m with
  | nil => simp [FMap.insert, FMap.get]
  | cons p m ih =>
    obtain ⟨i, w⟩ := p
    unfold FMap.insert
    split
    · subst_vars; by_cases h : i = j <;> simp [FMap.get, h]
    · split
      · simp [FMap.get]
      · by_cases h : k = j
        · subst h; simp [FMap.get, ih]; omega
        · simp [FMap.get, ih, h]

theorem get_erase (d : α) (m : FMap α) (k j : Nat) :
    FMap.get d (FMap.erase m k) j = if k = j then d else FMap.get d m j := by
  induction m with
  | nil => simp [FMap.erase, FMap.get]
  | cons p m ih =>
    obtain ⟨i, w⟩ := p
    unfold FMap.erase at *
    by_cases h : i = k
    · subst h; by_cases hj : i = j <;> simp_all [FMap.get]
    · by_cases hj : i = j
      · subst hj; simp [h, FMap.get, Ne.symm h]
      · simp [h, FMap.get, hj, ih]

/-- A read after a write, on any map. -/
theorem get_set [DecidableEq α] (d : α) (m : FMap α) (k : Nat) (v : α) (j : Nat) :
    FMap.get d (FMap.set d m k v) j = if k = j then v else FMap.get d m j := by
  unfold FMap.set
  split
  · subst_vars; rw [get_erase]
  · rw [get_insert]

@[simp] theorem get_set_same [DecidableEq α] (d : α) (m : FMap α) (k : Nat) (v : α) :
    FMap.get d (FMap.set d m k v) k = v := by simp [get_set]

theorem get_set_other [DecidableEq α] (d : α) (m : FMap α) {k j : Nat} (v : α) (h : k ≠ j) :
    FMap.get d (FMap.set d m k v) j = FMap.get d m j := by simp [get_set, h]

/-- The other keys keep what they hold, whatever the defaults of the write and of the read. -/
theorem get_set_ne [DecidableEq α] (d e : α) (m : FMap α) {k j : Nat} (v : α) (h : k ≠ j) :
    FMap.get e (FMap.set d m k v) j = FMap.get e m j := by
  unfold FMap.set
  split
  · rw [get_erase, if_neg h]
  · rw [get_insert, if_neg h]

theorem get_clearRange (d : α) (m : FMap α) (lo hi j : Nat) :
    FMap.get d (FMap.clearRange m lo hi) j = if lo ≤ j ∧ j < hi then d else FMap.get d m j := by
  induction m with
  | nil => simp [FMap.clearRange]
  | cons p m ih =>
    obtain ⟨i, w⟩ := p
    unfold FMap.clearRange at *
    rw [List.filter_cons]
    by_cases hj : i = j
    · subst hj
      by_cases h : lo ≤ i ∧ i < hi
      · have : ¬ (i < lo ∨ hi ≤ i) := by omega
        simp only [h, and_self, if_true] at ih
        simp [this, h, ih]
      · have : i < lo ∨ hi ≤ i := by omega
        simp [this, h, FMap.get]
    · split
      · simp [FMap.get, hj, ih]
      · simp [FMap.get, hj, ih]

/-! The canonical form. -/

/-- The keys rise strictly: the list form of `FMap.sorted`. -/
theorem sorted_iff (m : FMap α) : FMap.sorted m = true ↔ m.Pairwise (fun p q => p.1 < q.1) := by
  induction m with
  | nil => simp [FMap.sorted]
  | cons p m ih =>
    cases m with
    | nil => simp [FMap.sorted]
    | cons q m =>
      simp only [FMap.sorted, Bool.and_eq_true, decide_eq_true_eq, ih, List.pairwise_cons]
      constructor
      · rintro ⟨h, h1, h2⟩
        refine ⟨fun a ha => ?_, h1, h2⟩
        rcases List.mem_cons.1 ha with rfl | h'
        · exact h
        · exact lt_trans h (h1 a h')
      · rintro ⟨h, h1, h2⟩
        exact ⟨h q (by simp), h1, h2⟩

theorem wf_iff [DecidableEq α] (d : Nat → α) (m : FMap α) :
    FMap.wf d m = true ↔ m.Pairwise (fun p q => p.1 < q.1) ∧ ∀ p ∈ m, p.2 ≠ d p.1 := by
  simp [FMap.wf, sorted_iff]

theorem wf_nil [DecidableEq α] (d : Nat → α) : FMap.wf d ([] : FMap α) = true := rfl

theorem wf_filter [DecidableEq α] {d : Nat → α} {m : FMap α} (p : Nat × α → Bool) (h : FMap.wf d m = true) :
    FMap.wf d (m.filter p) = true := by
  rw [wf_iff] at *
  exact ⟨h.1.filter p, fun q hq => h.2 q (List.mem_of_mem_filter hq)⟩

theorem mem_insert {m : FMap α} {k : Nat} {v : α} {p : Nat × α} (h : p ∈ FMap.insert m k v) : p = (k, v) ∨ p ∈ m := by
  induction m with
  | nil => simpa [FMap.insert] using h
  | cons q m ih =>
    obtain ⟨i, w⟩ := q
    unfold FMap.insert at h
    split at h
    · rcases List.mem_cons.1 h with h | h
      · exact .inl h
      · exact .inr (by simp [h])
    · split at h
      · rcases List.mem_cons.1 h with h | h
        · exact .inl h
        · exact .inr h
      · rcases List.mem_cons.1 h with h | h
        · exact .inr (by simp [h])
        · rcases ih h with h | h
          · exact .inl h
          · exact .inr (by simp [h])

theorem wf_insert [DecidableEq α] {d : Nat → α} {m : FMap α} {k : Nat} {v : α} (hv : v ≠ d k) (h : FMap.wf d m = true) :
    FMap.wf d (FMap.insert m k v) = true := by
  rw [wf_iff] at *
  induction m with
  | nil => simpa [FMap.insert] using hv
  | cons q m ih =>
    obtain ⟨i, w⟩ := q
    obtain ⟨h1, h2⟩ := h
    rw [List.pairwise_cons] at h1
    unfold FMap.insert
    split
    · subst_vars
      exact ⟨List.pairwise_cons.2 ⟨h1.1, h1.2⟩, by simpa using ⟨hv, fun a b hab => h2 (a, b) (by simp [hab])⟩⟩
    · split
      · rename_i hlt
        refine ⟨List.pairwise_cons.2 ⟨fun a ha => ?_, List.pairwise_cons.2 ⟨h1.1, h1.2⟩⟩, ?_⟩
        · rcases List.mem_cons.1 ha with rfl | ha
          · exact hlt
          · exact lt_trans hlt (h1.1 a ha)
        · intro p hp
          rcases List.mem_cons.1 hp with rfl | hp
          · exact hv
          · exact h2 p hp
      · have ih' := ih ⟨h1.2, fun p hp => h2 p (by simp [hp])⟩
        refine ⟨List.pairwise_cons.2 ⟨fun a ha => ?_, ih'.1⟩, ?_⟩
        · rcases mem_insert ha with rfl | ha
          · show i < k; omega
          · exact h1.1 a ha
        · intro p hp
          rcases List.mem_cons.1 hp with rfl | hp
          · exact h2 _ (by simp)
          · exact ih'.2 p hp

/-- A write keeps the canonical form. -/
theorem wf_set [DecidableEq α] {d : α} {m : FMap α} (k : Nat) (v : α) (h : FMap.wf (fun _ => d) m = true) :
    FMap.wf (fun _ => d) (FMap.set d m k v) = true := by
  unfold FMap.set
  split
  · exact wf_filter _ h
  · rename_i hv; exact wf_insert hv h

theorem wf_upd [DecidableEq α] {d : α} {m : FMap α} (k : Nat) (f : α → α) (h : FMap.wf (fun _ => d) m = true) :
    FMap.wf (fun _ => d) (FMap.upd d m k f) = true := wf_set k _ h

theorem wf_clearRange [DecidableEq α] {d : Nat → α} {m : FMap α} (lo hi : Nat) (h : FMap.wf d m = true) :
    FMap.wf d (FMap.clearRange m lo hi) = true := wf_filter _ h

/-- Two maps in canonical form that read alike are the same list. -/
theorem wf_ext [DecidableEq α] {d : α} {m n : FMap α} (hm : FMap.wf (fun _ => d) m = true) (hn : FMap.wf (fun _ => d) n = true)
    (h : ∀ k, FMap.get d m k = FMap.get d n k) : m = n := by
  rw [wf_iff] at hm hn
  have low : ∀ (l : FMap α) (j : Nat), (∀ p ∈ l, j < p.1) → FMap.get d l j = d := by
    intro l j hl
    induction l with
    | nil => rfl
    | cons p l ih =>
      obtain ⟨i, w⟩ := p
      have hi : j < i := hl (i, w) (by simp)
      simp only [FMap.get]
      rw [if_neg (by omega)]
      exact ih (fun p hp => hl p (by simp [hp]))
  induction m generalizing n with
  | nil =>
    cases n with
    | nil => rfl
    | cons q n =>
      exact absurd (by simpa [FMap.get] using (h q.1).symm) (hn.2 q (by simp))
  | cons p m ih =>
    cases n with
    | nil => exact absurd (by simpa [FMap.get] using h p.1) (hm.2 p (by simp))
    | cons q n =>
      obtain ⟨i, w⟩ := p
      obtain ⟨j, x⟩ := q
      obtain ⟨hm1, hm2⟩ := hm
      obtain ⟨hn1, hn2⟩ := hn
      rw [List.pairwise_cons] at hm1 hn1
      have hij : i = j := by
        rcases lt_trichotomy i j with hlt | heq | hgt
        · have := h i
          rw [low ((j, x) :: n) i (by
            intro p hp
            rcases List.mem_cons.1 hp with rfl | hp
            · exact hlt
            · exact lt_trans hlt (hn1.1 p hp))] at this
          exact absurd (by simpa [FMap.get] using this) (hm2 (i, w) (by simp))
        · exact heq
        · have := h j
          rw [low ((i, w) :: m) j (by
            intro p hp
            rcases List.mem_cons.1 hp with rfl | hp
            · exact hgt
            · exact lt_trans hgt (hm1.1 p hp))] at this
          exact absurd (by simpa [FMap.get] using this.symm) (hn2 (j, x) (by simp))
      subst hij
      have hw : w = x := by simpa [FMap.get] using h i
      subst hw
      have hrest : m = n := by
        refine ih ⟨hm1.2, fun p hp => hm2 p (by simp [hp])⟩ ⟨hn1.2, fun p hp => hn2 p (by simp [hp])⟩ (fun k => ?_)
        by_cases hk : i = k
        · subst hk; rw [low m i hm1.1, low n i hn1.1]
        · simpa [FMap.get, hk] using h k
      rw [hrest]

/-! Memories. -/

theorem memory_wf_nil (d : Byte) : Memory.wf d [] = true := rfl

theorem memory_wf_write {d : Byte} {m : Memory} (a : Nat) (bs : List Byte) (h : Memory.wf d m = true) :
    Memory.wf d (Memory.write d m a bs) = true := by
  induction bs generalizing m a with
  | nil => exact h
  | cons b bs ih => exact ih (a + 1) (wf_set a b h)

theorem memory_wf_clearRange {d : Byte} {m : Memory} (lo hi : Nat) (h : Memory.wf d m = true) :
    Memory.wf d (FMap.clearRange m lo hi) = true := wf_clearRange lo hi h

theorem memory_wf_overlay {d : Byte} {m : Memory} (cs : Memory) (h : Memory.wf d m = true) :
    Memory.wf d (Memory.overlay d m cs) = true := by
  unfold Memory.overlay
  induction cs generalizing m with
  | nil => exact h
  | cons p cs ih => exact ih (wf_set p.1 p.2 h)

theorem memory_wf_copy {d : Byte} {dst : Memory} (src : Memory) (a len b : Nat) (h : Memory.wf d dst = true) :
    Memory.wf d (Memory.copy d src a len dst b) = true :=
  memory_wf_overlay _ (memory_wf_clearRange _ _ h)

/-- A byte of memory after a write: the byte written, or what was there. -/
theorem get_write (d : Byte) (m : Memory) (a : Nat) (bs : List Byte) (j : Nat) :
    FMap.get d (Memory.write d m a bs) j =
      if h : a ≤ j ∧ j < a + bs.length then bs[j - a]'(by omega) else FMap.get d m j := by
  induction bs generalizing m a with
  | nil => simp [Memory.write]
  | cons b bs ih =>
    simp only [Memory.write, ih, get_set]
    by_cases h : a = j
    · subst h; simp
    · by_cases h2 : a + 1 ≤ j ∧ j < a + 1 + bs.length
      · have h3 : a ≤ j ∧ j < a + (b :: bs).length := by simp; omega
        rw [dif_pos h2, dif_pos h3]
        have : j - a = (j - (a + 1)) + 1 := by omega
        simp [this]
      · have h3 : ¬ (a ≤ j ∧ j < a + (b :: bs).length) := by simp; omega
        rw [dif_neg h2, dif_neg h3, if_neg h]

@[simp] theorem bytes_length (d : Byte) (m : Memory) (a n : Nat) : (Memory.bytes d m a n).length = n := by
  induction n generalizing a with
  | zero => rfl
  | succ n ih => simp [Memory.bytes, ih]

/-- Reading back what was written. -/
theorem bytes_write (d : Byte) (m : Memory) (a : Nat) (bs : List Byte) :
    Memory.bytes d (Memory.write d m a bs) a bs.length = bs := by
  have key : ∀ (n : Nat) (m : Memory) (b : Nat), (∀ i, i < n → ∀ h : i + (b - a) < bs.length, a ≤ b →
      FMap.get d m (b + i) = bs[i + (b - a)]) → a ≤ b → b - a + n = bs.length →
      Memory.bytes d m b n = bs.drop (b - a) := by
    intro n
    induction n with
    | zero => intro m b _ _ hl; simp [Memory.bytes]; omega
    | succ n ih =>
      intro m b hm hab hl
      have h0 := hm 0 (by omega) (by omega) hab
      rw [Memory.bytes, List.drop_eq_getElem_cons (by omega : b - a < bs.length)]
      congr 1
      · simpa using h0
      · rw [ih m (b + 1) _ (by omega) (by omega)]
        · congr 1; omega
        · intro i hi h hab'
          have := hm (i + 1) (by omega) (by omega) hab
          rw [show b + 1 + i = b + (i + 1) by omega, this]
          congr 1; omega
  have := key bs.length (Memory.write d m a bs) a
  simp only [Nat.sub_self, List.drop_zero, le_refl, Nat.zero_add] at this
  apply this
  · intro i hi h _
    rw [get_write, dif_pos (by omega)]
    simp
  · trivial
  · trivial

end Sys2Proof.Laws
end

