-- ==== Sys2Proof/Laws/State.lean ====
section
/-! SUPPORT. The small lemmas of State: one for each field and each update, and what a read gives after an update. -/

namespace Sys2Proof.Laws

open Sys2Proof.Machine

/-! Register fields have distinct keys. -/

theorem ctorIdx_lt (n : FieldName) : n.ctorIdx < 512 := by cases n <;> decide

theorem ctorIdx_inj {n m : FieldName} (h : n.ctorIdx = m.ctorIdx) : n = m := by
  rw [← FieldName.ofNat_ctorIdx n, h, FieldName.ofNat_ctorIdx]

theorem fieldKey_inj (n m : FieldName) (i j : Nat) : fieldKey n i = fieldKey m j ↔ n = m ∧ i = j := by
  have h1 := ctorIdx_lt n
  have h2 := ctorIdx_lt m
  constructor
  · intro h
    unfold fieldKey at h
    exact ⟨ctorIdx_inj (by omega), by omega⟩
  · rintro ⟨rfl, rfl⟩; rfl

/-! Updates that are written in terms of the ones below. -/

@[simp] theorem tally_eq (s : State) (n : FieldName) (i k : Nat) : s.tally n i k = s.setF n i (satAdd (s.f n i) k) := rfl
@[simp] theorem raise_eq (s : State) (n : FieldName) (i : Nat) : s.raise n i = s.setF n i 1 := rfl
@[simp] theorem clearF_eq (s : State) (n : FieldName) (i : Nat) : s.clearF n i = s.setF n i (fieldDesc n).reset := rfl
@[simp] theorem setSub_eq (s : State) (n : FieldName) (i lo w v : Nat) :
    s.setSub n i lo w v = s.setF n i (setBits (s.f n i) lo w v) := rfl
@[simp] theorem updSw_eq (s : State) (w : Nat) (g : SwRun → SwRun) : s.updSw w g = s.setSw w (g (s.sw w)) := rfl
@[simp] theorem setDir_eq (s : State) (b : Nat) (e : DirEntry) :
    s.setDir b e = s.setMem { s.mem with dir := FMap.set {} s.mem.dir b e } := rfl
@[simp] theorem setMove_eq (s : State) (b : Nat) (m : Option MoveRec) :
    s.setMove b m = s.setMem { s.mem with moves := FMap.set none s.mem.moves b m } := rfl
@[simp] theorem setStack_eq (s : State) (st : Nat) (v : Stack) :
    s.setStack st v = s.setMem { s.mem with stackDies := FMap.set {} s.mem.stackDies st v } := rfl
@[simp] theorem setFlc_eq (s : State) (c : Nat) (v : Flash) :
    s.setFlc c v = s.setMem { s.mem with flash := FMap.set {} s.mem.flash c v } := rfl
@[simp] theorem setHolder_eq (s : State) (h : Nat) (v : Holder) :
    s.setHolder h v = s.setMem { s.mem with holders := FMap.set {} s.mem.holders h v } := rfl
@[simp] theorem setPch_eq (s : State) (st p : Nat) (v : Pch) :
    s.setPch st p v = s.setMem { s.mem with pchs := FMap.set {} s.mem.pchs (64 * st + p) v } := rfl

/-! Reads after the update they follow. -/

/-- A register field after a write of a field. -/
theorem f_setF (s : State) (n : FieldName) (i v : Nat) (m : FieldName) (j : Nat) :
    (s.setF n i v).f m j = if n = m ∧ i = j then v % 2 ^ (fieldDesc n).width else s.f m j := by
  unfold State.f State.setF
  by_cases h : n = m ∧ i = j
  · obtain ⟨rfl, rfl⟩ := h; simp
  · rw [if_neg h]
    exact get_set_ne _ _ _ _ (fun hk => h ((fieldKey_inj n m i j).1 hk))

theorem f_setF_same (s : State) (n : FieldName) (i v : Nat) : (s.setF n i v).f n i = v % 2 ^ (fieldDesc n).width := by
  simp [f_setF]

theorem core_setCore (s : State) (c : Nat) (k : Core) (j : Nat) : (s.setCore c k).core j = if c = j then k else s.core j := by
  simp [State.core, State.setCore, get_set]
theorem sw_setSw (s : State) (w : Nat) (r : SwRun) (j : Nat) : (s.setSw w r).sw j = if w = j then r else s.sw j := by
  simp [State.sw, State.setSw, get_set]
theorem port_setPort (s : State) (p : Nat) (v : Port) (j : Nat) : (s.setPort p v).port j = if p = j then v else s.port j := by
  simp [State.port, State.setPort, get_set]
theorem dom_setDom (s : State) (d : Nat) (v : Dom) (j : Nat) : (s.setDom d v).dom j = if d = j then v else s.dom j := by
  simp [State.dom, State.setDom, get_set]
theorem dp_setDp (s : State) (fn : Nat) (v : Dp) (j : Nat) : (s.setDp fn v).dp j = if fn = j then v else s.dp j := by
  simp [State.dp, State.setDp, get_set]
theorem txn_setTxn (s : State) (fn : Nat) (v : Txn) (j : Nat) : (s.setTxn fn v).txn j = if fn = j then v else s.txn j := by
  simp [State.txn, State.setTxn, get_set]
@[simp] theorem core_setCore_same (s : State) (c : Nat) (k : Core) : (s.setCore c k).core c = k := by simp [core_setCore]
@[simp] theorem sw_setSw_same (s : State) (w : Nat) (r : SwRun) : (s.setSw w r).sw w = r := by simp [sw_setSw]
@[simp] theorem port_setPort_same (s : State) (p : Nat) (v : Port) : (s.setPort p v).port p = v := by simp [port_setPort]
@[simp] theorem dom_setDom_same (s : State) (d : Nat) (v : Dom) : (s.setDom d v).dom d = v := by simp [dom_setDom]
@[simp] theorem dp_setDp_same (s : State) (fn : Nat) (v : Dp) : (s.setDp fn v).dp fn = v := by simp [dp_setDp]
@[simp] theorem txn_setTxn_same (s : State) (fn : Nat) (v : Txn) : (s.setTxn fn v).txn fn = v := by simp [txn_setTxn]

/-! One lemma for each field and update. -/

@[simp] theorem pending_setF (s : State) (n : FieldName) (i v : Nat) : (s.setF n i v).pending = s.pending := rfl
@[simp] theorem now_setF (s : State) (n : FieldName) (i v : Nat) : (s.setF n i v).now = s.now := rfl
@[simp] theorem out_setF (s : State) (n : FieldName) (i v : Nat) : (s.setF n i v).out = s.out := rfl
@[simp] theorem mem_setF (s : State) (n : FieldName) (i v : Nat) : (s.setF n i v).mem = s.mem := rfl
@[simp] theorem cores_setF (s : State) (n : FieldName) (i v : Nat) : (s.setF n i v).cores = s.cores := rfl
@[simp] theorem switches_setF (s : State) (n : FieldName) (i v : Nat) : (s.setF n i v).switches = s.switches := rfl
@[simp] theorem saved_setF (s : State) (n : FieldName) (i v : Nat) : (s.setF n i v).saved = s.saved := rfl
@[simp] theorem sws_setF (s : State) (n : FieldName) (i v : Nat) : (s.setF n i v).sws = s.sws := rfl
@[simp] theorem tags_setF (s : State) (n : FieldName) (i v : Nat) : (s.setF n i v).tags = s.tags := rfl
@[simp] theorem recipes_setF (s : State) (n : FieldName) (i v : Nat) : (s.setF n i v).recipes = s.recipes := rfl
@[simp] theorem hints_setF (s : State) (n : FieldName) (i v : Nat) : (s.setF n i v).hints = s.hints := rfl
@[simp] theorem ledgQ_setF (s : State) (n : FieldName) (i v : Nat) : (s.setF n i v).ledgQ = s.ledgQ := rfl
@[simp] theorem parts_setF (s : State) (n : FieldName) (i v : Nat) : (s.setF n i v).parts = s.parts := rfl
@[simp] theorem taken_setF (s : State) (n : FieldName) (i v : Nat) : (s.setF n i v).taken = s.taken := rfl
@[simp] theorem slots_setF (s : State) (n : FieldName) (i v : Nat) : (s.setF n i v).slots = s.slots := rfl
@[simp] theorem held_setF (s : State) (n : FieldName) (i v : Nat) : (s.setF n i v).held = s.held := rfl
@[simp] theorem rowsDue_setF (s : State) (n : FieldName) (i v : Nat) : (s.setF n i v).rowsDue = s.rowsDue := rfl
@[simp] theorem rowAppends_setF (s : State) (n : FieldName) (i v : Nat) : (s.setF n i v).rowAppends = s.rowAppends := rfl
@[simp] theorem pressQ_setF (s : State) (n : FieldName) (i v : Nat) : (s.setF n i v).pressQ = s.pressQ := rfl
@[simp] theorem doms_setF (s : State) (n : FieldName) (i v : Nat) : (s.setF n i v).doms = s.doms := rfl
@[simp] theorem ports_setF (s : State) (n : FieldName) (i v : Nat) : (s.setF n i v).ports = s.ports := rfl
@[simp] theorem boot_setF (s : State) (n : FieldName) (i v : Nat) : (s.setF n i v).boot = s.boot := rfl
@[simp] theorem clk_setF (s : State) (n : FieldName) (i v : Nat) : (s.setF n i v).clk = s.clk := rfl
@[simp] theorem pwr_setF (s : State) (n : FieldName) (i v : Nat) : (s.setF n i v).pwr = s.pwr := rfl
@[simp] theorem smb_setF (s : State) (n : FieldName) (i v : Nat) : (s.setF n i v).smb = s.smb := rfl
@[simp] theorem meters_setF (s : State) (n : FieldName) (i v : Nat) : (s.setF n i v).meters = s.meters := rfl
@[simp] theorem thm_setF (s : State) (n : FieldName) (i v : Nat) : (s.setF n i v).thm = s.thm := rfl
@[simp] theorem arbs_setF (s : State) (n : FieldName) (i v : Nat) : (s.setF n i v).arbs = s.arbs := rfl
@[simp] theorem txns_setF (s : State) (n : FieldName) (i v : Nat) : (s.setF n i v).txns = s.txns := rfl
@[simp] theorem dps_setF (s : State) (n : FieldName) (i v : Nat) : (s.setF n i v).dps = s.dps := rfl
@[simp] theorem msix_setF (s : State) (n : FieldName) (i v : Nat) : (s.setF n i v).msix = s.msix := rfl
@[simp] theorem withdraw_setF (s : State) (n : FieldName) (i v : Nat) : (s.setF n i v).withdraw = s.withdraw := rfl
@[simp] theorem timedOut_setF (s : State) (n : FieldName) (i v : Nat) : (s.setF n i v).timedOut = s.timedOut := rfl
@[simp] theorem rejoin_setF (s : State) (n : FieldName) (i v : Nat) : (s.setF n i v).rejoin = s.rejoin := rfl
@[simp] theorem refit_setF (s : State) (n : FieldName) (i v : Nat) : (s.setF n i v).refit = s.refit := rfl
@[simp] theorem hostLink_setF (s : State) (n : FieldName) (i v : Nat) : (s.setF n i v).hostLink = s.hostLink := rfl
@[simp] theorem pwrgd_setF (s : State) (n : FieldName) (i v : Nat) : (s.setF n i v).pwrgd = s.pwrgd := rfl
@[simp] theorem inReset_setF (s : State) (n : FieldName) (i v : Nat) : (s.setF n i v).inReset = s.inReset := rfl
@[simp] theorem core_read_setF (s : State) (n : FieldName) (i v : Nat) (y : Nat) : (s.setF n i v).core y = s.core y := rfl
@[simp] theorem sw_read_setF (s : State) (n : FieldName) (i v : Nat) (y : Nat) : (s.setF n i v).sw y = s.sw y := rfl
@[simp] theorem port_read_setF (s : State) (n : FieldName) (i v : Nat) (y : Nat) : (s.setF n i v).port y = s.port y := rfl
@[simp] theorem dom_read_setF (s : State) (n : FieldName) (i v : Nat) (y : Nat) : (s.setF n i v).dom y = s.dom y := rfl
@[simp] theorem dp_read_setF (s : State) (n : FieldName) (i v : Nat) (y : Nat) : (s.setF n i v).dp y = s.dp y := rfl
@[simp] theorem txn_read_setF (s : State) (n : FieldName) (i v : Nat) (y : Nat) : (s.setF n i v).txn y = s.txn y := rfl

@[simp] theorem out_emit (s : State) (o : Out) : (s.emit o).out = s.out ++ [o] := rfl
@[simp] theorem pending_emit (s : State) (o : Out) : (s.emit o).pending = s.pending := rfl
@[simp] theorem now_emit (s : State) (o : Out) : (s.emit o).now = s.now := rfl
@[simp] theorem regs_emit (s : State) (o : Out) : (s.emit o).regs = s.regs := rfl
@[simp] theorem mem_emit (s : State) (o : Out) : (s.emit o).mem = s.mem := rfl
@[simp] theorem cores_emit (s : State) (o : Out) : (s.emit o).cores = s.cores := rfl
@[simp] theorem switches_emit (s : State) (o : Out) : (s.emit o).switches = s.switches := rfl
@[simp] theorem saved_emit (s : State) (o : Out) : (s.emit o).saved = s.saved := rfl
@[simp] theorem sws_emit (s : State) (o : Out) : (s.emit o).sws = s.sws := rfl
@[simp] theorem tags_emit (s : State) (o : Out) : (s.emit o).tags = s.tags := rfl
@[simp] theorem recipes_emit (s : State) (o : Out) : (s.emit o).recipes = s.recipes := rfl
@[simp] theorem hints_emit (s : State) (o : Out) : (s.emit o).hints = s.hints := rfl
@[simp] theorem ledgQ_emit (s : State) (o : Out) : (s.emit o).ledgQ = s.ledgQ := rfl
@[simp] theorem parts_emit (s : State) (o : Out) : (s.emit o).parts = s.parts := rfl
@[simp] theorem taken_emit (s : State) (o : Out) : (s.emit o).taken = s.taken := rfl
@[simp] theorem slots_emit (s : State) (o : Out) : (s.emit o).slots = s.slots := rfl
@[simp] theorem held_emit (s : State) (o : Out) : (s.emit o).held = s.held := rfl
@[simp] theorem rowsDue_emit (s : State) (o : Out) : (s.emit o).rowsDue = s.rowsDue := rfl
@[simp] theorem rowAppends_emit (s : State) (o : Out) : (s.emit o).rowAppends = s.rowAppends := rfl
@[simp] theorem pressQ_emit (s : State) (o : Out) : (s.emit o).pressQ = s.pressQ := rfl
@[simp] theorem doms_emit (s : State) (o : Out) : (s.emit o).doms = s.doms := rfl
@[simp] theorem ports_emit (s : State) (o : Out) : (s.emit o).ports = s.ports := rfl
@[simp] theorem boot_emit (s : State) (o : Out) : (s.emit o).boot = s.boot := rfl
@[simp] theorem clk_emit (s : State) (o : Out) : (s.emit o).clk = s.clk := rfl
@[simp] theorem pwr_emit (s : State) (o : Out) : (s.emit o).pwr = s.pwr := rfl
@[simp] theorem smb_emit (s : State) (o : Out) : (s.emit o).smb = s.smb := rfl
@[simp] theorem meters_emit (s : State) (o : Out) : (s.emit o).meters = s.meters := rfl
@[simp] theorem thm_emit (s : State) (o : Out) : (s.emit o).thm = s.thm := rfl
@[simp] theorem arbs_emit (s : State) (o : Out) : (s.emit o).arbs = s.arbs := rfl
@[simp] theorem txns_emit (s : State) (o : Out) : (s.emit o).txns = s.txns := rfl
@[simp] theorem dps_emit (s : State) (o : Out) : (s.emit o).dps = s.dps := rfl
@[simp] theorem msix_emit (s : State) (o : Out) : (s.emit o).msix = s.msix := rfl
@[simp] theorem withdraw_emit (s : State) (o : Out) : (s.emit o).withdraw = s.withdraw := rfl
@[simp] theorem timedOut_emit (s : State) (o : Out) : (s.emit o).timedOut = s.timedOut := rfl
@[simp] theorem rejoin_emit (s : State) (o : Out) : (s.emit o).rejoin = s.rejoin := rfl
@[simp] theorem refit_emit (s : State) (o : Out) : (s.emit o).refit = s.refit := rfl
@[simp] theorem hostLink_emit (s : State) (o : Out) : (s.emit o).hostLink = s.hostLink := rfl
@[simp] theorem pwrgd_emit (s : State) (o : Out) : (s.emit o).pwrgd = s.pwrgd := rfl
@[simp] theorem inReset_emit (s : State) (o : Out) : (s.emit o).inReset = s.inReset := rfl
@[simp] theorem f_read_emit (s : State) (o : Out) (x : FieldName) (y : Nat) : (s.emit o).f x y = s.f x y := rfl
@[simp] theorem core_read_emit (s : State) (o : Out) (y : Nat) : (s.emit o).core y = s.core y := rfl
@[simp] theorem sw_read_emit (s : State) (o : Out) (y : Nat) : (s.emit o).sw y = s.sw y := rfl
@[simp] theorem port_read_emit (s : State) (o : Out) (y : Nat) : (s.emit o).port y = s.port y := rfl
@[simp] theorem dom_read_emit (s : State) (o : Out) (y : Nat) : (s.emit o).dom y = s.dom y := rfl
@[simp] theorem dp_read_emit (s : State) (o : Out) (y : Nat) : (s.emit o).dp y = s.dp y := rfl
@[simp] theorem txn_read_emit (s : State) (o : Out) (y : Nat) : (s.emit o).txn y = s.txn y := rfl

@[simp] theorem pending_setCore (s : State) (c : Nat) (k : Core) : (s.setCore c k).pending = s.pending := rfl
@[simp] theorem now_setCore (s : State) (c : Nat) (k : Core) : (s.setCore c k).now = s.now := rfl
@[simp] theorem out_setCore (s : State) (c : Nat) (k : Core) : (s.setCore c k).out = s.out := rfl
@[simp] theorem regs_setCore (s : State) (c : Nat) (k : Core) : (s.setCore c k).regs = s.regs := rfl
@[simp] theorem mem_setCore (s : State) (c : Nat) (k : Core) : (s.setCore c k).mem = s.mem := rfl
@[simp] theorem switches_setCore (s : State) (c : Nat) (k : Core) : (s.setCore c k).switches = s.switches := rfl
@[simp] theorem saved_setCore (s : State) (c : Nat) (k : Core) : (s.setCore c k).saved = s.saved := rfl
@[simp] theorem sws_setCore (s : State) (c : Nat) (k : Core) : (s.setCore c k).sws = s.sws := rfl
@[simp] theorem tags_setCore (s : State) (c : Nat) (k : Core) : (s.setCore c k).tags = s.tags := rfl
@[simp] theorem recipes_setCore (s : State) (c : Nat) (k : Core) : (s.setCore c k).recipes = s.recipes := rfl
@[simp] theorem hints_setCore (s : State) (c : Nat) (k : Core) : (s.setCore c k).hints = s.hints := rfl
@[simp] theorem ledgQ_setCore (s : State) (c : Nat) (k : Core) : (s.setCore c k).ledgQ = s.ledgQ := rfl
@[simp] theorem parts_setCore (s : State) (c : Nat) (k : Core) : (s.setCore c k).parts = s.parts := rfl
@[simp] theorem taken_setCore (s : State) (c : Nat) (k : Core) : (s.setCore c k).taken = s.taken := rfl
@[simp] theorem slots_setCore (s : State) (c : Nat) (k : Core) : (s.setCore c k).slots = s.slots := rfl
@[simp] theorem held_setCore (s : State) (c : Nat) (k : Core) : (s.setCore c k).held = s.held := rfl
@[simp] theorem rowsDue_setCore (s : State) (c : Nat) (k : Core) : (s.setCore c k).rowsDue = s.rowsDue := rfl
@[simp] theorem rowAppends_setCore (s : State) (c : Nat) (k : Core) : (s.setCore c k).rowAppends = s.rowAppends := rfl
@[simp] theorem pressQ_setCore (s : State) (c : Nat) (k : Core) : (s.setCore c k).pressQ = s.pressQ := rfl
@[simp] theorem doms_setCore (s : State) (c : Nat) (k : Core) : (s.setCore c k).doms = s.doms := rfl
@[simp] theorem ports_setCore (s : State) (c : Nat) (k : Core) : (s.setCore c k).ports = s.ports := rfl
@[simp] theorem boot_setCore (s : State) (c : Nat) (k : Core) : (s.setCore c k).boot = s.boot := rfl
@[simp] theorem clk_setCore (s : State) (c : Nat) (k : Core) : (s.setCore c k).clk = s.clk := rfl
@[simp] theorem pwr_setCore (s : State) (c : Nat) (k : Core) : (s.setCore c k).pwr = s.pwr := rfl
@[simp] theorem smb_setCore (s : State) (c : Nat) (k : Core) : (s.setCore c k).smb = s.smb := rfl
@[simp] theorem meters_setCore (s : State) (c : Nat) (k : Core) : (s.setCore c k).meters = s.meters := rfl
@[simp] theorem thm_setCore (s : State) (c : Nat) (k : Core) : (s.setCore c k).thm = s.thm := rfl
@[simp] theorem arbs_setCore (s : State) (c : Nat) (k : Core) : (s.setCore c k).arbs = s.arbs := rfl
@[simp] theorem txns_setCore (s : State) (c : Nat) (k : Core) : (s.setCore c k).txns = s.txns := rfl
@[simp] theorem dps_setCore (s : State) (c : Nat) (k : Core) : (s.setCore c k).dps = s.dps := rfl
@[simp] theorem msix_setCore (s : State) (c : Nat) (k : Core) : (s.setCore c k).msix = s.msix := rfl
@[simp] theorem withdraw_setCore (s : State) (c : Nat) (k : Core) : (s.setCore c k).withdraw = s.withdraw := rfl
@[simp] theorem timedOut_setCore (s : State) (c : Nat) (k : Core) : (s.setCore c k).timedOut = s.timedOut := rfl
@[simp] theorem rejoin_setCore (s : State) (c : Nat) (k : Core) : (s.setCore c k).rejoin = s.rejoin := rfl
@[simp] theorem refit_setCore (s : State) (c : Nat) (k : Core) : (s.setCore c k).refit = s.refit := rfl
@[simp] theorem hostLink_setCore (s : State) (c : Nat) (k : Core) : (s.setCore c k).hostLink = s.hostLink := rfl
@[simp] theorem pwrgd_setCore (s : State) (c : Nat) (k : Core) : (s.setCore c k).pwrgd = s.pwrgd := rfl
@[simp] theorem inReset_setCore (s : State) (c : Nat) (k : Core) : (s.setCore c k).inReset = s.inReset := rfl
@[simp] theorem f_read_setCore (s : State) (c : Nat) (k : Core) (x : FieldName) (y : Nat) : (s.setCore c k).f x y = s.f x y := rfl
@[simp] theorem sw_read_setCore (s : State) (c : Nat) (k : Core) (y : Nat) : (s.setCore c k).sw y = s.sw y := rfl
@[simp] theorem port_read_setCore (s : State) (c : Nat) (k : Core) (y : Nat) : (s.setCore c k).port y = s.port y := rfl
@[simp] theorem dom_read_setCore (s : State) (c : Nat) (k : Core) (y : Nat) : (s.setCore c k).dom y = s.dom y := rfl
@[simp] theorem dp_read_setCore (s : State) (c : Nat) (k : Core) (y : Nat) : (s.setCore c k).dp y = s.dp y := rfl
@[simp] theorem txn_read_setCore (s : State) (c : Nat) (k : Core) (y : Nat) : (s.setCore c k).txn y = s.txn y := rfl

@[simp] theorem pending_setSw (s : State) (w : Nat) (r : SwRun) : (s.setSw w r).pending = s.pending := rfl
@[simp] theorem now_setSw (s : State) (w : Nat) (r : SwRun) : (s.setSw w r).now = s.now := rfl
@[simp] theorem out_setSw (s : State) (w : Nat) (r : SwRun) : (s.setSw w r).out = s.out := rfl
@[simp] theorem regs_setSw (s : State) (w : Nat) (r : SwRun) : (s.setSw w r).regs = s.regs := rfl
@[simp] theorem mem_setSw (s : State) (w : Nat) (r : SwRun) : (s.setSw w r).mem = s.mem := rfl
@[simp] theorem cores_setSw (s : State) (w : Nat) (r : SwRun) : (s.setSw w r).cores = s.cores := rfl
@[simp] theorem switches_setSw (s : State) (w : Nat) (r : SwRun) : (s.setSw w r).switches = s.switches := rfl
@[simp] theorem saved_setSw (s : State) (w : Nat) (r : SwRun) : (s.setSw w r).saved = s.saved := rfl
@[simp] theorem tags_setSw (s : State) (w : Nat) (r : SwRun) : (s.setSw w r).tags = s.tags := rfl
@[simp] theorem recipes_setSw (s : State) (w : Nat) (r : SwRun) : (s.setSw w r).recipes = s.recipes := rfl
@[simp] theorem hints_setSw (s : State) (w : Nat) (r : SwRun) : (s.setSw w r).hints = s.hints := rfl
@[simp] theorem ledgQ_setSw (s : State) (w : Nat) (r : SwRun) : (s.setSw w r).ledgQ = s.ledgQ := rfl
@[simp] theorem parts_setSw (s : State) (w : Nat) (r : SwRun) : (s.setSw w r).parts = s.parts := rfl
@[simp] theorem taken_setSw (s : State) (w : Nat) (r : SwRun) : (s.setSw w r).taken = s.taken := rfl
@[simp] theorem slots_setSw (s : State) (w : Nat) (r : SwRun) : (s.setSw w r).slots = s.slots := rfl
@[simp] theorem held_setSw (s : State) (w : Nat) (r : SwRun) : (s.setSw w r).held = s.held := rfl
@[simp] theorem rowsDue_setSw (s : State) (w : Nat) (r : SwRun) : (s.setSw w r).rowsDue = s.rowsDue := rfl
@[simp] theorem rowAppends_setSw (s : State) (w : Nat) (r : SwRun) : (s.setSw w r).rowAppends = s.rowAppends := rfl
@[simp] theorem pressQ_setSw (s : State) (w : Nat) (r : SwRun) : (s.setSw w r).pressQ = s.pressQ := rfl
@[simp] theorem doms_setSw (s : State) (w : Nat) (r : SwRun) : (s.setSw w r).doms = s.doms := rfl
@[simp] theorem ports_setSw (s : State) (w : Nat) (r : SwRun) : (s.setSw w r).ports = s.ports := rfl
@[simp] theorem boot_setSw (s : State) (w : Nat) (r : SwRun) : (s.setSw w r).boot = s.boot := rfl
@[simp] theorem clk_setSw (s : State) (w : Nat) (r : SwRun) : (s.setSw w r).clk = s.clk := rfl
@[simp] theorem pwr_setSw (s : State) (w : Nat) (r : SwRun) : (s.setSw w r).pwr = s.pwr := rfl
@[simp] theorem smb_setSw (s : State) (w : Nat) (r : SwRun) : (s.setSw w r).smb = s.smb := rfl
@[simp] theorem meters_setSw (s : State) (w : Nat) (r : SwRun) : (s.setSw w r).meters = s.meters := rfl
@[simp] theorem thm_setSw (s : State) (w : Nat) (r : SwRun) : (s.setSw w r).thm = s.thm := rfl
@[simp] theorem arbs_setSw (s : State) (w : Nat) (r : SwRun) : (s.setSw w r).arbs = s.arbs := rfl
@[simp] theorem txns_setSw (s : State) (w : Nat) (r : SwRun) : (s.setSw w r).txns = s.txns := rfl
@[simp] theorem dps_setSw (s : State) (w : Nat) (r : SwRun) : (s.setSw w r).dps = s.dps := rfl
@[simp] theorem msix_setSw (s : State) (w : Nat) (r : SwRun) : (s.setSw w r).msix = s.msix := rfl
@[simp] theorem withdraw_setSw (s : State) (w : Nat) (r : SwRun) : (s.setSw w r).withdraw = s.withdraw := rfl
@[simp] theorem timedOut_setSw (s : State) (w : Nat) (r : SwRun) : (s.setSw w r).timedOut = s.timedOut := rfl
@[simp] theorem rejoin_setSw (s : State) (w : Nat) (r : SwRun) : (s.setSw w r).rejoin = s.rejoin := rfl
@[simp] theorem refit_setSw (s : State) (w : Nat) (r : SwRun) : (s.setSw w r).refit = s.refit := rfl
@[simp] theorem hostLink_setSw (s : State) (w : Nat) (r : SwRun) : (s.setSw w r).hostLink = s.hostLink := rfl
@[simp] theorem pwrgd_setSw (s : State) (w : Nat) (r : SwRun) : (s.setSw w r).pwrgd = s.pwrgd := rfl
@[simp] theorem inReset_setSw (s : State) (w : Nat) (r : SwRun) : (s.setSw w r).inReset = s.inReset := rfl
@[simp] theorem f_read_setSw (s : State) (w : Nat) (r : SwRun) (x : FieldName) (y : Nat) : (s.setSw w r).f x y = s.f x y := rfl
@[simp] theorem core_read_setSw (s : State) (w : Nat) (r : SwRun) (y : Nat) : (s.setSw w r).core y = s.core y := rfl
@[simp] theorem port_read_setSw (s : State) (w : Nat) (r : SwRun) (y : Nat) : (s.setSw w r).port y = s.port y := rfl
@[simp] theorem dom_read_setSw (s : State) (w : Nat) (r : SwRun) (y : Nat) : (s.setSw w r).dom y = s.dom y := rfl
@[simp] theorem dp_read_setSw (s : State) (w : Nat) (r : SwRun) (y : Nat) : (s.setSw w r).dp y = s.dp y := rfl
@[simp] theorem txn_read_setSw (s : State) (w : Nat) (r : SwRun) (y : Nat) : (s.setSw w r).txn y = s.txn y := rfl

@[simp] theorem mem_setMem (s : State) (m : Mem) : (s.setMem m).mem = m := rfl
@[simp] theorem pending_setMem (s : State) (m : Mem) : (s.setMem m).pending = s.pending := rfl
@[simp] theorem now_setMem (s : State) (m : Mem) : (s.setMem m).now = s.now := rfl
@[simp] theorem out_setMem (s : State) (m : Mem) : (s.setMem m).out = s.out := rfl
@[simp] theorem regs_setMem (s : State) (m : Mem) : (s.setMem m).regs = s.regs := rfl
@[simp] theorem cores_setMem (s : State) (m : Mem) : (s.setMem m).cores = s.cores := rfl
@[simp] theorem switches_setMem (s : State) (m : Mem) : (s.setMem m).switches = s.switches := rfl
@[simp] theorem saved_setMem (s : State) (m : Mem) : (s.setMem m).saved = s.saved := rfl
@[simp] theorem sws_setMem (s : State) (m : Mem) : (s.setMem m).sws = s.sws := rfl
@[simp] theorem tags_setMem (s : State) (m : Mem) : (s.setMem m).tags = s.tags := rfl
@[simp] theorem recipes_setMem (s : State) (m : Mem) : (s.setMem m).recipes = s.recipes := rfl
@[simp] theorem hints_setMem (s : State) (m : Mem) : (s.setMem m).hints = s.hints := rfl
@[simp] theorem ledgQ_setMem (s : State) (m : Mem) : (s.setMem m).ledgQ = s.ledgQ := rfl
@[simp] theorem parts_setMem (s : State) (m : Mem) : (s.setMem m).parts = s.parts := rfl
@[simp] theorem taken_setMem (s : State) (m : Mem) : (s.setMem m).taken = s.taken := rfl
@[simp] theorem slots_setMem (s : State) (m : Mem) : (s.setMem m).slots = s.slots := rfl
@[simp] theorem held_setMem (s : State) (m : Mem) : (s.setMem m).held = s.held := rfl
@[simp] theorem rowsDue_setMem (s : State) (m : Mem) : (s.setMem m).rowsDue = s.rowsDue := rfl
@[simp] theorem rowAppends_setMem (s : State) (m : Mem) : (s.setMem m).rowAppends = s.rowAppends := rfl
@[simp] theorem pressQ_setMem (s : State) (m : Mem) : (s.setMem m).pressQ = s.pressQ := rfl
@[simp] theorem doms_setMem (s : State) (m : Mem) : (s.setMem m).doms = s.doms := rfl
@[simp] theorem ports_setMem (s : State) (m : Mem) : (s.setMem m).ports = s.ports := rfl
@[simp] theorem boot_setMem (s : State) (m : Mem) : (s.setMem m).boot = s.boot := rfl
@[simp] theorem clk_setMem (s : State) (m : Mem) : (s.setMem m).clk = s.clk := rfl
@[simp] theorem pwr_setMem (s : State) (m : Mem) : (s.setMem m).pwr = s.pwr := rfl
@[simp] theorem smb_setMem (s : State) (m : Mem) : (s.setMem m).smb = s.smb := rfl
@[simp] theorem meters_setMem (s : State) (m : Mem) : (s.setMem m).meters = s.meters := rfl
@[simp] theorem thm_setMem (s : State) (m : Mem) : (s.setMem m).thm = s.thm := rfl
@[simp] theorem arbs_setMem (s : State) (m : Mem) : (s.setMem m).arbs = s.arbs := rfl
@[simp] theorem txns_setMem (s : State) (m : Mem) : (s.setMem m).txns = s.txns := rfl
@[simp] theorem dps_setMem (s : State) (m : Mem) : (s.setMem m).dps = s.dps := rfl
@[simp] theorem msix_setMem (s : State) (m : Mem) : (s.setMem m).msix = s.msix := rfl
@[simp] theorem withdraw_setMem (s : State) (m : Mem) : (s.setMem m).withdraw = s.withdraw := rfl
@[simp] theorem timedOut_setMem (s : State) (m : Mem) : (s.setMem m).timedOut = s.timedOut := rfl
@[simp] theorem rejoin_setMem (s : State) (m : Mem) : (s.setMem m).rejoin = s.rejoin := rfl
@[simp] theorem refit_setMem (s : State) (m : Mem) : (s.setMem m).refit = s.refit := rfl
@[simp] theorem hostLink_setMem (s : State) (m : Mem) : (s.setMem m).hostLink = s.hostLink := rfl
@[simp] theorem pwrgd_setMem (s : State) (m : Mem) : (s.setMem m).pwrgd = s.pwrgd := rfl
@[simp] theorem inReset_setMem (s : State) (m : Mem) : (s.setMem m).inReset = s.inReset := rfl
@[simp] theorem f_read_setMem (s : State) (m : Mem) (x : FieldName) (y : Nat) : (s.setMem m).f x y = s.f x y := rfl
@[simp] theorem core_read_setMem (s : State) (m : Mem) (y : Nat) : (s.setMem m).core y = s.core y := rfl
@[simp] theorem sw_read_setMem (s : State) (m : Mem) (y : Nat) : (s.setMem m).sw y = s.sw y := rfl
@[simp] theorem port_read_setMem (s : State) (m : Mem) (y : Nat) : (s.setMem m).port y = s.port y := rfl
@[simp] theorem dom_read_setMem (s : State) (m : Mem) (y : Nat) : (s.setMem m).dom y = s.dom y := rfl
@[simp] theorem dp_read_setMem (s : State) (m : Mem) (y : Nat) : (s.setMem m).dp y = s.dp y := rfl
@[simp] theorem txn_read_setMem (s : State) (m : Mem) (y : Nat) : (s.setMem m).txn y = s.txn y := rfl

@[simp] theorem mem_setStores (s : State) (t : Stores) : (s.setStores t).mem = { s.mem with st := t } := rfl
@[simp] theorem pending_setStores (s : State) (t : Stores) : (s.setStores t).pending = s.pending := rfl
@[simp] theorem now_setStores (s : State) (t : Stores) : (s.setStores t).now = s.now := rfl
@[simp] theorem out_setStores (s : State) (t : Stores) : (s.setStores t).out = s.out := rfl
@[simp] theorem regs_setStores (s : State) (t : Stores) : (s.setStores t).regs = s.regs := rfl
@[simp] theorem cores_setStores (s : State) (t : Stores) : (s.setStores t).cores = s.cores := rfl
@[simp] theorem switches_setStores (s : State) (t : Stores) : (s.setStores t).switches = s.switches := rfl
@[simp] theorem saved_setStores (s : State) (t : Stores) : (s.setStores t).saved = s.saved := rfl
@[simp] theorem sws_setStores (s : State) (t : Stores) : (s.setStores t).sws = s.sws := rfl
@[simp] theorem tags_setStores (s : State) (t : Stores) : (s.setStores t).tags = s.tags := rfl
@[simp] theorem recipes_setStores (s : State) (t : Stores) : (s.setStores t).recipes = s.recipes := rfl
@[simp] theorem hints_setStores (s : State) (t : Stores) : (s.setStores t).hints = s.hints := rfl
@[simp] theorem ledgQ_setStores (s : State) (t : Stores) : (s.setStores t).ledgQ = s.ledgQ := rfl
@[simp] theorem parts_setStores (s : State) (t : Stores) : (s.setStores t).parts = s.parts := rfl
@[simp] theorem taken_setStores (s : State) (t : Stores) : (s.setStores t).taken = s.taken := rfl
@[simp] theorem slots_setStores (s : State) (t : Stores) : (s.setStores t).slots = s.slots := rfl
@[simp] theorem held_setStores (s : State) (t : Stores) : (s.setStores t).held = s.held := rfl
@[simp] theorem rowsDue_setStores (s : State) (t : Stores) : (s.setStores t).rowsDue = s.rowsDue := rfl
@[simp] theorem rowAppends_setStores (s : State) (t : Stores) : (s.setStores t).rowAppends = s.rowAppends := rfl
@[simp] theorem pressQ_setStores (s : State) (t : Stores) : (s.setStores t).pressQ = s.pressQ := rfl
@[simp] theorem doms_setStores (s : State) (t : Stores) : (s.setStores t).doms = s.doms := rfl
@[simp] theorem ports_setStores (s : State) (t : Stores) : (s.setStores t).ports = s.ports := rfl
@[simp] theorem boot_setStores (s : State) (t : Stores) : (s.setStores t).boot = s.boot := rfl
@[simp] theorem clk_setStores (s : State) (t : Stores) : (s.setStores t).clk = s.clk := rfl
@[simp] theorem pwr_setStores (s : State) (t : Stores) : (s.setStores t).pwr = s.pwr := rfl
@[simp] theorem smb_setStores (s : State) (t : Stores) : (s.setStores t).smb = s.smb := rfl
@[simp] theorem meters_setStores (s : State) (t : Stores) : (s.setStores t).meters = s.meters := rfl
@[simp] theorem thm_setStores (s : State) (t : Stores) : (s.setStores t).thm = s.thm := rfl
@[simp] theorem arbs_setStores (s : State) (t : Stores) : (s.setStores t).arbs = s.arbs := rfl
@[simp] theorem txns_setStores (s : State) (t : Stores) : (s.setStores t).txns = s.txns := rfl
@[simp] theorem dps_setStores (s : State) (t : Stores) : (s.setStores t).dps = s.dps := rfl
@[simp] theorem msix_setStores (s : State) (t : Stores) : (s.setStores t).msix = s.msix := rfl
@[simp] theorem withdraw_setStores (s : State) (t : Stores) : (s.setStores t).withdraw = s.withdraw := rfl
@[simp] theorem timedOut_setStores (s : State) (t : Stores) : (s.setStores t).timedOut = s.timedOut := rfl
@[simp] theorem rejoin_setStores (s : State) (t : Stores) : (s.setStores t).rejoin = s.rejoin := rfl
@[simp] theorem refit_setStores (s : State) (t : Stores) : (s.setStores t).refit = s.refit := rfl
@[simp] theorem hostLink_setStores (s : State) (t : Stores) : (s.setStores t).hostLink = s.hostLink := rfl
@[simp] theorem pwrgd_setStores (s : State) (t : Stores) : (s.setStores t).pwrgd = s.pwrgd := rfl
@[simp] theorem inReset_setStores (s : State) (t : Stores) : (s.setStores t).inReset = s.inReset := rfl
@[simp] theorem f_read_setStores (s : State) (t : Stores) (x : FieldName) (y : Nat) : (s.setStores t).f x y = s.f x y := rfl
@[simp] theorem core_read_setStores (s : State) (t : Stores) (y : Nat) : (s.setStores t).core y = s.core y := rfl
@[simp] theorem sw_read_setStores (s : State) (t : Stores) (y : Nat) : (s.setStores t).sw y = s.sw y := rfl
@[simp] theorem port_read_setStores (s : State) (t : Stores) (y : Nat) : (s.setStores t).port y = s.port y := rfl
@[simp] theorem dom_read_setStores (s : State) (t : Stores) (y : Nat) : (s.setStores t).dom y = s.dom y := rfl
@[simp] theorem dp_read_setStores (s : State) (t : Stores) (y : Nat) : (s.setStores t).dp y = s.dp y := rfl
@[simp] theorem txn_read_setStores (s : State) (t : Stores) (y : Nat) : (s.setStores t).txn y = s.txn y := rfl

@[simp] theorem clk_setClk (s : State) (c : Clk) : (s.setClk c).clk = c := rfl
@[simp] theorem pending_setClk (s : State) (c : Clk) : (s.setClk c).pending = s.pending := rfl
@[simp] theorem now_setClk (s : State) (c : Clk) : (s.setClk c).now = s.now := rfl
@[simp] theorem out_setClk (s : State) (c : Clk) : (s.setClk c).out = s.out := rfl
@[simp] theorem regs_setClk (s : State) (c : Clk) : (s.setClk c).regs = s.regs := rfl
@[simp] theorem mem_setClk (s : State) (c : Clk) : (s.setClk c).mem = s.mem := rfl
@[simp] theorem cores_setClk (s : State) (c : Clk) : (s.setClk c).cores = s.cores := rfl
@[simp] theorem switches_setClk (s : State) (c : Clk) : (s.setClk c).switches = s.switches := rfl
@[simp] theorem saved_setClk (s : State) (c : Clk) : (s.setClk c).saved = s.saved := rfl
@[simp] theorem sws_setClk (s : State) (c : Clk) : (s.setClk c).sws = s.sws := rfl
@[simp] theorem tags_setClk (s : State) (c : Clk) : (s.setClk c).tags = s.tags := rfl
@[simp] theorem recipes_setClk (s : State) (c : Clk) : (s.setClk c).recipes = s.recipes := rfl
@[simp] theorem hints_setClk (s : State) (c : Clk) : (s.setClk c).hints = s.hints := rfl
@[simp] theorem ledgQ_setClk (s : State) (c : Clk) : (s.setClk c).ledgQ = s.ledgQ := rfl
@[simp] theorem parts_setClk (s : State) (c : Clk) : (s.setClk c).parts = s.parts := rfl
@[simp] theorem taken_setClk (s : State) (c : Clk) : (s.setClk c).taken = s.taken := rfl
@[simp] theorem slots_setClk (s : State) (c : Clk) : (s.setClk c).slots = s.slots := rfl
@[simp] theorem held_setClk (s : State) (c : Clk) : (s.setClk c).held = s.held := rfl
@[simp] theorem rowsDue_setClk (s : State) (c : Clk) : (s.setClk c).rowsDue = s.rowsDue := rfl
@[simp] theorem rowAppends_setClk (s : State) (c : Clk) : (s.setClk c).rowAppends = s.rowAppends := rfl
@[simp] theorem pressQ_setClk (s : State) (c : Clk) : (s.setClk c).pressQ = s.pressQ := rfl
@[simp] theorem doms_setClk (s : State) (c : Clk) : (s.setClk c).doms = s.doms := rfl
@[simp] theorem ports_setClk (s : State) (c : Clk) : (s.setClk c).ports = s.ports := rfl
@[simp] theorem boot_setClk (s : State) (c : Clk) : (s.setClk c).boot = s.boot := rfl
@[simp] theorem pwr_setClk (s : State) (c : Clk) : (s.setClk c).pwr = s.pwr := rfl
@[simp] theorem smb_setClk (s : State) (c : Clk) : (s.setClk c).smb = s.smb := rfl
@[simp] theorem meters_setClk (s : State) (c : Clk) : (s.setClk c).meters = s.meters := rfl
@[simp] theorem thm_setClk (s : State) (c : Clk) : (s.setClk c).thm = s.thm := rfl
@[simp] theorem arbs_setClk (s : State) (c : Clk) : (s.setClk c).arbs = s.arbs := rfl
@[simp] theorem txns_setClk (s : State) (c : Clk) : (s.setClk c).txns = s.txns := rfl
@[simp] theorem dps_setClk (s : State) (c : Clk) : (s.setClk c).dps = s.dps := rfl
@[simp] theorem msix_setClk (s : State) (c : Clk) : (s.setClk c).msix = s.msix := rfl
@[simp] theorem withdraw_setClk (s : State) (c : Clk) : (s.setClk c).withdraw = s.withdraw := rfl
@[simp] theorem timedOut_setClk (s : State) (c : Clk) : (s.setClk c).timedOut = s.timedOut := rfl
@[simp] theorem rejoin_setClk (s : State) (c : Clk) : (s.setClk c).rejoin = s.rejoin := rfl
@[simp] theorem refit_setClk (s : State) (c : Clk) : (s.setClk c).refit = s.refit := rfl
@[simp] theorem hostLink_setClk (s : State) (c : Clk) : (s.setClk c).hostLink = s.hostLink := rfl
@[simp] theorem pwrgd_setClk (s : State) (c : Clk) : (s.setClk c).pwrgd = s.pwrgd := rfl
@[simp] theorem inReset_setClk (s : State) (c : Clk) : (s.setClk c).inReset = s.inReset := rfl
@[simp] theorem f_read_setClk (s : State) (c : Clk) (x : FieldName) (y : Nat) : (s.setClk c).f x y = s.f x y := rfl
@[simp] theorem core_read_setClk (s : State) (c : Clk) (y : Nat) : (s.setClk c).core y = s.core y := rfl
@[simp] theorem sw_read_setClk (s : State) (c : Clk) (y : Nat) : (s.setClk c).sw y = s.sw y := rfl
@[simp] theorem port_read_setClk (s : State) (c : Clk) (y : Nat) : (s.setClk c).port y = s.port y := rfl
@[simp] theorem dom_read_setClk (s : State) (c : Clk) (y : Nat) : (s.setClk c).dom y = s.dom y := rfl
@[simp] theorem dp_read_setClk (s : State) (c : Clk) (y : Nat) : (s.setClk c).dp y = s.dp y := rfl
@[simp] theorem txn_read_setClk (s : State) (c : Clk) (y : Nat) : (s.setClk c).txn y = s.txn y := rfl

@[simp] theorem pending_setPort (s : State) (p : Nat) (v : Port) : (s.setPort p v).pending = s.pending := rfl
@[simp] theorem now_setPort (s : State) (p : Nat) (v : Port) : (s.setPort p v).now = s.now := rfl
@[simp] theorem out_setPort (s : State) (p : Nat) (v : Port) : (s.setPort p v).out = s.out := rfl
@[simp] theorem regs_setPort (s : State) (p : Nat) (v : Port) : (s.setPort p v).regs = s.regs := rfl
@[simp] theorem mem_setPort (s : State) (p : Nat) (v : Port) : (s.setPort p v).mem = s.mem := rfl
@[simp] theorem cores_setPort (s : State) (p : Nat) (v : Port) : (s.setPort p v).cores = s.cores := rfl
@[simp] theorem switches_setPort (s : State) (p : Nat) (v : Port) : (s.setPort p v).switches = s.switches := rfl
@[simp] theorem saved_setPort (s : State) (p : Nat) (v : Port) : (s.setPort p v).saved = s.saved := rfl
@[simp] theorem sws_setPort (s : State) (p : Nat) (v : Port) : (s.setPort p v).sws = s.sws := rfl
@[simp] theorem tags_setPort (s : State) (p : Nat) (v : Port) : (s.setPort p v).tags = s.tags := rfl
@[simp] theorem recipes_setPort (s : State) (p : Nat) (v : Port) : (s.setPort p v).recipes = s.recipes := rfl
@[simp] theorem hints_setPort (s : State) (p : Nat) (v : Port) : (s.setPort p v).hints = s.hints := rfl
@[simp] theorem ledgQ_setPort (s : State) (p : Nat) (v : Port) : (s.setPort p v).ledgQ = s.ledgQ := rfl
@[simp] theorem parts_setPort (s : State) (p : Nat) (v : Port) : (s.setPort p v).parts = s.parts := rfl
@[simp] theorem taken_setPort (s : State) (p : Nat) (v : Port) : (s.setPort p v).taken = s.taken := rfl
@[simp] theorem slots_setPort (s : State) (p : Nat) (v : Port) : (s.setPort p v).slots = s.slots := rfl
@[simp] theorem held_setPort (s : State) (p : Nat) (v : Port) : (s.setPort p v).held = s.held := rfl
@[simp] theorem rowsDue_setPort (s : State) (p : Nat) (v : Port) : (s.setPort p v).rowsDue = s.rowsDue := rfl
@[simp] theorem rowAppends_setPort (s : State) (p : Nat) (v : Port) : (s.setPort p v).rowAppends = s.rowAppends := rfl
@[simp] theorem pressQ_setPort (s : State) (p : Nat) (v : Port) : (s.setPort p v).pressQ = s.pressQ := rfl
@[simp] theorem doms_setPort (s : State) (p : Nat) (v : Port) : (s.setPort p v).doms = s.doms := rfl
@[simp] theorem boot_setPort (s : State) (p : Nat) (v : Port) : (s.setPort p v).boot = s.boot := rfl
@[simp] theorem clk_setPort (s : State) (p : Nat) (v : Port) : (s.setPort p v).clk = s.clk := rfl
@[simp] theorem pwr_setPort (s : State) (p : Nat) (v : Port) : (s.setPort p v).pwr = s.pwr := rfl
@[simp] theorem smb_setPort (s : State) (p : Nat) (v : Port) : (s.setPort p v).smb = s.smb := rfl
@[simp] theorem meters_setPort (s : State) (p : Nat) (v : Port) : (s.setPort p v).meters = s.meters := rfl
@[simp] theorem thm_setPort (s : State) (p : Nat) (v : Port) : (s.setPort p v).thm = s.thm := rfl
@[simp] theorem arbs_setPort (s : State) (p : Nat) (v : Port) : (s.setPort p v).arbs = s.arbs := rfl
@[simp] theorem txns_setPort (s : State) (p : Nat) (v : Port) : (s.setPort p v).txns = s.txns := rfl
@[simp] theorem dps_setPort (s : State) (p : Nat) (v : Port) : (s.setPort p v).dps = s.dps := rfl
@[simp] theorem msix_setPort (s : State) (p : Nat) (v : Port) : (s.setPort p v).msix = s.msix := rfl
@[simp] theorem withdraw_setPort (s : State) (p : Nat) (v : Port) : (s.setPort p v).withdraw = s.withdraw := rfl
@[simp] theorem timedOut_setPort (s : State) (p : Nat) (v : Port) : (s.setPort p v).timedOut = s.timedOut := rfl
@[simp] theorem rejoin_setPort (s : State) (p : Nat) (v : Port) : (s.setPort p v).rejoin = s.rejoin := rfl
@[simp] theorem refit_setPort (s : State) (p : Nat) (v : Port) : (s.setPort p v).refit = s.refit := rfl
@[simp] theorem hostLink_setPort (s : State) (p : Nat) (v : Port) : (s.setPort p v).hostLink = s.hostLink := rfl
@[simp] theorem pwrgd_setPort (s : State) (p : Nat) (v : Port) : (s.setPort p v).pwrgd = s.pwrgd := rfl
@[simp] theorem inReset_setPort (s : State) (p : Nat) (v : Port) : (s.setPort p v).inReset = s.inReset := rfl
@[simp] theorem f_read_setPort (s : State) (p : Nat) (v : Port) (x : FieldName) (y : Nat) : (s.setPort p v).f x y = s.f x y := rfl
@[simp] theorem core_read_setPort (s : State) (p : Nat) (v : Port) (y : Nat) : (s.setPort p v).core y = s.core y := rfl
@[simp] theorem sw_read_setPort (s : State) (p : Nat) (v : Port) (y : Nat) : (s.setPort p v).sw y = s.sw y := rfl
@[simp] theorem dom_read_setPort (s : State) (p : Nat) (v : Port) (y : Nat) : (s.setPort p v).dom y = s.dom y := rfl
@[simp] theorem dp_read_setPort (s : State) (p : Nat) (v : Port) (y : Nat) : (s.setPort p v).dp y = s.dp y := rfl
@[simp] theorem txn_read_setPort (s : State) (p : Nat) (v : Port) (y : Nat) : (s.setPort p v).txn y = s.txn y := rfl

@[simp] theorem pending_setDom (s : State) (d : Nat) (v : Dom) : (s.setDom d v).pending = s.pending := rfl
@[simp] theorem now_setDom (s : State) (d : Nat) (v : Dom) : (s.setDom d v).now = s.now := rfl
@[simp] theorem out_setDom (s : State) (d : Nat) (v : Dom) : (s.setDom d v).out = s.out := rfl
@[simp] theorem regs_setDom (s : State) (d : Nat) (v : Dom) : (s.setDom d v).regs = s.regs := rfl
@[simp] theorem mem_setDom (s : State) (d : Nat) (v : Dom) : (s.setDom d v).mem = s.mem := rfl
@[simp] theorem cores_setDom (s : State) (d : Nat) (v : Dom) : (s.setDom d v).cores = s.cores := rfl
@[simp] theorem switches_setDom (s : State) (d : Nat) (v : Dom) : (s.setDom d v).switches = s.switches := rfl
@[simp] theorem saved_setDom (s : State) (d : Nat) (v : Dom) : (s.setDom d v).saved = s.saved := rfl
@[simp] theorem sws_setDom (s : State) (d : Nat) (v : Dom) : (s.setDom d v).sws = s.sws := rfl
@[simp] theorem tags_setDom (s : State) (d : Nat) (v : Dom) : (s.setDom d v).tags = s.tags := rfl
@[simp] theorem recipes_setDom (s : State) (d : Nat) (v : Dom) : (s.setDom d v).recipes = s.recipes := rfl
@[simp] theorem hints_setDom (s : State) (d : Nat) (v : Dom) : (s.setDom d v).hints = s.hints := rfl
@[simp] theorem ledgQ_setDom (s : State) (d : Nat) (v : Dom) : (s.setDom d v).ledgQ = s.ledgQ := rfl
@[simp] theorem parts_setDom (s : State) (d : Nat) (v : Dom) : (s.setDom d v).parts = s.parts := rfl
@[simp] theorem taken_setDom (s : State) (d : Nat) (v : Dom) : (s.setDom d v).taken = s.taken := rfl
@[simp] theorem slots_setDom (s : State) (d : Nat) (v : Dom) : (s.setDom d v).slots = s.slots := rfl
@[simp] theorem held_setDom (s : State) (d : Nat) (v : Dom) : (s.setDom d v).held = s.held := rfl
@[simp] theorem rowsDue_setDom (s : State) (d : Nat) (v : Dom) : (s.setDom d v).rowsDue = s.rowsDue := rfl
@[simp] theorem rowAppends_setDom (s : State) (d : Nat) (v : Dom) : (s.setDom d v).rowAppends = s.rowAppends := rfl
@[simp] theorem pressQ_setDom (s : State) (d : Nat) (v : Dom) : (s.setDom d v).pressQ = s.pressQ := rfl
@[simp] theorem ports_setDom (s : State) (d : Nat) (v : Dom) : (s.setDom d v).ports = s.ports := rfl
@[simp] theorem boot_setDom (s : State) (d : Nat) (v : Dom) : (s.setDom d v).boot = s.boot := rfl
@[simp] theorem clk_setDom (s : State) (d : Nat) (v : Dom) : (s.setDom d v).clk = s.clk := rfl
@[simp] theorem pwr_setDom (s : State) (d : Nat) (v : Dom) : (s.setDom d v).pwr = s.pwr := rfl
@[simp] theorem smb_setDom (s : State) (d : Nat) (v : Dom) : (s.setDom d v).smb = s.smb := rfl
@[simp] theorem meters_setDom (s : State) (d : Nat) (v : Dom) : (s.setDom d v).meters = s.meters := rfl
@[simp] theorem thm_setDom (s : State) (d : Nat) (v : Dom) : (s.setDom d v).thm = s.thm := rfl
@[simp] theorem arbs_setDom (s : State) (d : Nat) (v : Dom) : (s.setDom d v).arbs = s.arbs := rfl
@[simp] theorem txns_setDom (s : State) (d : Nat) (v : Dom) : (s.setDom d v).txns = s.txns := rfl
@[simp] theorem dps_setDom (s : State) (d : Nat) (v : Dom) : (s.setDom d v).dps = s.dps := rfl
@[simp] theorem msix_setDom (s : State) (d : Nat) (v : Dom) : (s.setDom d v).msix = s.msix := rfl
@[simp] theorem withdraw_setDom (s : State) (d : Nat) (v : Dom) : (s.setDom d v).withdraw = s.withdraw := rfl
@[simp] theorem timedOut_setDom (s : State) (d : Nat) (v : Dom) : (s.setDom d v).timedOut = s.timedOut := rfl
@[simp] theorem rejoin_setDom (s : State) (d : Nat) (v : Dom) : (s.setDom d v).rejoin = s.rejoin := rfl
@[simp] theorem refit_setDom (s : State) (d : Nat) (v : Dom) : (s.setDom d v).refit = s.refit := rfl
@[simp] theorem hostLink_setDom (s : State) (d : Nat) (v : Dom) : (s.setDom d v).hostLink = s.hostLink := rfl
@[simp] theorem pwrgd_setDom (s : State) (d : Nat) (v : Dom) : (s.setDom d v).pwrgd = s.pwrgd := rfl
@[simp] theorem inReset_setDom (s : State) (d : Nat) (v : Dom) : (s.setDom d v).inReset = s.inReset := rfl
@[simp] theorem f_read_setDom (s : State) (d : Nat) (v : Dom) (x : FieldName) (y : Nat) : (s.setDom d v).f x y = s.f x y := rfl
@[simp] theorem core_read_setDom (s : State) (d : Nat) (v : Dom) (y : Nat) : (s.setDom d v).core y = s.core y := rfl
@[simp] theorem sw_read_setDom (s : State) (d : Nat) (v : Dom) (y : Nat) : (s.setDom d v).sw y = s.sw y := rfl
@[simp] theorem port_read_setDom (s : State) (d : Nat) (v : Dom) (y : Nat) : (s.setDom d v).port y = s.port y := rfl
@[simp] theorem dp_read_setDom (s : State) (d : Nat) (v : Dom) (y : Nat) : (s.setDom d v).dp y = s.dp y := rfl
@[simp] theorem txn_read_setDom (s : State) (d : Nat) (v : Dom) (y : Nat) : (s.setDom d v).txn y = s.txn y := rfl

@[simp] theorem pending_setDp (s : State) (fn : Nat) (v : Dp) : (s.setDp fn v).pending = s.pending := rfl
@[simp] theorem now_setDp (s : State) (fn : Nat) (v : Dp) : (s.setDp fn v).now = s.now := rfl
@[simp] theorem out_setDp (s : State) (fn : Nat) (v : Dp) : (s.setDp fn v).out = s.out := rfl
@[simp] theorem regs_setDp (s : State) (fn : Nat) (v : Dp) : (s.setDp fn v).regs = s.regs := rfl
@[simp] theorem mem_setDp (s : State) (fn : Nat) (v : Dp) : (s.setDp fn v).mem = s.mem := rfl
@[simp] theorem cores_setDp (s : State) (fn : Nat) (v : Dp) : (s.setDp fn v).cores = s.cores := rfl
@[simp] theorem switches_setDp (s : State) (fn : Nat) (v : Dp) : (s.setDp fn v).switches = s.switches := rfl
@[simp] theorem saved_setDp (s : State) (fn : Nat) (v : Dp) : (s.setDp fn v).saved = s.saved := rfl
@[simp] theorem sws_setDp (s : State) (fn : Nat) (v : Dp) : (s.setDp fn v).sws = s.sws := rfl
@[simp] theorem tags_setDp (s : State) (fn : Nat) (v : Dp) : (s.setDp fn v).tags = s.tags := rfl
@[simp] theorem recipes_setDp (s : State) (fn : Nat) (v : Dp) : (s.setDp fn v).recipes = s.recipes := rfl
@[simp] theorem hints_setDp (s : State) (fn : Nat) (v : Dp) : (s.setDp fn v).hints = s.hints := rfl
@[simp] theorem ledgQ_setDp (s : State) (fn : Nat) (v : Dp) : (s.setDp fn v).ledgQ = s.ledgQ := rfl
@[simp] theorem parts_setDp (s : State) (fn : Nat) (v : Dp) : (s.setDp fn v).parts = s.parts := rfl
@[simp] theorem taken_setDp (s : State) (fn : Nat) (v : Dp) : (s.setDp fn v).taken = s.taken := rfl
@[simp] theorem slots_setDp (s : State) (fn : Nat) (v : Dp) : (s.setDp fn v).slots = s.slots := rfl
@[simp] theorem held_setDp (s : State) (fn : Nat) (v : Dp) : (s.setDp fn v).held = s.held := rfl
@[simp] theorem rowsDue_setDp (s : State) (fn : Nat) (v : Dp) : (s.setDp fn v).rowsDue = s.rowsDue := rfl
@[simp] theorem rowAppends_setDp (s : State) (fn : Nat) (v : Dp) : (s.setDp fn v).rowAppends = s.rowAppends := rfl
@[simp] theorem pressQ_setDp (s : State) (fn : Nat) (v : Dp) : (s.setDp fn v).pressQ = s.pressQ := rfl
@[simp] theorem doms_setDp (s : State) (fn : Nat) (v : Dp) : (s.setDp fn v).doms = s.doms := rfl
@[simp] theorem ports_setDp (s : State) (fn : Nat) (v : Dp) : (s.setDp fn v).ports = s.ports := rfl
@[simp] theorem boot_setDp (s : State) (fn : Nat) (v : Dp) : (s.setDp fn v).boot = s.boot := rfl
@[simp] theorem clk_setDp (s : State) (fn : Nat) (v : Dp) : (s.setDp fn v).clk = s.clk := rfl
@[simp] theorem pwr_setDp (s : State) (fn : Nat) (v : Dp) : (s.setDp fn v).pwr = s.pwr := rfl
@[simp] theorem smb_setDp (s : State) (fn : Nat) (v : Dp) : (s.setDp fn v).smb = s.smb := rfl
@[simp] theorem meters_setDp (s : State) (fn : Nat) (v : Dp) : (s.setDp fn v).meters = s.meters := rfl
@[simp] theorem thm_setDp (s : State) (fn : Nat) (v : Dp) : (s.setDp fn v).thm = s.thm := rfl
@[simp] theorem arbs_setDp (s : State) (fn : Nat) (v : Dp) : (s.setDp fn v).arbs = s.arbs := rfl
@[simp] theorem txns_setDp (s : State) (fn : Nat) (v : Dp) : (s.setDp fn v).txns = s.txns := rfl
@[simp] theorem msix_setDp (s : State) (fn : Nat) (v : Dp) : (s.setDp fn v).msix = s.msix := rfl
@[simp] theorem withdraw_setDp (s : State) (fn : Nat) (v : Dp) : (s.setDp fn v).withdraw = s.withdraw := rfl
@[simp] theorem timedOut_setDp (s : State) (fn : Nat) (v : Dp) : (s.setDp fn v).timedOut = s.timedOut := rfl
@[simp] theorem rejoin_setDp (s : State) (fn : Nat) (v : Dp) : (s.setDp fn v).rejoin = s.rejoin := rfl
@[simp] theorem refit_setDp (s : State) (fn : Nat) (v : Dp) : (s.setDp fn v).refit = s.refit := rfl
@[simp] theorem hostLink_setDp (s : State) (fn : Nat) (v : Dp) : (s.setDp fn v).hostLink = s.hostLink := rfl
@[simp] theorem pwrgd_setDp (s : State) (fn : Nat) (v : Dp) : (s.setDp fn v).pwrgd = s.pwrgd := rfl
@[simp] theorem inReset_setDp (s : State) (fn : Nat) (v : Dp) : (s.setDp fn v).inReset = s.inReset := rfl
@[simp] theorem f_read_setDp (s : State) (fn : Nat) (v : Dp) (x : FieldName) (y : Nat) : (s.setDp fn v).f x y = s.f x y := rfl
@[simp] theorem core_read_setDp (s : State) (fn : Nat) (v : Dp) (y : Nat) : (s.setDp fn v).core y = s.core y := rfl
@[simp] theorem sw_read_setDp (s : State) (fn : Nat) (v : Dp) (y : Nat) : (s.setDp fn v).sw y = s.sw y := rfl
@[simp] theorem port_read_setDp (s : State) (fn : Nat) (v : Dp) (y : Nat) : (s.setDp fn v).port y = s.port y := rfl
@[simp] theorem dom_read_setDp (s : State) (fn : Nat) (v : Dp) (y : Nat) : (s.setDp fn v).dom y = s.dom y := rfl
@[simp] theorem txn_read_setDp (s : State) (fn : Nat) (v : Dp) (y : Nat) : (s.setDp fn v).txn y = s.txn y := rfl

@[simp] theorem pending_setTxn (s : State) (fn : Nat) (v : Txn) : (s.setTxn fn v).pending = s.pending := rfl
@[simp] theorem now_setTxn (s : State) (fn : Nat) (v : Txn) : (s.setTxn fn v).now = s.now := rfl
@[simp] theorem out_setTxn (s : State) (fn : Nat) (v : Txn) : (s.setTxn fn v).out = s.out := rfl
@[simp] theorem regs_setTxn (s : State) (fn : Nat) (v : Txn) : (s.setTxn fn v).regs = s.regs := rfl
@[simp] theorem mem_setTxn (s : State) (fn : Nat) (v : Txn) : (s.setTxn fn v).mem = s.mem := rfl
@[simp] theorem cores_setTxn (s : State) (fn : Nat) (v : Txn) : (s.setTxn fn v).cores = s.cores := rfl
@[simp] theorem switches_setTxn (s : State) (fn : Nat) (v : Txn) : (s.setTxn fn v).switches = s.switches := rfl
@[simp] theorem saved_setTxn (s : State) (fn : Nat) (v : Txn) : (s.setTxn fn v).saved = s.saved := rfl
@[simp] theorem sws_setTxn (s : State) (fn : Nat) (v : Txn) : (s.setTxn fn v).sws = s.sws := rfl
@[simp] theorem tags_setTxn (s : State) (fn : Nat) (v : Txn) : (s.setTxn fn v).tags = s.tags := rfl
@[simp] theorem recipes_setTxn (s : State) (fn : Nat) (v : Txn) : (s.setTxn fn v).recipes = s.recipes := rfl
@[simp] theorem hints_setTxn (s : State) (fn : Nat) (v : Txn) : (s.setTxn fn v).hints = s.hints := rfl
@[simp] theorem ledgQ_setTxn (s : State) (fn : Nat) (v : Txn) : (s.setTxn fn v).ledgQ = s.ledgQ := rfl
@[simp] theorem parts_setTxn (s : State) (fn : Nat) (v : Txn) : (s.setTxn fn v).parts = s.parts := rfl
@[simp] theorem taken_setTxn (s : State) (fn : Nat) (v : Txn) : (s.setTxn fn v).taken = s.taken := rfl
@[simp] theorem slots_setTxn (s : State) (fn : Nat) (v : Txn) : (s.setTxn fn v).slots = s.slots := rfl
@[simp] theorem held_setTxn (s : State) (fn : Nat) (v : Txn) : (s.setTxn fn v).held = s.held := rfl
@[simp] theorem rowsDue_setTxn (s : State) (fn : Nat) (v : Txn) : (s.setTxn fn v).rowsDue = s.rowsDue := rfl
@[simp] theorem rowAppends_setTxn (s : State) (fn : Nat) (v : Txn) : (s.setTxn fn v).rowAppends = s.rowAppends := rfl
@[simp] theorem pressQ_setTxn (s : State) (fn : Nat) (v : Txn) : (s.setTxn fn v).pressQ = s.pressQ := rfl
@[simp] theorem doms_setTxn (s : State) (fn : Nat) (v : Txn) : (s.setTxn fn v).doms = s.doms := rfl
@[simp] theorem ports_setTxn (s : State) (fn : Nat) (v : Txn) : (s.setTxn fn v).ports = s.ports := rfl
@[simp] theorem boot_setTxn (s : State) (fn : Nat) (v : Txn) : (s.setTxn fn v).boot = s.boot := rfl
@[simp] theorem clk_setTxn (s : State) (fn : Nat) (v : Txn) : (s.setTxn fn v).clk = s.clk := rfl
@[simp] theorem pwr_setTxn (s : State) (fn : Nat) (v : Txn) : (s.setTxn fn v).pwr = s.pwr := rfl
@[simp] theorem smb_setTxn (s : State) (fn : Nat) (v : Txn) : (s.setTxn fn v).smb = s.smb := rfl
@[simp] theorem meters_setTxn (s : State) (fn : Nat) (v : Txn) : (s.setTxn fn v).meters = s.meters := rfl
@[simp] theorem thm_setTxn (s : State) (fn : Nat) (v : Txn) : (s.setTxn fn v).thm = s.thm := rfl
@[simp] theorem arbs_setTxn (s : State) (fn : Nat) (v : Txn) : (s.setTxn fn v).arbs = s.arbs := rfl
@[simp] theorem dps_setTxn (s : State) (fn : Nat) (v : Txn) : (s.setTxn fn v).dps = s.dps := rfl
@[simp] theorem msix_setTxn (s : State) (fn : Nat) (v : Txn) : (s.setTxn fn v).msix = s.msix := rfl
@[simp] theorem withdraw_setTxn (s : State) (fn : Nat) (v : Txn) : (s.setTxn fn v).withdraw = s.withdraw := rfl
@[simp] theorem timedOut_setTxn (s : State) (fn : Nat) (v : Txn) : (s.setTxn fn v).timedOut = s.timedOut := rfl
@[simp] theorem rejoin_setTxn (s : State) (fn : Nat) (v : Txn) : (s.setTxn fn v).rejoin = s.rejoin := rfl
@[simp] theorem refit_setTxn (s : State) (fn : Nat) (v : Txn) : (s.setTxn fn v).refit = s.refit := rfl
@[simp] theorem hostLink_setTxn (s : State) (fn : Nat) (v : Txn) : (s.setTxn fn v).hostLink = s.hostLink := rfl
@[simp] theorem pwrgd_setTxn (s : State) (fn : Nat) (v : Txn) : (s.setTxn fn v).pwrgd = s.pwrgd := rfl
@[simp] theorem inReset_setTxn (s : State) (fn : Nat) (v : Txn) : (s.setTxn fn v).inReset = s.inReset := rfl
@[simp] theorem f_read_setTxn (s : State) (fn : Nat) (v : Txn) (x : FieldName) (y : Nat) : (s.setTxn fn v).f x y = s.f x y := rfl
@[simp] theorem core_read_setTxn (s : State) (fn : Nat) (v : Txn) (y : Nat) : (s.setTxn fn v).core y = s.core y := rfl
@[simp] theorem sw_read_setTxn (s : State) (fn : Nat) (v : Txn) (y : Nat) : (s.setTxn fn v).sw y = s.sw y := rfl
@[simp] theorem port_read_setTxn (s : State) (fn : Nat) (v : Txn) (y : Nat) : (s.setTxn fn v).port y = s.port y := rfl
@[simp] theorem dom_read_setTxn (s : State) (fn : Nat) (v : Txn) (y : Nat) : (s.setTxn fn v).dom y = s.dom y := rfl
@[simp] theorem dp_read_setTxn (s : State) (fn : Nat) (v : Txn) (y : Nat) : (s.setTxn fn v).dp y = s.dp y := rfl

/-! A meaning runs on the state with no output left, and its result is wrapped: queue, time and, outside the clocks, the
clocks are put back. -/

@[simp] theorem out_fresh (s : State) : (fresh s).out = [] := rfl
@[simp] theorem pending_fresh (s : State) : (fresh s).pending = s.pending := rfl
@[simp] theorem now_fresh (s : State) : (fresh s).now = s.now := rfl
@[simp] theorem regs_fresh (s : State) : (fresh s).regs = s.regs := rfl
@[simp] theorem mem_fresh (s : State) : (fresh s).mem = s.mem := rfl
@[simp] theorem cores_fresh (s : State) : (fresh s).cores = s.cores := rfl
@[simp] theorem switches_fresh (s : State) : (fresh s).switches = s.switches := rfl
@[simp] theorem saved_fresh (s : State) : (fresh s).saved = s.saved := rfl
@[simp] theorem sws_fresh (s : State) : (fresh s).sws = s.sws := rfl
@[simp] theorem tags_fresh (s : State) : (fresh s).tags = s.tags := rfl
@[simp] theorem recipes_fresh (s : State) : (fresh s).recipes = s.recipes := rfl
@[simp] theorem hints_fresh (s : State) : (fresh s).hints = s.hints := rfl
@[simp] theorem ledgQ_fresh (s : State) : (fresh s).ledgQ = s.ledgQ := rfl
@[simp] theorem parts_fresh (s : State) : (fresh s).parts = s.parts := rfl
@[simp] theorem taken_fresh (s : State) : (fresh s).taken = s.taken := rfl
@[simp] theorem slots_fresh (s : State) : (fresh s).slots = s.slots := rfl
@[simp] theorem held_fresh (s : State) : (fresh s).held = s.held := rfl
@[simp] theorem rowsDue_fresh (s : State) : (fresh s).rowsDue = s.rowsDue := rfl
@[simp] theorem rowAppends_fresh (s : State) : (fresh s).rowAppends = s.rowAppends := rfl
@[simp] theorem pressQ_fresh (s : State) : (fresh s).pressQ = s.pressQ := rfl
@[simp] theorem doms_fresh (s : State) : (fresh s).doms = s.doms := rfl
@[simp] theorem ports_fresh (s : State) : (fresh s).ports = s.ports := rfl
@[simp] theorem boot_fresh (s : State) : (fresh s).boot = s.boot := rfl
@[simp] theorem clk_fresh (s : State) : (fresh s).clk = s.clk := rfl
@[simp] theorem pwr_fresh (s : State) : (fresh s).pwr = s.pwr := rfl
@[simp] theorem smb_fresh (s : State) : (fresh s).smb = s.smb := rfl
@[simp] theorem meters_fresh (s : State) : (fresh s).meters = s.meters := rfl
@[simp] theorem thm_fresh (s : State) : (fresh s).thm = s.thm := rfl
@[simp] theorem arbs_fresh (s : State) : (fresh s).arbs = s.arbs := rfl
@[simp] theorem txns_fresh (s : State) : (fresh s).txns = s.txns := rfl
@[simp] theorem dps_fresh (s : State) : (fresh s).dps = s.dps := rfl
@[simp] theorem msix_fresh (s : State) : (fresh s).msix = s.msix := rfl
@[simp] theorem withdraw_fresh (s : State) : (fresh s).withdraw = s.withdraw := rfl
@[simp] theorem timedOut_fresh (s : State) : (fresh s).timedOut = s.timedOut := rfl
@[simp] theorem rejoin_fresh (s : State) : (fresh s).rejoin = s.rejoin := rfl
@[simp] theorem refit_fresh (s : State) : (fresh s).refit = s.refit := rfl
@[simp] theorem hostLink_fresh (s : State) : (fresh s).hostLink = s.hostLink := rfl
@[simp] theorem pwrgd_fresh (s : State) : (fresh s).pwrgd = s.pwrgd := rfl
@[simp] theorem inReset_fresh (s : State) : (fresh s).inReset = s.inReset := rfl
@[simp] theorem f_read_fresh (s : State) : (fresh s).f = s.f := rfl
@[simp] theorem core_read_fresh (s : State) : (fresh s).core = s.core := rfl
@[simp] theorem sw_read_fresh (s : State) : (fresh s).sw = s.sw := rfl
@[simp] theorem port_read_fresh (s : State) : (fresh s).port = s.port := rfl
@[simp] theorem dom_read_fresh (s : State) : (fresh s).dom = s.dom := rfl
@[simp] theorem dp_read_fresh (s : State) : (fresh s).dp = s.dp := rfl
@[simp] theorem txn_read_fresh (s : State) : (fresh s).txn = s.txn := rfl
@[simp] theorem pending_wrapAll (s x : State) : (wrapAll s x).pending = s.pending := rfl
@[simp] theorem now_wrapAll (s x : State) : (wrapAll s x).now = s.now := rfl
@[simp] theorem out_wrapAll (s x : State) : (wrapAll s x).out = x.out := rfl
@[simp] theorem regs_wrapAll (s x : State) : (wrapAll s x).regs = x.regs := rfl
@[simp] theorem mem_wrapAll (s x : State) : (wrapAll s x).mem = x.mem := rfl
@[simp] theorem cores_wrapAll (s x : State) : (wrapAll s x).cores = x.cores := rfl
@[simp] theorem switches_wrapAll (s x : State) : (wrapAll s x).switches = x.switches := rfl
@[simp] theorem saved_wrapAll (s x : State) : (wrapAll s x).saved = x.saved := rfl
@[simp] theorem sws_wrapAll (s x : State) : (wrapAll s x).sws = x.sws := rfl
@[simp] theorem tags_wrapAll (s x : State) : (wrapAll s x).tags = x.tags := rfl
@[simp] theorem recipes_wrapAll (s x : State) : (wrapAll s x).recipes = x.recipes := rfl
@[simp] theorem hints_wrapAll (s x : State) : (wrapAll s x).hints = x.hints := rfl
@[simp] theorem ledgQ_wrapAll (s x : State) : (wrapAll s x).ledgQ = x.ledgQ := rfl
@[simp] theorem parts_wrapAll (s x : State) : (wrapAll s x).parts = x.parts := rfl
@[simp] theorem taken_wrapAll (s x : State) : (wrapAll s x).taken = x.taken := rfl
@[simp] theorem slots_wrapAll (s x : State) : (wrapAll s x).slots = x.slots := rfl
@[simp] theorem held_wrapAll (s x : State) : (wrapAll s x).held = x.held := rfl
@[simp] theorem rowsDue_wrapAll (s x : State) : (wrapAll s x).rowsDue = x.rowsDue := rfl
@[simp] theorem rowAppends_wrapAll (s x : State) : (wrapAll s x).rowAppends = x.rowAppends := rfl
@[simp] theorem pressQ_wrapAll (s x : State) : (wrapAll s x).pressQ = x.pressQ := rfl
@[simp] theorem doms_wrapAll (s x : State) : (wrapAll s x).doms = x.doms := rfl
@[simp] theorem ports_wrapAll (s x : State) : (wrapAll s x).ports = x.ports := rfl
@[simp] theorem boot_wrapAll (s x : State) : (wrapAll s x).boot = x.boot := rfl
@[simp] theorem clk_wrapAll (s x : State) : (wrapAll s x).clk = x.clk := rfl
@[simp] theorem pwr_wrapAll (s x : State) : (wrapAll s x).pwr = x.pwr := rfl
@[simp] theorem smb_wrapAll (s x : State) : (wrapAll s x).smb = x.smb := rfl
@[simp] theorem meters_wrapAll (s x : State) : (wrapAll s x).meters = x.meters := rfl
@[simp] theorem thm_wrapAll (s x : State) : (wrapAll s x).thm = x.thm := rfl
@[simp] theorem arbs_wrapAll (s x : State) : (wrapAll s x).arbs = x.arbs := rfl
@[simp] theorem txns_wrapAll (s x : State) : (wrapAll s x).txns = x.txns := rfl
@[simp] theorem dps_wrapAll (s x : State) : (wrapAll s x).dps = x.dps := rfl
@[simp] theorem msix_wrapAll (s x : State) : (wrapAll s x).msix = x.msix := rfl
@[simp] theorem withdraw_wrapAll (s x : State) : (wrapAll s x).withdraw = x.withdraw := rfl
@[simp] theorem timedOut_wrapAll (s x : State) : (wrapAll s x).timedOut = x.timedOut := rfl
@[simp] theorem rejoin_wrapAll (s x : State) : (wrapAll s x).rejoin = x.rejoin := rfl
@[simp] theorem refit_wrapAll (s x : State) : (wrapAll s x).refit = x.refit := rfl
@[simp] theorem hostLink_wrapAll (s x : State) : (wrapAll s x).hostLink = x.hostLink := rfl
@[simp] theorem pwrgd_wrapAll (s x : State) : (wrapAll s x).pwrgd = x.pwrgd := rfl
@[simp] theorem inReset_wrapAll (s x : State) : (wrapAll s x).inReset = x.inReset := rfl
@[simp] theorem f_read_wrapAll (s x : State) : (wrapAll s x).f = x.f := rfl
@[simp] theorem core_read_wrapAll (s x : State) : (wrapAll s x).core = x.core := rfl
@[simp] theorem sw_read_wrapAll (s x : State) : (wrapAll s x).sw = x.sw := rfl
@[simp] theorem port_read_wrapAll (s x : State) : (wrapAll s x).port = x.port := rfl
@[simp] theorem dom_read_wrapAll (s x : State) : (wrapAll s x).dom = x.dom := rfl
@[simp] theorem dp_read_wrapAll (s x : State) : (wrapAll s x).dp = x.dp := rfl
@[simp] theorem txn_read_wrapAll (s x : State) : (wrapAll s x).txn = x.txn := rfl
@[simp] theorem pending_wrap (s x : State) : (wrap s x).pending = s.pending := rfl
@[simp] theorem now_wrap (s x : State) : (wrap s x).now = s.now := rfl
@[simp] theorem out_wrap (s x : State) : (wrap s x).out = x.out := rfl
@[simp] theorem regs_wrap (s x : State) : (wrap s x).regs = x.regs := rfl
@[simp] theorem mem_wrap (s x : State) : (wrap s x).mem = x.mem := rfl
@[simp] theorem cores_wrap (s x : State) : (wrap s x).cores = x.cores := rfl
@[simp] theorem switches_wrap (s x : State) : (wrap s x).switches = x.switches := rfl
@[simp] theorem saved_wrap (s x : State) : (wrap s x).saved = x.saved := rfl
@[simp] theorem sws_wrap (s x : State) : (wrap s x).sws = x.sws := rfl
@[simp] theorem tags_wrap (s x : State) : (wrap s x).tags = x.tags := rfl
@[simp] theorem recipes_wrap (s x : State) : (wrap s x).recipes = x.recipes := rfl
@[simp] theorem hints_wrap (s x : State) : (wrap s x).hints = x.hints := rfl
@[simp] theorem ledgQ_wrap (s x : State) : (wrap s x).ledgQ = x.ledgQ := rfl
@[simp] theorem parts_wrap (s x : State) : (wrap s x).parts = x.parts := rfl
@[simp] theorem taken_wrap (s x : State) : (wrap s x).taken = x.taken := rfl
@[simp] theorem slots_wrap (s x : State) : (wrap s x).slots = x.slots := rfl
@[simp] theorem held_wrap (s x : State) : (wrap s x).held = x.held := rfl
@[simp] theorem rowsDue_wrap (s x : State) : (wrap s x).rowsDue = x.rowsDue := rfl
@[simp] theorem rowAppends_wrap (s x : State) : (wrap s x).rowAppends = x.rowAppends := rfl
@[simp] theorem pressQ_wrap (s x : State) : (wrap s x).pressQ = x.pressQ := rfl
@[simp] theorem doms_wrap (s x : State) : (wrap s x).doms = x.doms := rfl
@[simp] theorem ports_wrap (s x : State) : (wrap s x).ports = x.ports := rfl
@[simp] theorem boot_wrap (s x : State) : (wrap s x).boot = x.boot := rfl
@[simp] theorem clk_wrap (s x : State) : (wrap s x).clk = s.clk := rfl
@[simp] theorem pwr_wrap (s x : State) : (wrap s x).pwr = x.pwr := rfl
@[simp] theorem smb_wrap (s x : State) : (wrap s x).smb = x.smb := rfl
@[simp] theorem meters_wrap (s x : State) : (wrap s x).meters = x.meters := rfl
@[simp] theorem thm_wrap (s x : State) : (wrap s x).thm = x.thm := rfl
@[simp] theorem arbs_wrap (s x : State) : (wrap s x).arbs = x.arbs := rfl
@[simp] theorem txns_wrap (s x : State) : (wrap s x).txns = x.txns := rfl
@[simp] theorem dps_wrap (s x : State) : (wrap s x).dps = x.dps := rfl
@[simp] theorem msix_wrap (s x : State) : (wrap s x).msix = x.msix := rfl
@[simp] theorem withdraw_wrap (s x : State) : (wrap s x).withdraw = x.withdraw := rfl
@[simp] theorem timedOut_wrap (s x : State) : (wrap s x).timedOut = x.timedOut := rfl
@[simp] theorem rejoin_wrap (s x : State) : (wrap s x).rejoin = x.rejoin := rfl
@[simp] theorem refit_wrap (s x : State) : (wrap s x).refit = x.refit := rfl
@[simp] theorem hostLink_wrap (s x : State) : (wrap s x).hostLink = x.hostLink := rfl
@[simp] theorem pwrgd_wrap (s x : State) : (wrap s x).pwrgd = x.pwrgd := rfl
@[simp] theorem inReset_wrap (s x : State) : (wrap s x).inReset = x.inReset := rfl
@[simp] theorem f_read_wrap (s x : State) : (wrap s x).f = x.f := rfl
@[simp] theorem core_read_wrap (s x : State) : (wrap s x).core = x.core := rfl
@[simp] theorem sw_read_wrap (s x : State) : (wrap s x).sw = x.sw := rfl
@[simp] theorem port_read_wrap (s x : State) : (wrap s x).port = x.port := rfl
@[simp] theorem dom_read_wrap (s x : State) : (wrap s x).dom = x.dom := rfl
@[simp] theorem dp_read_wrap (s x : State) : (wrap s x).dp = x.dp := rfl
@[simp] theorem txn_read_wrap (s x : State) : (wrap s x).txn = x.txn := rfl

/-! Registers outside a list stay through a write of a listed one. -/

theorem sameRegs_refl (s : State) (l : List (FieldName × Nat)) : SameRegs s s l := fun _ _ _ => rfl

theorem sameRegs_setF {s t : State} {l : List (FieldName × Nat)} (n : FieldName) (i v : Nat) (hn : (n, i) ∈ l)
    (h : SameRegs s t l) : SameRegs s (t.setF n i v) l := by
  intro m j hm
  rw [f_setF, if_neg (by rintro ⟨rfl, rfl⟩; exact hm hn)]
  exact h m j hm

theorem sameRegs_names {s t : State} {l : List FieldName} (n : FieldName) (i v : Nat) (hn : n ∈ l)
    (h : ∀ m j, m ∉ l → t.f m j = s.f m j) : ∀ m j, m ∉ l → (t.setF n i v).f m j = s.f m j := by
  intro m j hm
  rw [f_setF, if_neg (by rintro ⟨rfl, -⟩; exact hm hn)]
  exact h m j hm

end Sys2Proof.Laws
end

