-- ==== Sys2Proof/Laws/Ops.lean ====
section
/-! SUPPORT. What the shared operations can do: the guard in front of a meaning, counters, interrupts, alerts, ledger
entries and messages, each with the parts of the state it leaves alone. -/

namespace Sys2Proof.Laws

open Sys2Proof.Machine

/-! The guard. -/

theorem actAll_of {ok : Bool} {f : State → State} {s : State} (h : ok = true) :
    actAll ok f s = .next { f { s with out := [] } with pending := s.pending, now := s.now } := by simp [actAll, h]

theorem act_of {ok : Bool} {f : State → State} {s : State} (h : ok = true) :
    act ok f s = .next { f { s with out := [] } with clk := s.clk, pending := s.pending, now := s.now } := by
  simp [act, actAll, h]

theorem actAll_run {ok : Bool} {f : State → State} {s : State} (h : ok = true) :
    actAll ok f s = .next (wrapAll s (f (fresh s))) := actAll_of h

theorem act_run {ok : Bool} {f : State → State} {s : State} (h : ok = true) :
    act ok f s = .next (wrap s (f (fresh s))) := act_of h

theorem actAll_up {ok : Bool} {f : State → State} {s : State} (h : ok = true) (hu : s.up) :
    actAll ok (whenUp f) s = .next (wrapAll s (f (fresh s))) := by
  rw [actAll_run h]; simp [whenUp, hu.1, hu.2]

theorem act_up {ok : Bool} {f : State → State} {s : State} (h : ok = true) (hu : s.up) :
    act ok (whenUp f) s = .next (wrap s (f (fresh s))) := by
  rw [act_run h]; simp [whenUp, hu.1, hu.2]

theorem act_up_whenever {ok c : Bool} {f : State → State} {s : State} (h : ok = true) (hu : s.up) (hc : c = true) :
    act ok (whenUp (whenever c f)) s = .next (wrap s (f (fresh s))) := by
  rw [act_up h hu]; simp [whenever, hc]

theorem actAll_up_whenever {ok c : Bool} {f : State → State} {s : State} (h : ok = true) (hu : s.up) (hc : c = true) :
    actAll ok (whenUp (whenever c f)) s = .next (wrapAll s (f (fresh s))) := by
  rw [actAll_up h hu]; simp [whenever, hc]

theorem actAll_powered {ok : Bool} {f : State → State} {s : State} (h : ok = true) (hp : s.pwrgd = true) :
    actAll ok (whenPowered f) s = .next (wrapAll s (f (fresh s))) := by
  rw [actAll_run h]; simp [whenPowered, hp]

theorem actAll_next {ok : Bool} {f : State → State} {s t : State} (h : actAll ok f s = .next t) :
    ok = true ∧ t = { f { s with out := [] } with pending := s.pending, now := s.now } := by
  unfold actAll at h
  split at h
  · exact ⟨by assumption, by cases h; rfl⟩
  · cases h

/-- The guard says everything a command outside the clocks can do to the queue, the time and the clocks: nothing. -/
theorem act_next {ok : Bool} {f : State → State} {s t : State} (h : act ok f s = .next t) :
    ok = true ∧ t = { f { s with out := [] } with clk := s.clk, pending := s.pending, now := s.now } := by
  unfold act at h
  obtain ⟨h1, h2⟩ := actAll_next h
  exact ⟨h1, h2⟩

theorem act_clk {ok : Bool} {f : State → State} {s t : State} (h : act ok f s = .next t) : t.clk = s.clk := by
  rw [(act_next h).2]

theorem whenUp_of {f : State → State} {s : State} (h : s.up) : whenUp f { s with out := [] } = f { s with out := [] } := by
  simp [whenUp, h.1, h.2]

theorem whenPowered_of {f : State → State} {s : State} (h : s.pwrgd = true) :
    whenPowered f { s with out := [] } = f { s with out := [] } := by simp [whenPowered, h]

theorem whenUp_unpowered {f : State → State} {s : State} (h : s.pwrgd = false) :
    whenUp f { s with out := [] } = { s with out := [] } := by simp [whenUp, h]

theorem whenUp_held {f : State → State} {s : State} (h : s.inReset = true) :
    whenUp f { s with out := [] } = { s with out := [] } := by simp [whenUp, h]

theorem whenPowered_unpowered {f : State → State} {s : State} (h : s.pwrgd = false) :
    whenPowered f { s with out := [] } = { s with out := [] } := by simp [whenPowered, h]

theorem whenServed_unpowered {f : State → State} {s : State} (h : s.pwrgd = false) :
    whenServed f { s with out := [] } = { s with out := [] } := by simp [whenServed, State.smbServes, h]

theorem whenServed_of {f : State → State} {s : State} (h : s.smbServes = true) :
    whenServed f { s with out := [] } = f { s with out := [] } := by
  have : State.smbServes { s with out := [] } = true := h
  simp [whenServed, this]

theorem whenever_of {c : Bool} {f : State → State} {s : State} (h : c = true) : whenever c f s = f s := by simp [whenever, h]

/-! Counters (R84). -/

/-- A saturated count fits its 32 bits. -/
theorem satAdd_lt (v k : Nat) : satAdd v k < 2 ^ 32 := by
  unfold satAdd natMin; split <;> omega

@[simp] theorem satAdd_mod (v k : Nat) : satAdd v k % 4294967296 = satAdd v k :=
  Nat.mod_eq_of_lt (by simpa using satAdd_lt v k)

/-- Operations that touch registers and output only. -/
def RegsOut (s t : State) : Prop := t = { s with regs := t.regs, out := t.out }

theorem RegsOut.refl (s : State) : RegsOut s s := rfl

theorem RegsOut.trans {s t u : State} (h : RegsOut s t) (k : RegsOut t u) : RegsOut s u := by
  unfold RegsOut at *; rw [k, h]

theorem RegsOut.setF {s t : State} (h : RegsOut s t) (n : FieldName) (i v : Nat) : RegsOut s (t.setF n i v) := by
  unfold RegsOut at *; rw [h]; rfl

theorem RegsOut.emit {s t : State} (h : RegsOut s t) (o : Out) : RegsOut s (t.emit o) := by
  unfold RegsOut at *; rw [h]; rfl

/-! Interrupts (R392): the cause's bit and perhaps a message. -/

theorem sendCause_regs (s : State) (fn c : Nat) : (sendCause s fn c).regs = s.regs := by
  unfold sendCause; split <;> rfl

@[simp] theorem sendCause_f (s : State) (fn c : Nat) (n : FieldName) (i : Nat) : (sendCause s fn c).f n i = s.f n i := by
  simp [State.f, sendCause_regs]

theorem sendCause_regsOut (s : State) (fn c : Nat) : RegsOut s (sendCause s fn c) := by
  unfold sendCause; split <;> rfl

theorem interrupt_regsOut (s : State) (fn c : Nat) : RegsOut s (s.interrupt fn c) := by
  unfold State.interrupt; split
  · exact ((RegsOut.refl s).setF _ _ _).trans (sendCause_regsOut _ _ _)
  · rfl

/-- No other register changes. -/
theorem interrupt_f (s : State) (fn c : Nat) (n : FieldName) (i : Nat) (h : n ≠ .HST_INT_CAUSE_CAUSE) :
    (s.interrupt fn c).f n i = s.f n i := by
  unfold State.interrupt; split
  · rw [sendCause_f, f_setF, if_neg (by rintro ⟨rfl, -⟩; exact h rfl)]
  · rfl

theorem foldl_regsOut {α : Type} (l : List α) (g : State → α → State) (hg : ∀ s a, RegsOut s (g s a)) (s : State) :
    RegsOut s (l.foldl g s) := by
  induction l generalizing s with
  | nil => rfl
  | cons a l ih => exact (hg s a).trans (ih _)

theorem foldl_f {α : Type} (l : List α) (g : State → α → State) (n : FieldName) (i : Nat)
    (hg : ∀ s a, (g s a).f n i = s.f n i) (s : State) : (l.foldl g s).f n i = s.f n i := by
  induction l generalizing s with
  | nil => rfl
  | cons a l ih => rw [List.foldl_cons, ih, hg]

theorem interruptAll_regsOut (s : State) (c : Nat) : RegsOut s (s.interruptAll c) :=
  foldl_regsOut _ _ (fun s fn => interrupt_regsOut s fn c) s

theorem interruptAll_f (s : State) (c : Nat) (n : FieldName) (i : Nat) (h : n ≠ .HST_INT_CAUSE_CAUSE) :
    (s.interruptAll c).f n i = s.f n i := foldl_f _ _ n i (fun s fn => interrupt_f s fn c n i h) s

theorem interruptPart_f (s : State) (p c : Nat) (n : FieldName) (i : Nat) (h : n ≠ .HST_INT_CAUSE_CAUSE) :
    (s.interruptPart p c).f n i = s.f n i := by
  unfold State.interruptPart; rw [interrupt_f _ _ _ _ _ h, interrupt_f _ _ _ _ _ h]

theorem interruptPart_regsOut (s : State) (p c : Nat) : RegsOut s (s.interruptPart p c) :=
  (interrupt_regsOut s 0 c).trans (interrupt_regsOut _ (p + 1) c)

/-- An SMBus alert sets its cause, and beside it at most the host's cause ALERT (R426). -/
theorem alert_f (s : State) (c : Nat) (n : FieldName) (i : Nat) (h : n ≠ .HST_INT_CAUSE_CAUSE) :
    (s.alert c).f n i = s.f n i := by
  unfold State.alert; dsimp only; split
  · rfl
  · rw [interrupt_f _ _ _ _ _ h]; rfl

theorem alert_smb (s : State) (c : Nat) : (s.alert c).smb = { s.smb with alerts := putBit s.smb.alerts c true } := by
  unfold State.alert; dsimp only; split
  · rfl
  · rw [interrupt_regsOut]

/-- A ledger entry joins the queue, and LEDG_STATUS.QUEUE follows its length (R491). -/
theorem ledger_ledgQ (s : State) (type payload : Nat) :
    (s.ledger type payload).ledgQ = s.ledgQ ++ [⟨type, payload, s.clkTime⟩] := rfl

theorem ledger_f (s : State) (type payload : Nat) (n : FieldName) (i : Nat) (h : n ≠ .LEDG_STATUS_QUEUE) :
    (s.ledger type payload).f n i = s.f n i := by
  unfold State.ledger; rw [f_setF, if_neg (by rintro ⟨rfl, -⟩; exact h rfl)]; rfl

end Sys2Proof.Laws
end

