-- ==== Sys2Proof/Laws/Exec.lean ====
section
/-! SUPPORT. exec, one equation for each command: its guard and its meaning. -/

namespace Sys2Proof.Laws

open Sys2Proof.Machine

theorem exec_registerWrite (fn : Nat) (off : Nat) (size : Nat) (val : Nat) (s : State) :
    exec (.registerWrite fn off size val) s = actAll (fn < 9 && off < 0x10000000 && (size = 1 || size = 2 || size = 4 || size = 8) && val < 2 ^ (8 * size)) (whenUp (registerWrite fn off size val)) s := rfl

theorem exec_rcRead (fn : Nat) (off : Nat) (size : Nat) (events : Nat) (s : State) :
    exec (.rcRead fn off size events) s = act (fn < 9 && off < 0x10000000) (whenUp (regRead fn off size events)) s := rfl

theorem exec_nop (c : Nat) (s : State) :
    exec (.nop c) s = act (coreOk c) (whenUp (issueNop c)) s := rfl

theorem exec_mma (c : Nat) (s : State) :
    exec (.mma c) s = act (coreOk c) (whenUp (issueMma c)) s := rfl

theorem exec_tdld (c : Nat) (s : State) :
    exec (.tdld c) s = act (coreOk c) (whenUp (issueTdld c)) s := rfl

theorem exec_tdadd (c : Nat) (s : State) :
    exec (.tdadd c) s = act (coreOk c) (whenUp (issueTdadd c)) s := rfl

theorem exec_cpy (c : Nat) (s : State) :
    exec (.cpy c) s = act (coreOk c) (whenUp (issueCpy c)) s := rfl

theorem exec_fence (c : Nat) (s : State) :
    exec (.fence c) s = act (coreOk c) (whenUp (issueFence c)) s := rfl

theorem exec_sync (c : Nat) (s : State) :
    exec (.sync c) s = act (coreOk c) (whenUp (issueSync c)) s := rfl

theorem exec_loop (c : Nat) (s : State) :
    exec (.loop c) s = act (coreOk c) (whenUp (issueLoop c)) s := rfl

theorem exec_stepend (c : Nat) (s : State) :
    exec (.stepend c) s = act (coreOk c) (whenUp (issueStepend c)) s := rfl

theorem exec_wstRelease (c : Nat) (q : Nat) (s : State) :
    exec (.wstRelease c q) s = act (coreOk c && q < 3) (whenUp (wstRelease c q)) s := rfl

theorem exec_fenceComplete (c : Nat) (s : State) :
    exec (.fenceComplete c) s = act (coreOk c) (whenUp (fenceComplete c)) s := rfl

theorem exec_syncRelease (k : Nat) (scope : Nat) (barrier : Nat) (region : Nat) (s : State) :
    exec (.syncRelease k scope barrier region) s = act (k < 65536 && scope < 3 && barrier < 256 && region < 48) (whenUp (syncRelease k scope barrier region)) s := rfl

theorem exec_stependDone (c : Nat) (s : State) :
    exec (.stependDone c) s = act (coreOk c) (whenUp (stependDone c)) s := rfl

theorem exec_issueResume (c : Nat) (s : State) :
    exec (.issueResume c) s = act (coreOk c) (whenUp (issueResume c)) s := rfl

theorem exec_arrayCycle (c : Nat) (upset : Nat) (s : State) :
    exec (.arrayCycle c upset) s = act (coreOk c && upset ≤ 39936) (whenUp (arrayCycle c upset)) s := rfl

theorem exec_bobbinSwap (c : Nat) (s : State) :
    exec (.bobbinSwap c) s = act (coreOk c) (whenUp (bobbinSwap c)) s := rfl

theorem exec_loadShuttleStage (c : Nat) (s : State) :
    exec (.loadShuttleStage c) s = act (coreOk c) (whenUp (loadShuttleStage c)) s := rfl

theorem exec_storeDrain (c : Nat) (s : State) :
    exec (.storeDrain c) s = act (coreOk c) (whenUp (storeDrain c)) s := rfl

theorem exec_cpyTransfer (c : Nat) (eng : Nat) (s : State) :
    exec (.cpyTransfer c eng) s = act (coreOk c && eng < 2) (whenUp (cpyTransfer c eng)) s := rfl

theorem exec_coreFault (r : Nat) (p : Nat) (cause : Nat) (s : State) :
    exec (.coreFault r p cause) s = act (r < 48 && p < 9 && cause < 3) (whenUp (coreFault r p cause)) s := rfl

theorem exec_vmap (c : Nat) (s : State) :
    exec (.vmap c) s = act (coreOk c) (whenUp (issueVec c (isOp 0x28))) s := rfl

theorem exec_vfma (c : Nat) (s : State) :
    exec (.vfma c) s = act (coreOk c) (whenUp (issueVec c (isOp 0x29))) s := rfl

theorem exec_vrow (c : Nat) (s : State) :
    exec (.vrow c) s = act (coreOk c) (whenUp (issueVec c (isOp 0x2A))) s := rfl

theorem exec_vnorm (c : Nat) (s : State) :
    exec (.vnorm c) s = act (coreOk c) (whenUp (issueVec c (isOp 0x2B))) s := rfl

theorem exec_vsmax (c : Nat) (s : State) :
    exec (.vsmax c) s = act (coreOk c) (whenUp (issueVec c (isOp 0x2C))) s := rfl

theorem exec_vrscRescale (c : Nat) (s : State) :
    exec (.vrscRescale c) s = act (coreOk c) (whenUp (issueVec c (isVrsc (fun f => f = 0 || 2 < f)))) s := rfl

theorem exec_vrscFinal (c : Nat) (s : State) :
    exec (.vrscFinal c) s = act (coreOk c) (whenUp (issueVec c (isVrsc (fun f => f = 1)))) s := rfl

theorem exec_vrscClose (c : Nat) (s : State) :
    exec (.vrscClose c) s = act (coreOk c) (whenUp (issueVec c (isVrsc (fun f => f = 2)))) s := rfl

theorem exec_vsti (c : Nat) (s : State) :
    exec (.vsti c) s = act (coreOk c) (whenUp (issueVec c (isOp 0x2E))) s := rfl

theorem exec_vdot (c : Nat) (s : State) :
    exec (.vdot c) s = act (coreOk c) (whenUp (issueVec c (isOp 0x2F))) s := rfl

theorem exec_vsbwd (c : Nat) (s : State) :
    exec (.vsbwd c) s = act (coreOk c) (whenUp (issueVec c (isOp 0x30))) s := rfl

theorem exec_vloss (c : Nat) (s : State) :
    exec (.vloss c) s = act (coreOk c) (whenUp (issueVec c (isOp 0x31))) s := rfl

theorem exec_vqnt (c : Nat) (s : State) :
    exec (.vqnt c) s = act (coreOk c) (whenUp (issueVec c (isOp 0x32))) s := rfl

theorem exec_vpos (c : Nat) (s : State) :
    exec (.vpos c) s = act (coreOk c) (whenUp (issueVpos c)) s := rfl

theorem exec_vsetf (c : Nat) (s : State) :
    exec (.vsetf c) s = act (coreOk c) (whenUp (issueVsetf c)) s := rfl

theorem exec_vectorChunk (c : Nat) (s : State) :
    exec (.vectorChunk c) s = act (coreOk c) (whenUp (vectorChunk c)) s := rfl

theorem exec_scratchGrant (c : Nat) (bank : Nat) (store : Bool) (load : Bool) (vec : Bool) (s : State) :
    exec (.scratchGrant c bank store load vec) s = act (coreOk c && bank < 32) (whenUp (scratchGrant c bank store load vec)) s := rfl

theorem exec_switchRequest (c : Nat) (k : Nat) (s : State) :
    exec (.switchRequest c k) s = act (coreOk c && k < 65536) (whenUp (fun s => s.askSwitch c k)) s := rfl

theorem exec_coreSwitch (c : Nat) (s : State) :
    exec (.coreSwitch c) s = act (coreOk c) (whenUp (coreSwitch c)) s := rfl

theorem exec_switchComplete (c : Nat) (s : State) :
    exec (.switchComplete c) s = act (coreOk c) (whenUp (switchComplete c)) s := rfl

theorem exec_schedule (p : Nat) (s : State) :
    exec (.schedule p) s = act (p < 8) (whenUp (schedule p)) s := rfl

theorem exec_stepStart (k : Nat) (s : State) :
    exec (.stepStart k) s = act (k < 65536) (whenUp (stepStart k)) s := rfl

theorem exec_preempt (k : Nat) (s : State) :
    exec (.preempt k) s = act (k < 65536) (whenUp (preempt k)) s := rfl

theorem exec_swatchReturn (k : Nat) (s : State) :
    exec (.swatchReturn k) s = act (k < 65536) (whenUp (swatchReturn k)) s := rfl

theorem exec_stepBoundary (k : Nat) (s : State) :
    exec (.stepBoundary k) s = act (k < 65536) (whenUp (stepBoundary k)) s := rfl

theorem exec_limpSwitch (r : Nat) (carrier : Nat) (s : State) :
    exec (.limpSwitch r carrier) s = act (r < 48 && carrier < 8) (whenUp (limpSwitch r carrier)) s := rfl

theorem exec_packJob (st : Nat) (s : State) :
    exec (.packJob st) s = act (st < 24) (whenUp (packJob st)) s := rfl

theorem exec_updateJob (st : Nat) (badBlocks : List Nat) (s : State) :
    exec (.updateJob st badBlocks) s = act (st < 24) (whenUp (updateJob st badBlocks)) s := rfl

theorem exec_foreignErrorPass (st : Nat) (s : State) :
    exec (.foreignErrorPass st) s = act (st < 24) (whenUp (foreignPass st)) s := rfl

theorem exec_stepCommit (sw : Nat) (s : State) :
    exec (.stepCommit sw) s = act (sw < 65536) (whenUp (stepCommit sw)) s := rfl

theorem exec_pendingRowAppend (sw : Nat) (span : Nat) (row : Nat) (rows : List (List Nat)) (s : State) :
    exec (.pendingRowAppend sw span row rows) s = act (sw < 65536) (whenUp (pendingAppend sw span row rows)) s := rfl

theorem exec_pendingRowApply (st : Nat) (sw : Nat) (entry : Nat × List Nat) (s : State) :
    exec (.pendingRowApply st sw entry) s = act (st < 24 && sw < 65536) (whenUp (pendingApply st sw entry.1 entry.2)) s := rfl

theorem exec_closingHop (k : Nat) (span : Nat) (block : Nat) (s : State) :
    exec (.closingHop k span block) s = act (k < 65536) (whenUp (closingHop k span block)) s := rfl

theorem exec_roundTrailerSend (d : Nat) (k : Nat) (s : State) :
    exec (.roundTrailerSend d k) s = act (d < 16 && k < 65536) (whenUp (roundTrailerSend d k)) s := rfl

theorem exec_trailer (d : Nat) (t : Nat) (sender : Nat) (s : State) :
    exec (.trailer d t sender) s = act (d < 16 && sender < 8192) (whenUp (takesTrailer d t sender)) s := rfl

theorem exec_collectiveTimeout (d : Nat) (seq : Nat) (s : State) :
    exec (.collectiveTimeout d seq) s = act (d < 16) (whenUp (collectiveTimeout d seq)) s := rfl

theorem exec_holdNoticeTick (k : Nat) (s : State) :
    exec (.holdNoticeTick k) s = act (k < 65536) (whenUp (holdNoticeTick k)) s := rfl

theorem exec_hold (d : Nat) (epoch : Nat) (seqs : List Nat) (sender : Nat) (s : State) :
    exec (.hold d epoch seqs sender) s = act (d < 16 && sender < 8192) (whenUp (hold d epoch seqs)) s := rfl

theorem exec_agreeLocalise (k : Nat) (bad : List Nat) (s : State) :
    exec (.agreeLocalise k bad) s = act (k < 65536) (whenUp (agreeLocalise k bad)) s := rfl

theorem exec_agreeRepair (k : Nat) (bad : List Nat) (s : State) :
    exec (.agreeRepair k bad) s = act (k < 65536) (whenUp (agreeRepair k bad)) s := rfl

theorem exec_stateTransferSend (d : Nat) (k : Nat) (s : State) :
    exec (.stateTransferSend d k) s = act (d < 16 && k < 65536) (whenUp (stateTransferSend d k)) s := rfl

theorem exec_stateTransferDone (d : Nat) (k : Nat) (s : State) :
    exec (.stateTransferDone d k) s = act (d < 16 && k < 65536) (whenUp (stateTransferDone d k)) s := rfl

theorem exec_hbmRequest (st : Nat) (p : Nat) (arrivals : List Nat) (syms : List Nat) (s : State) :
    exec (.hbmRequest st p arrivals syms) s = act (st < 24 && p < 64) (whenUp (whenever (s.dramOn st) (hbmRequest st p arrivals syms))) s := rfl

theorem exec_laneSwap (st : Nat) (chan : Nat) (s : State) :
    exec (.laneSwap st chan) s = act (st < 24 && chan < 32) (whenUp (laneSwap st chan)) s := rfl

theorem exec_patrolScrub (st : Nat) (slot : Nat) (syms : List Nat) (s : State) :
    exec (.patrolScrub st slot syms) s = act (st < 24 && slot < 1572864) (whenUp (whenever (s.stackServes st && slot = (s.stack st).scrubAt) (patrolScrub st slot syms))) s := rfl

theorem exec_arbiterGrant (arb : Nat) (waiting : List Nat) (s : State) :
    exec (.arbiterGrant arb waiting) s = act (arbOk arb) (whenUp (arbiterGrant arb waiting)) s := rfl

theorem exec_pocketAccess (region : Nat) (sw : Nat) (tag : Nat) (addr : Nat) (write : Bool) (data : Nat) (parity : Bool) (s : State) :
    exec (.pocketAccess region sw tag addr write data parity) s = act (region < 48 && sw < 65536 && tag ≤ 4096 && addr % 64 = 0 && addr + 64 ≤ 2 ^ 43) (whenUp (pocketAccess region sw tag addr write data parity)) s := rfl

theorem exec_pocketZeroingDone (region : Nat) (way : Nat) (s : State) :
    exec (.pocketZeroingDone region way) s = act (region < 48 && way < 16) (whenUp (pocketZeroingDone region way)) s := rfl

theorem exec_pocketSweep (region : Nat) (s : State) :
    exec (.pocketSweep region) s = act (region < 48) (whenUp (pocketSweep region)) s := rfl

theorem exec_thermalSample (temps : List Nat) (dies : List Nat) (s : State) :
    exec (.thermalSample temps dies) s = act (temps.length = 31 && dies.length = 24 && temps.all (fun x => x < 256) && dies.all (fun x => x ≤ 16)) (whenUp (thermalSample temps dies)) s := rfl

theorem exec_stackFitSlice (st : Nat) (s : State) :
    exec (.stackFitSlice st) s = act (st < 24) (whenUp (stackFitSlice st)) s := rfl

theorem exec_stackSliceResult (st : Nat) (pass : Bool) (s : State) :
    exec (.stackSliceResult st pass) s = act (st < 24) (whenUp (stackSliceResult st pass)) s := rfl

theorem exec_alloc (s : State) :
    exec .alloc s = act true (whenUp (tierRun 0)) s := rfl

theorem exec_free (s : State) :
    exec .free s = act true (whenUp (tierRun 1)) s := rfl

theorem exec_promoteRequest (s : State) :
    exec .promoteRequest s = act true (whenUp (tierRun 2)) s := rfl

theorem exec_evict (s : State) :
    exec .evict s = act true (whenUp (tierRun 3)) s := rfl

theorem exec_pin (s : State) :
    exec .pin s = act true (whenUp (tierRun 4)) s := rfl

theorem exec_unpin (s : State) :
    exec .unpin s = act true (whenUp (tierRun 5)) s := rfl

theorem exec_query (s : State) :
    exec .query s = act true (whenUp (tierRun 6)) s := rfl

theorem exec_moveReserve (b : Nat) (s : State) :
    exec (.moveReserve b) s = act (boltOk b) (whenUp (moveReserve b)) s := rfl

theorem exec_moveCopyDone (b : Nat) (bad : List Nat) (s : State) :
    exec (.moveCopyDone b bad) s = act (boltOk b && bad.all (fun g => g < 256)) (whenUp (moveCopyDone b bad)) s := rfl

theorem exec_moveHold (b : Nat) (s : State) :
    exec (.moveHold b) s = act (boltOk b) (whenUp (moveHold b)) s := rfl

theorem exec_holdAck (b : Nat) (h : Nat) (s : State) :
    exec (.holdAck b h) s = act (holderOk h && boltOk b) (whenUp (holdAck b h)) s := rfl

theorem exec_moveFlip (b : Nat) (s : State) :
    exec (.moveFlip b) s = act (boltOk b) (whenUp (moveFlip b)) s := rfl

theorem exec_moveFreeSource (b : Nat) (s : State) :
    exec (.moveFreeSource b) s = act (boltOk b) (whenUp (moveFreeSource b)) s := rfl

theorem exec_dirNotice (h : Nat) (b : Nat) (gen : Nat) (freed : Bool) (s : State) :
    exec (.dirNotice h b gen freed) s = act (holderOk h && boltOk b && gen < 65536) (whenUp (dirNotice h b gen freed)) s := rfl

theorem exec_translationFill (b : Nat) (h : Nat) (k : Nat) (write : Bool) (s : State) :
    exec (.translationFill b h k write) s = act (holderOk h && boltOk b && k < 65536) (whenUp (translationFill b h k write)) s := rfl

theorem exec_layerMark (k : Nat) (s : State) :
    exec (.layerMark k) s = act (k < 65536) (whenUp (layerMark k)) s := rfl

theorem exec_stallLimit (k : Nat) (cause : Nat) (s : State) :
    exec (.stallLimit k cause) s = act (k < 65536 && cause < 6) (whenUp (stallLimit k cause)) s := rfl

theorem exec_dirScrub (s : State) :
    exec .dirScrub s = act true (whenUp dirScrub) s := rfl

theorem exec_flashProgram (c : Nat) (lost : Nat) (s : State) :
    exec (.flashProgram c lost) s = act (c < 2) (whenUp (flashProgram c lost)) s := rfl

theorem exec_flashBudgetHour (c : Nat) (s : State) :
    exec (.flashBudgetHour c) s = act (c < 2) (whenUp (flashBudgetHour c)) s := rfl

theorem exec_tierT3Write (size : Bool) (val : Nat) (s : State) :
    exec (.tierT3Write size val) s = act (val < 2 ^ 64) (whenUp (registerWrite 0 (if size then 0x9010 else 0x9008) 8 val)) s := rfl

theorem exec_portDetect (p : Nat) (s : State) :
    exec (.portDetect p) s = act (portOk p) (whenUp (portDetect p)) s := rfl

theorem exec_portUp (p : Nat) (lanes : List Nat) (rtt : Nat) (s : State) :
    exec (.portUp p lanes rtt) s = act (portOk p && rtt < 65536) (whenUp (portUpEnd p lanes rtt)) s := rfl

theorem exec_hello (p : Nat) (fields : List Nat) (s : State) :
    exec (.hello p fields) s = act (portOk p) (whenUp (hello p fields)) s := rfl

theorem exec_flitReceive (p : Nat) (h : Nat) (payload : Nat) (err : List Nat) (crcOk : Bool) (s : State) :
    exec (.flitReceive p h payload err crcOk) s = act (portOk p && h < 2 ^ 64) (whenUp (fun s => whenever (s.portUp p) (flitReceive p h payload err crcOk) s)) s := rfl

theorem exec_nak (p : Nat) (seq : Nat) (s : State) :
    exec (.nak p seq) s = act (portOk p && seq < 4096) (whenUp (fun s => whenever (s.portUp p) (fun t => t.replayFrom p seq) s)) s := rfl

theorem exec_replayTimeout (p : Nat) (s : State) :
    exec (.replayTimeout p) s = act (portOk p) (whenUp (replayTimeout p)) s := rfl

theorem exec_retrain (p : Nat) (s : State) :
    exec (.retrain p) s = act (portOk p) (whenUp (fun s => whenever (s.portUp p) (fun t => t.retrainPort p) s)) s := rfl

theorem exec_signalLoss (p : Nat) (s : State) :
    exec (.signalLoss p) s = act (portOk p) (whenUp (signalLoss p)) s := rfl

theorem exec_join (fields : List Nat) (s : State) :
    exec (.join fields) s = act true (whenUp (onDomain fields joinMsg)) s := rfl

theorem exec_leave (fields : List Nat) (s : State) :
    exec (.leave fields) s = act true (whenUp (onDomain fields leaveMsg)) s := rfl

theorem exec_propose (fields : List Nat) (s : State) :
    exec (.propose fields) s = act true (whenUp (onDomain fields proposeMsg)) s := rfl

theorem exec_announce (fields : List Nat) (s : State) :
    exec (.announce fields) s = act true (whenUp (onDomain fields announceMsg)) s := rfl

theorem exec_adopt (fields : List Nat) (s : State) :
    exec (.adopt fields) s = act true (whenUp (onDomain fields adoptMsg)) s := rfl

theorem exec_clkstat (p : Nat) (depth : Nat) (s : State) :
    exec (.clkstat p depth) s = actAll (p < 16 && depth < 32) (whenUp (whenever (s.portUp p) (clkstat p depth))) s := rfl

theorem exec_cmd (fields : List Nat) (s : State) :
    exec (.cmd fields) s = act true (whenUp (onDomain fields cmdMsg)) s := rfl

theorem exec_proposeRetry (d : Nat) (s : State) :
    exec (.proposeRetry d) s = act (d < 16) (whenUp (proposeRetry d)) s := rfl

theorem exec_adoptTimeout (d : Nat) (s : State) :
    exec (.adoptTimeout d) s = act (d < 16) (whenUp (adoptTimeout d)) s := rfl

theorem exec_joinResend (d : Nat) (s : State) :
    exec (.joinResend d) s = act (d < 16) (whenUp (joinResend d)) s := rfl

theorem exec_memberStrike (d : Nat) (place : Nat) (s : State) :
    exec (.memberStrike d place) s = act (d < 16 && place < 8192) (whenUp (memberStrike d place)) s := rfl

theorem exec_collIssue (d : Nat) (s : State) :
    exec (.collIssue d) s = act (d < 16) (whenUp (collIssue d)) s := rfl

theorem exec_sequenceComplete (d : Nat) (seq : Nat) (sender : Nat) (s : State) :
    exec (.sequenceComplete d seq sender) s = act (d < 16 && sender < 8192) (whenUp (sequenceComplete d seq sender)) s := rfl

theorem exec_runBarrier (k : Nat) (s : State) :
    exec (.runBarrier k) s = act (k < 65536) (whenUp (runBarrier k)) s := rfl

theorem exec_runPack (k : Nat) (s : State) :
    exec (.runPack k) s = act (k < 65536) (whenUp (runPack k)) s := rfl

theorem exec_runCollExchange (k : Nat) (s : State) :
    exec (.runCollExchange k) s = act (k < 65536) (whenUp (runCollExchange k)) s := rfl

theorem exec_collReduceScatter (k : Nat) (s : State) :
    exec (.collReduceScatter k) s = act (k < 65536) (whenUp (runCollTensor 0 k)) s := rfl

theorem exec_collAllGather (k : Nat) (s : State) :
    exec (.collAllGather k) s = act (k < 65536) (whenUp (runCollTensor 1 k)) s := rfl

theorem exec_collAllReduce (k : Nat) (s : State) :
    exec (.collAllReduce k) s = act (k < 65536) (whenUp (runCollTensor 2 k)) s := rfl

theorem exec_collBroadcast (k : Nat) (s : State) :
    exec (.collBroadcast k) s = act (k < 65536) (whenUp (runCollTensor 3 k)) s := rfl

theorem exec_runTier (k : Nat) (s : State) :
    exec (.runTier k) s = act (k < 65536) (whenUp (runTier k)) s := rfl

theorem exec_runEnd (k : Nat) (s : State) :
    exec (.runEnd k) s = act (k < 65536) (whenUp (runEnd k)) s := rfl

theorem exec_barrierStall (k : Nat) (s : State) :
    exec (.barrierStall k) s = act (k < 65536) (whenUp (barrierStall k)) s := rfl

theorem exec_resume (fn : Nat) (k : Nat) (s : State) :
    exec (.resume fn k) s = act (fn < 9 && k < 65536) (whenUp (resume fn k)) s := rfl

theorem exec_park (fn : Nat) (k : Nat) (s : State) :
    exec (.park fn k) s = act (fn < 9 && k < 65536) (whenUp (park fn k)) s := rfl

theorem exec_partitionWrite (fn : Nat) (p : Nat) (which : Nat) (val : Nat) (s : State) :
    exec (.partitionWrite fn p which val) s = act (fn < 9 && p < 8 && which < 2 && val < 2 ^ 64) (whenUp (registerWrite fn (0x10900 + 16 * p + 8 * which) 8 val)) s := rfl

theorem exec_partitionChangeApply (p : Nat) (s : State) :
    exec (.partitionChangeApply p) s = act (p < 8) (whenUp (partitionChangeApply p)) s := rfl

theorem exec_descriptorWrite (fn : Nat) (k : Nat) (w : Nat) (v : Nat) (s : State) :
    exec (.descriptorWrite fn k w v) s = act (fn < 9 && k < 65536 && w < 32 && v < 2 ^ 64) (whenUp (descriptorWrite fn k w v)) s := rfl

theorem exec_collDomCfgWrite (fn : Nat) (d : Nat) (val : Nat) (s : State) :
    exec (.collDomCfgWrite fn d val) s = act (fn < 9 && d < 16 && val < 2 ^ 64) (whenUp (registerWrite fn (0xA100 + 16 * d) 8 val)) s := rfl

theorem exec_collCmdJoin (d : Nat) (s : State) :
    exec (.collCmdJoin d) s = act (d < 16) (whenUp (collJoin d)) s := rfl

theorem exec_collCmdLeave (d : Nat) (s : State) :
    exec (.collCmdLeave d) s = act (d < 16) (whenUp (collLeave d)) s := rfl

theorem exec_collCmdRemove (d : Nat) (place : Nat) (s : State) :
    exec (.collCmdRemove d place) s = act (d < 16 && place < 8192) (whenUp (collConvener d 3 place)) s := rfl

theorem exec_collCmdForce (d : Nat) (s : State) :
    exec (.collCmdForce d) s = act (d < 16) (whenUp (collConvener d 4 0)) s := rfl

theorem exec_sourceLaneLost (s : State) :
    exec .sourceLaneLost s = actAll true (whenUp sourceLaneLost) s := rfl

theorem exec_rampReached (s : State) :
    exec .rampReached s = actAll true (whenUp rampReached) s := rfl

theorem exec_rootLocked (s : State) :
    exec .rootLocked s = actAll true (whenUp rootLocked) s := rfl

theorem exec_clockAcquire (s : State) :
    exec .clockAcquire s = actAll true (whenUp clockAcquire) s := rfl

theorem exec_reacquire (s : State) :
    exec .reacquire s = actAll true (whenUp reacquire) s := rfl

theorem exec_clkrefLost (s : State) :
    exec .clkrefLost s = actAll true (whenUp (whenever (!s.clk.refGone) clkrefLost)) s := rfl

theorem exec_dividerStep (d : Nat) (s : State) :
    exec (.dividerStep d) s = actAll (d < 5) (whenPowered (dividerStep d)) s := rfl

theorem exec_passStep (s : State) :
    exec .passStep s = actAll true (whenPowered passStep) s := rfl

theorem exec_voltageSettled (s : State) :
    exec .voltageSettled s = actAll true (whenPowered voltageSettled) s := rfl

theorem exec_powerSample (mv : Nat) (dw : Nat) (s : State) :
    exec (.powerSample mv dw) s = actAll (mv < 65536 && dw < 2 ^ 32) (whenUp (powerSample mv dw)) s := rfl

theorem exec_pwrgdAssert (s : State) :
    exec .pwrgdAssert s = actAll true pwrgdAssert s := rfl

theorem exec_pwrgdDeassert (s : State) :
    exec .pwrgdDeassert s = actAll true pwrgdDeassert s := rfl

theorem exec_perstAssert (s : State) :
    exec .perstAssert s = actAll true perstAssert s := rfl

theorem exec_perstDeassert (straps : Nat) (s : State) :
    exec (.perstDeassert straps) s = actAll (straps < 32) (perstDeassert straps) s := rfl

theorem exec_bringUpStep (results : List Nat) (s : State) :
    exec (.bringUpStep results) s = actAll true (whenUp (bringUpStep results)) s := rfl

theorem exec_portWaitEnd (s : State) :
    exec .portWaitEnd s = act true (whenUp portWaitEnd) s := rfl

theorem exec_fittingSlice (region : Nat) (phys : Nat) (pass : Bool) (s : State) :
    exec (.fittingSlice region phys pass) s = act (region < 48 && phys < 9) (whenUp (fittingSlice region phys pass)) s := rfl

theorem exec_resetCore (region : Nat) (k : Nat) (s : State) :
    exec (.resetCore region k) s = act (region < 48 && k < 8) (whenUp (resetCore region k)) s := rfl

theorem exec_resetRegion (region : Nat) (s : State) :
    exec (.resetRegion region) s = act (region < 48) (whenUp (resetRegion region)) s := rfl

theorem exec_partitionReset (part : Nat) (s : State) :
    exec (.partitionReset part) s = act (part < 8) (whenUp (fun s => s.resetPart 2 part)) s := rfl

theorem exec_moduleReset (s : State) :
    exec .moduleReset s = actAll true (whenUp State.moduleReset) s := rfl

theorem exec_resetComplete (scope : Nat) (id : Nat) (s : State) :
    exec (.resetComplete scope id) s = act ((scope = 0 && id < 384) || (scope = 1 && id < 48) || (scope = 2 && id < 8)) (whenUp (resetComplete scope id)) s := rfl

theorem exec_functionLevelReset (fn : Nat) (s : State) :
    exec (.functionLevelReset fn) s = act (fn < 9) (whenUp (functionReset fn)) s := rfl

theorem exec_linkStateChange (rate : Nat) (width : Nat) (flit : Bool) (s : State) :
    exec (.linkStateChange rate width flit) s = act (rate < 5 && (width = 0 || width = 1 || width = 2 || width = 4)) (whenUp (linkChange rate width flit)) s := rfl

theorem exec_intMaskWrite (fn : Nat) (val : Nat) (s : State) :
    exec (.intMaskWrite fn val) s = act (fn < 9 && val < 2 ^ 64) (whenUp (registerWrite fn 0x20 8 val)) s := rfl

theorem exec_dpAddrWrite (fn : Nat) (val : Nat) (s : State) :
    exec (.dpAddrWrite fn val) s = act (fn < 9 && val < 2 ^ 64) (whenUp (registerWrite fn 0x1000 8 val)) s := rfl

theorem exec_dataPortAccess (fn : Nat) (write : Bool) (off : Nat) (units : List Nat) (s : State) :
    exec (.dataPortAccess fn write off units) s = act (fn < 9 && off < 65536) (whenUp (dataPortAccess fn write off units)) s := rfl

theorem exec_dpReadStall (fn : Nat) (s : State) :
    exec (.dpReadStall fn) s = act (fn < 9) (whenUp (dpReadStall fn)) s := rfl

theorem exec_jobBoardCheck (p : Nat) (s : State) :
    exec (.jobBoardCheck p) s = act (p < 8) (whenUp (boardCheck p)) s := rfl

theorem exec_jobRun (s : State) :
    exec .jobRun s = act true (whenUp jobRun) s := rfl

theorem exec_jobTier (s : State) :
    exec .jobTier s = act true (whenUp jobTier) s := rfl

theorem exec_jobStop (s : State) :
    exec .jobStop s = act true (whenUp jobStop) s := rfl

theorem exec_slotRead (fn : Nat) (p : Nat) (i : Nat) (s : State) :
    exec (.slotRead fn p i) s = act (fn < 9 && p < 8 && i < 4096) (whenUp (slotRead fn p i)) s := rfl

theorem exec_slotRelease (fn : Nat) (p : Nat) (i : Nat) (s : State) :
    exec (.slotRelease fn p i) s = act (fn < 9 && p < 8 && i < 4096) (whenUp (slotRelease fn p i)) s := rfl

theorem exec_begin (fn : Nat) (s : State) :
    exec (.begin fn) s = act (fn < 9) (whenUp (txnBegin fn)) s := rfl

theorem exec_commit (fn : Nat) (s : State) :
    exec (.commit fn) s = act (fn < 9) (whenUp (txnCommit fn)) s := rfl

theorem exec_rollback (fn : Nat) (s : State) :
    exec (.rollback fn) s = act (fn < 9) (whenUp (txnRollback fn)) s := rfl

theorem exec_selectNext (num : Nat) (s : State) :
    exec (.selectNext num) s = act (num < 4) (whenUp (selectNext num)) s := rfl

theorem exec_clearNext (s : State) :
    exec .clearNext s = act true (whenUp clearNext) s := rfl

theorem exec_patWrite (num : Nat) (s : State) :
    exec (.patWrite num) s = act (num < 4) (whenUp (patWrite num)) s := rfl

theorem exec_patWriteDone (ok : Bool) (s : State) :
    exec (.patWriteDone ok) s = act true (whenUp (patWriteDone ok)) s := rfl

theorem exec_smbIdentity (s : State) :
    exec .smbIdentity s = act true (whenServed smbIdentity) s := rfl

theorem exec_smbStatus (s : State) :
    exec .smbStatus s = act true (whenServed smbStatus) s := rfl

theorem exec_smbTemps (s : State) :
    exec .smbTemps s = act true (whenServed smbTemps) s := rfl

theorem exec_smbPower (s : State) :
    exec .smbPower s = act true (whenServed smbPower) s := rfl

theorem exec_smbAlertRead (s : State) :
    exec .smbAlertRead s = act true (whenServed smbAlertRead) s := rfl

theorem exec_smbAlertClear (val : Nat) (s : State) :
    exec (.smbAlertClear val) s = act (val < 65536) (whenServed (smbAlertClear val)) s := rfl

theorem exec_smbAlertMask (val : Nat) (s : State) :
    exec (.smbAlertMask val) s = act (val < 65536) (whenServed (smbAlertMask val)) s := rfl

theorem exec_smbLedgerIndex (val : Nat) (s : State) :
    exec (.smbLedgerIndex val) s = act (val < 2 ^ 32) (whenServed (smbLedgerIndex val)) s := rfl

theorem exec_smbLedgerRead (s : State) :
    exec .smbLedgerRead s = act true (whenServed smbLedgerRead) s := rfl

theorem exec_smbAlertResponse (s : State) :
    exec .smbAlertResponse s = act true (whenServed smbAlertResponse) s := rfl

theorem exec_attest (s : State) :
    exec .attest s = act true (whenUp attest) s := rfl

theorem exec_spdmRequest (kind : Nat) (nonce : Nat) (s : State) :
    exec (.spdmRequest kind nonce) s = act (kind < 2 && nonce < 2 ^ 256) (whenUp (spdmRequest kind nonce)) s := rfl

theorem exec_wipe (s : State) :
    exec .wipe s = actAll true (whenUp wipe) s := rfl

theorem exec_refurbish (s : State) :
    exec .refurbish s = act true (whenUp refurbish) s := rfl

theorem exec_owner (s : State) :
    exec .owner s = act true (whenUp (fun s => s.authorised 4 (fun t => (t.putOwner, 0)))) s := rfl

theorem exec_commitSvn (s : State) :
    exec .commitSvn s = act true (whenUp commitSvn) s := rfl

theorem exec_revokeF0 (s : State) :
    exec .revokeF0 s = act true (whenUp revokeF0) s := rfl

theorem exec_rcvBegin (slot : Nat) (s : State) :
    exec (.rcvBegin slot) s = act (slot < 2) (whenUp (rcvBegin slot)) s := rfl

theorem exec_rcvDataWrite (v : Nat) (s : State) :
    exec (.rcvDataWrite v) s = act (v < 2 ^ 64) (whenUp (rcvData v)) s := rfl

theorem exec_rcvEnd (s : State) :
    exec .rcvEnd s = act true (whenUp rcvEnd) s := rfl

theorem exec_ledgerProgram (s : State) :
    exec .ledgerProgram s = act true (whenPowered ledgerProgram) s := rfl

theorem exec_ledgerPeriodic (s : State) :
    exec .ledgerPeriodic s = act true (whenUp ledgerPeriodic) s := rfl

theorem exec_archive (count : Nat) (s : State) :
    exec (.archive count) s = act true (whenUp (archive count)) s := rfl

theorem exec_illegalWord (c : Nat) (s : State) :
    exec (.illegalWord c) s = act (coreOk c) (whenUp (issueIllegal c)) s := rfl

theorem exec_unitFault (kind : Nat) (num : Nat) (s : State) :
    exec (.unitFault kind num) s = act (num < unitsOf kind) (whenUp (unitFault kind num)) s := rfl

theorem exec_moveHoldNotice (h : Nat) (b : Nat) (s : State) :
    exec (.moveHoldNotice h b) s = act (holderOk h && boltOk b) (whenUp (moveHoldNotice h b)) s := rfl

theorem exec_generationSpacingEnd (b : Nat) (s : State) :
    exec (.generationSpacingEnd b) s = act (boltOk b) (whenUp (generationSpacingEnd b)) s := rfl

theorem exec_resetDrainEnd (s : State) :
    exec .resetDrainEnd s = actAll true (whenPowered resetDrainEnd) s := rfl

theorem exec_perBankRefresh (st : Nat) (p : Nat) (bank : Nat) (s : State) :
    exec (.perBankRefresh st p bank) s = act (st < 24 && p < 64 && bank < 64) (whenUp (whenever (s.dramOn st) (perBankRefresh st p bank))) s := rfl

theorem exec_clkrefReturn (s : State) :
    exec .clkrefReturn s = actAll true (whenPowered clkrefReturn) s := rfl

theorem exec_ideKmRequest (setup : Bool) (s : State) :
    exec (.ideKmRequest setup) s = act true (whenUp (ideRequest setup)) s := rfl

end Sys2Proof.Laws
end

