-- ==== Sys2Proof/Laws/Fail.lean ====
section
/-! SUPPORT. What a broken step, a unit fault and a withdrawal can change. -/

namespace Sys2Proof.Laws

open Sys2Proof.Machine

/-- Two states that differ by steps broken, faults reported and a withdrawal set. -/
def Failed (s t : State) : Prop :=
  t = { s with
    regs := t.regs, out := t.out, sws := t.sws, cores := t.cores
    withdraw := t.withdraw, timedOut := t.timedOut, rejoin := t.rejoin } ∧
    ∀ n i, n ∉ [.CORE_STATUS_BROKEN, .CORE_STATUS_STATE, .VEC_STATUS_BUSY, .HST_INT_CAUSE_CAUSE] → t.f n i = s.f n i

theorem Failed.refl (s : State) : Failed s s := ⟨rfl, fun _ _ _ => rfl⟩

theorem Failed.trans {s t u : State} (h : Failed s t) (k : Failed t u) : Failed s u :=
  ⟨by rw [k.1, h.1], fun n i hn => (k.2 n i hn).trans (h.2 n i hn)⟩

theorem foldl_failed {α : Type} (l : List α) (g : State → α → State) (hg : ∀ s a, Failed s (g s a)) (s : State) :
    Failed s (l.foldl g s) := by
  induction l generalizing s with
  | nil => exact Failed.refl s
  | cons a l ih => exact (hg s a).trans (ih _)

theorem setF_failed {n : FieldName} (s : State) (i v : Nat)
    (hn : n ∈ [FieldName.CORE_STATUS_BROKEN, .CORE_STATUS_STATE, .VEC_STATUS_BUSY, .HST_INT_CAUSE_CAUSE]) : Failed s (s.setF n i v) :=
  ⟨rfl, fun m j hm => by rw [f_setF, if_neg (by rintro ⟨rfl, -⟩; exact hm hn)]⟩

theorem interrupt_failed (s : State) (fn c : Nat) : Failed s (s.interrupt fn c) := by
  refine ⟨?_, fun n i hn => interrupt_f s fn c n i (by rintro rfl; simp at hn)⟩
  rw [interrupt_regsOut]

theorem breakCore_failed (s : State) (c : Nat) : Failed s (breakCore s c) := by
  unfold breakCore; dsimp only; split
  · refine (setF_failed s c 1 (by simp)).trans ((setF_failed _ c 6 (n := .CORE_STATUS_STATE) (by simp)).trans
      ((setF_failed (n := .VEC_STATUS_BUSY) _ c 0 (by simp)).trans ⟨rfl, fun _ _ _ => rfl⟩))
  · exact setF_failed s c 1 (by simp)

theorem failStep_failed (s : State) (k b : Nat) : Failed s (s.failStep k b) := by
  unfold State.failStep; dsimp only; split
  · exact Failed.trans (t := s.setSw k _) ⟨rfl, fun _ _ _ => rfl⟩ (foldl_failed _ _ breakCore_failed _)
  · exact ⟨rfl, fun _ _ _ => rfl⟩

theorem interruptAll_failed (s : State) (c : Nat) : Failed s (s.interruptAll c) :=
  foldl_failed _ _ (fun s fn => interrupt_failed s fn c) s

theorem interruptPart_failed (s : State) (p c : Nat) : Failed s (s.interruptPart p c) :=
  (interrupt_failed s 0 c).trans (interrupt_failed _ (p + 1) c)

theorem moduleFault_failed (s : State) : Failed s s.moduleFault :=
  (foldl_failed _ _ (fun s k => failStep_failed s k causeUnit) s).trans (interruptAll_failed _ 5)

theorem regionFault_failed (s : State) (r : Nat) : Failed s (s.regionFault r) := by
  unfold State.regionFault; split
  · exact Failed.refl s
  · exact (foldl_failed _ _ (fun s k => failStep_failed s k causeUnit) s).trans (interruptPart_failed _ _ 5)

theorem setWithdraw_failed (s : State) (cause : Nat) : Failed s (s.setWithdraw cause) := by
  unfold State.setWithdraw; dsimp only
  refine Failed.trans (t := match s.withdraw with
    | none => { s with withdraw := some cause, timedOut := false, rejoin := 0 }
    | some _ => { s with timedOut := false, rejoin := 0 }) ?_ (foldl_failed _ _ (fun t k => ?_) _)
  · split <;> exact ⟨rfl, fun _ _ _ => rfl⟩
  · split
    · exact Failed.refl t
    · exact (failStep_failed t k causeWithdraw).trans ⟨rfl, fun _ _ _ => rfl⟩

/-- What a state holds of a withdrawal. -/
def withdrawal (s : State) : Option Nat × Bool × Nat := (s.withdraw, s.timedOut, s.rejoin)

/-- Breaking steps and reporting faults leaves the withdrawal alone. -/
theorem breakCore_withdraw (s : State) (c : Nat) : withdrawal (breakCore s c) = withdrawal s := by
  unfold breakCore; dsimp only; split <;> rfl

theorem foldl_withdraw {α : Type} (l : List α) (g : State → α → State) (hg : ∀ s a, withdrawal (g s a) = withdrawal s)
    (s : State) : withdrawal (l.foldl g s) = withdrawal s := by
  induction l generalizing s with
  | nil => rfl
  | cons a l ih => rw [List.foldl_cons, ih, hg]

theorem failStep_withdraw (s : State) (k b : Nat) : withdrawal (s.failStep k b) = withdrawal s := by
  unfold State.failStep; dsimp only; split
  · exact foldl_withdraw _ _ breakCore_withdraw _
  · rfl

theorem regsOut_withdraw {s t : State} (h : RegsOut s t) : withdrawal t = withdrawal s := by
  rw [h]; rfl

theorem moduleFault_withdraw (s : State) : withdrawal s.moduleFault = withdrawal s := by
  unfold State.moduleFault
  exact (regsOut_withdraw (interruptAll_regsOut (s.startedSws.foldl (fun t k => t.failStep k causeUnit) s) 5)).trans
    (foldl_withdraw s.startedSws (fun t k => t.failStep k causeUnit) (fun s k => failStep_withdraw s k _) s)

theorem withdrawStep_withdraw (t : State) (k : Nat) :
    withdrawal (if (t.sw k).latched then t
      else (t.failStep k causeWithdraw).updSw k (fun r => { r with withdraws := true })) = withdrawal t := by
  split
  · rfl
  · exact failStep_withdraw t k _

/-- The first cause set stays, and the module does not ask to join again. -/
theorem setWithdraw_withdraw (s : State) (cause : Nat) :
    withdrawal (s.setWithdraw cause) = (some (s.withdraw.getD cause), false, 0) := by
  unfold State.setWithdraw
  refine (foldl_withdraw _ _ withdrawStep_withdraw _).trans ?_
  cases s.withdraw <;> simp [withdrawal]

end Sys2Proof.Laws
end

