-- ==== Sys2Proof/Laws/Net.lean ====
section
/-! SUPPORT. What sending can do: flits and messages change the ports, what goes out and the count SEAM_TX_MFLITS. -/

namespace Sys2Proof.Laws

open Sys2Proof.Machine

/-- Two states that differ by flits and messages sent. -/
def Sent (s t : State) : Prop :=
  t = { s with regs := t.regs, out := t.out, ports := t.ports } ∧ ∀ n i, n ≠ .SEAM_TX_MFLITS → t.f n i = s.f n i

theorem Sent.refl (s : State) : Sent s s := ⟨rfl, fun _ _ _ => rfl⟩

theorem Sent.trans {s t u : State} (h : Sent s t) (k : Sent t u) : Sent s u :=
  ⟨by rw [k.1, h.1], fun n i hn => (k.2 n i hn).trans (h.2 n i hn)⟩

theorem Sent.setPort {s t : State} (h : Sent s t) (p : Nat) (v : Port) : Sent s (t.setPort p v) :=
  h.trans ⟨rfl, fun _ _ _ => rfl⟩

theorem Sent.emit {s t : State} (h : Sent s t) (o : Out) : Sent s (t.emit o) := h.trans ⟨rfl, fun _ _ _ => rfl⟩

theorem countTx_sent (s : State) (p : Nat) : Sent s (s.countTx p) := by
  unfold State.countTx; dsimp only; split
  · refine ⟨rfl, fun n i hn => ?_⟩
    rw [tally_eq, f_setF, if_neg (by rintro ⟨rfl, -⟩; exact hn rfl)]; rfl
  · exact (Sent.refl s).setPort _ _

theorem launch_sent (s : State) (p h x : Nat) : Sent s (s.launch p h x) := by
  unfold State.launch
  exact ((((Sent.refl s).setPort _ _).trans (countTx_sent _ p)).emit _)

theorem pump_sent (s : State) (p n : Nat) : Sent s (s.pump p n) := by
  induction n generalizing s with
  | zero => exact Sent.refl s
  | succ n ih =>
    unfold State.pump; split
    · exact Sent.refl s
    · exact (((Sent.refl s).setPort _ _).trans (launch_sent _ _ _ _)).trans (ih _)

theorem sendFlit_sent (s : State) (p h x : Nat) : Sent s (s.sendFlit p h x) :=
  ((Sent.refl s).setPort _ _).trans (pump_sent _ p 1)

theorem sendBare_sent (s : State) (p h : Nat) : Sent s (s.sendBare p h) := ((Sent.refl s).setPort _ _).emit _

theorem foldl_sent {α : Type} (l : List α) (g : State → α → State) (hg : ∀ s a, Sent s (g s a)) (s : State) :
    Sent s (l.foldl g s) := by
  induction l generalizing s with
  | nil => exact Sent.refl s
  | cons a l ih => exact (hg s a).trans (ih _)

theorem sendBytes_sent (s : State) (p type cls : Nat) (dl : Bool) (dest stream : Nat) (bs : List Byte) :
    Sent s (s.sendBytes p type cls dl dest stream bs) := foldl_sent _ _ (fun s x => sendFlit_sent s _ _ x) s

theorem sendCtrl_sent (s : State) (dest : Nat) (bs : List Byte) : Sent s (s.sendCtrl dest bs) := by
  unfold State.sendCtrl; split
  · exact Sent.refl s
  · exact sendBytes_sent _ _ _ _ _ _ _ _

theorem message_sent (s : State) (d dest code : Nat) (fields : List (Nat × Nat)) : Sent s (s.message d dest code fields) :=
  ((Sent.refl s).emit _).trans (sendCtrl_sent _ _ _)

theorem sendTrailer_sent (s : State) (d dest raw : Nat) : Sent s (s.sendTrailer d dest raw) :=
  ((Sent.refl s).emit _).trans (sendCtrl_sent _ _ _)

theorem sendData_sent (s : State) (d dest seq phase shard first : Nat) (bs : List Byte) :
    Sent s (s.sendData d dest seq phase shard first bs) := by
  unfold State.sendData; dsimp only; split
  · exact (Sent.refl s).emit _
  · exact ((Sent.refl s).emit _).trans (sendBytes_sent _ _ _ _ _ _ _ _)

/-! Clock messages (R337). -/

theorem linkMessage_sent (s : State) (p code : Nat) (fields : List (Nat × Nat)) : Sent s (s.linkMessage p code fields) :=
  ((Sent.refl s).emit _).trans (sendBytes_sent _ _ _ _ _ _ _ _)

theorem sendClkstat_sent (s : State) : Sent s s.sendClkstat := foldl_sent _ _ (fun s p => linkMessage_sent s p _ _) s

/-- A change of depth is the new depth in the clocks and CLKSTAT messages. -/
theorem setDepth_sent (s : State) (d : Nat) : Sent (s.setClk { s.clk with depth := d }) (s.setDepth d) := by
  unfold State.setDepth; split
  · rename_i h; subst h; exact Sent.refl s
  · exact sendClkstat_sent _

theorem setDepth_clk (s : State) (d : Nat) : (s.setDepth d).clk = { s.clk with depth := d } := by
  rw [(setDepth_sent s d).1]; rfl

end Sys2Proof.Laws
end

