-- ==== Sys2Proof/Laws/PerInstr.lean ====
section
/-! SUPPORT. For all commands, one lemma each: well-formedness of the operands, and nothing else, decides whether the
command runs; what it then does is a function of the state with the queue and the time left out. -/

namespace Sys2Proof.Laws

open Sys2Proof.Machine

/-- The guard in front of a command's meaning is its well-formedness. -/
def Guard.Statement (i : Instr) : Prop := ∀ s : State, ∃ f : State → State, exec i s = actAll i.wellFormed f s

theorem Guard.registerWrite (fn : Nat) (off : Nat) (size : Nat) (val : Nat) : Guard.Statement (.registerWrite fn off size val) :=
  fun _ => ⟨(whenUp (Sys2Proof.Machine.registerWrite fn off size val)), rfl⟩

theorem Guard.rcRead (fn : Nat) (off : Nat) (size : Nat) (events : Nat) : Guard.Statement (.rcRead fn off size events) :=
  fun _ => ⟨(fun u => { (whenUp (regRead fn off size events)) u with clk := u.clk }), rfl⟩

theorem Guard.nop (c : Nat) : Guard.Statement (.nop c) :=
  fun _ => ⟨(fun u => { (whenUp (issueNop c)) u with clk := u.clk }), rfl⟩

theorem Guard.mma (c : Nat) : Guard.Statement (.mma c) :=
  fun _ => ⟨(fun u => { (whenUp (issueMma c)) u with clk := u.clk }), rfl⟩

theorem Guard.tdld (c : Nat) : Guard.Statement (.tdld c) :=
  fun _ => ⟨(fun u => { (whenUp (issueTdld c)) u with clk := u.clk }), rfl⟩

theorem Guard.tdadd (c : Nat) : Guard.Statement (.tdadd c) :=
  fun _ => ⟨(fun u => { (whenUp (issueTdadd c)) u with clk := u.clk }), rfl⟩

theorem Guard.cpy (c : Nat) : Guard.Statement (.cpy c) :=
  fun _ => ⟨(fun u => { (whenUp (issueCpy c)) u with clk := u.clk }), rfl⟩

theorem Guard.fence (c : Nat) : Guard.Statement (.fence c) :=
  fun _ => ⟨(fun u => { (whenUp (issueFence c)) u with clk := u.clk }), rfl⟩

theorem Guard.sync (c : Nat) : Guard.Statement (.sync c) :=
  fun _ => ⟨(fun u => { (whenUp (issueSync c)) u with clk := u.clk }), rfl⟩

theorem Guard.loop (c : Nat) : Guard.Statement (.loop c) :=
  fun _ => ⟨(fun u => { (whenUp (issueLoop c)) u with clk := u.clk }), rfl⟩

theorem Guard.stepend (c : Nat) : Guard.Statement (.stepend c) :=
  fun _ => ⟨(fun u => { (whenUp (issueStepend c)) u with clk := u.clk }), rfl⟩

theorem Guard.wstRelease (c : Nat) (q : Nat) : Guard.Statement (.wstRelease c q) :=
  fun _ => ⟨(fun u => { (whenUp (Sys2Proof.Machine.wstRelease c q)) u with clk := u.clk }), rfl⟩

theorem Guard.fenceComplete (c : Nat) : Guard.Statement (.fenceComplete c) :=
  fun _ => ⟨(fun u => { (whenUp (Sys2Proof.Machine.fenceComplete c)) u with clk := u.clk }), rfl⟩

theorem Guard.syncRelease (k : Nat) (scope : Nat) (barrier : Nat) (region : Nat) : Guard.Statement (.syncRelease k scope barrier region) :=
  fun _ => ⟨(fun u => { (whenUp (Sys2Proof.Machine.syncRelease k scope barrier region)) u with clk := u.clk }), rfl⟩

theorem Guard.stependDone (c : Nat) : Guard.Statement (.stependDone c) :=
  fun _ => ⟨(fun u => { (whenUp (Sys2Proof.Machine.stependDone c)) u with clk := u.clk }), rfl⟩

theorem Guard.issueResume (c : Nat) : Guard.Statement (.issueResume c) :=
  fun _ => ⟨(fun u => { (whenUp (Sys2Proof.Machine.issueResume c)) u with clk := u.clk }), rfl⟩

theorem Guard.arrayCycle (c : Nat) (upset : Nat) : Guard.Statement (.arrayCycle c upset) :=
  fun _ => ⟨(fun u => { (whenUp (Sys2Proof.Machine.arrayCycle c upset)) u with clk := u.clk }), rfl⟩

theorem Guard.bobbinSwap (c : Nat) : Guard.Statement (.bobbinSwap c) :=
  fun _ => ⟨(fun u => { (whenUp (Sys2Proof.Machine.bobbinSwap c)) u with clk := u.clk }), rfl⟩

theorem Guard.loadShuttleStage (c : Nat) : Guard.Statement (.loadShuttleStage c) :=
  fun _ => ⟨(fun u => { (whenUp (Sys2Proof.Machine.loadShuttleStage c)) u with clk := u.clk }), rfl⟩

theorem Guard.storeDrain (c : Nat) : Guard.Statement (.storeDrain c) :=
  fun _ => ⟨(fun u => { (whenUp (Sys2Proof.Machine.storeDrain c)) u with clk := u.clk }), rfl⟩

theorem Guard.cpyTransfer (c : Nat) (eng : Nat) : Guard.Statement (.cpyTransfer c eng) :=
  fun _ => ⟨(fun u => { (whenUp (Sys2Proof.Machine.cpyTransfer c eng)) u with clk := u.clk }), rfl⟩

theorem Guard.coreFault (r : Nat) (p : Nat) (cause : Nat) : Guard.Statement (.coreFault r p cause) :=
  fun _ => ⟨(fun u => { (whenUp (Sys2Proof.Machine.coreFault r p cause)) u with clk := u.clk }), rfl⟩

theorem Guard.vmap (c : Nat) : Guard.Statement (.vmap c) :=
  fun _ => ⟨(fun u => { (whenUp (issueVec c (isOp 0x28))) u with clk := u.clk }), rfl⟩

theorem Guard.vfma (c : Nat) : Guard.Statement (.vfma c) :=
  fun _ => ⟨(fun u => { (whenUp (issueVec c (isOp 0x29))) u with clk := u.clk }), rfl⟩

theorem Guard.vrow (c : Nat) : Guard.Statement (.vrow c) :=
  fun _ => ⟨(fun u => { (whenUp (issueVec c (isOp 0x2A))) u with clk := u.clk }), rfl⟩

theorem Guard.vnorm (c : Nat) : Guard.Statement (.vnorm c) :=
  fun _ => ⟨(fun u => { (whenUp (issueVec c (isOp 0x2B))) u with clk := u.clk }), rfl⟩

theorem Guard.vsmax (c : Nat) : Guard.Statement (.vsmax c) :=
  fun _ => ⟨(fun u => { (whenUp (issueVec c (isOp 0x2C))) u with clk := u.clk }), rfl⟩

theorem Guard.vrscRescale (c : Nat) : Guard.Statement (.vrscRescale c) :=
  fun _ => ⟨(fun u => { (whenUp (issueVec c (isVrsc (fun f => f = 0 || 2 < f)))) u with clk := u.clk }), rfl⟩

theorem Guard.vrscFinal (c : Nat) : Guard.Statement (.vrscFinal c) :=
  fun _ => ⟨(fun u => { (whenUp (issueVec c (isVrsc (fun f => f = 1)))) u with clk := u.clk }), rfl⟩

theorem Guard.vrscClose (c : Nat) : Guard.Statement (.vrscClose c) :=
  fun _ => ⟨(fun u => { (whenUp (issueVec c (isVrsc (fun f => f = 2)))) u with clk := u.clk }), rfl⟩

theorem Guard.vsti (c : Nat) : Guard.Statement (.vsti c) :=
  fun _ => ⟨(fun u => { (whenUp (issueVec c (isOp 0x2E))) u with clk := u.clk }), rfl⟩

theorem Guard.vdot (c : Nat) : Guard.Statement (.vdot c) :=
  fun _ => ⟨(fun u => { (whenUp (issueVec c (isOp 0x2F))) u with clk := u.clk }), rfl⟩

theorem Guard.vsbwd (c : Nat) : Guard.Statement (.vsbwd c) :=
  fun _ => ⟨(fun u => { (whenUp (issueVec c (isOp 0x30))) u with clk := u.clk }), rfl⟩

theorem Guard.vloss (c : Nat) : Guard.Statement (.vloss c) :=
  fun _ => ⟨(fun u => { (whenUp (issueVec c (isOp 0x31))) u with clk := u.clk }), rfl⟩

theorem Guard.vqnt (c : Nat) : Guard.Statement (.vqnt c) :=
  fun _ => ⟨(fun u => { (whenUp (issueVec c (isOp 0x32))) u with clk := u.clk }), rfl⟩

theorem Guard.vpos (c : Nat) : Guard.Statement (.vpos c) :=
  fun _ => ⟨(fun u => { (whenUp (issueVpos c)) u with clk := u.clk }), rfl⟩

theorem Guard.vsetf (c : Nat) : Guard.Statement (.vsetf c) :=
  fun _ => ⟨(fun u => { (whenUp (issueVsetf c)) u with clk := u.clk }), rfl⟩

theorem Guard.vectorChunk (c : Nat) : Guard.Statement (.vectorChunk c) :=
  fun _ => ⟨(fun u => { (whenUp (Sys2Proof.Machine.vectorChunk c)) u with clk := u.clk }), rfl⟩

theorem Guard.scratchGrant (c : Nat) (bank : Nat) (store : Bool) (load : Bool) (vec : Bool) : Guard.Statement (.scratchGrant c bank store load vec) :=
  fun _ => ⟨(fun u => { (whenUp (Sys2Proof.Machine.scratchGrant c bank store load vec)) u with clk := u.clk }), rfl⟩

theorem Guard.switchRequest (c : Nat) (k : Nat) : Guard.Statement (.switchRequest c k) :=
  fun _ => ⟨(fun u => { (whenUp (fun s => s.askSwitch c k)) u with clk := u.clk }), rfl⟩

theorem Guard.coreSwitch (c : Nat) : Guard.Statement (.coreSwitch c) :=
  fun _ => ⟨(fun u => { (whenUp (Sys2Proof.Machine.coreSwitch c)) u with clk := u.clk }), rfl⟩

theorem Guard.switchComplete (c : Nat) : Guard.Statement (.switchComplete c) :=
  fun _ => ⟨(fun u => { (whenUp (Sys2Proof.Machine.switchComplete c)) u with clk := u.clk }), rfl⟩

theorem Guard.schedule (p : Nat) : Guard.Statement (.schedule p) :=
  fun _ => ⟨(fun u => { (whenUp (Sys2Proof.Machine.schedule p)) u with clk := u.clk }), rfl⟩

theorem Guard.stepStart (k : Nat) : Guard.Statement (.stepStart k) :=
  fun _ => ⟨(fun u => { (whenUp (Sys2Proof.Machine.stepStart k)) u with clk := u.clk }), rfl⟩

theorem Guard.preempt (k : Nat) : Guard.Statement (.preempt k) :=
  fun _ => ⟨(fun u => { (whenUp (Sys2Proof.Machine.preempt k)) u with clk := u.clk }), rfl⟩

theorem Guard.swatchReturn (k : Nat) : Guard.Statement (.swatchReturn k) :=
  fun _ => ⟨(fun u => { (whenUp (Sys2Proof.Machine.swatchReturn k)) u with clk := u.clk }), rfl⟩

theorem Guard.stepBoundary (k : Nat) : Guard.Statement (.stepBoundary k) :=
  fun _ => ⟨(fun u => { (whenUp (Sys2Proof.Machine.stepBoundary k)) u with clk := u.clk }), rfl⟩

theorem Guard.limpSwitch (r : Nat) (carrier : Nat) : Guard.Statement (.limpSwitch r carrier) :=
  fun _ => ⟨(fun u => { (whenUp (Sys2Proof.Machine.limpSwitch r carrier)) u with clk := u.clk }), rfl⟩

theorem Guard.packJob (st : Nat) : Guard.Statement (.packJob st) :=
  fun _ => ⟨(fun u => { (whenUp (Sys2Proof.Machine.packJob st)) u with clk := u.clk }), rfl⟩

theorem Guard.updateJob (st : Nat) (badBlocks : List Nat) : Guard.Statement (.updateJob st badBlocks) :=
  fun _ => ⟨(fun u => { (whenUp (Sys2Proof.Machine.updateJob st badBlocks)) u with clk := u.clk }), rfl⟩

theorem Guard.foreignErrorPass (st : Nat) : Guard.Statement (.foreignErrorPass st) :=
  fun _ => ⟨(fun u => { (whenUp (foreignPass st)) u with clk := u.clk }), rfl⟩

theorem Guard.stepCommit (sw : Nat) : Guard.Statement (.stepCommit sw) :=
  fun _ => ⟨(fun u => { (whenUp (Sys2Proof.Machine.stepCommit sw)) u with clk := u.clk }), rfl⟩

theorem Guard.pendingRowAppend (sw : Nat) (span : Nat) (row : Nat) (rows : List (List Nat)) : Guard.Statement (.pendingRowAppend sw span row rows) :=
  fun _ => ⟨(fun u => { (whenUp (pendingAppend sw span row rows)) u with clk := u.clk }), rfl⟩

theorem Guard.pendingRowApply (st : Nat) (sw : Nat) (entry : Nat × List Nat) : Guard.Statement (.pendingRowApply st sw entry) :=
  fun _ => ⟨(fun u => { (whenUp (pendingApply st sw entry.1 entry.2)) u with clk := u.clk }), rfl⟩

theorem Guard.closingHop (k : Nat) (span : Nat) (block : Nat) : Guard.Statement (.closingHop k span block) :=
  fun _ => ⟨(fun u => { (whenUp (Sys2Proof.Machine.closingHop k span block)) u with clk := u.clk }), rfl⟩

theorem Guard.roundTrailerSend (d : Nat) (k : Nat) : Guard.Statement (.roundTrailerSend d k) :=
  fun _ => ⟨(fun u => { (whenUp (Sys2Proof.Machine.roundTrailerSend d k)) u with clk := u.clk }), rfl⟩

theorem Guard.trailer (d : Nat) (t : Nat) (sender : Nat) : Guard.Statement (.trailer d t sender) :=
  fun _ => ⟨(fun u => { (whenUp (takesTrailer d t sender)) u with clk := u.clk }), rfl⟩

theorem Guard.collectiveTimeout (d : Nat) (seq : Nat) : Guard.Statement (.collectiveTimeout d seq) :=
  fun _ => ⟨(fun u => { (whenUp (Sys2Proof.Machine.collectiveTimeout d seq)) u with clk := u.clk }), rfl⟩

theorem Guard.holdNoticeTick (k : Nat) : Guard.Statement (.holdNoticeTick k) :=
  fun _ => ⟨(fun u => { (whenUp (Sys2Proof.Machine.holdNoticeTick k)) u with clk := u.clk }), rfl⟩

theorem Guard.hold (d : Nat) (epoch : Nat) (seqs : List Nat) (sender : Nat) : Guard.Statement (.hold d epoch seqs sender) :=
  fun _ => ⟨(fun u => { (whenUp (Sys2Proof.Machine.hold d epoch seqs)) u with clk := u.clk }), rfl⟩

theorem Guard.agreeLocalise (k : Nat) (bad : List Nat) : Guard.Statement (.agreeLocalise k bad) :=
  fun _ => ⟨(fun u => { (whenUp (Sys2Proof.Machine.agreeLocalise k bad)) u with clk := u.clk }), rfl⟩

theorem Guard.agreeRepair (k : Nat) (bad : List Nat) : Guard.Statement (.agreeRepair k bad) :=
  fun _ => ⟨(fun u => { (whenUp (Sys2Proof.Machine.agreeRepair k bad)) u with clk := u.clk }), rfl⟩

theorem Guard.stateTransferSend (d : Nat) (k : Nat) : Guard.Statement (.stateTransferSend d k) :=
  fun _ => ⟨(fun u => { (whenUp (Sys2Proof.Machine.stateTransferSend d k)) u with clk := u.clk }), rfl⟩

theorem Guard.stateTransferDone (d : Nat) (k : Nat) : Guard.Statement (.stateTransferDone d k) :=
  fun _ => ⟨(fun u => { (whenUp (Sys2Proof.Machine.stateTransferDone d k)) u with clk := u.clk }), rfl⟩

theorem Guard.hbmRequest (st : Nat) (p : Nat) (arrivals : List Nat) (syms : List Nat) : Guard.Statement (.hbmRequest st p arrivals syms) :=
  fun s => ⟨(fun u => { (whenUp (whenever (s.dramOn st) (Sys2Proof.Machine.hbmRequest st p arrivals syms))) u with clk := u.clk }), rfl⟩

theorem Guard.laneSwap (st : Nat) (chan : Nat) : Guard.Statement (.laneSwap st chan) :=
  fun _ => ⟨(fun u => { (whenUp (Sys2Proof.Machine.laneSwap st chan)) u with clk := u.clk }), rfl⟩

theorem Guard.patrolScrub (st : Nat) (slot : Nat) (syms : List Nat) : Guard.Statement (.patrolScrub st slot syms) :=
  fun s => ⟨(fun u => { (whenUp (whenever (s.stackServes st && slot = (s.stack st).scrubAt) (Sys2Proof.Machine.patrolScrub st slot syms))) u with clk := u.clk }), rfl⟩

theorem Guard.arbiterGrant (arb : Nat) (waiting : List Nat) : Guard.Statement (.arbiterGrant arb waiting) :=
  fun _ => ⟨(fun u => { (whenUp (Sys2Proof.Machine.arbiterGrant arb waiting)) u with clk := u.clk }), rfl⟩

theorem Guard.pocketAccess (region : Nat) (sw : Nat) (tag : Nat) (addr : Nat) (write : Bool) (data : Nat) (parity : Bool) : Guard.Statement (.pocketAccess region sw tag addr write data parity) :=
  fun _ => ⟨(fun u => { (whenUp (Sys2Proof.Machine.pocketAccess region sw tag addr write data parity)) u with clk := u.clk }), rfl⟩

theorem Guard.pocketZeroingDone (region : Nat) (way : Nat) : Guard.Statement (.pocketZeroingDone region way) :=
  fun _ => ⟨(fun u => { (whenUp (Sys2Proof.Machine.pocketZeroingDone region way)) u with clk := u.clk }), rfl⟩

theorem Guard.pocketSweep (region : Nat) : Guard.Statement (.pocketSweep region) :=
  fun _ => ⟨(fun u => { (whenUp (Sys2Proof.Machine.pocketSweep region)) u with clk := u.clk }), rfl⟩

theorem Guard.thermalSample (temps : List Nat) (dies : List Nat) : Guard.Statement (.thermalSample temps dies) :=
  fun _ => ⟨(fun u => { (whenUp (Sys2Proof.Machine.thermalSample temps dies)) u with clk := u.clk }), rfl⟩

theorem Guard.stackFitSlice (st : Nat) : Guard.Statement (.stackFitSlice st) :=
  fun _ => ⟨(fun u => { (whenUp (Sys2Proof.Machine.stackFitSlice st)) u with clk := u.clk }), rfl⟩

theorem Guard.stackSliceResult (st : Nat) (pass : Bool) : Guard.Statement (.stackSliceResult st pass) :=
  fun _ => ⟨(fun u => { (whenUp (Sys2Proof.Machine.stackSliceResult st pass)) u with clk := u.clk }), rfl⟩

theorem Guard.alloc : Guard.Statement .alloc :=
  fun _ => ⟨(fun u => { (whenUp (tierRun 0)) u with clk := u.clk }), rfl⟩

theorem Guard.free : Guard.Statement .free :=
  fun _ => ⟨(fun u => { (whenUp (tierRun 1)) u with clk := u.clk }), rfl⟩

theorem Guard.promoteRequest : Guard.Statement .promoteRequest :=
  fun _ => ⟨(fun u => { (whenUp (tierRun 2)) u with clk := u.clk }), rfl⟩

theorem Guard.evict : Guard.Statement .evict :=
  fun _ => ⟨(fun u => { (whenUp (tierRun 3)) u with clk := u.clk }), rfl⟩

theorem Guard.pin : Guard.Statement .pin :=
  fun _ => ⟨(fun u => { (whenUp (tierRun 4)) u with clk := u.clk }), rfl⟩

theorem Guard.unpin : Guard.Statement .unpin :=
  fun _ => ⟨(fun u => { (whenUp (tierRun 5)) u with clk := u.clk }), rfl⟩

theorem Guard.query : Guard.Statement .query :=
  fun _ => ⟨(fun u => { (whenUp (tierRun 6)) u with clk := u.clk }), rfl⟩

theorem Guard.moveReserve (b : Nat) : Guard.Statement (.moveReserve b) :=
  fun _ => ⟨(fun u => { (whenUp (Sys2Proof.Machine.moveReserve b)) u with clk := u.clk }), rfl⟩

theorem Guard.moveCopyDone (b : Nat) (bad : List Nat) : Guard.Statement (.moveCopyDone b bad) :=
  fun _ => ⟨(fun u => { (whenUp (Sys2Proof.Machine.moveCopyDone b bad)) u with clk := u.clk }), rfl⟩

theorem Guard.moveHold (b : Nat) : Guard.Statement (.moveHold b) :=
  fun _ => ⟨(fun u => { (whenUp (Sys2Proof.Machine.moveHold b)) u with clk := u.clk }), rfl⟩

theorem Guard.holdAck (b : Nat) (h : Nat) : Guard.Statement (.holdAck b h) :=
  fun _ => ⟨(fun u => { (whenUp (Sys2Proof.Machine.holdAck b h)) u with clk := u.clk }), rfl⟩

theorem Guard.moveFlip (b : Nat) : Guard.Statement (.moveFlip b) :=
  fun _ => ⟨(fun u => { (whenUp (Sys2Proof.Machine.moveFlip b)) u with clk := u.clk }), rfl⟩

theorem Guard.moveFreeSource (b : Nat) : Guard.Statement (.moveFreeSource b) :=
  fun _ => ⟨(fun u => { (whenUp (Sys2Proof.Machine.moveFreeSource b)) u with clk := u.clk }), rfl⟩

theorem Guard.dirNotice (h : Nat) (b : Nat) (gen : Nat) (freed : Bool) : Guard.Statement (.dirNotice h b gen freed) :=
  fun _ => ⟨(fun u => { (whenUp (Sys2Proof.Machine.dirNotice h b gen freed)) u with clk := u.clk }), rfl⟩

theorem Guard.translationFill (b : Nat) (h : Nat) (k : Nat) (write : Bool) : Guard.Statement (.translationFill b h k write) :=
  fun _ => ⟨(fun u => { (whenUp (Sys2Proof.Machine.translationFill b h k write)) u with clk := u.clk }), rfl⟩

theorem Guard.layerMark (k : Nat) : Guard.Statement (.layerMark k) :=
  fun _ => ⟨(fun u => { (whenUp (Sys2Proof.Machine.layerMark k)) u with clk := u.clk }), rfl⟩

theorem Guard.stallLimit (k : Nat) (cause : Nat) : Guard.Statement (.stallLimit k cause) :=
  fun _ => ⟨(fun u => { (whenUp (Sys2Proof.Machine.stallLimit k cause)) u with clk := u.clk }), rfl⟩

theorem Guard.dirScrub : Guard.Statement .dirScrub :=
  fun _ => ⟨(fun u => { (whenUp Sys2Proof.Machine.dirScrub) u with clk := u.clk }), rfl⟩

theorem Guard.flashProgram (c : Nat) (lost : Nat) : Guard.Statement (.flashProgram c lost) :=
  fun _ => ⟨(fun u => { (whenUp (Sys2Proof.Machine.flashProgram c lost)) u with clk := u.clk }), rfl⟩

theorem Guard.flashBudgetHour (c : Nat) : Guard.Statement (.flashBudgetHour c) :=
  fun _ => ⟨(fun u => { (whenUp (Sys2Proof.Machine.flashBudgetHour c)) u with clk := u.clk }), rfl⟩

theorem Guard.tierT3Write (size : Bool) (val : Nat) : Guard.Statement (.tierT3Write size val) :=
  fun _ => ⟨(fun u => { (whenUp (Sys2Proof.Machine.registerWrite 0 (if size then 0x9010 else 0x9008) 8 val)) u with clk := u.clk }), rfl⟩

theorem Guard.portDetect (p : Nat) : Guard.Statement (.portDetect p) :=
  fun _ => ⟨(fun u => { (whenUp (Sys2Proof.Machine.portDetect p)) u with clk := u.clk }), rfl⟩

theorem Guard.portUp (p : Nat) (lanes : List Nat) (rtt : Nat) : Guard.Statement (.portUp p lanes rtt) :=
  fun _ => ⟨(fun u => { (whenUp (portUpEnd p lanes rtt)) u with clk := u.clk }), rfl⟩

theorem Guard.hello (p : Nat) (fields : List Nat) : Guard.Statement (.hello p fields) :=
  fun _ => ⟨(fun u => { (whenUp (Sys2Proof.Machine.hello p fields)) u with clk := u.clk }), rfl⟩

theorem Guard.flitReceive (p : Nat) (h : Nat) (payload : Nat) (err : List Nat) (crcOk : Bool) : Guard.Statement (.flitReceive p h payload err crcOk) :=
  fun _ => ⟨(fun u => { (whenUp (fun s => whenever (s.portUp p) (Sys2Proof.Machine.flitReceive p h payload err crcOk) s)) u with clk := u.clk }), rfl⟩

theorem Guard.nak (p : Nat) (seq : Nat) : Guard.Statement (.nak p seq) :=
  fun _ => ⟨(fun u => { (whenUp (fun s => whenever (s.portUp p) (fun t => t.replayFrom p seq) s)) u with clk := u.clk }), rfl⟩

theorem Guard.replayTimeout (p : Nat) : Guard.Statement (.replayTimeout p) :=
  fun _ => ⟨(fun u => { (whenUp (Sys2Proof.Machine.replayTimeout p)) u with clk := u.clk }), rfl⟩

theorem Guard.retrain (p : Nat) : Guard.Statement (.retrain p) :=
  fun _ => ⟨(fun u => { (whenUp (fun s => whenever (s.portUp p) (fun t => t.retrainPort p) s)) u with clk := u.clk }), rfl⟩

theorem Guard.signalLoss (p : Nat) : Guard.Statement (.signalLoss p) :=
  fun _ => ⟨(fun u => { (whenUp (Sys2Proof.Machine.signalLoss p)) u with clk := u.clk }), rfl⟩

theorem Guard.join (fields : List Nat) : Guard.Statement (.join fields) :=
  fun _ => ⟨(fun u => { (whenUp (onDomain fields joinMsg)) u with clk := u.clk }), rfl⟩

theorem Guard.leave (fields : List Nat) : Guard.Statement (.leave fields) :=
  fun _ => ⟨(fun u => { (whenUp (onDomain fields leaveMsg)) u with clk := u.clk }), rfl⟩

theorem Guard.propose (fields : List Nat) : Guard.Statement (.propose fields) :=
  fun _ => ⟨(fun u => { (whenUp (onDomain fields proposeMsg)) u with clk := u.clk }), rfl⟩

theorem Guard.announce (fields : List Nat) : Guard.Statement (.announce fields) :=
  fun _ => ⟨(fun u => { (whenUp (onDomain fields announceMsg)) u with clk := u.clk }), rfl⟩

theorem Guard.adopt (fields : List Nat) : Guard.Statement (.adopt fields) :=
  fun _ => ⟨(fun u => { (whenUp (onDomain fields adoptMsg)) u with clk := u.clk }), rfl⟩

theorem Guard.clkstat (p : Nat) (depth : Nat) : Guard.Statement (.clkstat p depth) :=
  fun s => ⟨(whenUp (whenever (s.portUp p) (Sys2Proof.Machine.clkstat p depth))), rfl⟩

theorem Guard.cmd (fields : List Nat) : Guard.Statement (.cmd fields) :=
  fun _ => ⟨(fun u => { (whenUp (onDomain fields cmdMsg)) u with clk := u.clk }), rfl⟩

theorem Guard.proposeRetry (d : Nat) : Guard.Statement (.proposeRetry d) :=
  fun _ => ⟨(fun u => { (whenUp (Sys2Proof.Machine.proposeRetry d)) u with clk := u.clk }), rfl⟩

theorem Guard.adoptTimeout (d : Nat) : Guard.Statement (.adoptTimeout d) :=
  fun _ => ⟨(fun u => { (whenUp (Sys2Proof.Machine.adoptTimeout d)) u with clk := u.clk }), rfl⟩

theorem Guard.joinResend (d : Nat) : Guard.Statement (.joinResend d) :=
  fun _ => ⟨(fun u => { (whenUp (Sys2Proof.Machine.joinResend d)) u with clk := u.clk }), rfl⟩

theorem Guard.memberStrike (d : Nat) (place : Nat) : Guard.Statement (.memberStrike d place) :=
  fun _ => ⟨(fun u => { (whenUp (Sys2Proof.Machine.memberStrike d place)) u with clk := u.clk }), rfl⟩

theorem Guard.collIssue (d : Nat) : Guard.Statement (.collIssue d) :=
  fun _ => ⟨(fun u => { (whenUp (Sys2Proof.Machine.collIssue d)) u with clk := u.clk }), rfl⟩

theorem Guard.sequenceComplete (d : Nat) (seq : Nat) (sender : Nat) : Guard.Statement (.sequenceComplete d seq sender) :=
  fun _ => ⟨(fun u => { (whenUp (Sys2Proof.Machine.sequenceComplete d seq sender)) u with clk := u.clk }), rfl⟩

theorem Guard.runBarrier (k : Nat) : Guard.Statement (.runBarrier k) :=
  fun _ => ⟨(fun u => { (whenUp (Sys2Proof.Machine.runBarrier k)) u with clk := u.clk }), rfl⟩

theorem Guard.runPack (k : Nat) : Guard.Statement (.runPack k) :=
  fun _ => ⟨(fun u => { (whenUp (Sys2Proof.Machine.runPack k)) u with clk := u.clk }), rfl⟩

theorem Guard.runCollExchange (k : Nat) : Guard.Statement (.runCollExchange k) :=
  fun _ => ⟨(fun u => { (whenUp (Sys2Proof.Machine.runCollExchange k)) u with clk := u.clk }), rfl⟩

theorem Guard.collReduceScatter (k : Nat) : Guard.Statement (.collReduceScatter k) :=
  fun _ => ⟨(fun u => { (whenUp (runCollTensor 0 k)) u with clk := u.clk }), rfl⟩

theorem Guard.collAllGather (k : Nat) : Guard.Statement (.collAllGather k) :=
  fun _ => ⟨(fun u => { (whenUp (runCollTensor 1 k)) u with clk := u.clk }), rfl⟩

theorem Guard.collAllReduce (k : Nat) : Guard.Statement (.collAllReduce k) :=
  fun _ => ⟨(fun u => { (whenUp (runCollTensor 2 k)) u with clk := u.clk }), rfl⟩

theorem Guard.collBroadcast (k : Nat) : Guard.Statement (.collBroadcast k) :=
  fun _ => ⟨(fun u => { (whenUp (runCollTensor 3 k)) u with clk := u.clk }), rfl⟩

theorem Guard.runTier (k : Nat) : Guard.Statement (.runTier k) :=
  fun _ => ⟨(fun u => { (whenUp (Sys2Proof.Machine.runTier k)) u with clk := u.clk }), rfl⟩

theorem Guard.runEnd (k : Nat) : Guard.Statement (.runEnd k) :=
  fun _ => ⟨(fun u => { (whenUp (Sys2Proof.Machine.runEnd k)) u with clk := u.clk }), rfl⟩

theorem Guard.barrierStall (k : Nat) : Guard.Statement (.barrierStall k) :=
  fun _ => ⟨(fun u => { (whenUp (Sys2Proof.Machine.barrierStall k)) u with clk := u.clk }), rfl⟩

theorem Guard.resume (fn : Nat) (k : Nat) : Guard.Statement (.resume fn k) :=
  fun _ => ⟨(fun u => { (whenUp (Sys2Proof.Machine.resume fn k)) u with clk := u.clk }), rfl⟩

theorem Guard.park (fn : Nat) (k : Nat) : Guard.Statement (.park fn k) :=
  fun _ => ⟨(fun u => { (whenUp (Sys2Proof.Machine.park fn k)) u with clk := u.clk }), rfl⟩

theorem Guard.partitionWrite (fn : Nat) (p : Nat) (which : Nat) (val : Nat) : Guard.Statement (.partitionWrite fn p which val) :=
  fun _ => ⟨(fun u => { (whenUp (Sys2Proof.Machine.registerWrite fn (0x10900 + 16 * p + 8 * which) 8 val)) u with clk := u.clk }), rfl⟩

theorem Guard.partitionChangeApply (p : Nat) : Guard.Statement (.partitionChangeApply p) :=
  fun _ => ⟨(fun u => { (whenUp (Sys2Proof.Machine.partitionChangeApply p)) u with clk := u.clk }), rfl⟩

theorem Guard.descriptorWrite (fn : Nat) (k : Nat) (w : Nat) (v : Nat) : Guard.Statement (.descriptorWrite fn k w v) :=
  fun _ => ⟨(fun u => { (whenUp (Sys2Proof.Machine.descriptorWrite fn k w v)) u with clk := u.clk }), rfl⟩

theorem Guard.collDomCfgWrite (fn : Nat) (d : Nat) (val : Nat) : Guard.Statement (.collDomCfgWrite fn d val) :=
  fun _ => ⟨(fun u => { (whenUp (Sys2Proof.Machine.registerWrite fn (0xA100 + 16 * d) 8 val)) u with clk := u.clk }), rfl⟩

theorem Guard.collCmdJoin (d : Nat) : Guard.Statement (.collCmdJoin d) :=
  fun _ => ⟨(fun u => { (whenUp (collJoin d)) u with clk := u.clk }), rfl⟩

theorem Guard.collCmdLeave (d : Nat) : Guard.Statement (.collCmdLeave d) :=
  fun _ => ⟨(fun u => { (whenUp (collLeave d)) u with clk := u.clk }), rfl⟩

theorem Guard.collCmdRemove (d : Nat) (place : Nat) : Guard.Statement (.collCmdRemove d place) :=
  fun _ => ⟨(fun u => { (whenUp (collConvener d 3 place)) u with clk := u.clk }), rfl⟩

theorem Guard.collCmdForce (d : Nat) : Guard.Statement (.collCmdForce d) :=
  fun _ => ⟨(fun u => { (whenUp (collConvener d 4 0)) u with clk := u.clk }), rfl⟩

theorem Guard.sourceLaneLost : Guard.Statement .sourceLaneLost :=
  fun _ => ⟨(whenUp Sys2Proof.Machine.sourceLaneLost), rfl⟩

theorem Guard.rampReached : Guard.Statement .rampReached :=
  fun _ => ⟨(whenUp Sys2Proof.Machine.rampReached), rfl⟩

theorem Guard.rootLocked : Guard.Statement .rootLocked :=
  fun _ => ⟨(whenUp Sys2Proof.Machine.rootLocked), rfl⟩

theorem Guard.clockAcquire : Guard.Statement .clockAcquire :=
  fun _ => ⟨(whenUp Sys2Proof.Machine.clockAcquire), rfl⟩

theorem Guard.reacquire : Guard.Statement .reacquire :=
  fun _ => ⟨(whenUp Sys2Proof.Machine.reacquire), rfl⟩

theorem Guard.clkrefLost : Guard.Statement .clkrefLost :=
  fun s => ⟨(whenUp (whenever (!s.clk.refGone) Sys2Proof.Machine.clkrefLost)), rfl⟩

theorem Guard.dividerStep (d : Nat) : Guard.Statement (.dividerStep d) :=
  fun _ => ⟨(whenPowered (Sys2Proof.Machine.dividerStep d)), rfl⟩

theorem Guard.passStep : Guard.Statement .passStep :=
  fun _ => ⟨(whenPowered Sys2Proof.Machine.passStep), rfl⟩

theorem Guard.voltageSettled : Guard.Statement .voltageSettled :=
  fun _ => ⟨(whenPowered Sys2Proof.Machine.voltageSettled), rfl⟩

theorem Guard.powerSample (mv : Nat) (dw : Nat) : Guard.Statement (.powerSample mv dw) :=
  fun _ => ⟨(whenUp (Sys2Proof.Machine.powerSample mv dw)), rfl⟩

theorem Guard.pwrgdAssert : Guard.Statement .pwrgdAssert :=
  fun _ => ⟨Sys2Proof.Machine.pwrgdAssert, rfl⟩

theorem Guard.pwrgdDeassert : Guard.Statement .pwrgdDeassert :=
  fun _ => ⟨Sys2Proof.Machine.pwrgdDeassert, rfl⟩

theorem Guard.perstAssert : Guard.Statement .perstAssert :=
  fun _ => ⟨Sys2Proof.Machine.perstAssert, rfl⟩

theorem Guard.perstDeassert (straps : Nat) : Guard.Statement (.perstDeassert straps) :=
  fun _ => ⟨(Sys2Proof.Machine.perstDeassert straps), rfl⟩

theorem Guard.bringUpStep (results : List Nat) : Guard.Statement (.bringUpStep results) :=
  fun _ => ⟨(whenUp (Sys2Proof.Machine.bringUpStep results)), rfl⟩

theorem Guard.portWaitEnd : Guard.Statement .portWaitEnd :=
  fun _ => ⟨(fun u => { (whenUp Sys2Proof.Machine.portWaitEnd) u with clk := u.clk }), rfl⟩

theorem Guard.fittingSlice (region : Nat) (phys : Nat) (pass : Bool) : Guard.Statement (.fittingSlice region phys pass) :=
  fun _ => ⟨(fun u => { (whenUp (Sys2Proof.Machine.fittingSlice region phys pass)) u with clk := u.clk }), rfl⟩

theorem Guard.resetCore (region : Nat) (k : Nat) : Guard.Statement (.resetCore region k) :=
  fun _ => ⟨(fun u => { (whenUp (Sys2Proof.Machine.resetCore region k)) u with clk := u.clk }), rfl⟩

theorem Guard.resetRegion (region : Nat) : Guard.Statement (.resetRegion region) :=
  fun _ => ⟨(fun u => { (whenUp (Sys2Proof.Machine.resetRegion region)) u with clk := u.clk }), rfl⟩

theorem Guard.partitionReset (part : Nat) : Guard.Statement (.partitionReset part) :=
  fun _ => ⟨(fun u => { (whenUp (fun s => s.resetPart 2 part)) u with clk := u.clk }), rfl⟩

theorem Guard.moduleReset : Guard.Statement .moduleReset :=
  fun _ => ⟨(whenUp State.moduleReset), rfl⟩

theorem Guard.resetComplete (scope : Nat) (id : Nat) : Guard.Statement (.resetComplete scope id) :=
  fun _ => ⟨(fun u => { (whenUp (Sys2Proof.Machine.resetComplete scope id)) u with clk := u.clk }), rfl⟩

theorem Guard.functionLevelReset (fn : Nat) : Guard.Statement (.functionLevelReset fn) :=
  fun _ => ⟨(fun u => { (whenUp (functionReset fn)) u with clk := u.clk }), rfl⟩

theorem Guard.linkStateChange (rate : Nat) (width : Nat) (flit : Bool) : Guard.Statement (.linkStateChange rate width flit) :=
  fun _ => ⟨(fun u => { (whenUp (linkChange rate width flit)) u with clk := u.clk }), rfl⟩

theorem Guard.intMaskWrite (fn : Nat) (val : Nat) : Guard.Statement (.intMaskWrite fn val) :=
  fun _ => ⟨(fun u => { (whenUp (Sys2Proof.Machine.registerWrite fn 0x20 8 val)) u with clk := u.clk }), rfl⟩

theorem Guard.dpAddrWrite (fn : Nat) (val : Nat) : Guard.Statement (.dpAddrWrite fn val) :=
  fun _ => ⟨(fun u => { (whenUp (Sys2Proof.Machine.registerWrite fn 0x1000 8 val)) u with clk := u.clk }), rfl⟩

theorem Guard.dataPortAccess (fn : Nat) (write : Bool) (off : Nat) (units : List Nat) : Guard.Statement (.dataPortAccess fn write off units) :=
  fun _ => ⟨(fun u => { (whenUp (Sys2Proof.Machine.dataPortAccess fn write off units)) u with clk := u.clk }), rfl⟩

theorem Guard.dpReadStall (fn : Nat) : Guard.Statement (.dpReadStall fn) :=
  fun _ => ⟨(fun u => { (whenUp (Sys2Proof.Machine.dpReadStall fn)) u with clk := u.clk }), rfl⟩

theorem Guard.jobBoardCheck (p : Nat) : Guard.Statement (.jobBoardCheck p) :=
  fun _ => ⟨(fun u => { (whenUp (boardCheck p)) u with clk := u.clk }), rfl⟩

theorem Guard.jobRun : Guard.Statement .jobRun :=
  fun _ => ⟨(fun u => { (whenUp Sys2Proof.Machine.jobRun) u with clk := u.clk }), rfl⟩

theorem Guard.jobTier : Guard.Statement .jobTier :=
  fun _ => ⟨(fun u => { (whenUp Sys2Proof.Machine.jobTier) u with clk := u.clk }), rfl⟩

theorem Guard.jobStop : Guard.Statement .jobStop :=
  fun _ => ⟨(fun u => { (whenUp Sys2Proof.Machine.jobStop) u with clk := u.clk }), rfl⟩

theorem Guard.slotRead (fn : Nat) (p : Nat) (i : Nat) : Guard.Statement (.slotRead fn p i) :=
  fun _ => ⟨(fun u => { (whenUp (Sys2Proof.Machine.slotRead fn p i)) u with clk := u.clk }), rfl⟩

theorem Guard.slotRelease (fn : Nat) (p : Nat) (i : Nat) : Guard.Statement (.slotRelease fn p i) :=
  fun _ => ⟨(fun u => { (whenUp (Sys2Proof.Machine.slotRelease fn p i)) u with clk := u.clk }), rfl⟩

theorem Guard.begin (fn : Nat) : Guard.Statement (.begin fn) :=
  fun _ => ⟨(fun u => { (whenUp (txnBegin fn)) u with clk := u.clk }), rfl⟩

theorem Guard.commit (fn : Nat) : Guard.Statement (.commit fn) :=
  fun _ => ⟨(fun u => { (whenUp (txnCommit fn)) u with clk := u.clk }), rfl⟩

theorem Guard.rollback (fn : Nat) : Guard.Statement (.rollback fn) :=
  fun _ => ⟨(fun u => { (whenUp (txnRollback fn)) u with clk := u.clk }), rfl⟩

theorem Guard.selectNext (num : Nat) : Guard.Statement (.selectNext num) :=
  fun _ => ⟨(fun u => { (whenUp (Sys2Proof.Machine.selectNext num)) u with clk := u.clk }), rfl⟩

theorem Guard.clearNext : Guard.Statement .clearNext :=
  fun _ => ⟨(fun u => { (whenUp Sys2Proof.Machine.clearNext) u with clk := u.clk }), rfl⟩

theorem Guard.patWrite (num : Nat) : Guard.Statement (.patWrite num) :=
  fun _ => ⟨(fun u => { (whenUp (Sys2Proof.Machine.patWrite num)) u with clk := u.clk }), rfl⟩

theorem Guard.patWriteDone (ok : Bool) : Guard.Statement (.patWriteDone ok) :=
  fun _ => ⟨(fun u => { (whenUp (Sys2Proof.Machine.patWriteDone ok)) u with clk := u.clk }), rfl⟩

theorem Guard.smbIdentity : Guard.Statement .smbIdentity :=
  fun _ => ⟨(fun u => { (whenServed Sys2Proof.Machine.smbIdentity) u with clk := u.clk }), rfl⟩

theorem Guard.smbStatus : Guard.Statement .smbStatus :=
  fun _ => ⟨(fun u => { (whenServed Sys2Proof.Machine.smbStatus) u with clk := u.clk }), rfl⟩

theorem Guard.smbTemps : Guard.Statement .smbTemps :=
  fun _ => ⟨(fun u => { (whenServed Sys2Proof.Machine.smbTemps) u with clk := u.clk }), rfl⟩

theorem Guard.smbPower : Guard.Statement .smbPower :=
  fun _ => ⟨(fun u => { (whenServed Sys2Proof.Machine.smbPower) u with clk := u.clk }), rfl⟩

theorem Guard.smbAlertRead : Guard.Statement .smbAlertRead :=
  fun _ => ⟨(fun u => { (whenServed Sys2Proof.Machine.smbAlertRead) u with clk := u.clk }), rfl⟩

theorem Guard.smbAlertClear (val : Nat) : Guard.Statement (.smbAlertClear val) :=
  fun _ => ⟨(fun u => { (whenServed (Sys2Proof.Machine.smbAlertClear val)) u with clk := u.clk }), rfl⟩

theorem Guard.smbAlertMask (val : Nat) : Guard.Statement (.smbAlertMask val) :=
  fun _ => ⟨(fun u => { (whenServed (Sys2Proof.Machine.smbAlertMask val)) u with clk := u.clk }), rfl⟩

theorem Guard.smbLedgerIndex (val : Nat) : Guard.Statement (.smbLedgerIndex val) :=
  fun _ => ⟨(fun u => { (whenServed (Sys2Proof.Machine.smbLedgerIndex val)) u with clk := u.clk }), rfl⟩

theorem Guard.smbLedgerRead : Guard.Statement .smbLedgerRead :=
  fun _ => ⟨(fun u => { (whenServed Sys2Proof.Machine.smbLedgerRead) u with clk := u.clk }), rfl⟩

theorem Guard.smbAlertResponse : Guard.Statement .smbAlertResponse :=
  fun _ => ⟨(fun u => { (whenServed Sys2Proof.Machine.smbAlertResponse) u with clk := u.clk }), rfl⟩

theorem Guard.attest : Guard.Statement .attest :=
  fun _ => ⟨(fun u => { (whenUp Sys2Proof.Machine.attest) u with clk := u.clk }), rfl⟩

theorem Guard.spdmRequest (kind : Nat) (nonce : Nat) : Guard.Statement (.spdmRequest kind nonce) :=
  fun _ => ⟨(fun u => { (whenUp (Sys2Proof.Machine.spdmRequest kind nonce)) u with clk := u.clk }), rfl⟩

theorem Guard.wipe : Guard.Statement .wipe :=
  fun _ => ⟨(whenUp Sys2Proof.Machine.wipe), rfl⟩

theorem Guard.refurbish : Guard.Statement .refurbish :=
  fun _ => ⟨(fun u => { (whenUp Sys2Proof.Machine.refurbish) u with clk := u.clk }), rfl⟩

theorem Guard.owner : Guard.Statement .owner :=
  fun _ => ⟨(fun u => { (whenUp (fun s => s.authorised 4 (fun t => (t.putOwner, 0)))) u with clk := u.clk }), rfl⟩

theorem Guard.commitSvn : Guard.Statement .commitSvn :=
  fun _ => ⟨(fun u => { (whenUp Sys2Proof.Machine.commitSvn) u with clk := u.clk }), rfl⟩

theorem Guard.revokeF0 : Guard.Statement .revokeF0 :=
  fun _ => ⟨(fun u => { (whenUp Sys2Proof.Machine.revokeF0) u with clk := u.clk }), rfl⟩

theorem Guard.rcvBegin (slot : Nat) : Guard.Statement (.rcvBegin slot) :=
  fun _ => ⟨(fun u => { (whenUp (Sys2Proof.Machine.rcvBegin slot)) u with clk := u.clk }), rfl⟩

theorem Guard.rcvDataWrite (v : Nat) : Guard.Statement (.rcvDataWrite v) :=
  fun _ => ⟨(fun u => { (whenUp (rcvData v)) u with clk := u.clk }), rfl⟩

theorem Guard.rcvEnd : Guard.Statement .rcvEnd :=
  fun _ => ⟨(fun u => { (whenUp Sys2Proof.Machine.rcvEnd) u with clk := u.clk }), rfl⟩

theorem Guard.ledgerProgram : Guard.Statement .ledgerProgram :=
  fun _ => ⟨(fun u => { (whenPowered Sys2Proof.Machine.ledgerProgram) u with clk := u.clk }), rfl⟩

theorem Guard.ledgerPeriodic : Guard.Statement .ledgerPeriodic :=
  fun _ => ⟨(fun u => { (whenUp Sys2Proof.Machine.ledgerPeriodic) u with clk := u.clk }), rfl⟩

theorem Guard.archive (count : Nat) : Guard.Statement (.archive count) :=
  fun _ => ⟨(fun u => { (whenUp (Sys2Proof.Machine.archive count)) u with clk := u.clk }), rfl⟩

theorem Guard.illegalWord (c : Nat) : Guard.Statement (.illegalWord c) :=
  fun _ => ⟨(fun u => { (whenUp (issueIllegal c)) u with clk := u.clk }), rfl⟩

theorem Guard.unitFault (kind : Nat) (num : Nat) : Guard.Statement (.unitFault kind num) :=
  fun _ => ⟨(fun u => { (whenUp (Sys2Proof.Machine.unitFault kind num)) u with clk := u.clk }), rfl⟩

theorem Guard.moveHoldNotice (h : Nat) (b : Nat) : Guard.Statement (.moveHoldNotice h b) :=
  fun _ => ⟨(fun u => { (whenUp (Sys2Proof.Machine.moveHoldNotice h b)) u with clk := u.clk }), rfl⟩

theorem Guard.generationSpacingEnd (b : Nat) : Guard.Statement (.generationSpacingEnd b) :=
  fun _ => ⟨(fun u => { (whenUp (Sys2Proof.Machine.generationSpacingEnd b)) u with clk := u.clk }), rfl⟩

theorem Guard.resetDrainEnd : Guard.Statement .resetDrainEnd :=
  fun _ => ⟨(whenPowered Sys2Proof.Machine.resetDrainEnd), rfl⟩

theorem Guard.perBankRefresh (st : Nat) (p : Nat) (bank : Nat) : Guard.Statement (.perBankRefresh st p bank) :=
  fun s => ⟨(fun u => { (whenUp (whenever (s.dramOn st) (Sys2Proof.Machine.perBankRefresh st p bank))) u with clk := u.clk }), rfl⟩

theorem Guard.clkrefReturn : Guard.Statement .clkrefReturn :=
  fun _ => ⟨(whenPowered Sys2Proof.Machine.clkrefReturn), rfl⟩

theorem Guard.ideKmRequest (setup : Bool) : Guard.Statement (.ideKmRequest setup) :=
  fun _ => ⟨(fun u => { (whenUp (ideRequest setup)) u with clk := u.clk }), rfl⟩

end Sys2Proof.Laws
end

