-- ==== Sys2Proof/Laws/Seq.lean ====
section
/-! SUPPORT. The sequencer: what a word at the issue position leads to. -/

namespace Sys2Proof.Laws

open Sys2Proof.Machine

/-- A word that the sequencer reads, and that is this command's, has its own effect. -/
theorem issueWord_reads {s : State} {c : Nat} {x : CoreWord} {is : Nat → Bool} {f : CoreWord → State → State}
    (h : s.reads c x) (hi : is (s.wordAt c) = true) : issueWord c is f s = f x s := by
  obtain ⟨h1, h2, h3⟩ := h
  simp [issueWord, h1, h2, h3, hi]

theorem reads_fresh {s : State} {c : Nat} {x : CoreWord} (h : s.reads c x) : (fresh s).reads c x := h

@[simp] theorem wordAt_fresh (s : State) (c : Nat) : (fresh s).wordAt c = s.wordAt c := rfl
@[simp] theorem slot_fresh (s : State) (c i : Nat) : (fresh s).slot c i = s.slot c i := rfl
@[simp] theorem swOf_fresh (s : State) (c : Nat) : (fresh s).swOf c = s.swOf c := rfl
@[simp] theorem inWindow_fresh (s : State) (k a n : Nat) : (fresh s).inWindow k a n = s.inWindow k a n := rfl
@[simp] theorem mmaCheck_fresh (s : State) (c a w o i r : Nat) (acc fuse : Bool) (n : Nat) :
    (fresh s).mmaCheck c a w o i r acc fuse n = s.mmaCheck c a w o i r acc fuse n := rfl
@[simp] theorem cpyCheck_fresh (s : State) (c a b n : Nat) : (fresh s).cpyCheck c a b n = s.cpyCheck c a b n := rfl
@[simp] theorem vecCheck_fresh (s : State) (c op fn n x y z r : Nat) :
    (fresh s).vecCheck c op fn n x y z r = s.vecCheck c op fn n x y z r := rfl
@[simp] theorem entry_fresh (s : State) (c w : Nat) (ds : List Nat) : (fresh s).entry c w ds = s.entry c w ds := rfl

/-- A word that counts as issued. -/
theorem issued_core (s : State) (c d : Nat) :
    (s.issued c).core d = if c = d then { s.core c with issued := (s.core c).issued + 1 } else s.core d := by
  unfold State.issued; rw [core_setCore]; split <;> rfl

theorem issued_f (s : State) (c : Nat) (n : FieldName) (i : Nat) (h : (n, i) ∉ [(.CORE_ISSUED, c), (.CORE_PC_PC, c)]) :
    (s.issued c).f n i = s.f n i := by
  simp only [List.mem_cons, Prod.mk.injEq, List.not_mem_nil, or_false, not_or] at h
  unfold State.issued
  simp only [tally_eq, f_read_setCore, f_setF]
  rw [if_neg (by rintro ⟨rfl, rfl⟩; simp at h), if_neg (by rintro ⟨rfl, rfl⟩; simp at h)]

theorem issued_counts (s : State) (c : Nat) :
    (s.issued c).f .CORE_ISSUED c = satAdd (s.f .CORE_ISSUED c) 1 ∧
      (s.issued c).f .CORE_PC_PC c = (s.f .CORE_PC_PC c + 1) % 2 ^ 19 := by
  unfold State.issued; simp [f_setF, fieldDesc]

theorem issued_rest (s : State) (c : Nat) :
    s.issued c = { s with regs := (s.issued c).regs, cores := (s.issued c).cores } := rfl

theorem ite_some {α : Type} {p : Prop} [Decidable p] {a x : α} (h : (if p then some a else none) = some x) : a = x := by
  by_cases hp : p
  · rw [if_pos hp] at h; exact Option.some.inj h
  · rw [if_neg hp] at h; cases h

/-- The opcode that a legal word has. -/
def wordOp : CoreWord → Nat
  | .nop => 0x00 | .mma .. => 0x01 | .tdld .. => 0x08 | .tdadd .. => 0x09 | .cpy .. => 0x10 | .fence .. => 0x18
  | .sync .. => 0x19 | .loop .. => 0x20 | .vec op .. => op | .vpos .. => 0x33 | .vsetf .. => 0x34 | .stepend => 0x3F

/-- The opcode of a word that reads as a legal one. -/
theorem decodeWord_op {w : Nat} {x : CoreWord} (h : decodeWord w = some x) : opOf w = wordOp x := by
  unfold decodeWord at h
  dsimp only at h
  by_cases e0 : opOf w = 0x00
  · rw [if_pos e0] at h; have := ite_some h; subst this; exact e0
  rw [if_neg e0] at h
  by_cases e1 : opOf w = 0x01
  · rw [if_pos e1] at h; have := ite_some h; subst this; exact e1
  rw [if_neg e1] at h
  by_cases e2 : opOf w = 0x08
  · rw [if_pos e2] at h; have := ite_some h; subst this; exact e2
  rw [if_neg e2] at h
  by_cases e3 : opOf w = 0x09
  · rw [if_pos e3] at h; have := ite_some h; subst this; exact e3
  rw [if_neg e3] at h
  by_cases e4 : opOf w = 0x10
  · rw [if_pos e4] at h; have := ite_some h; subst this; exact e4
  rw [if_neg e4] at h
  by_cases e5 : opOf w = 0x18
  · rw [if_pos e5] at h; have := ite_some h; subst this; exact e5
  rw [if_neg e5] at h
  by_cases e6 : opOf w = 0x19
  · rw [if_pos e6] at h; have := ite_some h; subst this; exact e6
  rw [if_neg e6] at h
  by_cases e7 : opOf w = 0x20
  · rw [if_pos e7] at h; have := ite_some h; subst this; exact e7
  rw [if_neg e7] at h
  by_cases e8 : (0x28 ≤ opOf w && opOf w ≤ 0x32) = true
  · rw [if_pos e8] at h; have := ite_some h; subst this; exact rfl
  rw [if_neg e8] at h
  by_cases e9 : opOf w = 0x33
  · rw [if_pos e9] at h; have := ite_some h; subst this; exact e9
  rw [if_neg e9] at h
  by_cases e10 : opOf w = 0x34
  · rw [if_pos e10] at h; have := ite_some h; subst this; exact e10
  rw [if_neg e10] at h
  by_cases e11 : opOf w = 0x3F
  · rw [if_pos e11] at h; have := ite_some h; subst this; exact e11
  rw [if_neg e11] at h
  cases h

end Sys2Proof.Laws
end

