-- ==== Sys2Proof/Tests/Slice0.lean ====
section
/-! SUPPORT. Small checks on fixed values: for each statement a state that meets its hypotheses, words of the core's program
written out from the spec's encodings, and terms that WellFormed refuses. -/

open Sys2Proof Sys2Proof.Machine

namespace Sys2Proof.Tests

set_option Elab.async false

/-- A module out of reset. -/
def up0 : State := { inReset := false }

/-- The state after a command. -/
def after (c : Instr) (s : State) : State :=
  match exec c s with
  | .next t => t
  | _ => s

/-- No register but the listed ones differs. -/
def sameBut (s t : State) (but : List (FieldName × Nat)) : Bool :=
  (s.regs ++ t.regs).all (fun p => but.any (fun q => p.1 = fieldKey q.1 q.2) ||
    (s.regs.find? (fun x => x.1 = p.1) == t.regs.find? (fun x => x.1 = p.1)))

/-- Does a command run? -/
def runs (c : Instr) (s : State) : Bool :=
  match exec c s with
  | .next _ => true
  | _ => false

/-- Some registers set. -/
def put (s : State) (vs : List (FieldName × Nat × Nat)) : State := vs.foldl (fun t v => t.setF v.1 v.2.1 v.2.2) s

/-! Well-formedness: for every check a command that fails only it, and the last operands that pass. -/

/-- Commands that fail one check each. -/
def illFormed0 : List Instr :=
  [ .registerWrite 9 0 8 0, .registerWrite 0 0x10000000 8 0, .registerWrite 0 0 3 0, .registerWrite 0 0 4 (2 ^ 32),
    .rcRead 9 0 0 0, .rcRead 0 0x10000000 0 0, .nop 384, .mma 384, .tdld 384, .tdadd 384, .cpy 384, .fence 384,
    .sync 384, .loop 384, .stepend 384, .wstRelease 384 0, .wstRelease 0 3, .fenceComplete 384,
    .syncRelease 65536 0 0 0, .syncRelease 0 3 0 0, .syncRelease 0 0 256 0, .syncRelease 0 0 0 48, .stependDone 384,
    .issueResume 384, .arrayCycle 384 0, .arrayCycle 0 39937, .bobbinSwap 384, .loadShuttleStage 384,
    .storeDrain 384, .cpyTransfer 384 0, .cpyTransfer 0 2, .coreFault 48 0 0, .coreFault 0 9 0, .coreFault 0 0 3,
    .vmap 384, .vfma 384, .vrow 384, .vnorm 384, .vsmax 384, .vrscRescale 384, .vrscFinal 384, .vrscClose 384,
    .vsti 384, .vdot 384, .vsbwd 384, .vloss 384, .vqnt 384, .vpos 384, .vsetf 384, .vectorChunk 384,
    .scratchGrant 384 0 false false false, .scratchGrant 0 32 false false false, .switchRequest 384 0,
    .switchRequest 0 65536, .coreSwitch 384, .switchComplete 384, .schedule 8, .stepStart 65536, .preempt 65536,
    .swatchReturn 65536
  ]

theorem test_illFormed0 : illFormed0.all (fun i => !i.wellFormed) = true := by decide +kernel

/-- Commands that fail one check each. -/
def illFormed1 : List Instr :=
  [ .stepBoundary 65536, .limpSwitch 48 0, .limpSwitch 0 8, .packJob 24, .updateJob 24 [], .foreignErrorPass 24,
    .stepCommit 65536, .pendingRowAppend 65536 0 0 [], .pendingRowApply 24 0 (0, []), .pendingRowApply 0 65536 (0, []),
    .closingHop 65536 0 0, .roundTrailerSend 16 0, .roundTrailerSend 0 65536, .trailer 16 0 0, .trailer 0 0 8192,
    .collectiveTimeout 16 0, .holdNoticeTick 65536, .hold 16 0 [] 0, .hold 0 0 [] 8192, .agreeLocalise 65536 [],
    .agreeRepair 65536 [], .stateTransferSend 16 0, .stateTransferSend 0 65536, .stateTransferDone 16 0,
    .stateTransferDone 0 65536, .hbmRequest 24 0 [] [], .hbmRequest 0 64 [] [], .laneSwap 24 0, .laneSwap 0 32,
    .patrolScrub 24 0 [], .arbiterGrant 992 [], .arbiterGrant 0 [], .arbiterGrant 399 [], .patrolScrub 0 1572864 [], .pocketAccess 48 0 0 0 false 0 false,
    .pocketAccess 0 65536 0 0 false 0 false, .pocketAccess 0 0 4097 0 false 0 false,
    .pocketAccess 0 0 0 1 false 0 false, .pocketAccess 0 0 0 (2 ^ 43) false 0 false, .pocketZeroingDone 48 0,
    .pocketZeroingDone 0 16, .pocketSweep 48, .thermalSample (List.replicate 30 0) (List.replicate 24 0),
    .thermalSample (List.replicate 31 0) (List.replicate 25 0),
    .thermalSample (List.replicate 31 256) (List.replicate 24 0),
    .thermalSample (List.replicate 31 0) (List.replicate 24 17), .stackFitSlice 24, .stackSliceResult 24 false,
    .moveReserve (2 ^ 27), .moveCopyDone (2 ^ 27) [], .moveHold (2 ^ 27), .holdAck 0 86, .holdAck (2 ^ 27) 0,
    .moveFlip (2 ^ 27), .moveFreeSource (2 ^ 27), .dirNotice 86 0 0 false, .dirNotice 0 (2 ^ 27) 0 false,
    .dirNotice 0 0 65536 false, .translationFill 0 86 0 false, .translationFill (2 ^ 27) 0 0 false,
    .translationFill 0 0 65536 false, .layerMark 65536, .stallLimit 65536 0
  ]

theorem test_illFormed1 : illFormed1.all (fun i => !i.wellFormed) = true := by decide +kernel

/-- Commands that fail one check each. -/
def illFormed2 : List Instr :=
  [ .stallLimit 0 6, .flashProgram 2 0, .flashBudgetHour 2, .tierT3Write false (2 ^ 64), .portDetect 16,
    .portUp 16 [] 0, .portUp 0 [] 65536, .hello 16 [], .flitReceive 16 0 0 [] false,
    .flitReceive 0 (2 ^ 64) 0 [] false, .nak 16 0, .nak 0 4096, .replayTimeout 16, .retrain 16, .signalLoss 16,
    .clkstat 16 0, .clkstat 0 32, .proposeRetry 16, .adoptTimeout 16, .joinResend 16, .memberStrike 16 0,
    .memberStrike 0 8192, .collIssue 16, .sequenceComplete 16 0 0, .sequenceComplete 0 0 8192, .runBarrier 65536,
    .runPack 65536, .runCollExchange 65536, .collReduceScatter 65536, .collAllGather 65536, .collAllReduce 65536,
    .collBroadcast 65536, .runTier 65536, .runEnd 65536, .barrierStall 65536, .resume 9 0, .resume 0 65536,
    .park 9 0, .park 0 65536, .partitionWrite 9 0 0 0, .partitionWrite 0 8 0 0, .partitionWrite 0 0 2 0,
    .partitionWrite 0 0 0 (2 ^ 64), .partitionChangeApply 8, .descriptorWrite 9 0 0 0, .descriptorWrite 0 65536 0 0,
    .descriptorWrite 0 0 32 0, .descriptorWrite 0 0 0 (2 ^ 64), .collDomCfgWrite 9 0 0, .collDomCfgWrite 0 16 0,
    .collDomCfgWrite 0 0 (2 ^ 64), .collCmdJoin 16, .collCmdLeave 16, .collCmdRemove 16 0, .collCmdRemove 0 8192,
    .collCmdForce 16, .dividerStep 5, .powerSample 65536 0, .powerSample 0 (2 ^ 32), .perstDeassert 32
  ]

theorem test_illFormed2 : illFormed2.all (fun i => !i.wellFormed) = true := by decide +kernel

/-- Commands that fail one check each. -/
def illFormed3 : List Instr :=
  [ .fittingSlice 48 0 false, .fittingSlice 0 9 false, .resetCore 48 0, .resetCore 0 8, .resetRegion 48,
    .partitionReset 8, .resetComplete 0 384, .resetComplete 1 48, .resetComplete 2 8, .resetComplete 3 0,
    .functionLevelReset 9, .linkStateChange 5 0 false, .linkStateChange 0 3 false, .intMaskWrite 9 0,
    .intMaskWrite 0 (2 ^ 64), .dpAddrWrite 9 0, .dpAddrWrite 0 (2 ^ 64), .dataPortAccess 9 false 0 [],
    .dataPortAccess 0 false 65536 [], .dpReadStall 9, .jobBoardCheck 8, .slotRead 9 0 0, .slotRead 0 8 0,
    .slotRead 0 0 4096, .slotRelease 9 0 0, .slotRelease 0 8 0, .slotRelease 0 0 4096, .begin 9, .commit 9,
    .rollback 9, .selectNext 4, .patWrite 4, .smbAlertClear 65536, .smbAlertMask 65536, .smbLedgerIndex (2 ^ 32),
    .spdmRequest 2 0, .spdmRequest 0 (2 ^ 256), .rcvBegin 2, .rcvDataWrite (2 ^ 64), .illegalWord 384,
    .unitFault 1 48, .unitFault 2 48, .unitFault 3 24, .unitFault 4 24, .unitFault 5 8, .unitFault 6 4,
    .unitFault 7 2, .unitFault 0 0, .unitFault 8 0, .moveHoldNotice 86 0, .moveHoldNotice 0 (2 ^ 27),
    .generationSpacingEnd (2 ^ 27), .perBankRefresh 24 0 0, .perBankRefresh 0 64 0, .perBankRefresh 0 0 64
  ]

theorem test_illFormed3 : illFormed3.all (fun i => !i.wellFormed) = true := by decide +kernel

/-- Commands with every operand at its last value. -/
def wellFormed0 : List Instr :=
  [ .registerWrite (9 - 1) (0x10000000 - 1) 8 (2 ^ 64 - 1), .rcRead (9 - 1) (0x10000000 - 1) 0 0, .nop (384 - 1),
    .mma (384 - 1), .tdld (384 - 1), .tdadd (384 - 1), .cpy (384 - 1), .fence (384 - 1), .sync (384 - 1),
    .loop (384 - 1), .stepend (384 - 1), .wstRelease (384 - 1) (3 - 1), .fenceComplete (384 - 1),
    .syncRelease (65536 - 1) (3 - 1) (256 - 1) (48 - 1), .stependDone (384 - 1), .issueResume (384 - 1),
    .arrayCycle (384 - 1) 39936, .bobbinSwap (384 - 1), .loadShuttleStage (384 - 1), .storeDrain (384 - 1),
    .cpyTransfer (384 - 1) (2 - 1), .coreFault (48 - 1) (9 - 1) (3 - 1), .vmap (384 - 1), .vfma (384 - 1),
    .vrow (384 - 1), .vnorm (384 - 1), .vsmax (384 - 1), .vrscRescale (384 - 1), .vrscFinal (384 - 1),
    .vrscClose (384 - 1), .vsti (384 - 1), .vdot (384 - 1), .vsbwd (384 - 1), .vloss (384 - 1), .vqnt (384 - 1),
    .vpos (384 - 1), .vsetf (384 - 1), .vectorChunk (384 - 1), .scratchGrant (384 - 1) (32 - 1) false false false,
    .switchRequest (384 - 1) (65536 - 1), .coreSwitch (384 - 1), .switchComplete (384 - 1), .schedule (8 - 1),
    .stepStart (65536 - 1), .preempt (65536 - 1), .swatchReturn (65536 - 1), .stepBoundary (65536 - 1),
    .limpSwitch (48 - 1) (8 - 1), .packJob (24 - 1), .updateJob (24 - 1) [], .foreignErrorPass (24 - 1),
    .stepCommit (65536 - 1), .pendingRowAppend (65536 - 1) 0 0 [], .pendingRowApply (24 - 1) (65536 - 1) (0, []),
    .closingHop (65536 - 1) 0 0, .roundTrailerSend (16 - 1) (65536 - 1), .trailer (16 - 1) 0 (8192 - 1),
    .collectiveTimeout (16 - 1) 0, .holdNoticeTick (65536 - 1), .hold (16 - 1) 0 [] (8192 - 1)
  ]

theorem test_wellFormed0 : wellFormed0.all (fun i => i.wellFormed) = true := by decide +kernel

/-- Commands with every operand at its last value. -/
def wellFormed1 : List Instr :=
  [ .agreeLocalise (65536 - 1) [], .agreeRepair (65536 - 1) [], .stateTransferSend (16 - 1) (65536 - 1),
    .stateTransferDone (16 - 1) (65536 - 1), .hbmRequest (24 - 1) (64 - 1) [] [], .laneSwap (24 - 1) (32 - 1),
    .patrolScrub (24 - 1) (1572864 - 1) [], .arbiterGrant 991 [], .arbiterGrant 1 [], .arbiterGrant 398 [], .pocketAccess (48 - 1) (65536 - 1) 4096 (2 ^ 43 - 64) false 0 false,
    .pocketZeroingDone (48 - 1) (16 - 1), .pocketSweep (48 - 1),
    .thermalSample (List.replicate 31 255) (List.replicate 24 16), .stackFitSlice (24 - 1),
    .stackSliceResult (24 - 1) false, .moveReserve (2 ^ 27 - 1), .moveCopyDone (2 ^ 27 - 1) [],
    .moveHold (2 ^ 27 - 1), .holdAck (2 ^ 27 - 1) (86 - 1), .moveFlip (2 ^ 27 - 1), .moveFreeSource (2 ^ 27 - 1),
    .dirNotice (86 - 1) (2 ^ 27 - 1) (65536 - 1) false, .translationFill (2 ^ 27 - 1) (86 - 1) (65536 - 1) false,
    .layerMark (65536 - 1), .stallLimit (65536 - 1) (6 - 1), .flashProgram (2 - 1) 0, .flashBudgetHour (2 - 1),
    .tierT3Write false (2 ^ 64 - 1), .portDetect (16 - 1), .portUp (16 - 1) [] (65536 - 1), .hello (16 - 1) [],
    .flitReceive (16 - 1) (2 ^ 64 - 1) 0 [] false, .nak (16 - 1) (4096 - 1), .replayTimeout (16 - 1),
    .retrain (16 - 1), .signalLoss (16 - 1), .clkstat (16 - 1) (32 - 1), .proposeRetry (16 - 1),
    .adoptTimeout (16 - 1), .joinResend (16 - 1), .memberStrike (16 - 1) (8192 - 1), .collIssue (16 - 1),
    .sequenceComplete (16 - 1) 0 (8192 - 1), .runBarrier (65536 - 1), .runPack (65536 - 1),
    .runCollExchange (65536 - 1), .collReduceScatter (65536 - 1), .collAllGather (65536 - 1),
    .collAllReduce (65536 - 1), .collBroadcast (65536 - 1), .runTier (65536 - 1), .runEnd (65536 - 1),
    .barrierStall (65536 - 1), .resume (9 - 1) (65536 - 1), .park (9 - 1) (65536 - 1),
    .partitionWrite (9 - 1) (8 - 1) (2 - 1) (2 ^ 64 - 1), .partitionChangeApply (8 - 1),
    .descriptorWrite (9 - 1) (65536 - 1) (32 - 1) (2 ^ 64 - 1), .collDomCfgWrite (9 - 1) (16 - 1) (2 ^ 64 - 1),
    .collCmdJoin (16 - 1), .collCmdLeave (16 - 1), .collCmdRemove (16 - 1) (8192 - 1)
  ]

theorem test_wellFormed1 : wellFormed1.all (fun i => i.wellFormed) = true := by decide +kernel

/-- Commands with every operand at its last value. -/
def wellFormed2 : List Instr :=
  [ .collCmdForce (16 - 1), .dividerStep (5 - 1), .powerSample (65536 - 1) (2 ^ 32 - 1), .perstDeassert (32 - 1),
    .fittingSlice (48 - 1) (9 - 1) false, .resetCore (48 - 1) (8 - 1), .resetRegion (48 - 1),
    .partitionReset (8 - 1), .resetComplete 0 383, .resetComplete 1 47, .resetComplete 2 7,
    .functionLevelReset (9 - 1), .linkStateChange (5 - 1) 4 false, .intMaskWrite (9 - 1) (2 ^ 64 - 1),
    .dpAddrWrite (9 - 1) (2 ^ 64 - 1), .dataPortAccess (9 - 1) false (65536 - 1) [], .dpReadStall (9 - 1),
    .jobBoardCheck (8 - 1), .slotRead (9 - 1) (8 - 1) (4096 - 1), .slotRelease (9 - 1) (8 - 1) (4096 - 1),
    .begin (9 - 1), .commit (9 - 1), .rollback (9 - 1), .selectNext (4 - 1), .patWrite (4 - 1),
    .smbAlertClear (65536 - 1), .smbAlertMask (65536 - 1), .smbLedgerIndex (2 ^ 32 - 1),
    .spdmRequest (2 - 1) (2 ^ 256 - 1), .rcvBegin (2 - 1), .rcvDataWrite (2 ^ 64 - 1), .illegalWord (384 - 1),
    .unitFault 1 47, .unitFault 2 47, .unitFault 3 23, .unitFault 4 23, .unitFault 5 7, .unitFault 6 3,
    .unitFault 7 1, .moveHoldNotice (86 - 1) (2 ^ 27 - 1), .generationSpacingEnd (2 ^ 27 - 1),
    .perBankRefresh (24 - 1) (64 - 1) (64 - 1)
  ]

theorem test_wellFormed2 : wellFormed2.all (fun i => i.wellFormed) = true := by decide +kernel

/-! The queue, clocks and power. -/

theorem test_front : step { up0 with pending := [.passStep, .clockAcquire] } =
    exec .passStep { up0 with pending := [.clockAcquire] } := rfl

theorem test_frames : touchesClocks .alloc = false ∧ isPin .alloc = false ∧ inResetToo .alloc = false ∧
    runs .alloc up0 = true ∧ ({ up0 with pwrgd := false } : State).pwrgd = false ∧ State.reset.inReset = true := by decide +kernel

theorem test_clocks_ok : State.reset.clk.Ok ∧ step State.reset = .next { State.reset with now := 1 } :=
  ⟨⟨by decide, by decide, by decide, by decide, by decide, by decide, by decide, by decide⟩, rfl⟩

/-- Locked to port 3, recovering. -/
def sSource : State :=
  { (put up0 [(.CLK_STATUS_ROLE, 0, 2), (.CLK_STATUS_PORT, 0, 3), (.SEAM_STATUS_STATE, 3, 2)]) with
    clk := { up0.clk with root := .recovered, onLane := true, locked := true } }

theorem test_source_lost : sSource.up ∧ sSource.clk.onSource = true ∧ sSource.sourcePort = 3 ∧
    (after .sourceLaneLost sSource).clk.root = .holdover ∧ (after .sourceLaneLost sSource).f .CLK_LOSSES 0 = 1 ∧
    sameBut sSource (after .sourceLaneLost sSource) [(.CLK_LOSSES, 0), (.CLK_STATUS_LOST_SEEN, 0), (.SEAM_STATUS_CLK_SRC, 3)] := by
  decide +kernel

theorem test_clkref_lost : up0.up ∧ up0.clk.refGone = false ∧ up0.clk.root ≠ .recovered ∧
    (after .clkrefLost up0).withdraw = some 4 ∧ (after .clkrefLost up0).clk.root = .holdover ∧
    (after .clkrefLost up0).f .CLK_STATUS_REF_LOST 0 = 1 ∧
    (after .clkrefLost up0).ledgQ = [⟨0x06, unitPayload .hub 0 0 0 0 0, 0⟩] := by decide +kernel

/-- A module that recovers its clock from port 3, at the local clock. -/
def sLocal : State :=
  put up0 [(.CLK_STATUS_ROLE, 0, 2), (.CLK_STATUS_PORT, 0, 3), (.SEAM_STATUS_STATE, 3, 2), (.SEAM_STATUS_PEER_DEPTH, 3, 4)]

/-- The same while it acquires. -/
def sAcq (lane locked : Bool) (c : Clk) : State := { sLocal with clk := { c with root := .acquiring, onLane := lane, locked := locked } }

/-- Every divider at its nominal value. -/
def nominal : Clk := { ({} : Clk) with array := 8, fabric := 4, vector := 4, hbmc := 5, ctrl := 12 }

theorem test_acquire : sLocal.canAcquire = true ∧ (after .reacquire sLocal).clk.root = .acquiring ∧
    ({ sLocal with boot := { sLocal.boot with acquireDue := true } } : State).canAcquire = true ∧
    (after .clockAcquire { sLocal with boot := { sLocal.boot with acquireDue := true } }).boot.acquireDue = false := by decide +kernel

theorem test_ramp : (sAcq false false {}).up ∧ (sAcq false false {}).clk.atDouble = true ∧
    (after .rampReached (sAcq false false {})).clk.onLane = true ∧ (sAcq true true nominal).clk.atNominal = true ∧
    (after .rampReached (sAcq true true nominal)).clk.root = .recovered := by decide +kernel

theorem test_lock : (after .rootLocked (sAcq true false {})).clk.locked = true ∧
    (after .rootLocked (sAcq true false {})).clk.depth = 5 ∧ (after .rootLocked (sAcq true false {})).f .CLK_SWITCHES 0 = 1 ∧
    (after .rootLocked (sAcq true false {})).f .SEAM_STATUS_CLK_SRC 3 = 1 := by decide +kernel

theorem test_clkstat : sSource.portUp 3 = true ∧ (after (.clkstat 3 7) sSource).clk.depth = 8 ∧
    (after (.clkstat 3 31) sSource).f .SEAM_STATUS_PEER_DEPTH 3 = 31 ∧ (after (.clkstat 3 31) sSource).clk.depth = 31 := by decide +kernel

/-- Clocks at rest above their nominal dividers, P below its target. -/
def sSteps (rising : Bool) : State := { up0 with now := 1000000, clk := { ({} : Clk) with up := false, pass := 80, level := 1, target := 82, rising := rising } }

theorem test_steps : (sSteps false).clk.div 0 ≠ (if (sSteps false).clk.up then 2 * nominalDiv 0 else nominalDiv 0) ∧
    FMap.get 0 (sSteps false).clk.held 0 + 64 * (sSteps false).clk.div 0 ≤ (sSteps false).now ∧
    (after (.dividerStep 0) (sSteps false)).clk.array = 15 ∧ (sSteps false).clk.pass ≠ (sSteps false).clk.target ∧
    (after .passStep (sSteps false)).clk.pass = 81 ∧
    (after .passStep { sSteps false with clk := { (sSteps false).clk with target := 70 } }).clk.pass = 79 ∧
    (after .passStep { sSteps false with clk := { (sSteps false).clk with level := 0 } }).clk.rising = true ∧ (after .voltageSettled (sSteps true)).clk.level = 2 := by decide +kernel

/-- A module at P = 120 under a limit of 700 W. -/
def sPower : State := { up0 with thm := { up0.thm with watts := 700 }, clk := { up0.clk with pass := 120, level := 3, target := 120 } }

theorem test_power : sPower.up ∧ 1150 * sPower.powerLimit < 100 * 500000 ∧ (after (.powerSample 54000 500000) sPower).clk.pass = 100 ∧
    (after (.powerSample 54000 500000) sPower).f .PWR_FAST 0 = 1 ∧ (after (.powerSample 54000 500000) sPower).f .PWR_INPUT_MV 0 = 54000 := by
  decide +kernel

/-! The sequencer: words written out bit by bit from their encodings (R70 to R75, R131 to R134), and one step on each. -/

/-- An MMA of N = 4 with WST, slots 1 to 5. -/
def wMma : Nat := 0b000001_00001_00010_00011_00100_00101_0_0_00_1_0000000_000000000000000000100
/-- A TDLD of slot 2 from unit 3. -/
def wTdld : Nat := 0b001000_00010_000000000000000000000000000000000000_00000000000000011
/-- A TDADD of slot 2 by 256. -/
def wTdadd : Nat := 0b001001_00010_0_000000000000_0000000000000000000000000000000100000000
/-- A CPY of one row from slot 1 to slot 2. -/
def wCpy : Nat := 0b010000_00001_00010_0_0_000000000000000000000_0000000000000000000000001
/-- A FENCE on loads. -/
def wFence : Nat := 0b011000_1_0_00000000000000000000000000000000000000000000000000000000
/-- A SYNC of scope 2 at barrier 5. -/
def wSync : Nat := 0b011001_10_00000101_000000000000000000000000000000000000000000000000
/-- A LOOP of 3 runs over 2 words. -/
def wLoop : Nat := 0b100000_0000000000000000000011_00000000000000000000_0000000000000010
/-- A VMAP of function 1 on 4 rows, slots 1 to 4. -/
def wVmap : Nat := 0b101000_00001_00010_00011_00100_0001_00000_0_0000000_000000000000000000100
/-- A VSETF of EPS. -/
def wVsetf : Nat := 0b110100_01_000000000000000000000000_00111110100000000000000000000000
/-- A VPOS at 7 and 9, causal. -/
def wVpos : Nat := 0b110011_0000000000000000000111_0000000000000000001001_01_000000000000

theorem test_words : decodeWord wMma = some (.mma 1 2 3 4 5 false false 0 true 4) ∧ decodeWord wTdld = some (.tdld 2 3) ∧
    decodeWord wTdadd = some (.tdadd 2 false 256) ∧ decodeWord wCpy = some (.cpy 1 2 false false 1) ∧
    decodeWord wFence = some (.fence true false) ∧ decodeWord wSync = some (.sync 2 5) ∧
    decodeWord wLoop = some (.loop 3 2) ∧ decodeWord wVmap = some (.vec 0x28 1 2 3 4 1 false 4) ∧
    decodeWord wVsetf = some (.vsetf 1 0x3E800000) ∧ decodeWord wVpos = some (.vpos 7 9 1) ∧
    decodeWord (0x3F * 2 ^ 58) = some .stepend ∧ decodeWord 1 = none := by decide +kernel

/-- Core 0 runs swatch 0, whose window is 64 KiB from 0, with a word at PC 2. -/
def core0 (w : Nat) : State :=
  let s := put up0 [(.CORE_STATUS_STATE, 0, 1), (.CORE_PC_PC, 0, 2)]
  { s with mem := { s.mem with st := { s.mem.st with sram := [(16, 0x40)], scratch := Memory.write 0 [] 16 (leBytes w 8) } } }

/-- The same with descriptor images in slots 1 to 5. -/
def coreD (w : Nat) (ds : List Nat) : State := (core0 w).setCore 0 { ({} : Core) with dist := 4, slots := ds.zipIdx.map (fun p => (p.2 + 1, p.1)) }

/-- A plain descriptor image: scratch, from 1024, stride 128, BF16. -/
def image (fmt rows cols : Nat) : Nat := 1 + 4 * fmt + 1024 * 2 ^ 32 + 128 * 2 ^ 96 + rows * 2 ^ 128 + cols * 2 ^ 153

theorem test_core_plain : (core0 0).reads 0 .nop ∧ (core0 wTdadd).reads 0 (.tdadd 2 false 256) ∧
    (core0 wVpos).reads 0 (.vpos 7 9 1) ∧ (core0 wVsetf).reads 0 (.vsetf 1 0x3E800000) ∧
    (core0 (0x3F * 2 ^ 58)).reads 0 .stepend ∧ (after (.nop 0) (core0 0)).f .CORE_PC_PC 0 = 3 ∧
    ((after (.tdadd 0) (core0 wTdadd)).slot 0 2) = 256 * 2 ^ 32 ∧ (after (.vpos 0) (core0 wVpos)).f .VEC_POS_KBASE 0 = 9 ∧
    (after (.vsetf 0) (core0 wVsetf)).f .VEC_EPS_EPS 0 = 0x3E800000 := by decide +kernel

theorem test_tdld : ({ core0 wTdld with mem := { (core0 wTdld).mem with st := { (core0 wTdld).mem.st with
      scratch := Memory.write 0 (core0 wTdld).mem.st.scratch 96 [1] } } } : State).reads 0 (.tdld 2 3) ∧
    dReservedZero 1 = true ∧ dGen 1 = 1 ∧ (after (.tdld 0) { core0 wTdld with mem := { (core0 wTdld).mem with
      st := { (core0 wTdld).mem.st with scratch := Memory.write 0 (core0 wTdld).mem.st.scratch 96 [1] } } }).slot 0 2 = 1 := by
  decide +kernel

/-- The core with an MMA of BF16 operands. -/
def coreMma : State := coreD wMma [image 5 4 64, image 5 64 16, image 5 4 16]

theorem test_mma : coreMma.reads 0 (.mma 1 2 3 4 5 false false 0 true 4) ∧ isOp 0x01 (coreMma.wordAt 0) = true ∧
    coreMma.mmaCheck 0 (coreMma.slot 0 1) (coreMma.slot 0 2) (coreMma.slot 0 3) (coreMma.slot 0 4) (coreMma.slot 0 5) false
      false 4 = 0 ∧ ((after (.mma 0) coreMma).core 0).matQ.length = 1 := by decide +kernel

/-- The same in a step that has started; the limits of SWT_CFG stand at 5 switches. -/
def coreOpen (opened : Bool) : State := put (coreMma.setSw 0 { ({} : SwRun) with started := true, opened := opened, regions := 1 })
  [(.SWT_CFG_MAX_OUT, 0, 5), (.CORE_SHUTTLE_CFG_STAGE_BASE, 0, 3)]

theorem test_open : ((coreOpen false).openStep 0).sw 0 = { (coreOpen false).sw 0 with
      opened := true, maxOut := 5, preempt := (coreOpen false).f .SWT_CFG_PREEMPT 0, stallMs := (coreOpen false).f .TIER_CFG_STALL_LIMIT 0 } ∧
    (((coreOpen false).openStep 0).core 0).ringBase = 49152 ∧ 0 ∈ ((coreOpen false).openStep 0).swCores 0 ∧
    (coreOpen true).openStep 0 = coreOpen true := by decide +kernel

/-- The core with a copy of one row. -/
def coreCpy : State := coreD wCpy [image 5 1 16, image 5 1 16]

theorem test_cpy : coreCpy.reads 0 (.cpy 1 2 false false 1) ∧ isOp 0x10 (coreCpy.wordAt 0) = true ∧
    coreCpy.cpyCheck 0 (coreCpy.slot 0 1) (coreCpy.slot 0 2) 1 = 0 ∧ ((after (.cpy 0) coreCpy).core 0).shQ.length = 1 := by decide +kernel

/-- The core with a vector word. -/
def coreVec (op fn : Nat) (ds : List Nat) : State :=
  coreD (encodeWord (.vec op 1 2 3 4 fn false 4)) ds

theorem test_vec : (coreVec 0x28 1 (List.replicate 4 (image 5 4 16))).reads 0 (.vec 0x28 1 2 3 4 1 false 4) ∧
    (coreVec 0x28 1 (List.replicate 4 (image 5 4 16))).vecCheck 0 0x28 1 4 (image 5 4 16) (image 5 4 16) (image 5 4 16)
      (image 5 4 16) = 0 ∧ ((after (.vmap 0) (coreVec 0x28 1 (List.replicate 4 (image 5 4 16)))).core 0).vecQ.length = 1 := by decide +kernel

/-- A descriptor image of every vector word's records, rows of 4 columns. -/
def vecRun (i : Instr) (op fn : Nat) (ds : List Nat) : Bool :=
  let s := coreVec op fn ds
  decide (s.vecCheck 0 op fn 4 (ds.getD 0 0) (ds.getD 1 0) (ds.getD 2 0) (ds.getD 3 0) = 0)
    && (after i s).f .CORE_ISSUED 0 = 1 && ((after i s).core 0).vecQ.length = 1

theorem test_vec_words :
    vecRun (.vfma 0) 0x29 0 (List.replicate 4 (image 5 4 16)) = true ∧
    vecRun (.vrow 0) 0x2A 0 [image 5 4 16, 0, image 6 4 1, 0] = true ∧
    vecRun (.vnorm 0) 0x2B 0 [image 5 4 16, image 5 1 16, image 5 4 16, 0] = true ∧
    vecRun (.vsmax 0) 0x2C 0 [image 6 4 16, 0, image 5 4 16, image 8 4 1] = true ∧
    vecRun (.vrscRescale 0) 0x2D 0 [0, 0, image 6 4 16, image 8 4 1] = true ∧
    vecRun (.vrscFinal 0) 0x2D 1 [0, 0, image 6 4 16, image 8 4 1] = true ∧
    vecRun (.vrscClose 0) 0x2D 2 [0, 0, image 6 4 16, image 8 4 1] = true ∧ vecRun (.vsti 0) 0x2E 0 [0, 0, 0, image 8 4 1] = true ∧
    vecRun (.vdot 0) 0x2F 0 [image 5 4 16, image 5 4 16, 0, image 8 4 1] = true ∧
    vecRun (.vsbwd 0) 0x30 0 [image 6 4 16, image 6 4 16, image 5 4 16, image 8 4 1] = true ∧
    vecRun (.vloss 0) 0x31 0 [image 6 4 16, image 5 4 1, image 7 1 1, image 8 4 1] = true ∧
    vecRun (.vqnt 0) 0x32 0 [image 5 4 16, 0, image 5 4 16, 0] = true := by decide +kernel

theorem test_fence_sync : (core0 wFence).reads 0 (.fence true false) ∧ isOp 0x18 ((core0 wFence).wordAt 0) = true ∧
    ((after (.fence 0) (core0 wFence)).core 0).wait = .fence true false 0 ∧ (core0 wSync).reads 0 (.sync 2 5) ∧
    isOp 0x19 ((core0 wSync).wordAt 0) = true ∧ (after (.sync 0) (core0 wSync)).f .CORE_STATUS_STATE 0 = 2 := by decide +kernel

/-- The core at its LOOP, in a loop of so many runs left. -/
def coreLoop (left : Nat) : State := (core0 wLoop).setCore 0 { ({} : Core) with loops := [(2, left)] }

theorem test_loop : (core0 wLoop).reads 0 (.loop 3 2) ∧ isOp 0x20 ((core0 wLoop).wordAt 0) = true ∧
    ((core0 wLoop).core 0).nestAt 2 2 ≤ 4 ∧ (after (.loop 0) (core0 wLoop)).f .CORE_PC_PC 0 = 0 ∧
    (after (.loop 0) (core0 wLoop)).f .CORE_PC_DEPTH 0 = 1 ∧
    (core0 (encodeWord (.loop 1 2))).reads 0 (.loop 1 2) ∧
    (after (.loop 0) (core0 (encodeWord (.loop 1 2)))).f .CORE_PC_PC 0 = 3 ∧
    (coreLoop 1).reads 0 (.loop 3 2) ∧ (after (.loop 0) (coreLoop 1)).f .CORE_PC_PC 0 = 3 ∧
    ((after (.loop 0) (coreLoop 1)).core 0).loops = [] ∧ (after (.loop 0) (coreLoop 2)).f .CORE_PC_PC 0 = 0 ∧
    ((after (.loop 0) (coreLoop 2)).core 0).loops = [(2, 1)] := by decide +kernel

/-- An unassigned opcode in a step that runs. -/
def coreBad : State := (core0 (2 ^ 59)).setSw 0 { ({} : SwRun) with started := true }

theorem test_illegal : coreBad.issues 0 = true ∧ coreBad.inWindow (coreBad.swOf 0) (8 * coreBad.f .CORE_PC_PC 0) 8 = true ∧
    unassigned (coreBad.wordAt 0) = true ∧ (after (.illegalWord 0) coreBad).f .CORE_STATUS_LAST_REFUSAL 0 = rfIllegal ∧
    ((after (.illegalWord 0) coreBad).sw 0).cause = 2 := by decide +kernel

/-- What a command leaves as refusal code and PC. -/
def refusal (i : Instr) (s : State) : Nat × Nat := ((after i s).f .CORE_STATUS_LAST_REFUSAL 0, (after i s).f .CORE_PC_PC 0)

theorem test_refused_words : (core0 (wMma + 2 ^ 21)).inWindow 0 16 8 = true ∧ decodeWord (wMma + 2 ^ 21) = none ∧
    refusal (.mma 0) (core0 (wMma + 2 ^ 21)) = (rfIllegal, 2) ∧
    (put (core0 0) [(.CORE_PC_PC, 0, 2 ^ 18)]).inWindow 0 (2 ^ 21) 8 = false ∧
    refusal (.stepend 0) (put (core0 0) [(.CORE_PC_PC, 0, 2 ^ 18)]) = (rfBounds, 2 ^ 18) := by decide +kernel

theorem test_refused_checks :
    refusal (.mma 0) (coreD wMma [image 5 4 64, image 5 32 16, image 5 4 16]) = (rfShape, 2) ∧
    refusal (.cpy 0) (coreD wCpy [image 5 1 16, image 5 1 8]) = (rfShape, 2) ∧
    refusal (.vmap 0) (coreVec 0x28 1 [image 5 4 16, image 5 4 16, image 5 4 8, image 5 4 16]) = (rfShape, 2) ∧
    (core0 (encodeWord (.tdld 2 2048))).inWindow 0 65536 32 = false ∧
    refusal (.tdld 0) (core0 (encodeWord (.tdld 2 2048))) = (rfBounds, 2) ∧ refusal (.tdld 0) (core0 wTdld) = (rfGen, 2) ∧
    dReservedZero (2 ^ 255) = false ∧
    refusal (.loop 0) ((core0 wLoop).setCore 0 { ({} : Core) with nest := [(1, 4)] }) = (rfIllegal, 2) := by decide +kernel

/-- Core 0 in a wait. -/
def coreIn (k : Core) : State := (put up0 [(.CORE_STATUS_STATE, 0, 1)]).setCore 0 k

theorem test_waits : ({} : Core).release [{ word := wMma }] = [{ word := wMma, go := true }] := by decide +kernel
theorem test_waits2 :
    runs (.wstRelease 0 2) up0 = true ∧ ({} : Core).loadedBefore 3 = true ∧ ({} : Core).clearBefore 3 = true ∧
    ((after (.fenceComplete 0) (coreIn { wait := .fence true true 3 })).core 0).wait = .none ∧
    ((after (.issueResume 0) (coreIn { wait := .full 1 })).core 0).wait = .none ∧
    (after (.stependDone 0) (coreIn { wait := .stepend })).f .CORE_STATUS_STATE 0 = 5 := by decide +kernel

/-- Cores 0 and 1 of swatch 0, on region 0, at barrier 5 of scope 0. -/
def coresSync : State :=
  let s := (put up0 [(.CORE_STATUS_STATE, 0, 2), (.CORE_STATUS_STATE, 1, 2)]).setSw 0 { ({} : SwRun) with started := true, regions := 1 }
  (List.range 8).foldl (fun t c => t.setCore c { ({} : Core) with wait := .sync 0 5 9 }) s

theorem test_barrier : coresSync.scopeCores 0 0 0 = [0, 1, 2, 3, 4, 5, 6, 7] ∧
    (∀ c ∈ coresSync.scopeCores 0 0 0, (coresSync.core c).wait = .sync 0 5 9 ∧ (coresSync.core c).clearBefore 9 = true) ∧
    (after (.syncRelease 0 0 5 0) coresSync).f .CORE_STATUS_STATE 7 = 1 ∧
    ((after (.syncRelease 0 0 5 0) coresSync).core 3).passed = [5] := by decide +kernel

/-! Arrays, shuttles and the vector unit. -/

/-- An MMA issued, its operands staged, and the bobbins filled. -/
def coreIssued : State := after (.wstRelease 0 0) (after (.mma 0) coreMma)
/-- The weight tile of its first step staged. -/
def coreTile : State := after (.loadShuttleStage 0) coreIssued
/-- Its first step staged. -/
def coreStaged : State := after (.loadShuttleStage 0) coreTile
/-- The queued instruction. -/
def entMma : QEnt := ((coreStaged.core 0).matQ.head?).getD {}
/-- The bobbins filled. -/
def coreFilled : State :=
  coreStaged.setCore 0 { coreStaged.core 0 with arr := { (coreStaged.core 0).arr with fill := 1000 } }

theorem test_stage : ((coreIssued.core 0).stageNext).isSome = true ∧ entMma.k ≠ 0 ∧
    (coreIssued.core 0).arr.ahead < (coreIssued.core 0).dist ∧ (fresh coreIssued).tileWaits 0 { entMma with staged := 0 } 0 0 = none ∧
    dSpace entMma.w = 0 ∧ dSpace entMma.a = 0 ∧ ((coreTile.core 0).arr.staged.map (fun x => x.aRows.length)) = [0] ∧
    ((coreStaged.core 0).arr.staged.map (fun x => x.aRows.length)) = [4] ∧ entMma.staged = 1 := by decide +kernel

/-- The same with a switch asked for. -/
def coreAsked : State := { coreFilled with switches := FMap.set none coreFilled.switches 0 (some ⟨3, 5, false, 0, none⟩) }
/-- The faces between the passes of a BF16 tile, the same tile next. -/
def coreMid : State :=
  let s := after (.bobbinSwap 0) coreFilled
  s.setCore 0 { s.core 0 with arr := { (s.core 0).arr with face := some ⟨0, 0, 0, 1⟩, slot := 4, fill := 1000, cyc := 1000 } }

theorem test_swap : (coreFilled.core 0).tileDone = true ∧ (coreFilled.core 0).kTileDone = true ∧
    ((coreFilled.core 0).nextFace).isSome = true ∧ entMma.fillTime ≤ 1000 ∧
    ((after (.bobbinSwap 0) coreFilled).core 0).arr.face = some ⟨0, 0, 0, 0⟩ ∧
    (after (.bobbinSwap 0) (put coreFilled [(.CORE_STATUS_BROKEN, 0, 1)])).f .CORE_STATUS_STATE 0 = 6 := by decide +kernel

theorem test_swap_waits : (coreAsked.core 0).kTileDone = true ∧ FMap.get none coreAsked.switches 0 ≠ none ∧
    ((after (.bobbinSwap 0) coreAsked).core 0).arr.face = none ∧ (coreMid.core 0).tileDone = true ∧
    (coreMid.core 0).kTileDone = false ∧ ((coreMid.core 0).nextFace).isSome = true := by decide +kernel

/-- A row in the pipeline, of residue `r` in its first column. -/
def coreRow (r : Nat) : State :=
  coreIssued.setCore 0 { coreIssued.core 0 with arr := { (coreIssued.core 0).arr with
    pipe := [⟨6, 0, 0, 0, 0, 5, [({ present := true, residue := r }, {})]⟩] } }

theorem test_cycle : (coreRow 0).f .CORE_STATUS_STATE 0 ∈ [1, 2, 3] ∧ ((coreRow 0).core 0).arr.due = [] ∧
    (∀ p ∈ ((coreRow 0).core 0).arr.pipe, p.age ≠ 7) ∧ ((after (.arrayCycle 0 36864) (coreRow 0)).core 0).arr.cyc = 1 ∧
    (((after (.arrayCycle 0 36864) (coreRow 0)).core 0).arr.pipe.map PipeRow.age) = [7] := by decide +kernel

theorem test_residue : (after (.arrayCycle 0 36864) (coreRow 1)).f .CORE_STATUS_STATE 0 = 4 ∧
    (after (.arrayCycle 0 36864) (coreRow 1)).f .ARR_FAULT_ARRAY 0 = 1 ∧ (after (.arrayCycle 0 36864) (coreRow 1)).f .ARR_FAULT_SLOT 0 = 1 ∧
    (after (.arrayCycle 0 36864) (coreRow 1)).ledgQ = [⟨0x06, unitPayload .core 0 0 0 0 0, 0⟩] := by decide +kernel

theorem test_fault : coreIssued.carried 0 0 = some 0 ∧ (after (.coreFault 0 0 2) coreIssued).f .CORE_STATUS_STATE 0 = 4 ∧
    (after (.coreFault 0 0 2) coreIssued).f .RGN_CORE_MAP_FIT_FAIL 0 = 1 := by decide +kernel

/-- A block of the MMA complete in its edge bank: 2.0 in row 0, column 1. -/
def coreDrain : State :=
  coreIssued.setCore 0 { coreIssued.core 0 with arr := { (coreIssued.core 0).arr with drains := [⟨0, 0, [(1, (0x40000000, 0))]⟩] } }

theorem test_drain : coreDrain.works 0 = true ∧ ((coreDrain.core 0).mat 0).isSome = true ∧ dSpace entMma.c = 0 ∧ entMma.fuse = false ∧
    ((after (.storeDrain 0) coreDrain).core 0).matQ = [] ∧
    (after (.storeDrain 0) coreDrain).scr 0 1024 4 = [0, 0, 0, 0x40] := by decide +kernel

theorem test_copy : (after (.cpy 0) coreCpy).works 0 = true ∧
    (((after (.cpy 0) coreCpy).core 0).shQ.find? (fun e => bitAt e.word 47 = ((0 : Nat) = 1))).isSome = true ∧
    ((after (.cpyTransfer 0 0) (after (.cpy 0) coreCpy)).core 0).shQ = [] := by decide +kernel

/-- A vector word queued, with so many grants. -/
def coreChunk (grants : Nat) : State :=
  let s := after (.vmap 0) (coreVec 0x28 6 [image 5 4 16, 0, image 5 4 16, 0])
  s.setCore 0 { s.core 0 with grants := grants }

theorem test_chunk : (coreChunk 0).works 0 = true ∧ ((coreChunk 0).core 0).vecQ.length = 1 ∧
    (after (.vectorChunk 0) (coreChunk 0)).f .VEC_STALL_SCRATCH 0 = 1 ∧ (after (.vectorChunk 0) (coreChunk 9)).f .VEC_BUSY 0 = 1 ∧
    ((after (.vectorChunk 0) (coreChunk 9)).core 0).vec.row = 1 := by decide +kernel

theorem test_grant : bankWinner [(1, 0), (2, 17)] = some 2 ∧
    FMap.get 0 ((after (.scratchGrant 0 3 false true true) up0).core 0).ages 11 = 1 ∧
    ((after (.scratchGrant 0 3 false false true) up0).core 0).grants = 1 := by decide +kernel

/-! Presses. -/

/-- Bolt 0 is allocated in T1; it holds the span table at 1000h, the group table at 2000h and the pending rows at 3000h. -/
def sBolt : State :=
  let s := { up0 with mem := { up0.mem with rsvSet := [23], dir := [(0, { ({} : DirEntry) with state := 1, tier := 1 })] } }
  ((((s.setDesc 0 384 52 0x1000).setDesc 0 977 17 1).setDesc 0 448 52 0x2000).setDesc 0 704 52 0x3000).setDesc 0 1024 32 1

/-- A span of one row of 32 elements, of a role. -/
def spanImage (role : Nat) : Nat :=
  1 + 4 + 8 * role + 2 ^ 32 + 32 * 2 ^ 64 + 0x4000 * 2 ^ 128 + 0x5000 * 2 ^ 192 + 0x5100 * 2 ^ 256 + 0x5200 * 2 ^ 320
    + 0x5400 * 2 ^ 384 + 0x5500 * 2 ^ 448 + 0x5600 * 2 ^ 512

/-- An active group of a rule: LR, B1 0.5, GRAD_MUL 1. -/
def groupImage (rule : Nat) : Nat :=
  1 + 4 * rule + 64 + 0x3F800000 * 2 ^ 128 + 0x3F000000 * 2 ^ 160 + 0x3F000000 * 2 ^ 192 + 0x3F800000 * 2 ^ 224 + 0x3F800000 * 2 ^ 320

/-- Swatch 0 in a step, with that span and group, and a job of a kind in press 0. -/
def sPress (role rule kind : Nat) : State :=
  let s := (sBolt.putDevNat 0x1000 (spanImage role) 128).putDevNat 0x2000 (groupImage rule) 128
  { s.setSw 0 { ({} : SwRun) with started := true } with pressQ := [(0, [⟨kind, 0, 0⟩])] }

/-- Is every bolt that an engine would touch served, and none denied? -/
def free (s : State) (k : Nat) (rd wr : List (Nat × Nat)) : Bool :=
  s.boltsServed k (rangeBolts rd) (rangeBolts wr) && (rangeBolts rd).all (fun b => !s.boltDenied k b false)
    && (rangeBolts wr).all (fun b => !s.boltDenied k b true)

theorem test_pack : (sPress 0 0 0).jobs 0 = [⟨0, 0, 0⟩] ∧
    free (sPress 0 0 0) 0 ((sPress 0 0 0).spanReads 0 0 ((sPress 0 0 0).span 0 0)) [(0x5400, 33)] = true ∧
    (after (.packJob 0) (sPress 0 0 0)).jobs 0 = [] := by decide +kernel

theorem test_update :
    free (sPress 0 0 1) 0 ((sPress 0 0 1).spanReads 0 0 ((sPress 0 0 1).span 0 0) ++ [(0x5400, 33)])
      ((sPress 0 0 1).updateWrites 0 ((sPress 0 0 1).span 0 0)) = true ∧
    (sPress 0 0 1).stackFenced 0 = false ∧ (after (.updateJob 0 []) (sPress 0 0 1)).f .PRESS_BLOCKS 0 = 1 ∧
    (after (.updateJob 0 []) (sPress 0 0 1)).jobs 0 = [] ∧ ((after (.updateJob 0 []) (sPress 0 0 1)).sw 0).formed = [(0, 0)] := by
  decide +kernel

theorem test_foreign : (sPress 2 0 2).jobsOf 0 1 = [] ∧
    free (sPress 2 0 2) 0 ((sPress 2 0 2).spanReads 0 0 ((sPress 2 0 2).span 0 0)) [(sPress 2 0 2).recRange 0 ((sPress 2 0 2).span 0 0)] = true ∧
    (after (.foreignErrorPass 0) (sPress 2 0 2)).jobs 0 = [] := by decide +kernel

/-- Gradients of a row. -/
def grads32 : List Nat := List.replicate 32 0x3F800000

theorem test_append : ((fresh (sPress 0 3 9)).retryAppends 0) = sPress 0 3 9 ∧ 0 < (sPress 0 3 9).spanCount 0 ∧
    gRule ((sPress 0 3 9).group 0 0) = 3 ∧ gActive ((sPress 0 3 9).group 0 0) = true ∧ (sPress 0 3 9).members 0 = [] ∧
    grads32.length = spCols ((sPress 0 3 9).span 0 0) ∧
    ((rowGrad ((sPress 0 3 9).group 0 0) (rowSum 32 0 [grads32])).run 0).1.2.2 = false ∧ ((sPress 0 3 9).sw 0).final = none ∧
    (List.range ((sPress 0 3 9).desc 0 1024 32)).find? (fun j => phState ((sPress 0 3 9).pendHead 0 j) = 0) = some 0 ∧
    rowBolts false ((sPress 0 3 9).span 0 0) 0 = [0] ∧
    ((after (.pendingRowAppend 0 0 0 [grads32]) (sPress 0 3 9)).dirE 0).pins = 1 := by decide +kernel

/-- The same with its one entry in use. -/
def sEntryFull : State := (sPress 0 3 9).putDevNat 0x3000 (1 + 1 * 4 + 2 ^ 64) 32

theorem test_append_waits : (fresh sEntryFull).retryAppends 0 = sEntryFull ∧
    (List.range (sEntryFull.desc 0 1024 32)).find? (fun j => phState (sEntryFull.pendHead 0 j) = 0) = none ∧
    (after (.pendingRowAppend 0 0 0 [grads32]) sEntryFull).rowAppends.length = 1 ∧
    ((after (.pendingRowAppend 0 0 0 [grads32]) sEntryFull).mem.waiters.map (fun x => (x.sw, x.key, x.stuck))) = [(0, pendKey 0 0, true)] := by
  decide +kernel

/-- A row with an infinite gradient. -/
def gradsInf : List Nat := 0x7F800000 :: List.replicate 31 0

theorem test_append_skips : ((rowGrad ((sPress 0 3 9).group 0 0) (rowSum 32 0 [gradsInf])).run 0).1.2.2 = true ∧
    FMap.get 0 ((after (.pendingRowAppend 0 0 0 [gradsInf]) (sPress 0 3 9)).sw 0).rowSkips 0 = 1 := by decide +kernel

/-- A committed entry of row 0. -/
def sRow : State :=
  { (sPress 0 3 9).putDevNat 0x3000 (1 + 2 * 4 + 2 ^ 64) 32 with pressQ := [], rowsDue := [(0, [(0, 0x5000, 32, 0)])] }

theorem test_apply : (((fresh sRow).retryAppends 0).queueRows 0).jobs 0 = [⟨3, 0, 0⟩] ∧
    free (((fresh sRow).retryAppends 0).queueRows 0) 0
      ((sRow.pendAt 0 0, sRow.pendSize 0) :: rowRanges false (sRow.span 0 0) 0)
      ((sRow.pendAt 0 0, 32) :: rowRanges false (sRow.span 0 0) 0) = true ∧ sRow.rowAppends = [] := by decide +kernel

/-- A step of a swatch without tables whose final verdict is 1. -/
def sFinal : State := up0.setSw 0 { ({} : SwRun) with started := true, step := 7, final := some { v := true } }

theorem test_commit_ready : (sFinal.sw 0).final = some { v := true } ∧ sFinal.jobsOf 0 1 = [] ∧ sFinal.jobsOf 0 2 = [] ∧
    sFinal.pendEntries 0 = [] ∧ sFinal.planesDue 0 = [] ∧ sFinal.planesOwed 0 = [] ∧
    (sFinal.takePlanes 0 0).sendPlanes 0 = sFinal := by decide +kernel

theorem test_commit_free : free sFinal 0 (sFinal.commitRanges 0).1 (sFinal.commitRanges 0).2 = true := by decide +kernel

/-- The same in a domain of two members with a foreign span, whose working planes are still to come. -/
def sAwait : State :=
  ({ (sPress 2 0 0).setSw 0 { ({} : SwRun) with started := true, step := 7, domain := 0, final := some { v := true } } with pressQ := [] }).setDom 0
    { ({} : Dom) with members := [0, 1] }

theorem test_commit_waits : ((sAwait.takePlanes 0 0).sendPlanes 0).planesDue 0 = [0] := by decide +kernel

/-- The running sum of block 0, and the exchange that holds it. -/
def hopColl : Coll :=
  { seq := 1, step := 7, req := ⟨0, 0, true, 0, 0, 0, 0⟩, timer := 0, sums := [(0, 0, List.replicate 32 0x3F800000)] }

/-- That exchange in domain 0. -/
def sHop : State :=
  ((sPress 0 0 9).setDom 0 { ({} : Dom) with members := [0], colls := [hopColl] }).setSw 0
    { ({} : SwRun) with started := true, domain := 0 }

theorem test_hop : (((sHop.dom 0).colls.find? (fun c => c.req.sw = 0 && c.req.kind = 0
      && c.sums.any (fun x => x.1 = 0 && x.2.1 = 0) && !c.hops.contains (0, 0))).isSome) = true ∧
    resLen (sHop.span 0 0) 1 = 1 ∧ sHop.desc 0 1944 1 = 0 ∧ sHop.position 0 = 0 ∧
    free sHop 0 [(spRes (sHop.span 0 0), 64)] [(spRes (sHop.span 0 0) + 64, 64), (0x5400, 33)] = true := by decide +kernel

theorem test_hop_writes : (after (.closingHop 0 0 0) sHop).dev 0x5400 2 ≠ [0, 0] := by decide +kernel

/-! Switches, scheduling and the host's commands to swatches. -/

/-- A core with a switch recorded. -/
def sSwitch (r : SwitchRec) : State := { up0 with now := 12, switches := [(0, some r)] }

theorem test_switch : ({} : Core).parked = true ∧ (sSwitch ⟨noSwatch, 5, false, 0, none⟩).f .CORE_STATUS_STATE 0 ≠ 4 ∧
    FMap.get none (after (.switchRequest 0 7) up0).switches 0 = some ⟨7, 0, false, 0, none⟩ ∧
    FMap.get none (after (.switchRequest 0 7) (sSwitch ⟨3, 5, true, 1, none⟩)).switches 0 = some ⟨3, 5, true, 1, some 7⟩ ∧
    FMap.get none (after (.switchRequest 0 7) (sSwitch ⟨3, 5, false, 0, none⟩)).switches 0 = some ⟨7, 5, false, 0, none⟩ ∧
    FMap.get none (after (.coreSwitch 0) (sSwitch ⟨noSwatch, 5, false, 0, none⟩)).switches 0 = some ⟨noSwatch, 5, true, 0, none⟩ ∧
    (after (.coreSwitch 0) (sSwitch ⟨noSwatch, 5, false, 0, none⟩)).f .CORE_STATUS_STATE 0 = 3 := by decide +kernel

/-- A core whose switch to a running step, broken or not, moves. -/
def sMoving (broken : Nat) : State := put (sSwitch ⟨3, 0, true, 1, some 7⟩) [(.CORE_STATUS_STATE, 0, 3), (.CORE_STATUS_BROKEN, 0, broken)]

theorem test_switchComplete : FMap.get none (after (.switchComplete 0) (sMoving 0)).switches 0 = some ⟨7, 12, false, 0, none⟩ ∧
    (after (.switchComplete 0) (sMoving 0)).f .SWT_SWITCH_MAX 0 = 10 ∧ (after (.switchComplete 0) (sMoving 0)).f .CORE_STATUS_STATE 0 = 1 ∧
    (sMoving 1).f .CORE_STATUS_BROKEN 0 = 1 ∧ (after (.switchComplete 0) (sMoving 1)).f .CORE_STATUS_STATE 0 = 6 := by decide +kernel

/-- Core 0 runs the open step of swatch 0, whose save area lies in bolt 0, and is asked to leave it. -/
def sLeaves : State :=
  put ({ ((sBolt.setDesc 0 64 48 1).setDesc 0 896 52 0).setSw 0 { ({} : SwRun) with started := true, regions := 1 } with
    mem := { (sBolt.setDesc 0 64 48 1).mem with dir := (List.range 24).map (fun b => (b, { ({} : DirEntry) with state := 1, tier := 1, home := b })) }
    switches := [(0, some ⟨noSwatch, 0, false, 0, none⟩)] }) [(.CORE_STATUS_STATE, 0, 1)]

theorem test_leave : (sLeaves.core 0).parked = true ∧ (sLeaves.sw (sLeaves.swOf 0)).started = true ∧ 0 ∈ sLeaves.swCores 0 ∧
    sLeaves.homeLive (sLeaves.saveAt 0 0) = true ∧
    FMap.get none (after (.coreSwitch 0) sLeaves).saved (saveKey 0 0) = some (sLeaves.saveRec 0) := by decide +kernel

/-- Swatch 1 in a step, its save record of core 0 in bolt 0, and a switch to it. -/
def sRestore : State :=
  { ((sBolt.setDesc 1 64 48 1).setDesc 1 896 52 0).setSw 1 { ({} : SwRun) with started := true } with
    mem := { (sBolt.setDesc 1 64 48 1).mem with dir := sBolt.mem.dir ++ [(22, { ({} : DirEntry) with state := 1, tier := 1, home := 1 })] }
    switches := [(0, some ⟨1, 0, false, 0, none⟩)]
    saved := [(512, some ⟨{ ({} : Core) with issued := 5 }, 3, 77, 0, 0, 0, 0, 0, 0⟩)] }

theorem test_restore : (sRestore.sw 1).lostSave = false ∧ sRestore.homeLive (sRestore.saveAt 1 0) = true ∧
    (FMap.get none sRestore.saved (saveKey 1 0)).isSome = true ∧ (after (.coreSwitch 0) sRestore).f .CORE_PC_PC 0 = 77 ∧
    (after (.coreSwitch 0) sRestore).f .CORE_STATUS_STATE 0 = 3 ∧ sRestore.physK 0 0 ≠ 15 ∧ ((after (.coreSwitch 0) sRestore).core 0).issued = 5 ∧
    FMap.get none (after (.coreSwitch 0) sRestore).saved 512 = none := by decide +kernel

/-- Core 1 of region 0 is a hole that core 0 carries; core 0 stands at STEPEND, core 1 sleeps and can run. -/
def sLimp : State :=
  let s := put up0 [(.CORE_STATUS_STATE, 0, 1), (.CORE_STATUS_STATE, 1, 1), (.RGN_CORE_MAP_PHYS, 0, 0x765432F0),
    (.RGN_LIMP_CARRIER, 0, 0xFFFFFF0F)]
  (s.setCore 0 { ({} : Core) with wait := .stepend }).setCore 1 { ({} : Core) with asleep := true }

theorem test_limp : sLimp.contexts 0 0 = [0, 1] ∧ sLimp.physK 0 0 ≠ 15 ∧ sLimp.regionOut 0 = false ∧ sLimp.contextRuns 0 = false ∧
    sLimp.contextRuns 1 = true ∧ (after (.limpSwitch 0 0) sLimp).f .RGN_LIMP_SWAPS 0 = 1 ∧
    ((after (.limpSwitch 0 0) sLimp).core 1).asleep = false := by decide +kernel

/-- Swatch 1 has a valid descriptor in partition 0 on region 0, at a priority, and a run of 2 steps. -/
def sRun (prio : Nat) : State :=
  let s := put up0 [(.HUB_BOOT_READY, 0, 1), (.HUB_PART_CFG_ENABLE, 0, 1), (.HUB_PART_CFG_REGIONS, 0, 1),
    (.HUB_PART_SWT_FIRST, 0, 0), (.HUB_PART_SWT_COUNT, 0, 16)]
  let s := (((((s.setDesc 1 0 3 5).setDesc 1 6 5 16).setDesc 1 11 2 prio).setDesc 1 64 48 1).setDesc 1 134 7 1).setDesc 1 896 52 0x8000
  s.setSw 1 { ({} : SwRun) with runs := [⟨9, 0, 0, false, 2, false, 0, 0, 0, 0, false⟩] }

/-- The same once picked. -/
def sPicked : State := (sRun 0).setSw 1 { (sRun 0).sw 1 with picked := true, planDirty := false }

theorem test_schedule : (fresh (sRun 0)).betweenSteps = sRun 0 ∧ (sRun 0).runnable 1 = true ∧
    ((sRun 0).holdersOf ((sRun 0).desc 1 64 48)) = [] ∧ (sRun 0).choice 0 = some 1 ∧ (sRun 0).choice 1 = none ∧
    ((after (.schedule 0) (sRun 0)).sw 1).picked = true := by decide +kernel

/-- A core fenced between steps, with the spare free. -/
def sBetween : State := put up0 [(.CORE_STATUS_STATE, 0, 4), (.RGN_CORE_MAP_PHYS, 0, 0x76543210)]

theorem test_between : (sBetween.betweenSteps).f .CORE_STATUS_STATE 0 ≠ 4 ∧ (sBetween.betweenSteps).physK 0 0 = 8 := by decide +kernel

theorem test_stepStart : (fresh sPicked).betweenSteps = sPicked ∧ (sPicked.sw 1).nextBit0 = false ∧ sPicked.descReason 1 = 0 ∧
    (sPicked.setDesc 1 134 7 0).descReason 1 = 6 ∧ free sPicked 1 [(sPicked.desc 1 320 52, 16 * sPicked.desc 1 960 17)] [] = true ∧
    free sPicked 1 (sPicked.startReads 1) (sPicked.tagTables 1) = true ∧
    (coresOf (sPicked.desc 1 64 48)).any (fun c => (FMap.get none sPicked.switches c).isSome) = false := by decide +kernel

/-- The same whose bit is 0 from the start. -/
def sCaused : State := sPicked.setSw 1 { sPicked.sw 1 with nextBit0 := true }

theorem test_stepStart_broken : sCaused.descReason 1 = 0 ∧ (after (.stepStart 1) sCaused).f .CORE_STATUS_STATE 0 = 6 ∧
    ((after (.stepStart 1) sCaused).sw 1).started = true := by decide +kernel

/-- Swatch 2, of lower priority, holds region 0. -/
def sHeld : State :=
  let s := (((sRun 3).setDesc 2 64 48 1).setRun 2 1).setSw 2 { ({} : SwRun) with started := true, regions := 1, preempt := 1 }
  put s [(.CORE_STATUS_SWATCH, 0, 2), (.CORE_STATUS_STATE, 0, 1)]

theorem test_preempt : sHeld.runnable 1 = true ∧ (sHeld.holdersOf (sHeld.desc 1 64 48)).filter (fun j => j ≠ 1) = [2] ∧
    sHeld.displaceable 2 = true ∧ sHeld.desc 2 11 2 < sHeld.desc 1 11 2 ∧ ((after (.preempt 1) sHeld).sw 2).outAt = some 0 ∧
    (after (.preempt 1) sHeld).run 2 = 2 := by decide +kernel

/-- Swatch 2 is out, and its region free. -/
def sOut : State := (up0.setRun 2 2).setSw 2 { ({} : SwRun) with started := true, regions := 1, outAt := some 0 }

theorem test_return : sOut.run 2 = 2 ∧ (sOut.holdersOf (sOut.sw 2).regions).filter (fun j => j ≠ 2) = [] ∧
    (after (.swatchReturn 2) sOut).run 2 = 1 ∧ (after (.swatchReturn 2) sOut).f .SWT_RETURNS 0 = 1 := by decide +kernel

/-- Swatch 2 is out for longer than MAX_OUT, and swatch 1 holds its region. -/
def sLate : State :=
  put ((((up0.setRun 2 2).setRun 1 1).setSw 2 { ({} : SwRun) with started := true, regions := 1, outAt := some 0, maxOut := 1 }).setSw 1
    { ({} : SwRun) with started := true, regions := 1 }) [(.CORE_STATUS_SWATCH, 0, 1), (.CORE_STATUS_STATE, 0, 1)]

theorem test_return_late : let s := { sLate with now := usec 1 }
    s.run 2 = 2 ∧ (s.holdersOf (s.sw 2).regions).filter (fun j => j ≠ 2) = [1] ∧ s.displaceable 1 = true ∧
    (s.sw 1).picked = false ∧ (after (.swatchReturn 2) s).run 1 = 2 ∧ (after (.swatchReturn 2) s).run 2 = 1 := by decide +kernel

theorem test_resume : up0.fnHasSwatch 0 2 = true ∧ (up0.setRun 2 7).run 2 ∈ [3, 4, 5, 7] ∧ (after (.resume 0 2) (up0.setRun 2 7)).run 2 = 0 ∧
    (after (.resume 0 2) ((up0.setRun 2 4).setSw 2 { ({} : SwRun) with behind := true })).run 2 = 6 ∧
    (after (.park 0 2) up0).run 2 = 3 ∧ ((after (.park 0 2) sOut).sw 2).parkDue = true := by decide +kernel

/-- A configuration waits for partition 1. -/
def sPart : State := { up0 with parts := [(1, some ⟨2, true, 5, 6⟩)] }

theorem test_partition : sPart.partIdle 1 = true ∧ (after (.partitionChangeApply 1) sPart).f .HUB_PART_CFG_REGIONS 1 = 2 ∧
    (after (.partitionChangeApply 1) sPart).f .HUB_PART_SWT_COUNT 1 = 6 := by decide +kernel

theorem test_partitionWrite : up0.served 0 (targetAt 0 0x10910) = true ∧ up0.txnOpen 0 = false ∧
    (⟨1, true, 0, 0⟩ : PartCfg).clashes ((sRun 0).partCfg 0) = true ∧
    (after (.partitionWrite 0 1 0 (1 + 2 ^ 48)) (sRun 0)).f .SWT_STATUS_PART_REJECT 0 = 1 ∧
    sHeld.startedSws = [2] ∧ (sHeld.partCfg 0).has 2 = true ∧
    (after (.partitionWrite 0 0 0 (3 + 2 ^ 48)) sHeld).f .HUB_PART_SWT_PENDING 0 = 1 := by decide +kernel

theorem test_descriptorWrite : (up0.sw 2).started = false ∧ (after (.descriptorWrite 0 2 1 0x5) up0).desc 2 64 48 = 5 ∧
    (after (.descriptorWrite 0 2 1 0x5) sOut).held = [⟨2, true, 8, [5, 0, 0, 0, 0, 0, 0, 0], 0, 0⟩] := by decide +kernel

/-! Run plans, collectives, agreement and the boundary. -/

/-- Swatch 0 in a step, at the only entry of its plan. -/
def sPlan (e : Nat) : State :=
  let s := (sBolt.setDesc 0 320 52 0x6000).setDesc 0 960 17 1
  (s.putDevNat 0x6000 e 16).setSw 0 { ({} : SwRun) with started := true }

/-- Does the cutter stand at an entry, its bolt served, with nothing that holds the walk? -/
def atE (s : State) (e : Nat) : Bool :=
  s.planNow 0 = some e && !s.planHeld 0 && free s 0 [(s.planAt 0 (s.sw 0).plan, 16)] []

/-- The same in domain 0 of two members. -/
def sPlan2 (e : Nat) : State :=
  ((sPlan e).setSw 0 { ({} : SwRun) with started := true, domain := 0 }).setDom 0 { ({} : Dom) with members := [0, 1] }

theorem test_plan_walk : atE (sPlan 5) 5 = true ∧ rpOp 5 = 1 ∧ ((after (.runBarrier 0) (sPlan 5)).sw 0).plan = 1 ∧
    atE (sPlan 0x5009) 0x5009 = true ∧ rpOp 0x5009 = 2 ∧ rpValue 0x5009 = 5 ∧ (after (.layerMark 0) (sPlan 0x5009)).desc 0 1920 16 = 5 ∧
    (after (.layerMark 0) (sPlan 0x5009)).f .TIER_VOID 0 = 0 ∧
    ((after (.runEnd 0) (sPlan 1)).sw 0).ended = true ∧ atE (sPlan 1) 1 = true ∧ rpOp 1 = 0 := by decide +kernel

/-- The swatch at L = 9, or past its latch. -/
theorem test_plan_walk_more : rpValue 0x5009 ≤ ((sPlan 0x5009).setDesc 0 1920 16 9).desc 0 1920 16 ∧
    (after (.layerMark 0) ((sPlan 0x5009).setDesc 0 1920 16 9)).desc 0 1920 16 = 9 ∧
    ((after (.runEnd 0) ((sPlan 1).setSw 0 { (sPlan 1).sw 0 with latched := true })).sw 0).ended = true := by decide +kernel

theorem test_plan_stall : atE ({ sPlan 5 with now := 1200001 } : State) 5 = true ∧
    msec ((sPlan 5).stallMs 0) < 1200001 - ((sPlan 5).sw 0).planSince ∧
    (after (.barrierStall 0) { sPlan 5 with now := 1200001 }).f .TIER_STALL_FAIL 0 = 1 ∧
    ((after (.barrierStall 0) { sPlan 5 with now := 1200001 }).sw 0).broken = true := by decide +kernel

/-- A PACK entry of span 0, with a dense span and its group. -/
def ePack : Nat := 1 + 4 * 3 + 2 ^ 28

/-- A collective of a MODE and a COP. -/
def eColl (mode cop : Nat) : Nat := 1 + 4 * 4 + 512 * cop + 2048 * mode + 0x7000 * 2 ^ 64

theorem test_plan_pack :
    (((sPlan ePack).putDevNat 0x1000 (spanImage 0) 128).putDevNat 0x2000 (groupImage 0) 128).planSpans 0 ePack = [(0, spanImage 0)] ∧
    atE (((sPlan ePack).putDevNat 0x1000 (spanImage 0) 128).putDevNat 0x2000 (groupImage 0) 128) ePack = true ∧
    (after (.runPack 0) (((sPlan ePack).putDevNat 0x1000 (spanImage 0) 128).putDevNat 0x2000 (groupImage 0) 128)).jobs 0 = [⟨0, 0, 0⟩] := by
  decide +kernel

theorem test_plan_coll : atE (sPlan2 (eColl 0 0)) (eColl 0 0) = true ∧ (sPlan2 (eColl 0 0)).alone 0 = false ∧
    ((after (.runCollExchange 0) (sPlan2 (eColl 0 0))).dom 0).reqs.map CollReq.kind = [0, 1] ∧
    atE (sPlan2 (eColl 1 3)) (eColl 1 3) = true ∧ ((after (.collBroadcast 0) (sPlan2 (eColl 1 3))).dom 0).reqs.map CollReq.kind = [5] ∧
    ((after (.collReduceScatter 0) (sPlan2 (eColl 1 0))).dom 0).reqs.map CollReq.kind = [2] ∧
    ((after (.collAllGather 0) (sPlan2 (eColl 1 1))).dom 0).reqs.map CollReq.kind = [3] ∧
    ((after (.collAllReduce 0) (sPlan2 (eColl 1 2))).dom 0).reqs.map CollReq.kind = [4] ∧
    (sPlan (eColl 1 2)).alone 0 = true ∧ atE (sPlan (eColl 1 2)) (eColl 1 2) = true := by decide +kernel

/-- Alone, at an all-reduce of the tensor of one row at 8000h into that at 9000h. -/
def sCopyT : State :=
  let z (a : Nat) : Nat := 1 + 4 * 5 + a * 2 ^ 32 + 128 * 2 ^ 96 + 2 ^ 128 + 4 * 2 ^ 153
  ((sPlan (eColl 1 2)).putDevNat 0x7000 (z 0x8000) 32).putDevNat 0x7020 (z 0x9000) 32

theorem test_plan_copy : let p := sCopyT.tnPair 0x7000
    atE sCopyT (eColl 1 2) = true ∧ free sCopyT 0 [(0x7000, 64)] [] = true ∧ tnOk p.1 = true ∧ tnOk p.2 = true ∧
    tnBlocks p.1 = tnBlocks p.2 ∧ free sCopyT 0 (tnRanges p.1) (tnRanges p.2) = true ∧
    ((after (.collAllReduce 0) sCopyT).sw 0).plan = 1 := by decide +kernel

theorem test_plan_tier : free (sPlan (0x7000 * 2 ^ 64 + 21)) 0 [(0x7000, 32)] [] = true ∧ atE (sPlan (0x7000 * 2 ^ 64 + 21)) (0x7000 * 2 ^ 64 + 21) = true ∧
    trOp ((sPlan (0x7000 * 2 ^ 64 + 21)).devNat 0x7000 32) ≤ 6 ∧
    (after (.runTier 0) (sPlan (0x7000 * 2 ^ 64 + 21))).mem.tierQ.length = 1 := by decide +kernel

/-- A member of domain 0, at place 0, with an exchange open and another asked for. -/
def sColls (c : Coll) : State :=
  (sPlan2 5).setDom 0 { ({} : Dom) with members := [0, 1], colls := [c], reqs := [⟨0, 3, false, 0, 0, 0, 0⟩] }

theorem test_issue : ((sColls hopColl).dom 0).reqs ≠ [] ∧ ((sColls hopColl).dom 0).colls.length < 8 ∧
    (sColls hopColl).isMember 0 = true ∧ (after (.collIssue 0) (sColls hopColl)).f .COLL_ISSUED 0 = 1 := by decide +kernel

/-- The same with bytes and a trailer of place 1 here. -/
def partColl : Coll := { hopColl with arrived := [⟨0, 0, 0, 1, []⟩], ended := [1], contributed := true }

theorem test_sequence : (sColls partColl).coll 0 1 = some partColl ∧
    partColl.arrived.find? (fun p => p.sender = 1 || p.sender = 8192) = some ⟨0, 0, 0, 1, []⟩ ∧ 1 ∈ partColl.ended ∧
    (((after (.sequenceComplete 0 1 1) (sColls partColl)).coll 0 1).map Coll.ended) = some [] := by decide +kernel

/-- The same with the bytes of a gathered shard. -/
def gatherColl : Coll := { hopColl with arrived := [⟨2, 1, 0, 1, []⟩], ended := [1], contributed := true }

theorem test_gathered : gatherColl.arrived.find? (fun p => p.sender = 1 || p.sender = 8192) = some ⟨2, 1, 0, 1, []⟩ ∧
    free (sColls gatherColl) 0 (pairRanges gatherColl.req) [] = true ∧
    free (sColls gatherColl) 0 [] ((sColls gatherColl).outputRanges gatherColl.req) = true ∧
    (((after (.sequenceComplete 0 1 1) (sColls gatherColl)).coll 0 1).map Coll.ended) = some [] := by decide +kernel

theorem test_not_member : up0.isMember 3 = false ∧ (after (.trailer 3 0 1) up0).f .HUB_TACK_STALE 0 = 1 := by decide +kernel

/-- A ring of three in its second round. -/
def sRound : State :=
  (sPlan2 5).setDom 0 { ({} : Dom) with members := [0, 1, 2], colls := [{ hopColl with contributed := true, rin := 1, rout := 1, own := some {} }] }

theorem test_round : (sRound.closing 0 0).isSome = true ∧ (after (.roundTrailerSend 0 0) sRound).out.length = 1 ∧
    (((after (.roundTrailerSend 0 0) sRound).coll 0 1).map Coll.rout) = some 2 := by decide +kernel

/-- A round trailer of sequence 1, step 7, epoch 0. -/
def tlRound : Nat := trailerBits false true {} 0 0 1 7 9

/-- The digest tree of the step before is valid, its root 0. -/
def sTrailer : State :=
  let s := (sPlan2 5).setDom 0 { ({} : Dom) with members := [0, 1], colls := [{ hopColl with contributed := true, step := 7 }] }
  ((s.setDesc 0 768 52 0x8000).putDevNat 0x8000 (1 + 4 + 6 * 2 ^ 64) 64).setSw 0 { s.sw 0 with step := 7 }

theorem test_trailer : sTrailer.isMember 0 = true ∧ bitField tlRound 0 2 = 1 ∧ tlEpoch tlRound = sTrailer.epoch 0 ∧
    (sTrailer.coll 0 (tlSeq tlRound)).isSome = true ∧ tlStep tlRound = 7 ∧ sTrailer.dig 0 = true ∧ tlDig tlRound = true ∧
    (after (.trailer 0 tlRound 1) sTrailer).f .HUB_AGREE_MISMATCH 0 = 1 ∧ ((after (.trailer 0 tlRound 1) sTrailer).sw 0).mm = true := by
  decide +kernel

theorem test_timeout : ({ sTrailer with now := 60000000 } : State).coll 0 1 = sTrailer.coll 0 1 ∧
    (after (.collectiveTimeout 0 1) { sTrailer with now := 60000000 }).withdraw = some (2 ^ causeWithdraw) ∧
    ((after (.collectiveTimeout 0 1) { sTrailer with now := 60000000 }).dom 0).colls = [] ∧
    (after (.collectiveTimeout 0 1) { sTrailer with now := 60000000 }).timedOut = true := by decide +kernel

/-- The step is switched out. -/
def sHolds : State := { sTrailer.setSw 0 { sTrailer.sw 0 with outAt := some 0 } with now := 12000000 }

theorem test_holds : sHolds.holding 0 = true ∧ sHolds.alone 0 = false ∧ Out.message 1 7 [0, 0, 1] ∈ (after (.holdNoticeTick 0) sHolds).out ∧
    ((after (.holdNoticeTick 0) sHolds).coll 0 1).map Coll.timer = some 12000000 ∧
    ((after (.hold 0 0 [1] 1) sHolds).coll 0 1).map Coll.timer = some 12000000 ∧
    (after (.hold 0 0 [1] 1) sHolds).f .COLL_HOLD_RX 0 = 1 := by decide +kernel

/-- The step failed for a mismatch. -/
def sOdd (stage : Nat) : State := sTrailer.setSw 0 { sTrailer.sw 0 with final := some { v := false, mm := true }, stage := stage }

/-- The same in a ring of three, with the roots of places 1 and 2 here. -/
def sRoots (a b : Nat) : State :=
  let part (p v : Nat) : Nat × Part := (0, ⟨7, p, 0, p, (leBytes v 32).map BitVec.toNat⟩)
  let s := sOdd 0
  s.setDom 0 { s.dom 0 with members := [0, 1, 2], incoming := [part 1 a, part 2 b] }

theorem test_agree : (sOdd 0).disagrees 0 = true ∧ free (sOdd 0) 0 ((sOdd 0).treeRange 0) [] = true ∧ (sOdd 0).myPos 0 = 0 ∧
    (sOdd 0).agreeIn 0 7 1 0 32 = none ∧ ((after (.agreeLocalise 0 []) (sOdd 0)).sw 0).rootSent = true ∧
    (after (.agreeLocalise 0 []) (sOdd 0)).f .HUB_AGREE_STATUS_STATE 0 = 1 := by decide +kernel

theorem test_majority : (sRoots 5 6).lining 0 = false ∧ (sRoots 5 6).stored 0 0 = 0 ∧
    ((after (.agreeLocalise 0 []) (sRoots 5 6)).sw 0).stage = 4 ∧ ((after (.agreeLocalise 0 []) (sRoots 5 6)).sw 0).majority = false ∧
    majorityOf [0, 5, 5] = some 5 ∧ ((after (.agreeLocalise 0 []) (sRoots 5 5)).sw 0).odd = [0] ∧
    ((after (.agreeLocalise 0 []) (sRoots 5 0)).sw 0).refPos = 0 ∧ ((after (.agreeLocalise 0 []) (sRoots 5 0)).sw 0).stage = 1 := by
  decide +kernel

/-- The step at its repair, in a ring of so many members. -/
def sRepair (m : Nat) : State :=
  let s := sOdd 4
  (s.setSw 0 { s.sw 0 with majority := true, refPos := 1, odd := [0] }).setDom 0 { s.dom 0 with members := List.range m }

theorem test_repair : (after (.agreeRepair 0 []) (sOdd 4)).f .HUB_AGREE_STATUS_HALT_SEEN 0 = 1 ∧ (after (.agreeRepair 0 []) (sOdd 4)).run 0 = 4 ∧
    (after (.agreeRepair 0 []) (sOdd 4)).f .HUB_AGREE_STATUS_STATE 0 = 3 := by decide +kernel

theorem test_repair_many : (sRepair 17).withdraw = none ∧ (after (.agreeRepair 0 []) (sRepair 17)).withdraw = some (2 ^ causeDisagree) ∧
    (after (.agreeRepair 0 []) (sRepair 17)).rejoin = 2 := by decide +kernel

theorem test_repair_one : (sRepair 3).isReference 0 = false ∧ ((sRepair 3).sw 0).oddBlocks = [] ∧
    free (sRepair 3) 0 ((sRepair 3).treeReads 0) ((sRepair 3).repairWrites 0 []) = true := by decide +kernel

/-- Domain 0's transfer of swatch 0, this module its source; or its receiver, with the parts in. -/
def sSend : State := { sBolt.setDom 0 { ({} : Dom) with members := [0, 1], source := [(0, 1)] } with sws := [] }

theorem test_transfer : FMap.get 0 (sSend.dom 0).source 0 = sSend.place + 1 ∧ sSend.isMember 0 = true ∧ sSend.idle 0 = true ∧
    free sSend 0 (sSend.treeReads 0 ++ sSend.groupTable 0) [] = true ∧
    FMap.get 0 ((after (.stateTransferSend 0 0) sSend).dom 0).sent 0 = 1 ∧ (after (.stateTransferSend 0 0) sSend).out.length = 2 := by decide +kernel

/-- The receiver. -/
def sDone : State := (sBolt.setRun 0 6).setDom 0 { ({} : Dom) with members := [0, 1], incoming := [(0, ⟨4, 0, 0, 1, []⟩), (0, ⟨5, 0, 0, 1, [7, 0, 0, 0, 0, 0, 0, 0]⟩)] }

theorem test_done : free sDone 0 [] (sDone.transferWrites 0 0) = true ∧ (sDone.transferred 0 0 5 0).isSome = true ∧ sDone.run 0 = 6 ∧ sDone.isMember 0 = true ∧ sDone.replicated 0 = [0] ∧
    (sDone.transferred 0 0 4 0).map List.length = some (spBlocks (sDone.span 0 0) * recCovered (gWide (sDone.group 0 (spGroup (sDone.span 0 0))))) ∧
    (after (.stateTransferDone 0 0) sDone).desc 0 1856 64 = 7 ∧ ((after (.stateTransferDone 0 0) sDone).dom 0).incoming = [] := by decide +kernel

/-- A step that has ended and is settled. -/
def sBound : State :=
  { sPress 0 0 9 with pressQ := [] }.setSw 0 { ({} : SwRun) with started := true, step := 6, ended := true, settled := true, final := some {} }

theorem test_boundary : sBound.atBoundary 0 = true ∧ sBound.tagTables 0 = [] ∧ sBound.boltsServed 0 [] [] = true := by decide +kernel

/-! Stacks, pockets and unit faults. -/

/-- Stack 0 in service. -/
def sStack : State := put up0 [(.BASE_STATUS_STATE, 0, 2)]

theorem test_mesh : ((List.range 100).filter (fun x => stopDie x ≠ .none)).length = 86 ∧
    (List.range 48).all (fun r => stopDie (regionStop r) = .region r) = true ∧
    (List.range 24).all (fun st => stopDie (stackStop st) = .stack st) = true ∧
    (List.range 8).all (fun d => stopDie (seamStop d) = .seamDie d) = true ∧
    (List.range 4).all (fun h => stopDie (hubStop h) = .hub h) = true ∧
    stopDie (flashStop 0) = .flash 0 ∧ stopDie (flashStop 1) = .flash 1 := by decide +kernel

/-- From stop (1, 0) to stop (3, 2): along the row, then down the column. -/
theorem test_route : route 18 10 32 = [(10, .east), (11, .east), (12, .south), (22, .south)] ∧ hops 0 99 = 18 ∧
    (List.range 48).all (fun r => hops (regionStop r) (stackStop (nearStack r)) ≤ 2) = true := by decide +kernel

/-- A weave link with units of class 2 and, behind it, class 1, both bound for stop 13. -/
def sArb : State := { up0 with arbs := [(41, { queue := [⟨2, 13, 1, 9, false⟩, ⟨1, 13, 0, 8, false⟩] })] }

theorem test_arbiter : arbOk 41 = true ∧ (sArb.arb 41).queue ≠ [] ∧ floorClass 0 = [] ∧
    (after (.arbiterGrant 41 []) sArb).out = [.data 0x801] ∧ ((after (.arbiterGrant 41 []) sArb).arb 41).queue = [⟨2, 13, 1, 9, false⟩] ∧
    nextLink 10 13 = some .east ∧ nextArb 11 ⟨1, 13, 0, 8, false⟩ = some 45 ∧
    ((after (.arbiterGrant 41 []) sArb).arb 45).queue = [⟨1, 13, 0, 8, false⟩] ∧
    arbOk 411 = true ∧ (after (.arbiterGrant 411 [2, 5, 1, 9]) up0).out = [.data 0x902] := by decide +kernel

/-- A bulk unit that has passed through its floor: grant 7 offers first to class 2. -/
theorem test_floor : floorClass 7 = [2] ∧
    (arbPick { grant := 7 } [⟨0, true, false⟩, ⟨2, true, false⟩]).1 = some 1 ∧
    (arbPick { grant := 7 } [⟨0, true, true⟩, ⟨2, true, false⟩]).1 = some 0 := by decide +kernel

theorem test_burst : (sStack.stack 0).stopped = false ∧ sStack.f .BASE_STATUS_LEVEL 0 ≠ 2 ∧ (sStack.pch 0 7).queue = [] ∧
    (after (.hbmRequest 0 7 [0, 0, 3, 4, 1, 1, 0x55, 0, 0] []) sStack).mem.st.hbm = [(197696, 0x55)] ∧
    (after (.hbmRequest 0 7 [0, 0, 3, 4, 1, 0, 0, 0, 0] []) (after (.hbmRequest 0 7 [0, 0, 3, 4, 1, 1, 0x55, 0, 0] []) sStack)).out =
      [.data 0x55] ∧
    FMap.get none ((after (.hbmRequest 0 7 [0, 0, 3, 4, 1, 1, 0x55, 0, 0] []) sStack).pch 0 7).rows 3 = some 0 := by decide +kernel

theorem test_refresh : sStack.dramOn 0 = true ∧ FMap.get 0 ((after (.perBankRefresh 0 7 3) sStack).pch 0 7).refresh 3 = 1 := by decide +kernel

/-- Lane 75 of stack 0, on channel 1, is due for a swap. -/
def sLane : State := { sStack with mem := { sStack.mem with stackDies := [(0, { ({} : Stack) with laneDue := [3, 75] })] } }

theorem test_lane : (sLane.stack 0).laneDue.find? (fun l => l / 72 = 1) = some 75 ∧ sLane.spareLeft 0 1 = true ∧
    ((after (.laneSwap 0 1) sLane).stack 0).laneDue = [3] ∧ (after (.laneSwap 0 1) sLane).sub .BASE_SELVEDGE_SPARES 0 2 2 = 1 ∧
    ((after (.laneSwap 0 1) sLane).boot.map.map MapEnt.seq) = [2] := by decide +kernel

theorem test_scrub : sStack.stackServes 0 = true ∧ (sStack.stack 0).scrubAt = 0 ∧
    ((after (.patrolScrub 0 0 []) sStack).stack 0).scrubAt = 1 := by decide +kernel

/-- A sample: stack 0 at 106 °C, the rest at 20 °C. -/
def hot : List Nat := 106 :: List.replicate 30 20

theorem test_thermal : hot.length = 31 ∧ thermalLevel (sStack.f .BASE_STATUS_LEVEL 0) 106 = 3 ∧
    (after (.thermalSample hot (List.replicate 24 16)) sStack).f .BASE_STATUS_STATE 0 = 3 ∧
    (after (.thermalSample hot (List.replicate 24 16)) sStack).f .BASE_TEMP_DIE 5 = 16 ∧
    (after (.thermalSample hot (List.replicate 24 16)) sStack).smb.temps = hot := by decide +kernel

theorem test_stop : ((after (.thermalSample (115 :: List.replicate 30 20) (List.replicate 24 16)) sStack).stack 0).stopped = true ∧
    (after (.thermalSample (115 :: List.replicate 30 20) (List.replicate 24 16)) sStack).boot.tripped = true := by decide +kernel

/-- Stack 0 fenced and cool since time 0. -/
def sCool (pending : Nat) : State :=
  { put up0 [(.BASE_STATUS_STATE, 0, 3)] with
    now := sec 1, mem := { up0.mem with stackDies := [(0, { ({} : Stack) with below82 := some 0, pending := pending })] } }

theorem test_slice : ((after (.stackFitSlice 0) (sCool 0)).stack 0).pending = 1 ∧ (after (.stackSliceResult 0 true) (sCool 1)).f .BASE_STATUS_STATE 0 = 2 ∧
    (after (.stackSliceResult 0 true) (sCool 1)).boot = (sCool 1).boot ∧ (after (.stackSliceResult 0 false) (sCool 1)).f .BASE_STATUS_STATE 0 = 4 ∧
    (after (.stackSliceResult 0 false) (sCool 1)).ledgQ.map LedgEnt.type = [7] := by decide +kernel

theorem test_units : (after (.unitFault 1 47) sStack).f .RGN_PKT_STATUS_FAULT_SEEN 47 = 1 ∧ (after (.unitFault 3 0) sStack).f .BASE_STATUS_STATE 0 = 5 ∧
    (after (.unitFault 7 1) sStack).f .FLC_STATUS_STATE 1 = 2 ∧ (after (.unitFault 7 1) sStack).withdraw = some (2 ^ causeUnit) ∧
    (after (.unitFault 3 0) sStack).mem.dir = sStack.mem.dir ∧ (after (.unitFault 5 0) sStack).ledgQ.map LedgEnt.type = [6] := by decide +kernel

/-- A step under way on the module. -/
def sOpenStep : State := sStack.setSw 3 { ({} : SwRun) with started := true }

theorem test_unit_breaks : sOpenStep.startedSws = [3] ∧ (sOpenStep.sw 3).latched = false ∧ sOpenStep.mem.moves = [] ∧ 0 ∉ sOpenStep.mem.rsvSet ∧
    ((after (.unitFault 3 0) sOpenStep).sw 3).bit0 = true ∧ bitAt ((after (.unitFault 3 0) sOpenStep).sw 3).cause causeUnit = true := by
  decide +kernel

/-- Region 0 gives swatch 0 a scratch window of one way, and way 1 is being zeroed; way 2 is shared and holds two lines. -/
def sWindow : State :=
  { sStack with mem := { sStack.mem with
      zeroing := [(1, 1)], ways := [(0, 3), (2, 1)], st := { sStack.mem.st with pocket := [(0x400000, 7), (0x800000, 9)] }
      lines := [(2, some ⟨0, 0, 0, 0, 0⟩), (18, some ⟨256, 0, 5, 0, 0⟩)], stampRun := [(0, 3)] } }

theorem test_window : sWindow.window 0 0 = 4194304 ∧ sWindow.zeroingAt 0 0 64 64 = false ∧
    (after (.pocketAccess 0 0 4096 64 true 0x77 false) sWindow).mem.st.pocket = [(64, 0x77), (0x400000, 7), (0x800000, 9)] ∧
    (after (.pocketAccess 0 0 4096 64 false 0 false) sWindow).out = [.data 0] := by decide +kernel

theorem test_zeroing : FMap.get 0 sWindow.mem.zeroing 1 ≠ 0 ∧ FMap.get 0 (after (.pocketZeroingDone 0 1) sWindow).mem.zeroing 1 = 0 ∧
    (after (.pocketZeroingDone 0 1) sWindow).mem.st.pocket = [(0x800000, 9)] := by decide +kernel

theorem test_sweep : (sWindow.way 0 2).1 = 1 ∧ (after (.pocketSweep 0) sWindow).mem.lines = [(2, some ⟨0, 0, 0, 0, 0⟩)] ∧
    FMap.get 0 (after (.pocketSweep 0) sWindow).mem.stampRun 0 = 0 := by decide +kernel

/-! The tier layer. -/

/-- A request for one bolt of swatch 0, of job record 0. -/
def treq (op tier first : Nat) : TierReq := ⟨trMake op tier 0 0 first 1, 0, 1, 0, 7, 3, false, 0, 0, 5⟩

/-- Swatch 0 may hold 16 bolts in each tier; bolt 0 is at home in T1, and the request waits. -/
def sTier (q : TierReq) : State :=
  let s := (((sBolt.setDesc 0 192 32 16).setDesc 0 224 32 16).setDesc 0 256 32 16).setDesc 0 64 48 1
  { put s [(.FLC_CAPACITY_SLOTS, 0, 25165824), (.FLC_CAPACITY_SLOTS, 1, 25165824)] with mem := { s.mem with tierQ := [q] } }

/-- Bolt 0 with another entry. -/
def withE (s : State) (e : DirEntry) : State := s.setDir 0 e

/-- Its entry at home in T1. -/
def e1 : DirEntry := { ({} : DirEntry) with state := 1, tier := 1 }

theorem test_alloc : (sTier (treq 0 1 5)).asked 0 (treq 0 1 5) [] ∧ ((sTier (treq 0 1 5)).dirE 5).state = 0 ∧
    (sTier (treq 0 1 5)).usage 0 1 < (sTier (treq 0 1 5)).quota 0 1 ∧ (sTier (treq 0 1 5)).spaced 5 = true ∧
    ((fresh (sTier (treq 0 1 5))).lookup 5).choose 5 1 0 0 0 0 = some 32 ∧
    (after .alloc (sTier (treq 0 1 5))).dirE 5 = { e1 with home := 32, generation := 1 } := by decide +kernel

theorem test_free : (sTier (treq 1 0 0)).asked 1 (treq 1 0 0) [] ∧ (sTier (treq 1 0 0)).shareAllows e1 0 true = true ∧
    (sTier (treq 1 0 0)).dirE 0 = e1 ∧ ((after .free (sTier (treq 1 0 0))).dirE 0).generation = 1 ∧
    ((after .free (sTier (treq 1 0 0))).dirE 0).state = 0 := by decide +kernel

/-- Bolt 0 at home in T2, and a request to promote it to T1. -/
def sPro : State := withE (sTier (treq 2 1 0)) { e1 with tier := 2, home := 8 }
/-- Bolt 0 at home in T1, a T3 window of 4 frames and a request to evict it there. -/
def sEvi : State := { (put (sTier (treq 3 3 0)) [(.TIER_T3_SIZE_BOLTS, 0, 4)]).setDesc 0 288 32 16 with hostLink := true }
/-- Bolt 0 on its way down, and a request to promote it. -/
def sCan : State := (withE (sTier (treq 2 1 0)) { e1 with state := 3, dtier := 3, dest := 2 }).setMove 0
  (some { phase := .copy, up := false, dtier := 3, place := 0, cls := 3, dirty := [], passes := 0, await := [], held := [], since := 0, inTier := false })

theorem test_moves_start : sPro.asked 2 (treq 2 1 0) [] ∧ (sPro.movesOf 0).length < 256 ∧ sPro.moveOf 0 = none ∧
    (((fresh sPro).lookup 0).usage 0 1 < ((fresh sPro).lookup 0).quota 0 1) ∧ (after .promoteRequest sPro).dirE 0 = { e1 with state := 2, tier := 2, home := 8, dtier := 1 } ∧
    ((after .promoteRequest (sPro.setDesc 0 224 32 0)).moveOf 0).map MoveRec.phase = some .reserve ∧
    sEvi.asked 3 (treq 3 3 0) [] ∧ (after .evict sEvi).dirE 0 = { e1 with state := 3, dtier := 3 } ∧
    ((after .evict sEvi).moveOf 0).map MoveRec.phase = some .copy := by decide +kernel

theorem test_moves_cancelled : sCan.asked 2 (treq 2 1 0) [] ∧ (after .promoteRequest sCan).dirE 0 = { e1 with cancelled := true } ∧
    FMap.get [] (after .promoteRequest sCan).mem.cancels 0 = [0] ∧ (withE sEvi { e1 with pins := 1 }).asked 3 (treq 3 3 0) [] ∧
    (after .evict (withE sEvi { e1 with pins := 1 })).dirE 0 = { e1 with pins := 1, pendEvict := true } ∧
    (after .evict (withE sEvi { e1 with pins := 1 })).f .TIER_DEFERS 0 = 1 := by decide +kernel

theorem test_pin_counts : (sTier (treq 4 0 0)).asked 4 (treq 4 0 0) [] ∧ ((after .pin (sTier (treq 4 0 0))).dirE 0).pins = 1 ∧
    (withE (sTier (treq 5 0 0)) { e1 with pins := 2 }).asked 5 (treq 5 0 0) [] ∧
    ((after .unpin (withE (sTier (treq 5 0 0)) { e1 with pins := 2 })).dirE 0).pins = 1 := by decide +kernel

theorem test_query : (sTier (treq 6 0 0)).asked 6 (treq 6 0 0) [] ∧
    FMap.get {} (after .query (sTier (treq 6 0 0))).slots 3 = ⟨true, some ({ seq := 7, status := tsOK, sw := 5, bolts := 1, entry := e1.bits } : Result).bits⟩ := by
  decide +kernel

/-- A move of bolt 0 from T1 to another slot of T1 in a phase. -/
def mv (p : MovePhase) : MoveRec :=
  { phase := p, up := true, dtier := 1, place := 0, cls := 3, dirty := [1], passes := 4, await := [], held := [], since := 0, inTier := true }

/-- Bolt 0 in that move. -/
def sMove (p : MovePhase) (e : DirEntry) : State := ((withE (sTier (treq 6 0 0)) e).setStores { hbm := [(300, 7)] }).setMove 0 (some (mv p))

/-- Its entry while the copy goes to slot 9. -/
def e2 : DirEntry := { e1 with state := 2, dtier := 1, dest := 288 }

/-- The same with swatch 0's descriptor. -/
def sResv : State := (sTier (treq 6 0 0)).setMove 0 (some (mv .reserve))

theorem test_reserve : sResv.moveOf 0 = some (mv .reserve) ∧ sResv.usage 0 1 < sResv.quota 0 1 ∧
    sResv.choose 0 1 0 0 0 (sResv.nearOf 0 0 (sResv.firstRegion 0)) = some 32 ∧
    (after (.moveReserve 0) sResv).dirE 0 = { e1 with state := 2, dtier := 1, dest := 32, mrec := 0 } := by decide +kernel

theorem test_move_copy : (sMove .copy e2).moveOf 0 = some (mv .copy) ∧ (after (.moveCopyDone 0 []) (sMove .copy e2)).mem.st.hbm = [(300, 7), (590124, 7)] ∧
    (((after (.moveCopyDone 0 []) (sMove .copy e2)).moveOf 0).map MoveRec.phase) = some .recopy ∧
    (after (.moveCopyDone 0 []) (sMove .recopy e2)).mem.st.hbm = [(300, 7), (590124, 7)] := by decide +kernel

theorem test_hold : (sMove .recopy e2).spaced 0 = true ∧ (after (.moveHold 0) (sMove .recopy e2)).out = [.holdNotice 0] ∧
    ((after (.moveHoldNotice 50 0) (sMove .hold e2)).holder 50).stopped = [0] ∧
    (((after (.holdAck 0 50) (after (.moveHoldNotice 50 0) (after (.moveHold 0) (sMove .recopy e2)))).moveOf 0).map (fun m => m.await.length)) =
      some 85 := by decide +kernel

theorem test_flip : (sMove .hold e2).moveOf 0 = some (mv .hold) ∧ (mv .hold).await = [] ∧
    (after (.moveFlip 0) (sMove .hold e2)).dirE 0 = { e2 with home := 288, dest := 0, flipped := true, generation := 1 } ∧
    (after (.moveFlip 0) (sMove .hold e2)).out = [.notice 0 1 false, .release 0 1 288 1] ∧
    (after (.moveFlip 0) (sMove .hold e2)).f .TIER_MOVES 0 = 1 ∧ (after (.moveFlip 0) (sMove .hold e2)).mem.st.hbm = [(300, 7), (590124, 7)] := by
  decide +kernel

theorem test_source : (mv .flipped).held = [] ∧ (after (.moveFreeSource 0) (sMove .flipped { e2 with flipped := true })).dirE 0 = e1 ∧
    (after (.moveFreeSource 0) (sMove .flipped { e2 with flipped := true })).moveOf 0 = none := by decide +kernel

theorem test_spacing : (withE sBolt { e1 with pendFree := true }).spaced 0 = true ∧ (withE sBolt { e1 with pendFree := true }).moveOf 0 = none ∧
    ((after (.generationSpacingEnd 0) (withE sBolt { e1 with pendFree := true })).dirE 0).generation = 1 := by decide +kernel

/-- Region 3 holds a translation of bolt 0 of generation 0, the entry being of generation 2^14. -/
def sHolds0 : State :=
  { withE sBolt { e1 with generation := 16384 } with mem := { (withE sBolt { e1 with generation := 16384 }).mem with
      holders := [(3, { entries := [(0, ⟨1, 0, 0, 0, 0⟩), (7, ⟨1, 0, 0, 0, 0⟩)] })] } }

theorem test_notice : ((after (.dirNotice 3 0 5 false) sHolds0).holder 3).entries = [(0, ⟨1, 0, 0, 0, 5⟩), (7, ⟨1, 0, 0, 0, 0⟩)] ∧
    ((after (.dirNotice 3 0 5 true) sHolds0).holder 3).entries = [(7, ⟨1, 0, 0, 0, 0⟩)] ∧
    sHolds0.serve 0 (fun x => sHolds0.shareAllows x 0 true) = .at 1 0 0 ∧
    ((after (.translationFill 0 4 0 true) sHolds0).holder 4).entries = [(0, ⟨1, 0, 0, 0, 16384⟩)] ∧
    ((after .dirScrub sHolds0).holder 3).entries = [(7, ⟨1, 0, 0, 0, 0⟩)] ∧ (after .dirScrub sHolds0).f .DIR_SCRUB_PASS 3 = 1 := by decide +kernel

/-- Swatch 0 has waited for bolt 3 beyond its limit of 1 ms. -/
def sStall : State :=
  { sBolt.setSw 0 { ({} : SwRun) with started := true } with now := 1200001, mem := { sBolt.mem with waiters := [⟨0, 2, 3, 0, false, false⟩] } }

theorem test_stall : sStall.mem.waiters.find? (fun x => x.sw = 0 && sStall.causeNow x = 2 && !x.past && msec (sStall.stallMs 0) < sStall.now - x.since) =
      some ⟨0, 2, 3, 0, false, false⟩ ∧ (after (.stallLimit 0 2) sStall).mem.waiters = [] ∧ (after (.stallLimit 0 2) sStall).f .TIER_STALL_FAIL 0 = 1 ∧
    ((after (.stallLimit 0 2) sStall).sw 0).limitHit = true := by decide +kernel

/-- The same past the latch, in a wait that the step cannot leave. -/
def sStuck : State :=
  { sBolt.setSw 0 { ({} : SwRun) with started := true, latched := true } with
    now := 1200001, mem := { sBolt.mem with waiters := [⟨0, 2, 3, 0, false, true⟩] } }

theorem test_stuck : msec (sStuck.stallMs 0) < 1200001 ∧ (after (.stallLimit 0 2) sStuck).withdraw = some (2 ^ causeStall) ∧
    ((after (.stallLimit 0 2) sStuck).sw 0).failed = true ∧ (after (.stallLimit 0 2) sStuck).mem.waiters = [⟨0, 2, 3, 0, true, true⟩] := by decide +kernel

/-- Two bolts in controller 0's write buffer. -/
def sFlash : State := { up0 with mem := { up0.mem with flash := [(0, { ({} : Flash) with buffer := [4, 6], hours := [2 ^ 30, 1] })] } }

theorem test_flash : (sFlash.flc 0).buffer = [4, 6] ∧ ((after (.flashProgram 0 3) sFlash).flc 0).buffer = [6] ∧
    ((after (.flashProgram 0 3) sFlash).flc 0).spareGiB = 253 ∧ (after (.flashProgram 0 3) sFlash).f .FLC_BUDGET_WRITTEN 0 = 1 ∧
    ((after (.flashBudgetHour 0) sFlash).flc 0).hours = [0, 2 ^ 30, 1] := by decide +kernel

theorem test_t3 : up0.t3Used = false ∧ up0.txnOpen 0 = false ∧ up0.served 0 (.reg .tier 0 0x10) = true ∧ up0.served 0 (.reg .tier 0 0x8) = true ∧
    (after (.tierT3Write true 9) up0).f .TIER_T3_SIZE_BOLTS 0 = 9 ∧ (after (.tierT3Write false 0x30005) up0).f .TIER_T3_BASE_BASE 0 = 3 := by
  decide +kernel

/-! Seam ports and membership. -/

/-- Port 0 in a state, with its peer's HELLO as noted. -/
def sPort (st : Nat) (h : Option Bool) : State := { put up0 [(.SEAM_STATUS_STATE, 0, st)] with ports := [(0, { ({} : Port) with hello := h })] }

/-- The HELLO of the module at BOARDPOS 1, on its port 6. -/
def helloOk : List Nat := [1, 99, 1, 1, 0, 0, 0, 1, 1, 1, 6, 0, 4]

theorem test_detect : up0.f .SEAM_STATUS_STATE 0 = 0 ∧ (after (.portDetect 0) up0).f .SEAM_STATUS_STATE 0 = 1 ∧
    ((after (.portDetect 0) up0).port 0).present = true ∧ (sPort 1 none).helloFits 0 helloOk = true ∧
    ((after (.hello 0 helloOk) (sPort 1 none)).port 0).hello = some true ∧
    (after (.hello 0 helloOk) (sPort 1 none)).f .SEAM_PEER_ID_PEER_ID 0 = 99 := by decide +kernel

theorem test_portUp : (after (.portUp 0 [] 9) (sPort 1 (some false))).f .SEAM_STATUS_STATE 0 = 4 ∧
    (after (.portUp 0 (List.range 18) 2001) (sPort 1 (some true))).f .SEAM_STATUS_STATE 0 = 5 ∧
    (after (.portUp 0 (List.range 7) 2000) (sPort 1 (some true))).f .SEAM_STATUS_STATE 0 = 0 ∧
    (after (.portUp 0 (List.range 18) 2000) (sPort 1 (some true))).f .SEAM_STATUS_STATE 0 = 2 ∧
    (after (.portUp 0 (List.range 18) 2000) (sPort 1 (some true))).f .SEAM_LANES_UNUSED 0 = 0x30000 ∧
    (after (.portUp 0 (List.range 8) 2000) (sPort 1 (some true))).f .SEAM_STATUS_STATE 0 = 3 := by decide +kernel

/-- Eight retrains within the last minute. -/
def sNine : State := (sPort 2 none).setPort 0 { ({} : Port) with retrains := List.replicate 8 0 }

theorem test_retrain : (sPort 2 none).portUp 0 = true ∧ (after (.retrain 0) (sPort 2 none)).f .SEAM_STATUS_STATE 0 = 7 ∧
    (after (.retrain 0) sNine).f .SEAM_STATUS_STATE 0 = 6 ∧ (after (.retrain 0) sNine).out = [] ∧
    (after (.retrain 0) sNine).ledgQ.map LedgEnt.type = [5] ∧ (after (.signalLoss 0) (sPort 2 none)).f .SEAM_STATUS_STATE 0 = 0 := by decide +kernel

/-- Two flits not yet acknowledged, sent at time 0. -/
def sReplay : State := { (sPort 2 none).setPort 0 { ({} : Port) with unacked := [⟨3, 7, 8, 0, 0⟩, ⟨4, 9, 10, 0, 0⟩] } with now := 4800 }

theorem test_error : (sReplay.port 0).naked = false ∧ ((after (.flitReceive 0 5 0 [1] false) sReplay).port 0).naked = true ∧
    (after (.flitReceive 0 5 0 [1] false) sReplay).out.length = 1 := by decide +kernel

theorem test_deliver : hType (flitHead 2 0 false 0 0) = 2 ∧ hClass (flitHead 2 0 false 0 0) ≤ 5 ∧ hSeq (flitHead 2 0 false 0 0) = (sReplay.port 0).rx ∧
    ((after (.flitReceive 0 (flitHead 2 0 false 0 0) 1 [] true) sReplay).port 0).rx = 1 := by decide +kernel

theorem test_replay : (after (.nak 0 4) sReplay).out = [.flit 0 9 10] ∧ (after (.replayTimeout 0) sReplay).out = [.flit 0 7 8, .flit 0 9 10] ∧
    (after (.replayTimeout 0) sReplay).f .SEAM_REPLAY 0 = 2 := by decide +kernel

/-- A serving module, enabled in domain 2 with ID 77, with this state of the domain. -/
def sDom (v : Dom) : State :=
  (put up0 [(.HUB_BOOT_READY, 0, 1), (.COLL_DOM_CFG_ID, 2, 77), (.COLL_DOM_CFG_ENABLE, 2, 1), (.COLL_DOM_CFG_EXPECT, 2, 2)]).setDom 2 v

/-- Members 0 and 5. -/
def vPair : Dom := { ({} : Dom) with members := [0, 5] }

theorem test_join : (sDom vPair).domOf 77 = some 2 ∧ (sDom vPair).serving = true ∧
    ((after (.join [77, 6, 9]) (sDom vPair)).dom 2).joins = [(6, 9)] ∧ ((after (.join [77, 6, 9]) (sDom vPair)).dom 2).seen = 10 ∧
    ((after (.leave [77, 0, 5, 4]) (sDom vPair)).dom 2).members = [0] := by decide +kernel

/-- A step of domain 2 is open. -/
def sOpen (v : Dom) : State := (sDom v).setSw 0 { ({} : SwRun) with started := true, domain := 2 }

theorem test_propose : (sOpen vPair).openIn 2 = [0] ∧ isLater 32 3 vPair.seen = true ∧
    ((after (.propose [77, 3, 5, 0, 5]) (sOpen vPair)).dom 2).accepted = some ⟨3, 5, [0, 5], 0, false⟩ ∧
    (after (.propose [77, 3, 5, 0, 5]) (sOpen vPair)).f .COLL_DOM_STATE_STATE 2 = 3 := by decide +kernel

/-- A proposal of epoch 3 that waits for two announcements. -/
def vAsk : Dom := { vPair with proposal := some ⟨3, [0, 5], 0, []⟩, accepted := some ⟨3, 0, [0, 5], 0, true⟩ }

theorem test_announce : (((after (.announce [77, 3, 5, 1, 8]) (sDom vAsk)).dom 2).proposal.map Proposal.heard) = some [(5, [(1, 8)])] ∧
    ((after (.adopt [77, 3, 0, 2, 5, 0]) (sDom vAsk)).dom 2).members = [0, 5] ∧
    (after (.adopt [77, 3, 0, 2, 5, 0]) (sDom vAsk)).f .COLL_DOM_STATE_EPOCH 2 = 3 ∧ (sDom vAsk).epoch 2 = 0 ∧
    (after (.adopt [77, 3, 0, 2, 5, 0]) (sDom vAsk)).f .COLL_EPOCHS 0 = 1 := by decide +kernel

theorem test_cmd : (sDom vPair).convenes 2 = true ∧ ((after (.cmd [77, 3, 5]) (sDom vPair)).dom 2).members = [0] ∧
    ((after (.cmd [77, 4, 0]) (sDom {})).dom 2).members = [] ∧ ((after (.collCmdRemove 2 5) (sDom vPair)).dom 2).members = [0] ∧
    (sDom { ({} : Dom) with joins := [(0, 0)] }).convenes 2 = true ∧
    ((after (.collCmdForce 2) (sDom { ({} : Dom) with joins := [(0, 0)] })).dom 2).force = false ∧
    ((after (.collCmdForce 2) (sDom { ({} : Dom) with joins := [(0, 0)] })).dom 2).members = [0] := by decide +kernel

theorem test_join_leave : (sDom {}).domEnabled 2 = true ∧ (sDom {}).isMember 2 = false ∧ (after (.collCmdJoin 2) (sDom {})).f .COLL_DOM_STATE_STATE 2 = 1 ∧
    ((after (.collCmdLeave 2) (sOpen vPair)).dom 2).leaveDue = true ∧ (sDom vPair).openIn 2 = [] ∧
    (after (.collCmdLeave 2) (sDom vPair)).ledgQ = [⟨0x08, 77 + 2 ^ 64 * 2 ^ causeWithdraw, 0⟩] ∧
    ((after (.collCmdLeave 2) (sDom vPair)).dom 2).members = [] := by decide +kernel

theorem test_timers : msec 50 ≤ ({ sDom vPair with now := sec 1 } : State).now - FMap.get 0 vPair.heardAt 5 ∧
    ((after (.memberStrike 2 5) { sDom vPair with now := sec 1 }).dom 2).members = [0] ∧
    (after (.proposeRetry 2) { sDom vAsk with now := sec 1 }).f .COLL_PROPOSE_RETRY 0 = 1 ∧
    ((after (.adoptTimeout 2) { sDom vAsk with now := sec 1 }).dom 2).joinAt = sec 1 ∧
    ((after (.joinResend 2) { after (.collCmdJoin 2) (sDom {}) with now := sec 1 }).dom 2).joinAt = sec 1 := by decide +kernel

theorem test_domCfg : (sDom vPair).isMember 2 = true ∧ bitAt (78 + 2 ^ 32) 32 = true ∧ (sDom vPair).txnOpen 0 = false ∧
    (sDom vPair).served 0 (.reg .coll 0 (0x100 + 16 * 2)) = true ∧
    (after (.collDomCfgWrite 0 2 (78 + 2 ^ 32)) (sDom vPair)).f .COLL_DOM_CFG_ID 2 = 77 ∧
    ((after (.collDomCfgWrite 0 2 (78 + 2 ^ 32)) (sDom vPair)).dom 2).cfgDue = some (78 + 2 ^ 32) := by decide +kernel

/-! Registers, the data port, jobs, slots and transactions. -/

theorem test_denied : aligned 0x22 4 = false ∧ up0.reaches 3 (targetAt 3 0x5000) = false ∧
    (after (.registerWrite 0 0x22 4 1) up0).f .HST_MMIO_DENIED 0 = 1 ∧ (after (.rcRead 3 0x5000 8 0) up0).f .HST_MMIO_DENIED 3 = 1 := by decide +kernel

/-- A count of 5 refused accesses, and a refused core. -/
def sRegs : State := put up0 [(.HST_MMIO_DENIED, 0, 5), (.CORE_STATUS_REFUSED, 7, 1), (.CORE_STATUS_LAST_REFUSAL, 7, 3), (.HST_INT_CAUSE_CAUSE, 0, 4)]

theorem test_rc : targetAt 0 ((fieldDesc .HST_MMIO_DENIED).offset) = .reg .hst 0 (fieldDesc .HST_MMIO_DENIED).offset ∧
    (fieldDesc .HST_MMIO_DENIED).access = .RC ∧
    (after (.rcRead 0 (fieldDesc .HST_MMIO_DENIED).offset 8 2) sRegs).f .HST_MMIO_DENIED 0 = 2 ∧
    (after (.rcRead 0 (fieldDesc .HST_MMIO_DENIED).offset 8 2) sRegs).out = [.data 5] := by decide +kernel

theorem test_board_write : targetAt 2 (0x2000000 + 0x40000 + 8) = .board 1 8 ∧
    (after (.registerWrite 2 (0x2000000 + 0x40000 + 8) 8 0x102) sRegs).mem.st.jobs = [(0x40008, 2), (0x40009, 1)] ∧
    (after (.registerWrite 0 (0x1000000 + 4096 * 7 + 8) 8 8) sRegs).f .CORE_STATUS_REFUSED 7 = 0 ∧
    (after (.registerWrite 0 (0x1000000 + 4096 * 7 + 8) 8 8) sRegs).f .CORE_STATUS_LAST_REFUSAL 7 = 0 ∧
    sRegs.served 0 (.reg .core 7 8) = true := by decide +kernel

theorem test_mask : sRegs.f .HST_INT_MASK_ENABLE 0 = 0 ∧ (after (.intMaskWrite 0 6) sRegs).f .HST_INT_MASK_ENABLE 0 = 6 ∧
    (after (.intMaskWrite 0 6) sRegs).out = [.msix 0 0] := by decide +kernel

/-- The data port of function 0 at the directory entry of bolt 0. -/
def sDp : State := after (.dpAddrWrite 0 dirBase) (withE up0 e1)

theorem test_dp : (sDp.dp 0).row = dirBase ∧ (sDp.dp 0).reqs = [] ∧ sDp.f .HUB_BOOT_STEP 0 ≠ 14 ∧
    (after (.dataPortAccess 0 false 0 [0]) sDp).out = [.data (e1.bits % 2 ^ 64)] ∧ ((after (.dataPortAccess 0 false 0 [0]) sDp).dp 0).off = 8 := by
  decide +kernel

/-- A read that has waited since time 1. -/
def sWait : State := { up0 with now := sec 20, dps := [(0, { ({} : Dp) with reqs := [⟨false, [0], [9], true, 1⟩] })] }

theorem test_dp_stall : (sWait.dp 0).reqs.map DpReq.units = [[0]] ∧ (after (.dpReadStall 0) sWait).out = [.data 9, .data 0] ∧
    (after (.dpReadStall 0) sWait).f .DP_STATUS_LAST_ERR 0 = 4 := by decide +kernel

/-- A RUN record of swatch 3, slot 2, 5 steps, with sequence 1. -/
def runRec : Nat := 1 + 2 ^ 32 + 2 ^ 48 * 3 + 2 ^ 64 * 2 + 2 ^ 96 * 5

/-- Partition 0 with that record at its board. -/
def sBoard : State :=
  { put up0 [(.HUB_PART_CFG_ENABLE, 0, 1), (.HUB_BOOT_READY, 0, 1), (.HUB_PART_SWT_COUNT, 0, 8)] with
    mem := { up0.mem with st := { up0.mem.st with jobs := Memory.write 0 [] 0 (leBytes runRec 64) } } }

/-- With its slot reserved. -/
def sFull : State := { sBoard with slots := [(2, ⟨true, none⟩)] }

theorem test_boardCheck : sBoard.boardRec 0 = runRec ∧ bitField runRec 0 32 = sBoard.boardSeq 0 ∧ sBoard.boardWhy 0 runRec = 0 ∧ jrBad runRec = false ∧
    sBoard.partHasSwatch 0 (jrSwatch runRec) = true ∧ (after (.jobBoardCheck 0) sBoard).taken = [(0, runRec)] ∧
    (after (.jobBoardCheck 0) sBoard).boardSeq 0 = 2 ∧ (after (.jobBoardCheck 0) sFull).f .HST_JOB_STALLED 1 = 1 ∧ up0.boardRec 1 = 0 := by decide +kernel

/-- Records taken, of the three types. -/
def sTaken (v : Nat) : State := { up0 with taken := [(0, v)] }

theorem test_jobs : ((after .jobRun (sTaken runRec)).sw 3).runs.map RunJob.left = [5] ∧
    FMap.get {} (after .jobRun (sTaken (runRec - 2 ^ 96 * 5))).slots 2 = ⟨true, some ({ seq := 1, sw := 3 } : Result).bits⟩ ∧
    jrType (runRec + 2 ^ 34) = 1 ∧ ((after .jobTier (sTaken (runRec + 2 ^ 34))).mem.tierQ.map TierReq.slot) = [2] ∧ jrType (runRec + 2 ^ 35) = 2 ∧
    ((after .jobStop ((sTaken (runRec + 2 ^ 35)).setSw 3 { ({} : SwRun) with started := true })).sw 3).stopDue = true := by decide +kernel

theorem test_slots : fnReaches 3 0 = false ∧ fnReaches 1 0 = true ∧ (after (.slotRead 3 0 2) sFull).f .HST_MMIO_DENIED 3 = 1 ∧
    (after (.slotRead 1 0 2) sFull).f .HST_EARLY_READS 1 = 1 ∧
    (after (.slotRead 1 0 2) { sFull with slots := [(2, ⟨true, some 66⟩)] }).out = [.data 66] ∧
    (after (.slotRelease 1 0 2) { sFull with slots := [(2, ⟨true, some 66⟩)] }).slots = [] := by decide +kernel

/-- Function 0 with a transaction open that stages the regions of swatch 3. -/
def sTxn : State := after (.descriptorWrite 0 3 1 7) (after (.begin 0) up0)

theorem test_txn : up0.txnOpen 0 = false ∧ sTxn.txnOpen 0 = true ∧ (sTxn.txn 0).ents = [⟨true, descBase + 768 + 8, 255, 7⟩] ∧
    sTxn.commitCheck 0 = 0 ∧ sTxn.txnParts 0 (sTxn.txn 0).ents = [] ∧ (after (.commit 0) sTxn).desc 3 64 48 = 7 ∧
    (after (.commit 0) sTxn).f .TXN_STATUS_OPEN 0 = 0 ∧ (after (.rollback 0) sTxn).desc 3 64 48 = 0 ∧
    (after (.commit 0) (put sTxn [(.TXN_STATUS_OVERFLOW, 0, 1)])).f .TXN_STATUS_RESULT 0 = 3 ∧ (after (.commit 0) up0).f .TXN_STATUS_RESULT 0 = 1 ∧
    (after (.begin 0) sTxn).f .TXN_STATUS_RESULT 0 = 2 := by decide +kernel

/-! Patterns, SMBus, the thimble and the ledger. -/

theorem test_pat_next : (after (.selectNext 2) up0).f .PAT_STATUS_NEXT 0 = 2 ∧ (after (.selectNext 2) up0).f .PAT_STATUS_NEXT_VALID 0 = 1 ∧
    (after .clearNext (after (.selectNext 2) up0)).f .PAT_STATUS_NEXT_VALID 0 = 0 := by decide +kernel

theorem test_pat_refused : up0.f .PAT_STATUS_BUSY 0 ≠ 1 ∧ up0.patImage = none ∧ (after (.patWrite 1) up0).f .PAT_STATUS_WRITE_RESULT 0 = 2 ∧
    (after (.patWrite 1) (put up0 [(.PAT_STATUS_BUSY, 0, 1)])).f .PAT_STATUS_WRITE_RESULT 0 = 4 := by decide +kernel

/-- Powered for a second; cause 2 is set, and all but causes 1 and 2 masked; the ledger is read from its start. -/
def sSmb : State :=
  { up0 with now := sec 1, smb := { up0.smb with alerts := 4, mask := 0x79, temps := [30, 31] }
             mem := { up0.mem with st := { up0.mem.st with cfg := [(0x5000001, 7)] } } }

theorem test_smb : sSmb.smbServes = true ∧ (after .smbTemps sSmb).out = [.data (30 + 256 * 31)] ∧ (after .smbAlertRead sSmb).out = [.data 4] ∧
    (after (.smbAlertClear 4) sSmb).smb.alerts = 0 ∧ sSmb.alertPin = true ∧ (after .smbAlertResponse sSmb).out = [.data 0x58] ∧
    (after (.smbAlertMask 0x7D) sSmb).alertPin = false ∧
    (after (.smbAlertMask 0x79) (after (.smbAlertMask 0x7D) sSmb)).f .HST_INT_CAUSE_CAUSE 0 = 8 ∧
    (after (.smbLedgerIndex 96) sSmb).smb.index = 96 ∧ (after .smbLedgerRead sSmb).smb.index = 32 ∧
    (after .smbLedgerRead sSmb).out = [.data (2 ^ 256 - 1 - 248 * 256)] := by decide +kernel

theorem test_smb_status : (after .smbStatus sSmb).out = [.data 0] ∧ (after .smbPower sSmb).out = [.data (2 ^ 80 * sSmb.thm.watts)] ∧
    (after .smbIdentity sSmb).out.length = 1 := by decide +kernel

theorem test_busy : up0.thmBusy = 1 ∧ (after .commitSvn up0).f .THM_RESULT_RESULT 0 = 1 ∧ (after .owner up0).f .THM_RESULT_OP 0 = 4 ∧
    (after .revokeF0 up0).f .THM_RESULT_OP 0 = 6 := by decide +kernel

/-- The thimble at rest. -/
def sThm : State := put up0 [(.THM_STATUS_STATE, 0, 1)]

theorem test_unauthorised : sThm.thmBusy = 0 ∧ sThm.f .THM_STATUS_STATE 0 ≠ 4 ∧ sThm.authCheck 3 = 3 ∧
    (after .refurbish sThm).f .THM_RESULT_RESULT 0 = 3 ∧ (after .refurbish sThm).f .THM_RESULT_OP 0 = 3 ∧
    (after .refurbish sThm).f .THM_STATUS_REFURB_REQ 0 = 0 := by decide +kernel

theorem test_attest : ({ withE sThm e1 with now := 5 } : State).thmBusy = 0 ∧ (∀ b ∈ boltsOf 0 576, ((withE sThm e1).dirE b).state ≠ 0) ∧
    (withE sThm e1).f .THM_ARG_ADDR 0 = 0 ∧ runs .attest (withE sThm e1) = true := by decide +kernel

theorem test_spdm : (after (.spdmRequest 0 5) up0).out.length = 1 ∧ (after (.spdmRequest 1 5) up0).out.length = 3 := by decide +kernel

theorem test_wipe : (after .wipe sThm).inReset = true ∧ (after .wipe sThm).boot.draining = true ∧
    ((after .wipe sThm).ledgQ.map LedgEnt.type).head? = some 0x0E := by decide +kernel

/-- In recovery. -/
def sRcv : State :=
  { put up0 [(.THM_STATUS_STATE, 0, 2)] with
    mem := { up0.mem with st := { up0.mem.st with cfg := [(0xFFFFFF, 1), (0x1000000, 2), (0x3000000, 3)] } } }

theorem test_recovery : (after (.rcvBegin 0) sRcv).mem.st.cfg = [(0xFFFFFF, 1), (0x3000000, 3)] ∧ (after (.rcvBegin 0) sRcv).thm.rcv = some (0, 0) ∧
    (after (.rcvDataWrite 0x55) (after (.rcvBegin 0) sRcv)).thm.rcv = some (0, 8) ∧
    FMap.get 255 (after (.rcvDataWrite 0x55) (after (.rcvBegin 0) sRcv)).mem.st.cfg 0x1000000 = 0x55 ∧
    (after .rcvEnd (after (.rcvBegin 0) sRcv)).f .THM_RESULT_RESULT 0 = 2 ∧ (after .rcvEnd (after (.rcvBegin 0) sRcv)).thm.rcv = none := by decide +kernel

/-- An entry waits to be programmed, four hours after the last periodic entries. -/
def sLedg : State := { up0 with now := sec 14400, ledgQ := [⟨0x05, 3, 9⟩] }

theorem test_ledger : sLedg.thm.newest = 1 ∧ (after .ledgerProgram sLedg).ledgQ = [] ∧ (after .ledgerProgram sLedg).thm.newest = 2 ∧
    (after .ledgerProgram sLedg).f .LEDG_WRITES 0 = 1 ∧ (after .ledgerProgram sLedg).f .LEDG_HEAD_SEQ 0 = 2 ∧
    (after .ledgerPeriodic sLedg).ledgQ.map LedgEnt.type = [5, 2, 4, 4] ∧ (after .ledgerPeriodic sLedg).meters.hoursAt = sec 14400 := by decide +kernel

/-- A ledger of four sectors. -/
def sSectors : State := { up0 with thm := { up0.thm with newest := 1000 }, mem := { up0.mem with st := { up0.mem.st with cfg := [(0x5000000, 1), (0x5010000, 2)] } } }

theorem test_archive : (after (.archive 1) sSectors).thm.oldest = 257 ∧ (after (.archive 1) sSectors).mem.st.cfg = [(0x5010000, 2)] ∧
    (after (.archive 1) sSectors).ledgQ.map LedgEnt.type = [0x11] ∧ (after (.archive 1) sSectors).f .LEDG_STATUS_ARCHIVED_SEEN 0 = 1 ∧
    (after (.archive 9) sSectors).thm.oldest = 769 := by decide +kernel

/-! Power, bring-up, resets and the host link. -/

theorem test_pins : (after .pwrgdAssert ({} : State)).pwrgd = true ∧ ({ up0 with pwrgd := true } : State).pwrgd = true ∧
    (after .pwrgdDeassert sSmb).inReset = true ∧ (after .pwrgdDeassert sSmb).regs = [] ∧
    (after .pwrgdDeassert sSmb).mem.st.cfg = [(0x5000001, 7)] := by decide +kernel

/-- A module with a next pattern, straps and a step. -/
def sReset : State :=
  { put up0 [(.PAT_STATUS_NEXT, 0, 2), (.HST_STRAPS_BOARDPOS, 0, 5), (.HUB_BOOT_READY, 0, 1)] with sws := [(3, { ({} : SwRun) with picked := true })], clk := nominal }

theorem test_moduleReset : sReset.held = [] ∧ sReset.mem.moves = [] ∧ (after .moduleReset sReset).f .PAT_STATUS_NEXT 0 = 2 ∧
    (after .moduleReset sReset).bpos = 5 ∧ (after .moduleReset sReset).f .HUB_BOOT_READY 0 = 0 ∧ (after .moduleReset sReset).sws = [] ∧
    (after .moduleReset sReset).boot.draining = true ∧ (after .perstAssert sReset).boot.perst = true ∧
    (after .moduleReset sReset).clk.array = 16 := by decide +kernel

/-- The drain of a reset, its queue empty, with PERST# high or low. -/
def sDrain (perst : Bool) : State := { State.reset with pwrgd := true, boot := { State.reset.boot with draining := true, perst := perst } }

theorem test_reset_drain : (sDrain false).ledgQ = [] ∧ (after .resetDrainEnd (sDrain true)).boot.draining = false ∧
    (after .resetDrainEnd (sDrain true)).inReset = true ∧ (after .resetDrainEnd (sDrain false)).f .HUB_BOOT_STEP 0 = 1 ∧
    (after .resetDrainEnd (sDrain false)).inReset = false := by decide +kernel

theorem test_perst : ({ State.reset with pwrgd := true, boot := { State.reset.boot with perst := true } } : State).boot.draining = false ∧
    (after (.perstDeassert 13) { State.reset with pwrgd := true, boot := { State.reset.boot with perst := true } }).bpos = 5 ∧
    (after (.perstDeassert 13) { State.reset with pwrgd := true, boot := { State.reset.boot with perst := true } }).f .HST_STRAPS_PATSEL 0 = 1 ∧
    (after (.perstDeassert 13) { State.reset with pwrgd := true, boot := { State.reset.boot with perst := true } }).f .HUB_BOOT_WARM 0 = 0 := by
  decide +kernel

/-- In step `n` of a bring-up. -/
def sBoot (n : Nat) : State := put up0 [(.HUB_BOOT_STEP, 0, n)]

theorem test_boot_early : (sBoot 1).f .THM_STATUS_STATE 0 ≠ 2 ∧ (after (.bringUpStep [0]) (sBoot 1)).bootStep = 2 ∧
    (after (.bringUpStep [1]) (sBoot 1)).bootStep = 13 ∧ (after (.bringUpStep [1]) (sBoot 1)).f .HUB_BOOT_FAIL_WHY 0 = 1 ∧
    (sBoot 2).ownCopy = none := by decide +kernel

theorem test_boot_clocks : ({ sBoot 4 with clk := { nominal with pass := 60, target := 60 } } : State).clk.atNominal = true ∧
    (after (.bringUpStep []) { sBoot 4 with clk := { nominal with pass := 60, target := 60 } }).bootStep = 5 ∧
    (after (.bringUpStep []) { sBoot 4 with clk := { nominal with pass := 60, target := 60 } }).f .BASE_STATUS_STATE 23 = 1 := by decide +kernel

theorem test_boot_units : (after (.bringUpStep [1, 0]) (sBoot 6)).f .FLC_STATUS_STATE 0 = 2 ∧ (after (.bringUpStep [1, 0]) (sBoot 6)).f .FLC_STATUS_STATE 1 = 1 ∧
    (after (.bringUpStep [0x201]) (sBoot 7)).f .RGN_CORE_MAP_FUSED 0 = 1 ∧ (after (.bringUpStep [0x201]) (sBoot 7)).bootStep = 8 := by decide +kernel

/-- The fitting run's results, all clear but for one. -/
def fitting (i : Nat) : List Nat := List.replicate i 0 ++ [1]

theorem test_boot_fitting : (after (.bringUpStep (fitting 52)) (sBoot 8)).f .HUB_BOOT_FAIL_WHY 0 = 1 ∧
    (after (.bringUpStep (fitting 48)) (sBoot 8)).f .HUB_BOOT_FAIL_WHY 0 = 2 ∧
    (after (.bringUpStep (fitting 50)) (sBoot 8)).f .HUB_BOOT_FAIL_WHY 0 = 3 ∧ (after (.bringUpStep []) (sBoot 8)).bootStep = 9 ∧
    (after .portWaitEnd (sBoot 10)).bootStep = 11 := by decide +kernel

theorem test_boot_rest : (sBoot 5).bootStep = 5 ∧ (sBoot 5).boot.refurb = false ∧ (sBoot 5).refit = [] ∧
    (sBoot 5).inMap 4 0 0 = false := by decide +kernel

/-- Region 0 in service. -/
def sRegion : State := put up0 [(.RGN_STATUS_STATE, 0, 2), (.RGN_CORE_MAP_PHYS, 0, 0x76543210)]

theorem test_slices : sRegion.usable 0 8 = true ∧ (after (.fittingSlice 0 3 true) sRegion).f .RGN_SLICES 0 = 1 ∧
    (after (.fittingSlice 0 3 false) sRegion).f .CORE_STATUS_STATE 3 = 4 ∧ (after (.fittingSlice 0 3 false) sRegion).usable 0 3 = false ∧
    (∀ k ∈ List.range 8, sRegion.physK 0 k ≠ 8) ∧ ((after (.fittingSlice 0 8 false) sRegion).ledgQ.map LedgEnt.type) = [7] := by decide +kernel

theorem test_resets : sRegion.coreInReset 3 = false ∧ (sRegion.sw (sRegion.swOf 3)).started = false ∧
    (after (.resetCore 0 3) sRegion).boot.resets = [(0, 3)] ∧
    (after (.resetCore 0 3) (put sRegion [(.CORE_STATUS_STATE, 3, 1)])).f .CORE_STATUS_STATE 3 = 6 ∧
    sameBut (put sRegion [(.CORE_STATUS_STATE, 3, 1)]) (after (.resetCore 0 3) (put sRegion [(.CORE_STATUS_STATE, 3, 1)])) [(.CORE_STATUS_STATE, 3)] ∧
    (after (.resetRegion 0) sRegion).regionInReset 0 = true ∧ (after (.resetRegion 0) sRegion).f .RGN_STATUS_STATE 0 = 0 := by decide +kernel

/-- Region 0 belongs to partition 1. -/
def sParted : State := put sRegion [(.HUB_PART_CFG_REGIONS, 1, 1), (.HUB_PART_CFG_ENABLE, 1, 1), (.CORE_ISSUED, 3, 9), (.CORE_ID_LOGICAL, 3, 3)]

theorem test_partitionReset : sParted.startedSws = [] ∧ (after (.partitionReset 1) sParted).boot.resets = [(2, 1)] ∧
    (after (.partitionReset 1) sParted).regionInReset 0 = true ∧ (after (.partitionReset 1) sParted).f .RGN_STATUS_STATE 0 = 0 := by decide +kernel

theorem test_resetComplete : (0, 3) ∈ (after (.resetCore 0 3) sParted).boot.resets ∧ FMap.get none sParted.switches 3 = none ∧
    (after (.resetComplete 0 3) (after (.resetCore 0 3) sParted)).boot.resets = [] ∧
    (after (.resetComplete 0 3) (after (.resetCore 0 3) sParted)).f .CORE_ISSUED 3 = 0 ∧
    (after (.resetComplete 0 3) (after (.resetCore 0 3) sParted)).f .CORE_ID_LOGICAL 3 = 3 := by decide +kernel

theorem test_flr : sTxn.boot.image = [] ∧ (after (.functionLevelReset 0) sTxn).f .TXN_STATUS_OPEN 0 = 0 ∧
    (after (.functionLevelReset 0) sTxn).txn 0 = { ({} : Txn) with next := (sTxn.txn 0).next } ∧
    (after (.functionLevelReset 2) sParted).boot.resets = [(3, 1)] := by decide +kernel

theorem test_link : (after (.linkStateChange 1 4 true) up0).f .HST_LINK_RATE 0 = 1 ∧ (after (.linkStateChange 1 4 true) up0).f .HST_LINK_FLIT 0 = 1 ∧
    (after (.linkStateChange 1 4 true) up0).f .HST_LINK_SLOW_SEEN 0 = 1 ∧ (after (.linkStateChange 1 4 true) up0).f .HST_INT_CAUSE_CAUSE 0 = 128 ∧
    (after (.linkStateChange 4 4 true) { up0 with clk := { up0.clk with refGone := true } }).f .HST_LINK_RATE 0 = 0 ∧
    (after (.ideKmRequest true) up0).f .HST_LINK_IDE_STREAMS 0 = 1 ∧
    (after (.ideKmRequest false) (after (.ideKmRequest true) up0)).f .HST_LINK_IDE_STREAMS 0 = 0 := by decide +kernel

end Sys2Proof.Tests
end

section
/-! SUPPORT. A command runs exactly when it is well formed (R5, R15). -/

namespace Sys2Proof.Proofs

open Sys2Proof.Machine Sys2Proof.Laws

/-- The guard lemmas of the single commands, as one. -/
theorem exec_guarded (c : Instr) (s : State) : ∃ f : State → State, exec c s = actAll c.wellFormed f s :=
  match c with
  | .registerWrite .. => Guard.registerWrite .. | .rcRead .. => Guard.rcRead .. | .nop .. => Guard.nop ..
  | .mma .. => Guard.mma .. | .tdld .. => Guard.tdld .. | .tdadd .. => Guard.tdadd .. | .cpy .. => Guard.cpy ..
  | .fence .. => Guard.fence .. | .sync .. => Guard.sync .. | .loop .. => Guard.loop ..
  | .stepend .. => Guard.stepend .. | .wstRelease .. => Guard.wstRelease ..
  | .fenceComplete .. => Guard.fenceComplete .. | .syncRelease .. => Guard.syncRelease ..
  | .stependDone .. => Guard.stependDone .. | .issueResume .. => Guard.issueResume ..
  | .arrayCycle .. => Guard.arrayCycle .. | .bobbinSwap .. => Guard.bobbinSwap ..
  | .loadShuttleStage .. => Guard.loadShuttleStage .. | .storeDrain .. => Guard.storeDrain ..
  | .cpyTransfer .. => Guard.cpyTransfer .. | .coreFault .. => Guard.coreFault .. | .vmap .. => Guard.vmap ..
  | .vfma .. => Guard.vfma .. | .vrow .. => Guard.vrow .. | .vnorm .. => Guard.vnorm .. | .vsmax .. => Guard.vsmax ..
  | .vrscRescale .. => Guard.vrscRescale .. | .vrscFinal .. => Guard.vrscFinal .. | .vrscClose .. => Guard.vrscClose ..
  | .vsti .. => Guard.vsti .. | .vdot .. => Guard.vdot .. | .vsbwd .. => Guard.vsbwd .. | .vloss .. => Guard.vloss ..
  | .vqnt .. => Guard.vqnt .. | .vpos .. => Guard.vpos .. | .vsetf .. => Guard.vsetf ..
  | .vectorChunk .. => Guard.vectorChunk .. | .scratchGrant .. => Guard.scratchGrant ..
  | .switchRequest .. => Guard.switchRequest .. | .coreSwitch .. => Guard.coreSwitch ..
  | .switchComplete .. => Guard.switchComplete .. | .schedule .. => Guard.schedule ..
  | .stepStart .. => Guard.stepStart .. | .preempt .. => Guard.preempt .. | .swatchReturn .. => Guard.swatchReturn ..
  | .stepBoundary .. => Guard.stepBoundary .. | .limpSwitch .. => Guard.limpSwitch .. | .packJob .. => Guard.packJob ..
  | .updateJob .. => Guard.updateJob .. | .foreignErrorPass .. => Guard.foreignErrorPass ..
  | .stepCommit .. => Guard.stepCommit .. | .pendingRowAppend .. => Guard.pendingRowAppend ..
  | .pendingRowApply .. => Guard.pendingRowApply .. | .closingHop .. => Guard.closingHop ..
  | .roundTrailerSend .. => Guard.roundTrailerSend .. | .trailer .. => Guard.trailer ..
  | .collectiveTimeout .. => Guard.collectiveTimeout .. | .holdNoticeTick .. => Guard.holdNoticeTick ..
  | .hold .. => Guard.hold .. | .agreeLocalise .. => Guard.agreeLocalise .. | .agreeRepair .. => Guard.agreeRepair ..
  | .stateTransferSend .. => Guard.stateTransferSend .. | .stateTransferDone .. => Guard.stateTransferDone ..
  | .hbmRequest .. => Guard.hbmRequest .. | .laneSwap .. => Guard.laneSwap .. | .patrolScrub .. => Guard.patrolScrub ..
  | .arbiterGrant .. => Guard.arbiterGrant .. | .pocketAccess .. => Guard.pocketAccess ..
  | .pocketZeroingDone .. => Guard.pocketZeroingDone .. | .pocketSweep .. => Guard.pocketSweep ..
  | .thermalSample .. => Guard.thermalSample .. | .stackFitSlice .. => Guard.stackFitSlice ..
  | .stackSliceResult .. => Guard.stackSliceResult .. | .alloc .. => Guard.alloc .. | .free .. => Guard.free ..
  | .promoteRequest .. => Guard.promoteRequest .. | .evict .. => Guard.evict .. | .pin .. => Guard.pin ..
  | .unpin .. => Guard.unpin .. | .query .. => Guard.query .. | .moveReserve .. => Guard.moveReserve ..
  | .moveCopyDone .. => Guard.moveCopyDone .. | .moveHold .. => Guard.moveHold .. | .holdAck .. => Guard.holdAck ..
  | .moveFlip .. => Guard.moveFlip .. | .moveFreeSource .. => Guard.moveFreeSource ..
  | .dirNotice .. => Guard.dirNotice .. | .translationFill .. => Guard.translationFill ..
  | .layerMark .. => Guard.layerMark .. | .stallLimit .. => Guard.stallLimit .. | .dirScrub .. => Guard.dirScrub ..
  | .flashProgram .. => Guard.flashProgram .. | .flashBudgetHour .. => Guard.flashBudgetHour ..
  | .tierT3Write .. => Guard.tierT3Write .. | .portDetect .. => Guard.portDetect .. | .portUp .. => Guard.portUp ..
  | .hello .. => Guard.hello .. | .flitReceive .. => Guard.flitReceive .. | .nak .. => Guard.nak ..
  | .replayTimeout .. => Guard.replayTimeout .. | .retrain .. => Guard.retrain ..
  | .signalLoss .. => Guard.signalLoss .. | .join .. => Guard.join .. | .leave .. => Guard.leave ..
  | .propose .. => Guard.propose .. | .announce .. => Guard.announce .. | .adopt .. => Guard.adopt ..
  | .clkstat .. => Guard.clkstat .. | .cmd .. => Guard.cmd .. | .proposeRetry .. => Guard.proposeRetry ..
  | .adoptTimeout .. => Guard.adoptTimeout .. | .joinResend .. => Guard.joinResend ..
  | .memberStrike .. => Guard.memberStrike .. | .collIssue .. => Guard.collIssue ..
  | .sequenceComplete .. => Guard.sequenceComplete .. | .runBarrier .. => Guard.runBarrier ..
  | .runPack .. => Guard.runPack .. | .runCollExchange .. => Guard.runCollExchange ..
  | .collReduceScatter .. => Guard.collReduceScatter .. | .collAllGather .. => Guard.collAllGather ..
  | .collAllReduce .. => Guard.collAllReduce .. | .collBroadcast .. => Guard.collBroadcast ..
  | .runTier .. => Guard.runTier .. | .runEnd .. => Guard.runEnd .. | .barrierStall .. => Guard.barrierStall ..
  | .resume .. => Guard.resume .. | .park .. => Guard.park .. | .partitionWrite .. => Guard.partitionWrite ..
  | .partitionChangeApply .. => Guard.partitionChangeApply .. | .descriptorWrite .. => Guard.descriptorWrite ..
  | .collDomCfgWrite .. => Guard.collDomCfgWrite .. | .collCmdJoin .. => Guard.collCmdJoin ..
  | .collCmdLeave .. => Guard.collCmdLeave .. | .collCmdRemove .. => Guard.collCmdRemove ..
  | .collCmdForce .. => Guard.collCmdForce .. | .sourceLaneLost .. => Guard.sourceLaneLost ..
  | .rampReached .. => Guard.rampReached .. | .rootLocked .. => Guard.rootLocked ..
  | .clockAcquire .. => Guard.clockAcquire .. | .reacquire .. => Guard.reacquire ..
  | .clkrefLost .. => Guard.clkrefLost .. | .dividerStep .. => Guard.dividerStep .. | .passStep .. => Guard.passStep ..
  | .voltageSettled .. => Guard.voltageSettled .. | .powerSample .. => Guard.powerSample ..
  | .pwrgdAssert .. => Guard.pwrgdAssert .. | .pwrgdDeassert .. => Guard.pwrgdDeassert ..
  | .perstAssert .. => Guard.perstAssert .. | .perstDeassert .. => Guard.perstDeassert ..
  | .bringUpStep .. => Guard.bringUpStep .. | .portWaitEnd .. => Guard.portWaitEnd ..
  | .fittingSlice .. => Guard.fittingSlice .. | .resetCore .. => Guard.resetCore ..
  | .resetRegion .. => Guard.resetRegion .. | .partitionReset .. => Guard.partitionReset ..
  | .moduleReset .. => Guard.moduleReset .. | .resetComplete .. => Guard.resetComplete ..
  | .functionLevelReset .. => Guard.functionLevelReset .. | .linkStateChange .. => Guard.linkStateChange ..
  | .intMaskWrite .. => Guard.intMaskWrite .. | .dpAddrWrite .. => Guard.dpAddrWrite ..
  | .dataPortAccess .. => Guard.dataPortAccess .. | .dpReadStall .. => Guard.dpReadStall ..
  | .jobBoardCheck .. => Guard.jobBoardCheck .. | .jobRun .. => Guard.jobRun .. | .jobTier .. => Guard.jobTier ..
  | .jobStop .. => Guard.jobStop .. | .slotRead .. => Guard.slotRead .. | .slotRelease .. => Guard.slotRelease ..
  | .begin .. => Guard.begin .. | .commit .. => Guard.commit .. | .rollback .. => Guard.rollback ..
  | .selectNext .. => Guard.selectNext .. | .clearNext .. => Guard.clearNext .. | .patWrite .. => Guard.patWrite ..
  | .patWriteDone .. => Guard.patWriteDone .. | .smbIdentity .. => Guard.smbIdentity ..
  | .smbStatus .. => Guard.smbStatus .. | .smbTemps .. => Guard.smbTemps .. | .smbPower .. => Guard.smbPower ..
  | .smbAlertRead .. => Guard.smbAlertRead .. | .smbAlertClear .. => Guard.smbAlertClear ..
  | .smbAlertMask .. => Guard.smbAlertMask .. | .smbLedgerIndex .. => Guard.smbLedgerIndex ..
  | .smbLedgerRead .. => Guard.smbLedgerRead .. | .smbAlertResponse .. => Guard.smbAlertResponse ..
  | .attest .. => Guard.attest .. | .spdmRequest .. => Guard.spdmRequest .. | .wipe .. => Guard.wipe ..
  | .refurbish .. => Guard.refurbish .. | .owner .. => Guard.owner .. | .commitSvn .. => Guard.commitSvn ..
  | .revokeF0 .. => Guard.revokeF0 .. | .rcvBegin .. => Guard.rcvBegin .. | .rcvDataWrite .. => Guard.rcvDataWrite ..
  | .rcvEnd .. => Guard.rcvEnd .. | .ledgerProgram .. => Guard.ledgerProgram ..
  | .ledgerPeriodic .. => Guard.ledgerPeriodic .. | .archive .. => Guard.archive ..
  | .illegalWord .. => Guard.illegalWord .. | .unitFault .. => Guard.unitFault ..
  | .moveHoldNotice .. => Guard.moveHoldNotice .. | .generationSpacingEnd .. => Guard.generationSpacingEnd ..
  | .resetDrainEnd .. => Guard.resetDrainEnd .. | .perBankRefresh .. => Guard.perBankRefresh ..
  | .clkrefReturn .. => Guard.clkrefReturn .. | .ideKmRequest .. => Guard.ideKmRequest ..

/-- The guard stops a command that is not well formed. -/
theorem actAll_illFormed {ok : Bool} (f : State → State) (s : State) (h : ok = false) :
    actAll ok f s = .fault .noSuchUnit := by
  simp [actAll, h]

/-- Settles O3: the guard in front of every command's meaning is its well-formedness, and nothing behind it faults. -/
theorem commandsRunIffWellFormed : Obligations.CommandsRunIffWellFormed := by
  intro c s
  obtain ⟨f, hexec⟩ := exec_guarded c s
  rw [hexec]
  exact ⟨fun hwf => ⟨_, actAll_run hwf⟩, actAll_illFormed f s⟩

end Sys2Proof.Proofs
end

section
/-! SUPPORT. What an access of the host comes to: its target, the checks in front of it, the fields it covers, and what a
read's clearing, a write of a mask and the note of a plain write leave alone (R10, R391, R392, R395, R421). -/

namespace Sys2Proof.Proofs

open Sys2Proof.Machine Sys2Proof.Laws

/-! Frames of register writes. -/

theorem sameRegs_refl (s : State) (l : List (FieldName × Nat)) : SameRegs s s l := fun _ _ _ => rfl

/-- A write of a listed field keeps the others. -/
theorem sameRegs_setF {s t : State} {l : List (FieldName × Nat)} {n : FieldName} {i : Nat} (h : SameRegs s t l) (v : Nat)
    (hl : (n, i) ∈ l) : SameRegs s (t.setF n i v) l := by
  intro m j hm
  rw [f_setF, if_neg (by rintro ⟨rfl, rfl⟩; exact hm hl)]
  exact h m j hm

theorem sameRegs_append {s t u : State} {l k : List (FieldName × Nat)} (h : SameRegs s t l) (h' : SameRegs t u k) :
    SameRegs s u (l ++ k) := by
  intro n i hn
  obtain ⟨hl, hk⟩ := not_or.1 (mt List.mem_append.2 hn)
  exact (h' n i hk).trans (h n i hl)

theorem sameRegs_wrap {s x : State} {l : List (FieldName × Nat)} (h : SameRegs (fresh s) x l) : SameRegs s (wrap s x) l := h

theorem sameRegs_wrapAll {s x : State} {l : List (FieldName × Nat)} (h : SameRegs (fresh s) x l) :
    SameRegs s (wrapAll s x) l := h

/-- What an operation that touches registers and output alone makes of the command. -/
theorem wrap_of_regsOut (s : State) {b x : State} (h : RegsOut b x) :
    wrap s x = { wrap s b with regs := x.regs, out := x.out } := by
  rw [h]; rfl

/-- A field read back after a write of a value that fits it. -/
theorem f_setF_fits (s : State) {n : FieldName} (i : Nat) {v : Nat} (hv : v < 2 ^ (fieldDesc n).width) :
    (s.setF n i v).f n i = v := by
  rw [f_setF_same, Nat.mod_eq_of_lt hv]

/-- A counter after it has advanced. -/
theorem f_tally_same (s : State) {n : FieldName} (i k : Nat) (hw : (fieldDesc n).width = 32) :
    (s.tally n i k).f n i = satAdd (s.f n i) k :=
  f_setF_fits s i (by rw [hw]; exact satAdd_lt _ _)

/-- The low bits of a word. -/
theorem bitAt_mod (v : Nat) {c w : Nat} (hc : c < w) : bitAt (v % 2 ^ w) c = bitAt v c := by
  rw [bitAt, Nat.testBit_mod_two_pow, decide_eq_true hc, Bool.true_and, bitAt]

/-! Accesses on the state that a command starts from. -/

@[simp] theorem reaches_fresh (s : State) (fn : Nat) (t : Target) : (fresh s).reaches fn t = s.reaches fn t := rfl
@[simp] theorem served_fresh (s : State) (fn : Nat) (t : Target) : (fresh s).served fn t = s.served fn t := rfl

theorem exec_registerWrite_up {s : State} {fn off size v : Nat} (hu : s.up) (hfn : fn < 9) (hoff : off < 0x10000000)
    (hsize : size ∈ [1, 2, 4, 8]) (hv : v < 2 ^ (8 * size)) :
    exec (.registerWrite fn off size v) s = .next (wrapAll s (registerWrite fn off size v (fresh s))) := by
  rw [exec_registerWrite, actAll_up _ hu]
  simp only [List.mem_cons, List.not_mem_nil, or_false] at hsize
  simp [hfn, hoff, hv, or_assoc, hsize]

theorem exec_rcRead_up {s : State} {fn off : Nat} (size e : Nat) (hu : s.up) (hfn : fn < 9) (hoff : off < 0x10000000) :
    exec (.rcRead fn off size e) s = .next (wrap s (regRead fn off size e (fresh s))) := by
  rw [exec_rcRead, act_up (by simp [hfn, hoff]) hu]

/-! The checks in front of an access (R391, R395). -/

theorem registerWrite_denied {s : State} {fn off size : Nat} (v : Nat)
    (h : aligned off size = false ∨ s.reaches fn (targetAt fn off) = false) :
    registerWrite fn off size v s = s.mmioDenied fn := by
  rcases h with h | h <;> simp [registerWrite, h]

theorem regRead_denied {s : State} {fn off size : Nat} (e : Nat)
    (h : aligned off size = false ∨ s.reaches fn (targetAt fn off) = false) :
    regRead fn off size e s = (s.mmioDenied fn).emit (.data 0) := by
  rcases h with h | h <;> simp [regRead, h]

theorem registerWrite_reg {s : State} {fn off size u o : Nat} {b : Block} (v : Nat) (hal : aligned off size = true)
    (ht : targetAt fn off = .reg b u o) (hr : s.reaches fn (.reg b u o) = true) (hs : s.served fn (.reg b u o) = true) :
    registerWrite fn off size v s = s.writeReg fn b u o off size v := by
  simp [registerWrite, hal, ht, hr, hs]

theorem registerWrite_board {s : State} {fn off size p o : Nat} (v : Nat) (hal : aligned off size = true)
    (ht : targetAt fn off = .board p o) (hr : s.reaches fn (.board p o) = true) (hs : s.served fn (.board p o) = true) :
    registerWrite fn off size v s =
      s.setStores { s.mem.st with jobs := Memory.write 0 s.mem.st.jobs (0x40000 * p + o) (leBytes v size) } := by
  simp [registerWrite, hal, ht, hr, hs]

theorem regRead_reg {s : State} {fn off size u o : Nat} {b : Block} (e : Nat) (hal : aligned off size = true)
    (ht : targetAt fn off = .reg b u o) (hr : s.reaches fn (.reg b u o) = true) (hs : s.served fn (.reg b u o) = true) :
    regRead fn off size e s =
      (s.readClears fn b u o off size e).emit (.data (part8 (s.regWord fn b u o) off size)) := by
  simp [regRead, hal, ht, hr, hs]

/-! The map of BAR0 (R394). -/

theorem targetAt_coreStatus {c : Nat} (fn : Nat) (hc : c < 384) :
    targetAt fn (0x1000000 + 4096 * c + 8) = .reg .core c 8 := by
  have hpage : (0x1000000 + 4096 * c + 8) / 4096 = 0x1000 + c := by omega
  have hin : (0x1000000 + 4096 * c + 8) % 4096 = 8 := by omega
  have hblock : pageBlock fn (0x1000 + c) = some (.core, c) := by
    have hne (k : Nat) (hk : k < 0x1000) : 0x1000 + c ≠ k := by omega
    have hfar (k : Nat) (hk : k ≤ 0x1000) : ¬ 0x1000 + c < k := by omega
    have hlast : 0x1000 + c < 0x1180 := by omega
    simp [pageBlock, hne, hfar, hlast]
  unfold targetAt
  rw [if_neg (by omega), if_neg (by simp; omega), if_neg (by simp; omega), hpage, hin, hblock]

theorem targetAt_board {p o : Nat} (fn : Nat) (hp : p < 8) (ho : o < 0x40000) :
    targetAt fn (0x2000000 + 0x40000 * p + o) = .board p o := by
  have hpart : (0x2000000 + 0x40000 * p + o - 0x2000000) / 0x40000 = p := by omega
  have hbyte : (0x2000000 + 0x40000 * p + o) % 0x40000 = o := by omega
  unfold targetAt
  rw [if_neg (by omega), if_pos (by simp; omega), hpart, hbyte]

/-! The fields of a register. -/

theorem block_of_fieldAt {d : FieldDesc} {b : Block} {u o j : Nat} (h : fieldAt d b u o = some j) : d.block = b := by
  by_contra hb
  simp [fieldAt, hb] at h

theorem block_of_mem_fieldsAt {b : Block} {u o : Nat} {p : FieldName × Nat} (h : p ∈ fieldsAt b u o) :
    (fieldDesc p.1).block = b := by
  obtain ⟨n, -, hn⟩ := List.mem_filterMap.1 h
  obtain ⟨j, hj, rfl⟩ := Option.map_eq_some_iff.1 hn
  exact block_of_fieldAt hj

/-- Outside the hubs all units of a block have the same registers. -/
theorem fieldsAt_unit {b : Block} (hb : b ≠ .hub) (u o : Nat) :
    fieldsAt b u o = (fieldsAt b 0 o).map (fun p => (p.1, (fieldDesc p.1).count * u + p.2)) := by
  have hat : ∀ d, fieldAt d b u o = fieldAt d b 0 o := by simp [fieldAt, hb]
  simp only [fieldsAt, hat, List.map_filterMap, Option.map_map, Function.comp_def, Nat.mul_zero, Nat.zero_add]

/-- A register whose fields have one copy in each unit. -/
theorem fieldsAt_single {b : Block} {o : Nat} {l : List FieldName} (hb : b ≠ .hub) (h : fieldsAt b 0 o = l.map (·, 0))
    (hcount : ∀ n ∈ l, (fieldDesc n).count = 1) (u : Nat) : fieldsAt b u o = l.map (·, u) := by
  rw [fieldsAt_unit hb, h, List.map_map]
  refine List.map_congr_left (fun n hn => ?_)
  simp [hcount n hn]

theorem fieldsAt_intMask (fn : Nat) : fieldsAt .hst fn 0x20 = [(.HST_INT_MASK_ENABLE, fn)] :=
  fieldsAt_single (l := [.HST_INT_MASK_ENABLE]) (by decide) (by decide +kernel) (by decide) fn

theorem fieldsAt_dpAddr (fn : Nat) : fieldsAt .dp fn 0 = [(.DP_ADDR_ADDR, fn)] :=
  fieldsAt_single (l := [.DP_ADDR_ADDR]) (by decide) (by decide +kernel) (by decide) fn

theorem fieldsAt_coreStatus (c : Nat) : fieldsAt .core c 8 =
    [(.CORE_STATUS_STATE, c), (.CORE_STATUS_REFUSED, c), (.CORE_STATUS_BROKEN, c), (.CORE_STATUS_LAST_REFUSAL, c),
      (.CORE_STATUS_SWATCH, c), (.CORE_STATUS_REFUSAL_PC, c)] :=
  fieldsAt_single (l := [.CORE_STATUS_STATE, .CORE_STATUS_REFUSED, .CORE_STATUS_BROKEN, .CORE_STATUS_LAST_REFUSAL,
    .CORE_STATUS_SWATCH, .CORE_STATUS_REFUSAL_PC]) (by decide) (by decide +kernel) (by decide) c

end Sys2Proof.Proofs
end

section
/-! SUPPORT. What a read clears (R10, R11, R257) and what a write of a register leaves alone (R392, R421). -/

namespace Sys2Proof.Proofs

open Sys2Proof.Machine Sys2Proof.Laws

/-! A read of RC fields. -/

/-- What a field reads as once a read has cleared it. -/
def clearedValue (n : FieldName) (events : Nat) : Nat :=
  satAdd (fieldDesc n).reset (if (fieldDesc n).width = 32 then events else 0) % 2 ^ (fieldDesc n).width

/-- The clearing of one field: the step of `State.readClears`. -/
def readClear (fn events : Nat) (t : State) (p : FieldName × Nat) : State :=
  let t := t.setF p.1 (heldIndex fn p.1 p.2)
    (satAdd (fieldDesc p.1).reset (if (fieldDesc p.1).width = 32 then events else 0))
  if p.1 = .BASE_TEMP_PEAK then t.setStack p.2 { t.stack p.2 with sampled := false } else t

theorem readClears_eq (s : State) (fn : Nat) (b : Block) (u o off size events : Nat) :
    s.readClears fn b u o off size events =
      ((fieldsAt b u o).filter (fun p => (fieldDesc p.1).access = .RC && covers off size (fieldDesc p.1))).foldl
        (readClear fn events) s := rfl

theorem readClear_f (fn events : Nat) (t : State) (p : FieldName × Nat) (n : FieldName) (i : Nat) :
    (readClear fn events t p).f n i =
      if p.1 = n ∧ heldIndex fn p.1 p.2 = i then clearedValue p.1 events else t.f n i := by
  unfold readClear clearedValue
  dsimp only
  split
  · rw [setStack_eq, f_read_setMem, f_setF]
  · rw [f_setF]

/-- Two states that differ in registers and in whether a stack's temperature has been sampled since its peak was read. -/
def RegsSampled (s t : State) : Prop :=
  t = { s with regs := t.regs, mem := { s.mem with stackDies := t.mem.stackDies } } ∧
    ∀ st, t.stack st = { s.stack st with sampled := (t.stack st).sampled }

theorem RegsSampled.refl (s : State) : RegsSampled s s := ⟨rfl, fun _ => rfl⟩

theorem RegsSampled.trans {s t u : State} (h : RegsSampled s t) (k : RegsSampled t u) : RegsSampled s u := by
  refine ⟨?_, fun st => ?_⟩
  · rw [k.1, h.1]
  · rw [k.2 st, h.2 st]

theorem readClear_regsSampled (fn events : Nat) (t : State) (p : FieldName × Nat) :
    RegsSampled t (readClear fn events t p) := by
  unfold readClear
  dsimp only
  split
  · refine ⟨rfl, fun st => ?_⟩
    simp only [setStack_eq, State.stack, mem_setMem, mem_setF, get_set]
    by_cases h : p.2 = st
    · subst h; simp
    · simp [h]
  · exact ⟨rfl, fun _ => rfl⟩

theorem readClears_regsSampled (s : State) (fn : Nat) (b : Block) (u o off size events : Nat) :
    RegsSampled s (s.readClears fn b u o off size events) := by
  rw [readClears_eq]
  exact List.foldlRecOn _ _ (RegsSampled.refl s) (fun t ht p _ => ht.trans (readClear_regsSampled fn events t p))

/-- Only base dies hold a peak. -/
theorem readClears_stackDies (s : State) {fn : Nat} {b : Block} {u o off size events : Nat} (hb : b ≠ .base) :
    (s.readClears fn b u o off size events).mem.stackDies = s.mem.stackDies := by
  rw [readClears_eq]
  refine List.foldlRecOn (motive := fun t : State => t.mem.stackDies = s.mem.stackDies) _ _ rfl (fun t ht p hp => ?_)
  have hpeak : p.1 ≠ .BASE_TEMP_PEAK := by
    intro hp1
    have hblock := block_of_mem_fieldsAt (List.mem_filter.1 hp).1
    rw [hp1] at hblock
    exact hb hblock.symm
  simpa [readClear, hpeak] using ht

/-- A field that no step clears keeps its value. -/
theorem readClears_f_other (s : State) {fn : Nat} {b : Block} {u o : Nat} (off size events : Nat) {n : FieldName} {i : Nat}
    (h : (fieldDesc n).access ≠ .RC ∨ ∀ p ∈ fieldsAt b u o, (n, i) ≠ (p.1, heldIndex fn p.1 p.2)) :
    (s.readClears fn b u o off size events).f n i = s.f n i := by
  rw [readClears_eq]
  refine List.foldlRecOn (motive := fun t : State => t.f n i = s.f n i) _ _ rfl (fun t ht p hp => ?_)
  obtain ⟨hmem, hsel⟩ := List.mem_filter.1 hp
  have hne : ¬ (p.1 = n ∧ heldIndex fn p.1 p.2 = i) := by
    rintro ⟨rfl, rfl⟩
    rcases h with h | h
    · simp [h] at hsel
    · exact h p hmem rfl
  rw [readClear_f, if_neg hne, ht]

/-- A field once cleared stays so while further fields are cleared. -/
theorem foldl_readClear_f (fn events : Nat) (l : List (FieldName × Nat)) (s : State) {p : FieldName × Nat} (hp : p ∈ l) :
    (l.foldl (readClear fn events) s).f p.1 (heldIndex fn p.1 p.2) = clearedValue p.1 events := by
  obtain ⟨l₁, l₂, rfl⟩ := List.append_of_mem hp
  rw [List.foldl_append, List.foldl_cons]
  refine List.foldlRecOn (motive := fun t : State => t.f p.1 (heldIndex fn p.1 p.2) = clearedValue p.1 events) _ _ ?_
    (fun t ht q _ => ?_)
  · rw [readClear_f, if_pos ⟨rfl, rfl⟩]
  · rw [readClear_f]
    split
    case isTrue h => rw [h.1]
    case isFalse => exact ht

theorem readClears_f_cleared (s : State) (fn : Nat) {b : Block} {u o off size : Nat} (events : Nat) {p : FieldName × Nat}
    (hp : p ∈ fieldsAt b u o) (hrc : (fieldDesc p.1).access = .RC) (hcov : covers off size (fieldDesc p.1) = true) :
    (s.readClears fn b u o off size events).f p.1 (heldIndex fn p.1 p.2) = clearedValue p.1 events := by
  rw [readClears_eq]
  exact foldl_readClear_f fn events _ s (List.mem_filter.2 ⟨hp, by simp [hrc, hcov]⟩)

/-! A write of a register. -/

/-- Noting a plain write changes transactions alone. -/
theorem noteWrite_txns (s : State) (fns : List Nat) (dev : Bool) (a : Nat) :
    s.noteWrite fns dev a = { s with txns := (s.noteWrite fns dev a).txns } := by
  unfold State.noteWrite
  refine List.foldlRecOn (motive := fun t : State => t = { s with txns := t.txns }) _ _ rfl (fun t ht fn _ => ?_)
  dsimp only
  split
  · exact ht
  · rw [ht]; rfl

theorem noteWrite_f (s : State) (fns : List Nat) (dev : Bool) (a : Nat) (n : FieldName) (i : Nat) :
    (s.noteWrite fns dev a).f n i = s.f n i := by
  rw [noteWrite_txns]; rfl

theorem noteWrite_out (s : State) (fns : List Nat) (dev : Bool) (a : Nat) : (s.noteWrite fns dev a).out = s.out := by
  rw [noteWrite_txns]

theorem noteWrite_dp (s : State) (fns : List Nat) (dev : Bool) (a fn : Nat) : (s.noteWrite fns dev a).dp fn = s.dp fn := by
  rw [noteWrite_txns]; rfl

theorem clearWritten_of_noW1C (s : State) (fn : Nat) {fs : List (FieldName × Nat)} (w : Nat)
    (h : ∀ p ∈ fs, (fieldDesc p.1).access ≠ .W1C) : s.clearWritten fn fs w = s := by
  have hnone : fs.filter (fun p => (fieldDesc p.1).access = .W1C) = [] := by simpa [List.filter_eq_nil_iff] using h
  simp [State.clearWritten, hnone]

/-- A whole write of a function's own register with one RW field, which no transaction stages: the write, noted. -/
theorem writeReg_own (s : State) (fn : Nat) {b : Block} {u o : Nat} {n : FieldName} (off v : Nat)
    (hown : b = .hst ∨ b = .dp)
    (hfield : fieldsAt b u o = [(n, u)]) (hrw : (fieldDesc n).access = .RW) :
    s.writeReg fn b u o off 8 v = (s.writeRw fn b u o v).noteWrite allFns false (off - off % 8) := by
  have hstage : stageable b u o = false := by rcases hown with rfl | rfl <;> simp [stageable]
  have hmay : s.mayWrite fn b o v = true := by rcases hown with rfl | rfl <;> simp [State.mayWrite]
  have hcmd (t : State) (w : Nat) (whole : Bool) : t.command fn b u o w whole = t := by rcases hown with rfl | rfl <;> rfl
  have hany : (fieldsAt b u o).any (fun p => (fieldDesc p.1).access = .RW) = true := by simp [hfield, hrw]
  have hw1c : ∀ p ∈ fieldsAt b u o, (fieldDesc p.1).access ≠ .W1C := by simp [hfield, hrw]
  simp only [State.writeReg, hstage, hmay, hany, hcmd, Bool.and_false, Bool.not_true, Bool.false_eq_true, if_true, if_false]
  exact clearWritten_of_noW1C _ _ _ hw1c

/-- REFUSED written as 1 is cleared, and LAST_REFUSAL with it (R86). -/
theorem clearWritten_refused (s : State) (c : Nat) : s.clearWritten 0 (fieldsAt .core c 8) 8 =
    (s.setF .CORE_STATUS_REFUSED c 0).setF .CORE_STATUS_LAST_REFUSAL c 0 := by
  have hbits : s.clearWritten 0 (fieldsAt .core c 8) 8 =
      (s.setF .CORE_STATUS_REFUSED c (s.f .CORE_STATUS_REFUSED c &&& 0)).setF .CORE_STATUS_LAST_REFUSAL c 0 := by
    rw [fieldsAt_coreStatus]; rfl
  rw [hbits, Nat.and_zero]

theorem writeReg_refused (s : State) {c at8 : Nat} (hat : at8 % 8 = 0) :
    s.writeReg 0 .core c 8 at8 8 8 = (s.setF .CORE_STATUS_REFUSED c 0).setF .CORE_STATUS_LAST_REFUSAL c 0 := by
  have hstage : stageable .core c 8 = false := by rw [stageable, fieldsAt_coreStatus]; rfl
  have hrw : (fieldsAt .core c 8).any (fun p => (fieldDesc p.1).access = .RW) = false := by rw [fieldsAt_coreStatus]; rfl
  have hmay : s.mayWrite 0 .core 8 8 = true := rfl
  have hcmd (t : State) (w : Nat) (whole : Bool) : t.command 0 .core c 8 w whole = t := rfl
  simp only [State.writeReg, hstage, hrw, hmay, hcmd, coverLo, hat, Bool.and_false, Bool.not_true, Bool.false_eq_true,
    if_false, if_true]
  exact clearWritten_refused s c

theorem writeRw_intMask (s : State) (fn v : Nat) : s.writeRw fn .hst fn 0x20 v = s.writeMask fn (bitField v 0 8) := rfl

theorem writeRw_dpAddr (s : State) (fn v : Nat) :
    s.writeRw fn .dp fn 0 v = s.setDp fn { s.dp fn with row := v % 2 ^ 52, off := 0 } := rfl

/-! A write of HST_INT_MASK. -/

/-- The message that cause `c` of a function sends. -/
def causeMessage (s : State) (fn c : Nat) : Out :=
  let w := s.sub .HST_INT_VEC_VEC fn (6 * c) 6
  .msix fn (if fn ≠ 0 && 8 ≤ w then 0 else w)

theorem causeMessage_congr {s t : State} {fn : Nat} (h : s.f .HST_INT_VEC_VEC fn = t.f .HST_INT_VEC_VEC fn) (c : Nat) :
    causeMessage s fn c = causeMessage t fn c := by
  unfold causeMessage State.sub
  rw [h]

theorem sendCause_keeps_out (s : State) (fn c : Nat) {m : Out} (h : m ∈ s.out) : m ∈ (sendCause s fn c).out := by
  unfold sendCause
  split
  · exact List.mem_append_left _ h
  · exact h

theorem sendCause_out {s : State} {fn c : Nat} (hset : bitAt (s.f .HST_INT_CAUSE_CAUSE fn) c = true)
    (hen : bitAt (s.f .HST_INT_MASK_ENABLE fn) c = true) : causeMessage s fn c ∈ (sendCause s fn c).out := by
  simp [sendCause, causeMessage, hset, hen]

/-- Sending of the causes that a mask of old had closed: the step of `State.writeMask`. -/
def sendOpened (fn old : Nat) (t : State) (c : Nat) : State := if bitAt old c then t else sendCause t fn c

theorem writeMask_eq (s : State) (fn v : Nat) : s.writeMask fn v =
    (List.range 8).foldl (sendOpened fn (s.f .HST_INT_MASK_ENABLE fn)) (s.setF .HST_INT_MASK_ENABLE fn v) := rfl

theorem sendOpened_regsOut (fn old : Nat) (t : State) (c : Nat) : RegsOut t (sendOpened fn old t c) := by
  unfold sendOpened
  split
  · exact RegsOut.refl t
  · exact sendCause_regsOut t fn c

theorem sendOpened_f (fn old : Nat) (t : State) (c : Nat) (n : FieldName) (i : Nat) :
    (sendOpened fn old t c).f n i = t.f n i := by
  unfold sendOpened
  split
  · rfl
  · exact sendCause_f t fn c n i

theorem sendOpened_keeps_out (fn old : Nat) (t : State) (c : Nat) {m : Out} (h : m ∈ t.out) :
    m ∈ (sendOpened fn old t c).out := by
  unfold sendOpened
  split
  · exact h
  · exact sendCause_keeps_out t fn c h

theorem writeMask_regsOut (s : State) (fn v : Nat) : RegsOut s (s.writeMask fn v) := by
  rw [writeMask_eq]
  exact ((RegsOut.refl s).setF _ _ _).trans (foldl_regsOut _ _ (sendOpened_regsOut fn _) _)

theorem writeMask_f (s : State) (fn v : Nat) (n : FieldName) (i : Nat) :
    (s.writeMask fn v).f n i = (s.setF .HST_INT_MASK_ENABLE fn v).f n i := by
  rw [writeMask_eq]
  exact foldl_f _ _ n i (fun t c => sendOpened_f fn _ t c n i) _

/-- A cause that was closed, is opened and is set sends its message. -/
theorem writeMask_out {s : State} {fn v c : Nat} (hc : c < 8) (hold : bitAt (s.f .HST_INT_MASK_ENABLE fn) c = false)
    (hnew : bitAt v c = true) (hset : bitAt (s.f .HST_INT_CAUSE_CAUSE fn) c = true) :
    causeMessage s fn c ∈ (s.writeMask fn v).out := by
  rw [writeMask_eq]
  obtain ⟨l₁, l₂, hl⟩ := List.append_of_mem (List.mem_range.2 hc)
  rw [hl, List.foldl_append, List.foldl_cons]
  refine List.foldlRecOn (motive := fun t : State => causeMessage s fn c ∈ t.out) _ _ ?_
    (fun t ht d _ => sendOpened_keeps_out fn _ t d ht)
  have hf (n : FieldName) (i : Nat) := foldl_f l₁ (sendOpened fn (s.f .HST_INT_MASK_ENABLE fn)) n i
    (fun t d => sendOpened_f fn _ t d n i) (s.setF .HST_INT_MASK_ENABLE fn v)
  have hcause := (hf .HST_INT_CAUSE_CAUSE fn).trans (f_setF s _ fn v _ fn)
  have hvec := (hf .HST_INT_VEC_VEC fn).trans (f_setF s _ fn v _ fn)
  have hmask := (hf .HST_INT_MASK_ENABLE fn).trans (f_setF_same s _ fn v)
  rw [if_neg (by simp)] at hcause hvec
  have hopen : bitAt (v % 2 ^ (fieldDesc .HST_INT_MASK_ENABLE).width) c = true := (bitAt_mod v hc).trans hnew
  rw [causeMessage_congr hvec.symm, sendOpened, if_neg (by simp [hold])]
  exact sendCause_out (by rw [hcause]; exact hset) (by rw [hmask]; exact hopen)

end Sys2Proof.Proofs
end

section
/-! SUPPORT. The data port (R399, R400): one lemma for each thing that a port does with its front request. -/

namespace Sys2Proof.Proofs

open Sys2Proof.Machine Sys2Proof.Laws

/-! Moving a unit, and counting one that fails. -/

/-- The port after a unit: the next offset, or with the last unit of a row the next row (R399). -/
theorem dpNext_dp (s : State) (fn : Nat) : (s.dpNext fn).dp fn =
    if 8 * s.f .DP_COUNT_COUNT fn ≠ 0 ∧ (s.dp fn).off + 8 = 8 * s.f .DP_COUNT_COUNT fn then
      { s.dp fn with row := ((s.dp fn).row + 8 * s.f .DP_STRIDE_STRIDE fn) % 2 ^ 52, off := 0 }
    else { s.dp fn with off := (s.dp fn).off + 8 } := by
  simp [State.dpNext]

theorem dpNext_f (s : State) (fn : Nat) (n : FieldName) (i : Nat) :
    (s.dpNext fn).f n i = (s.tally .DP_DONE fn 1).f n i := rfl

theorem out_dpNext (s : State) (fn : Nat) : (s.dpNext fn).out = s.out := rfl

theorem out_dpErr (s : State) (fn why : Nat) : (s.dpErr fn why).out = s.out := rfl

/-- A unit that fails is counted, flagged and its reason shown. -/
theorem dpErr_fields (s : State) (fn : Nat) {why : Nat} (hwhy : why < 8) :
    (s.dpErr fn why).f .DP_ERR fn = satAdd (s.f .DP_ERR fn) 1 ∧ (s.dpErr fn why).f .DP_STATUS_ERR_SEEN fn = 1 ∧
      (s.dpErr fn why).f .DP_STATUS_LAST_ERR fn = why := by
  unfold State.dpErr
  refine ⟨?_, ?_, f_setF_fits _ fn hwhy⟩
  · rw [f_setF, if_neg (by simp), raise_eq, f_setF, if_neg (by simp), f_tally_same s fn 1 rfl]
  · rw [f_setF, if_neg (by simp), raise_eq, f_setF_fits _ fn (by decide)]

theorem dpErr_sameRegs (s : State) (fn why : Nat) :
    SameRegs s (s.dpErr fn why) [(.DP_ERR, fn), (.DP_STATUS_ERR_SEEN, fn), (.DP_STATUS_LAST_ERR, fn)] :=
  sameRegs_setF (sameRegs_setF (sameRegs_setF (sameRegs_refl s _) _ (by simp)) 1 (by simp)) why (by simp)

theorem dpNext_sameRegs (s : State) (fn : Nat) : SameRegs s (s.dpNext fn) [(.DP_DONE, fn)] :=
  sameRegs_setF (t := s.setDp fn _) (sameRegs_refl s _) _ (by simp)

/-! The steps of the port. -/

theorem dpRun_unit {s t : State} {fn v x : Nat} {vs : List Nat} {r : DpReq} {rest : List DpReq} (n : Nat)
    (hreq : (s.dp fn).reqs = r :: rest) (hunit : r.units = v :: vs) (hfront : s.dpFront fn r v = (t, some x)) :
    s.dpRun fn (n + 1) = ((t.dpNext fn).setDp fn { (t.dpNext fn).dp fn with
      reqs := { r with units := vs, got := r.got ++ [x], since := 0 } :: rest }).dpRun fn n := by
  simp [State.dpRun, hreq, hunit, hfront]

theorem dpRun_end {s : State} {fn : Nat} {r : DpReq} {rest : List DpReq} (n : Nat) (hreq : (s.dp fn).reqs = r :: rest)
    (hunit : r.units = []) : s.dpRun fn (n + 1) = (s.dpEnd fn r rest).dpRun fn n := by
  simp [State.dpRun, hreq, hunit]

/-- A port without requests has nothing to go on with. -/
theorem dpGo_idle {s : State} {fn : Nat} (h : (s.dp fn).reqs = []) : s.dpGo fn = s := by
  simp [State.dpGo, Dp.work, h, State.dpRun]

theorem emit_all (s : State) (l : List Nat) :
    l.foldl (fun t v => t.emit (.data v)) s = { s with out := s.out ++ l.map Out.data } := by
  induction l generalizing s with
  | nil => simp
  | cons v l ih => rw [List.foldl_cons, ih]; simp [State.emit]

/-- A read that is over returns its units. -/
theorem dpEnd_read (s : State) (fn : Nat) {r : DpReq} (rest : List DpReq) (hr : r.write = false) :
    s.dpEnd fn r rest =
      { s.setDp fn { s.dp fn with reqs := rest } with out := s.out ++ r.got.map Out.data } := by
  simp [State.dpEnd, hr, emit_all]

theorem dpEnd_rest (s : State) (fn : Nat) {r : DpReq} (rest : List DpReq) (hr : r.write = false) :
    s.dpEnd fn r rest = { s with out := s.out ++ r.got.map Out.data, dps := (s.dpEnd fn r rest).dps } := by
  rw [dpEnd_read s fn rest hr]
  rfl

theorem dpEnd_dp (s : State) (fn : Nat) {r : DpReq} (rest : List DpReq) (hr : r.write = false) :
    (s.dpEnd fn r rest).dp fn = { s.dp fn with reqs := rest } := by
  rw [dpEnd_read s fn rest hr]
  exact dp_setDp_same _ _ _

theorem dpEnd_reqs (s : State) (fn : Nat) {r : DpReq} (rest : List DpReq) (hr : r.write = false) :
    ((s.dpEnd fn r rest).dp fn).reqs = rest := by
  rw [dpEnd_dp s fn rest hr]

/-- A port's one request, a read of one unit that does not wait: the unit moves and is returned. -/
theorem dpGo_read_one {s : State} {fn v x : Nat} {whole : Bool} {since : Nat}
    (hreq : (s.dp fn).reqs = [⟨false, [v], [], whole, since⟩])
    (hfront : s.dpFront fn ⟨false, [v], [], whole, since⟩ v = (s, some x)) :
    (s.dpGo fn).dp fn = { (s.dpNext fn).dp fn with reqs := [] } ∧
      s.dpGo fn = { s.dpNext fn with out := s.out ++ [.data x], dps := (s.dpGo fn).dps } := by
  have hwork : (s.dp fn).work = 1 + 1 := by simp [Dp.work, hreq]
  rw [State.dpGo, hwork, dpRun_unit 1 hreq rfl hfront, dpRun_end 0 (by rw [dp_setDp_same]) rfl, State.dpRun]
  exact ⟨by rw [dpEnd_dp _ _ _ rfl, dp_setDp_same], dpEnd_rest _ _ _ rfl⟩

/-- A function's port with one request, an aligned read of one unit. -/
def oneRead (s : State) (fn : Nat) : State := s.setDp fn { s.dp fn with reqs := [⟨false, [0], [], true, 0⟩] }

theorem dp_oneRead (s : State) (fn : Nat) : (oneRead s fn).dp fn = { s.dp fn with reqs := [⟨false, [0], [], true, 0⟩] } :=
  dp_setDp_same _ _ _

/-- An aligned read of one unit at an idle port is its one request. -/
theorem dataPortAccess_oneRead {s : State} {fn off : Nat} (x : Nat) (hal : off % 8 = 0) (hreq : (s.dp fn).reqs = []) :
    dataPortAccess fn false off [x] s = (oneRead s fn).dpGo fn := by
  simp [dataPortAccess, hal, hreq, oneRead]

/-- The port after its one request: idle, at the next unit. -/
theorem dpNext_oneRead {s : State} {fn : Nat} (hreq : (s.dp fn).reqs = []) :
    { ((oneRead s fn).dpNext fn).dp fn with reqs := [] } =
      if 8 * s.f .DP_COUNT_COUNT fn ≠ 0 ∧ (s.dp fn).off + 8 = 8 * s.f .DP_COUNT_COUNT fn then
        { s.dp fn with row := ((s.dp fn).row + 8 * s.f .DP_STRIDE_STRIDE fn) % 2 ^ 52, off := 0 }
      else { s.dp fn with off := (s.dp fn).off + 8 } := by
  have hf : (oneRead s fn).f = s.f := rfl
  rw [dpNext_dp, dp_oneRead, hf]
  split <;> simp [hreq]

/-- The front unit of a whole read moves as its address has it. -/
theorem dpFront_read {s t : State} {fn a v x : Nat} {r : DpReq} (hwhole : r.whole = true) (hread : r.write = false)
    (ha : a = ((s.dp fn).row + (s.dp fn).off) % 2 ^ 52) (hunit : s.dpUnit fn a false v = .done t x) :
    s.dpFront fn r v = (t, some x) := by
  subst ha
  simp only [State.dpFront, hwhole, hread, hunit, Bool.not_true, Bool.false_and, Bool.false_eq_true, if_false]

/-- A unit at an even place of the directory, read by the physical function: the first half of an entry (R398). -/
theorem dpUnit_dir {s : State} {a : Nat} (v : Nat) (hstep : s.f .HUB_BOOT_STEP 0 ≠ 14) (hlo : dirBase ≤ a)
    (hhi : a < dirBase + 0x80000000) (hal : a % 16 = 0) :
    s.dpUnit 0 a false v = .done s ((s.dirE ((a - dirBase) / 16)).bits % 2 ^ 64) := by
  have hdirBase : dirBase = 0xF000080000000 := rfl
  have hdescBase : descBase = 0xF000000000000 := rfl
  have hoff : (a - dirBase) % 16 = 0 := by omega
  have hdir : s.dpDir 0 a false = .done s ((s.dirE ((a - dirBase) / 16)).bits % 2 ^ 64) := by
    have hhalf (lower upper : Nat) : bitField (lower + 2 ^ 128 * upper) (8 * 0) 64 = lower % 2 ^ 64 := by
      simp only [bitField, Nat.mul_zero, Nat.shiftRight_zero]
      omega
    simp only [State.dpDir, hoff, hhalf, ne_eq, not_true_eq_false, decide_false, Bool.or_self, Bool.false_eq_true,
      if_false]
  have hdesc : ¬ (decide (descBase ≤ a) && decide (a + 8 ≤ descBase + 0x1000000)) = true := by
    simp only [Bool.and_eq_true, decide_eq_true_eq]
    omega
  have hin : (decide (dirBase ≤ a) && decide (a + 8 ≤ dirBase + 0x80000000)) = true := by
    simp only [Bool.and_eq_true, decide_eq_true_eq]
    omega
  rw [State.dpUnit, if_neg hstep, if_neg (by omega), if_neg hdesc, if_pos hin, hdir]

/-- A stalled read of one unit ends with zero in it, and the port is idle (R400). -/
theorem dpReadStall_one {s : State} {fn x : Nat} {r : DpReq} (hreq : (s.dp fn).reqs = [r]) (hread : r.write = false)
    (hunit : r.units = [x]) (hsince : r.since ≠ 0)
    (hlimit : msec (natMin (natMax (s.f .TIER_CFG_STALL_LIMIT 0) 1) 10000) < s.now + 1 - r.since) :
    ((dpReadStall fn s).dp fn).reqs = [] ∧
      dpReadStall fn s = { (s.dpErr fn 4).dpNext fn with
        out := s.out ++ (r.got ++ [0]).map Out.data, dps := (dpReadStall fn s).dps } := by
  have hrun : dpReadStall fn s = ((s.dpErr fn 4).dpNext fn).dpEnd fn { r with got := r.got ++ [0] } [] := by
    simp only [dpReadStall, hreq, hread, hunit, hsince, Nat.not_le.2 hlimit, decide_false, Bool.or_false, if_false,
      Bool.false_eq_true]
    exact dpGo_idle (dpEnd_reqs _ _ _ rfl)
  rw [hrun, ← out_dpErr s fn 4, ← out_dpNext]
  exact ⟨dpEnd_reqs _ _ _ hread, dpEnd_rest _ _ _ hread⟩

end Sys2Proof.Proofs
end

section
/-! SUPPORT. The host link (R386, R389). -/

namespace Sys2Proof.Proofs

open Sys2Proof.Machine Sys2Proof.Laws

/-! Interrupts (R392). -/

theorem bitAt_putBit (v c : Nat) : bitAt (putBit v c true) c = true := by
  have hlow : v % 2 ^ c < 2 ^ c := Nat.mod_lt _ (Nat.two_pow_pos c)
  have hsplit : putBit v c true = v % 2 ^ c + 2 ^ c * (1 + 2 * (v >>> (c + 1))) := by
    simp only [putBit, setBits, if_true, pow_succ]
    ring
  rw [hsplit, bitAt, Nat.testBit_eq_decide_div_mod_eq, Nat.add_mul_div_left _ _ (Nat.two_pow_pos c), Nat.div_eq_of_lt hlow]
  simp

theorem interrupt_sameRegs (s : State) (fn c : Nat) : SameRegs s (s.interrupt fn c) [(.HST_INT_CAUSE_CAUSE, fn)] := by
  unfold State.interrupt
  split
  · intro n i hn
    rw [sendCause_f]
    exact sameRegs_setF (sameRegs_refl s _) _ (by simp) n i hn
  · exact sameRegs_refl s _

/-- A cause of the physical function is set. -/
theorem interrupt_cause (s : State) {c : Nat} (hc : c < 8) :
    bitAt ((s.interrupt 0 c).f .HST_INT_CAUSE_CAUSE 0) c = true := by
  rw [State.interrupt, if_pos (by simp), sendCause_f, f_setF_same]
  exact (bitAt_mod _ hc).trans (bitAt_putBit _ c)

/-! The link's state. -/

/-- The link shows what it trained to: `State.setLink` before a slow link is flagged. -/
def linkShown (s : State) (rate width : Nat) (flit : Bool) : State :=
  { ((s.setF .HST_LINK_RATE 0 rate).setF .HST_LINK_WIDTH 0 width).setF .HST_LINK_FLIT 0 (flagBit flit) with
    hostLink := decide (rate ≠ 0) }

theorem setLink_eq (s : State) (rate width : Nat) (flit : Bool) : s.setLink rate width flit =
    if rate = 1 then ((linkShown s rate width flit).raise .HST_LINK_SLOW_SEEN 0).interrupt 0 7
    else linkShown s rate width flit := rfl

theorem linkShown_f (s : State) (rate width : Nat) (flit : Bool) (n : FieldName) (i : Nat) :
    (linkShown s rate width flit).f n i =
      (((s.setF .HST_LINK_RATE 0 rate).setF .HST_LINK_WIDTH 0 width).setF .HST_LINK_FLIT 0 (flagBit flit)).f n i := rfl

theorem linkShown_fields (s : State) {rate width : Nat} (flit : Bool) (hrate : rate < 8) (hwidth : width < 8) :
    (linkShown s rate width flit).f .HST_LINK_RATE 0 = rate ∧ (linkShown s rate width flit).f .HST_LINK_WIDTH 0 = width ∧
      (linkShown s rate width flit).f .HST_LINK_FLIT 0 = flagBit flit := by
  have hflit : flagBit flit < 2 ^ 1 := by cases flit <;> decide
  refine ⟨?_, ?_, f_setF_fits _ 0 hflit⟩
  · rw [linkShown_f, f_setF, if_neg (by simp), f_setF, if_neg (by simp)]
    exact f_setF_fits s 0 hrate
  · rw [linkShown_f, f_setF, if_neg (by simp)]
    exact f_setF_fits _ 0 hwidth

theorem linkShown_sameRegs (s : State) (rate width : Nat) (flit : Bool) :
    SameRegs s (linkShown s rate width flit) [(.HST_LINK_RATE, 0), (.HST_LINK_WIDTH, 0), (.HST_LINK_FLIT, 0)] :=
  sameRegs_setF (sameRegs_setF (sameRegs_setF (sameRegs_refl s _) rate (by simp)) width (by simp)) (flagBit flit) (by simp)

/-- Flagging a slow link touches its flag and the host's cause alone. -/
theorem setLink_sameRegs (s : State) (rate width : Nat) (flit : Bool) :
    SameRegs (linkShown s rate width flit) (s.setLink rate width flit)
      (if rate = 1 then [(.HST_LINK_SLOW_SEEN, 0), (.HST_INT_CAUSE_CAUSE, 0)] else []) := by
  rw [setLink_eq]
  split
  · exact sameRegs_append (l := [(.HST_LINK_SLOW_SEEN, 0)]) (sameRegs_setF (sameRegs_refl _ _) 1 (by simp))
      (interrupt_sameRegs _ 0 7)
  · exact sameRegs_refl _ _

theorem setLink_f (s : State) (rate width : Nat) (flit : Bool) {n : FieldName} (h : n ≠ .HST_LINK_SLOW_SEEN)
    (h' : n ≠ .HST_INT_CAUSE_CAUSE) : (s.setLink rate width flit).f n 0 = (linkShown s rate width flit).f n 0 :=
  setLink_sameRegs s rate width flit n 0 (by split <;> simp [h, h'])

/-- A slow link is flagged, and the physical function's cause LINK is set (R389). -/
theorem setLink_slow (s : State) (width : Nat) (flit : Bool) : (s.setLink 1 width flit).f .HST_LINK_SLOW_SEEN 0 = 1 ∧
    bitAt ((s.setLink 1 width flit).f .HST_INT_CAUSE_CAUSE 0) 7 = true := by
  rw [setLink_eq, if_pos rfl]
  refine ⟨?_, interrupt_cause _ (by decide)⟩
  rw [interrupt_f _ _ _ _ _ (by simp)]
  exact f_setF_fits _ 0 (by decide)

theorem setLink_regsOut (s : State) (rate width : Nat) (flit : Bool) :
    RegsOut (linkShown s rate width flit) (s.setLink rate width flit) := by
  rw [setLink_eq]
  split
  · exact ((RegsOut.refl _).setF _ _ _).trans (interrupt_regsOut _ 0 7)
  · exact RegsOut.refl _

end Sys2Proof.Proofs
end

section
/-! The clauses of O51: host accesses (R10, R86, R391, R392, R395, R399, R400, R402) and the host link (R386, R388,
R389). -/

namespace Sys2Proof.Proofs

open Sys2Proof.Machine Sys2Proof.Laws

/-! Accesses to registers and to a job board. -/

theorem exec_registerWrite_denied {s : State} {fn off size v : Nat} (hu : s.up) (hfn : fn < 9) (hoff : off < 0x10000000)
    (hsize : size ∈ [1, 2, 4, 8]) (hv : v < 2 ^ (8 * size))
    (hden : aligned off size = false ∨ s.reaches fn (targetAt fn off) = false) :
    ∃ t, exec (.registerWrite fn off size v) s = .next t ∧
      t.f .HST_MMIO_DENIED fn = satAdd (s.f .HST_MMIO_DENIED fn) 1 ∧
      t = { s with out := [], regs := t.regs } ∧ SameRegs s t [(.HST_MMIO_DENIED, fn)] := by
  rw [exec_registerWrite_up hu hfn hoff hsize hv, registerWrite_denied v (by simpa using hden)]
  exact ⟨_, rfl, f_tally_same (fresh s) fn 1 rfl, rfl,
    sameRegs_wrapAll (sameRegs_setF (sameRegs_refl _ _) _ (List.mem_singleton_self _))⟩

theorem exec_rcRead_denied {s : State} {fn off size : Nat} (e : Nat) (hu : s.up) (hfn : fn < 9) (hoff : off < 0x10000000)
    (hden : aligned off size = false ∨ s.reaches fn (targetAt fn off) = false) :
    ∃ t, exec (.rcRead fn off size e) s = .next t ∧ t.f .HST_MMIO_DENIED fn = satAdd (s.f .HST_MMIO_DENIED fn) 1 ∧
      t = { s with out := [.data 0], regs := t.regs } ∧ SameRegs s t [(.HST_MMIO_DENIED, fn)] := by
  rw [exec_rcRead_up size e hu hfn hoff, regRead_denied e (by simpa using hden)]
  exact ⟨_, rfl, f_tally_same (fresh s) fn 1 rfl, rfl,
    sameRegs_wrap (sameRegs_setF (sameRegs_refl _ _) _ (List.mem_singleton_self _))⟩

theorem exec_rcRead_clears {s : State} {fn off size u o : Nat} {b : Block} (events : Nat) (hu : s.up) (hfn : fn < 9)
    (hoff : off < 0x10000000) (hal : aligned off size = true) (ht : targetAt fn off = .reg b u o)
    (hr : s.reaches fn (.reg b u o) = true) (hs : s.served fn (.reg b u o) = true) :
    ∃ t, exec (.rcRead fn off size events) s = .next t ∧
      t = { s with out := t.out, regs := t.regs, mem := { s.mem with stackDies := t.mem.stackDies } } ∧
      (b ≠ .base → t.mem.stackDies = s.mem.stackDies) ∧
      (∀ st, t.stack st = { s.stack st with sampled := (t.stack st).sampled }) ∧
      t.out = [.data (part8 (s.regWord fn b u o) off size)] ∧
      (∀ p ∈ fieldsAt b u o, (fieldDesc p.1).access = .RC → covers off size (fieldDesc p.1) = true →
        t.f p.1 (heldIndex fn p.1 p.2) = clearedValue p.1 events) ∧
      ∀ n i, ((fieldDesc n).access ≠ .RC ∨ ∀ p ∈ fieldsAt b u o, (n, i) ≠ (p.1, heldIndex fn p.1 p.2)) →
        t.f n i = s.f n i := by
  obtain ⟨hrest, hstack⟩ := readClears_regsSampled (fresh s) fn b u o off size events
  have hout : ((fresh s).readClears fn b u o off size events).out = [] := by rw [hrest]; rfl
  rw [exec_rcRead_up size events hu hfn hoff, regRead_reg (s := fresh s) events hal ht hr hs]
  refine ⟨_, rfl, ?_, readClears_stackDies (fresh s), hstack, ?_,
    fun p hp hrc hcov => readClears_f_cleared (fresh s) fn events hp hrc hcov,
    fun n i h => readClears_f_other (fresh s) off size events h⟩
  · rw [hrest]; rfl
  · rw [out_wrap, out_emit, hout]; rfl

theorem exec_registerWrite_board {s : State} {fn p o v : Nat} (hu : s.up) (hp : p < 8) (hfn : fn = 0 ∨ fn = p + 1)
    (ho : o < 0x40000) (hal : o % 8 = 0) (hv : v < 2 ^ 64) (hs : s.served fn (.board p o) = true) :
    exec (.registerWrite fn (0x2000000 + 0x40000 * p + o) 8 v) s = .next { s with
      out := []
      mem := { s.mem with
        st := { s.mem.st with jobs := Memory.write 0 s.mem.st.jobs (0x40000 * p + o) (leBytes v 8) } } } := by
  have haligned : aligned (0x2000000 + 0x40000 * p + o) 8 = true := by simp [aligned]; omega
  have hreach : s.reaches fn (.board p o) = true := by simpa [State.reaches] using hfn
  rw [exec_registerWrite_up hu (by omega) (by omega) (by simp) hv,
    registerWrite_board (s := fresh s) v haligned (targetAt_board fn hp ho) hreach hs]
  rfl

theorem exec_registerWrite_refused {s : State} {c : Nat} (hu : s.up) (hc : c < 384)
    (hs : s.served 0 (.reg .core c 8) = true) :
    ∃ t, exec (.registerWrite 0 (0x1000000 + 4096 * c + 8) 8 8) s = .next t ∧ t.f .CORE_STATUS_REFUSED c = 0 ∧
      t.f .CORE_STATUS_LAST_REFUSAL c = 0 ∧ t = { s with out := [], regs := t.regs } ∧
      SameRegs s t [(.CORE_STATUS_REFUSED, c), (.CORE_STATUS_LAST_REFUSAL, c)] := by
  have hat : (0x1000000 + 4096 * c + 8) % 8 = 0 := by omega
  have haligned : aligned (0x1000000 + 4096 * c + 8) 8 = true := by simp [aligned, hat]
  rw [exec_registerWrite_up hu (by omega) (by omega) (by simp) (by omega),
    registerWrite_reg (s := fresh s) 8 haligned (targetAt_coreStatus 0 hc) rfl hs, writeReg_refused _ hat]
  refine ⟨_, rfl, ?_, f_setF_fits _ c (Nat.two_pow_pos _), rfl,
    sameRegs_wrapAll (sameRegs_setF (sameRegs_setF (sameRegs_refl _ _) 0 (by simp)) 0 (by simp))⟩
  rw [f_read_wrapAll, f_setF, if_neg (by simp)]
  exact f_setF_fits _ c (Nat.two_pow_pos _)

/-! HST_INT_MASK and DP_ADDR. -/

theorem exec_intMaskWrite_opens {s : State} {fn v : Nat} (hu : s.up) (hfn : fn < 9) (hv : v < 2 ^ 64)
    (hs : s.served fn (.reg .hst fn 0x20) = true) :
    ∃ t, exec (.intMaskWrite fn v) s = .next t ∧ t.f .HST_INT_MASK_ENABLE fn = v % 256 ∧
      t = { s with out := t.out, regs := t.regs, txns := t.txns } ∧ SameRegs s t [(.HST_INT_MASK_ENABLE, fn)] ∧
      ∀ c, c < 8 → bitAt (s.f .HST_INT_MASK_ENABLE fn) c = false → bitAt v c = true →
        bitAt (s.f .HST_INT_CAUSE_CAUSE fn) c = true → causeMessage s fn c ∈ t.out := by
  have hreach : (fresh s).reaches fn (.reg .hst fn 0x20) = true := by simp [State.reaches]
  rw [exec_intMaskWrite, act_up (by simp only [hfn, hv, decide_true, Bool.and_self]) hu,
    registerWrite_reg (s := fresh s) v rfl rfl hreach hs, writeReg_own _ _ _ v (.inl rfl) (fieldsAt_intMask fn) rfl,
    writeRw_intMask]
  refine ⟨_, rfl, ?_, ?_, fun n i hni => ?_, fun c hc hold hv hset => ?_⟩
  · rw [f_read_wrap, noteWrite_f, writeMask_f, f_setF_same]
    simp [bitField, fieldDesc]
  · rw [noteWrite_txns, writeMask_regsOut]
    rfl
  · rw [f_read_wrap, noteWrite_f, writeMask_f]
    exact sameRegs_setF (sameRegs_refl (fresh s) _) _ (List.mem_singleton_self _) n i hni
  · rw [out_wrap, noteWrite_out]
    exact writeMask_out (s := fresh s) hc hold ((bitAt_mod v hc).trans hv) hset

theorem exec_dpAddrWrite_starts {s : State} {fn v : Nat} (hu : s.up) (hfn : fn < 9) (hv : v < 2 ^ 64)
    (hs : s.served fn (.reg .dp fn 0) = true) :
    ∃ t, exec (.dpAddrWrite fn v) s = .next t ∧ t.dp fn = { s.dp fn with row := v % 2 ^ 52, off := 0 } ∧
      (∀ g, g ≠ fn → t.dp g = s.dp g) ∧ t = { s with out := [], dps := t.dps, txns := t.txns } := by
  have hreach : (fresh s).reaches fn (.reg .dp fn 0) = true := by simp [State.reaches]
  rw [exec_dpAddrWrite, act_up (by simp only [hfn, hv, decide_true, Bool.and_self]) hu,
    registerWrite_reg (s := fresh s) v rfl rfl hreach hs, writeReg_own _ _ _ v (.inr rfl) (fieldsAt_dpAddr fn) rfl,
    writeRw_dpAddr]
  refine ⟨_, rfl, ?_, fun g hg => ?_, ?_⟩
  · rw [dp_read_wrap, noteWrite_dp, dp_setDp_same]
    rfl
  · rw [dp_read_wrap, noteWrite_dp, dp_setDp, if_neg hg.symm]
    rfl
  · rw [noteWrite_txns]
    rfl

/-! The data port. -/

theorem exec_dataPortAccess_dir {s : State} {off a : Nat} (x : Nat) (hu : s.up) (hoff : off < 65536)
    (hal : off % 8 = 0) (hreq : (s.dp 0).reqs = []) (hstep : s.f .HUB_BOOT_STEP 0 ≠ 14)
    (ha : a = ((s.dp 0).row + (s.dp 0).off) % 2 ^ 52) (hlo : dirBase ≤ a) (hhi : a < dirBase + 0x80000000)
    (hunit : a % 16 = 0) :
    ∃ t, exec (.dataPortAccess 0 false off [x]) s = .next t ∧
      t.out = [.data ((s.dirE ((a - dirBase) / 16)).bits % 2 ^ 64)] ∧
      t.dp 0 = (if 8 * s.f .DP_COUNT_COUNT 0 ≠ 0 ∧ (s.dp 0).off + 8 = 8 * s.f .DP_COUNT_COUNT 0 then
          { s.dp 0 with row := ((s.dp 0).row + 8 * s.f .DP_STRIDE_STRIDE 0) % 2 ^ 52, off := 0 }
        else { s.dp 0 with off := (s.dp 0).off + 8 }) ∧
      t.f .DP_DONE 0 = satAdd (s.f .DP_DONE 0) 1 ∧ t = { s with out := t.out, dps := t.dps, regs := t.regs } ∧
      SameRegs s t [(.DP_DONE, 0)] := by
  have hfront : (oneRead (fresh s) 0).dpFront 0 ⟨false, [0], [], true, 0⟩ 0 =
      (oneRead (fresh s) 0, some ((s.dirE ((a - dirBase) / 16)).bits % 2 ^ 64)) :=
    dpFront_read rfl rfl (by rw [dp_oneRead]; exact ha) (dpUnit_dir 0 hstep hlo hhi hunit)
  obtain ⟨hdp, hrest⟩ := dpGo_read_one (congrArg Dp.reqs (dp_oneRead (fresh s) 0)) hfront
  rw [exec_dataPortAccess, act_up (by simp [hoff]) hu, dataPortAccess_oneRead (s := fresh s) x hal hreq]
  refine ⟨_, rfl, ?_, ?_, ?_, ?_, ?_⟩
  · rw [out_wrap, hrest]; rfl
  · rw [dp_read_wrap, hdp]
    exact dpNext_oneRead (s := fresh s) hreq
  · rw [f_read_wrap, hrest]
    exact f_tally_same (oneRead (fresh s) 0) 0 1 rfl
  · rw [hrest]; rfl
  · rw [hrest]
    exact sameRegs_wrap (dpNext_sameRegs _ 0)

theorem exec_dpReadStall_zero {s : State} {fn x : Nat} {r : DpReq} (hu : s.up) (hfn : fn < 9) (hreq : (s.dp fn).reqs = [r])
    (hread : r.write = false) (hunit : r.units = [x]) (hsince : r.since ≠ 0)
    (hlimit : msec (natMin (natMax (s.f .TIER_CFG_STALL_LIMIT 0) 1) 10000) < s.now + 1 - r.since) :
    ∃ t, exec (.dpReadStall fn) s = .next t ∧ t.out = (r.got ++ [0]).map Out.data ∧ (t.dp fn).reqs = [] ∧
      t.f .DP_ERR fn = satAdd (s.f .DP_ERR fn) 1 ∧ t.f .DP_STATUS_ERR_SEEN fn = 1 ∧ t.f .DP_STATUS_LAST_ERR fn = 4 ∧
      t.f .DP_DONE fn = satAdd (s.f .DP_DONE fn) 1 ∧ t = { s with out := t.out, dps := t.dps, regs := t.regs } ∧
      SameRegs s t [(.DP_ERR, fn), (.DP_STATUS_ERR_SEEN, fn), (.DP_STATUS_LAST_ERR, fn), (.DP_DONE, fn)] := by
  obtain ⟨hidle, hrest⟩ := dpReadStall_one (s := fresh s) hreq hread hunit hsince hlimit
  obtain ⟨herr, hseen, hwhy⟩ := dpErr_fields (fresh s) fn (why := 4) (by decide)
  have hf (n : FieldName) (i : Nat) : (dpReadStall fn (fresh s)).f n i = (((fresh s).dpErr fn 4).dpNext fn).f n i := by
    rw [hrest]; rfl
  have hsame : SameRegs (fresh s) (dpReadStall fn (fresh s))
      [(.DP_ERR, fn), (.DP_STATUS_ERR_SEEN, fn), (.DP_STATUS_LAST_ERR, fn), (.DP_DONE, fn)] := fun n i hn =>
    (hf n i).trans (sameRegs_append (dpErr_sameRegs (fresh s) fn 4) (dpNext_sameRegs _ fn) n i hn)
  have hkept {n : FieldName} (hn : n ≠ .DP_DONE) :
      (dpReadStall fn (fresh s)).f n fn = ((fresh s).dpErr fn 4).f n fn :=
    (hf n fn).trans (dpNext_sameRegs _ fn n fn (by simp [hn]))
  rw [exec_dpReadStall, act_up (by simp [hfn]) hu]
  refine ⟨_, rfl, ?_, hidle, (hkept (by simp)).trans herr, (hkept (by simp)).trans hseen, (hkept (by simp)).trans hwhy,
    ?_, ?_, sameRegs_wrap hsame⟩
  · rw [out_wrap, hrest]; rfl
  · rw [f_read_wrap, hf, dpNext_f, f_tally_same _ fn 1 rfl, dpErr_sameRegs _ _ _ _ _ (by simp), f_read_fresh]
  · rw [hrest]; rfl

/-! The host link. -/

theorem exec_linkStateChange_noRef {s : State} {rate width : Nat} (flit : Bool) (hu : s.up) (hrate : rate < 5)
    (hwidth : width ∈ [0, 1, 2, 4]) (hup : rate ≠ 0) (hgone : s.clk.refGone = true) :
    exec (.linkStateChange rate width flit) s = .next { s with out := [] } := by
  have hrun : linkChange rate width flit (fresh s) = fresh s := by simp [linkChange, hup, hgone]
  rw [exec_linkStateChange, act_up (by simpa [hrate, or_assoc] using hwidth) hu, hrun]
  rfl

theorem exec_linkStateChange_shows {s : State} {rate width : Nat} (flit : Bool) (hu : s.up) (hrate : rate < 5)
    (hwidth : width ∈ [0, 1, 2, 4]) (href : rate = 0 ∨ s.clk.refGone = false) :
    ∃ t, exec (.linkStateChange rate width flit) s = .next t ∧
      t.f .HST_LINK_RATE 0 = rate ∧ t.f .HST_LINK_WIDTH 0 = width ∧ t.f .HST_LINK_FLIT 0 = flagBit flit ∧
      (rate = 1 → t.f .HST_LINK_SLOW_SEEN 0 = 1 ∧ bitAt (t.f .HST_INT_CAUSE_CAUSE 0) 7 = true) ∧
      t = { s with out := t.out, regs := t.regs, hostLink := decide (rate ≠ 0) } ∧
      SameRegs s t ([(.HST_LINK_RATE, 0), (.HST_LINK_WIDTH, 0), (.HST_LINK_FLIT, 0)] ++
        if rate = 1 then [(.HST_LINK_SLOW_SEEN, 0), (.HST_INT_CAUSE_CAUSE, 0)] else []) := by
  have hw : width < 8 := by
    simp only [List.mem_cons, List.not_mem_nil, or_false] at hwidth
    omega
  have hrun : linkChange rate width flit (fresh s) = (fresh s).setLink rate width flit := by
    rcases href with h | h <;> simp [linkChange, h]
  obtain ⟨hr, hwd, hf⟩ := linkShown_fields (fresh s) flit (by omega : rate < 8) hw
  rw [exec_linkStateChange, act_up (by simpa [hrate, or_assoc] using hwidth) hu, hrun]
  refine ⟨_, rfl, ?_, ?_, ?_, ?_, ?_,
    sameRegs_wrap (sameRegs_append (linkShown_sameRegs _ rate width flit) (setLink_sameRegs _ rate width flit))⟩
  · rw [f_read_wrap, setLink_f _ _ _ _ (by simp) (by simp), hr]
  · rw [f_read_wrap, setLink_f _ _ _ _ (by simp) (by simp), hwd]
  · rw [f_read_wrap, setLink_f _ _ _ _ (by simp) (by simp), hf]
  · rintro rfl
    exact setLink_slow (fresh s) width flit
  · exact wrap_of_regsOut s (setLink_regsOut (fresh s) rate width flit)

theorem exec_ideKmRequest_counts {s : State} (setup : Bool) (hu : s.up) (hfew : s.f .HST_LINK_IDE_STREAMS 0 ≤ 4) :
    ∃ t, exec (.ideKmRequest setup) s = .next t ∧
      t.f .HST_LINK_IDE_STREAMS 0 =
        (if setup then natMin 4 (s.f .HST_LINK_IDE_STREAMS 0 + 1) else s.f .HST_LINK_IDE_STREAMS 0 - 1) ∧
      t = { s with out := [], regs := t.regs } ∧ SameRegs s t [(.HST_LINK_IDE_STREAMS, 0)] := by
  have hfits : (if setup then natMin 4 (s.f .HST_LINK_IDE_STREAMS 0 + 1) else s.f .HST_LINK_IDE_STREAMS 0 - 1) < 2 ^ 3 := by
    unfold natMin
    split_ifs <;> omega
  rw [exec_ideKmRequest, act_up rfl hu]
  exact ⟨_, rfl, f_setF_fits _ 0 hfits, rfl,
    sameRegs_wrap (sameRegs_setF (sameRegs_refl _ _) _ (List.mem_singleton_self _))⟩

/-- Settles O51, clause by clause. -/
theorem hostAccessesAndLinkShowState : Obligations.HostAccessesAndLinkShowState := by
  refine ⟨?denied, ?read, ?board, ?refused, ?mask, ?dpAddr, ?dir, ?stall, ?link, ?ide⟩
  case denied =>
    exact fun s fn off size v hu hfn hoff hsize hv hden =>
      ⟨exec_registerWrite_denied hu hfn hoff hsize hv hden, fun e => exec_rcRead_denied e hu hfn hoff hden⟩
  case read =>
    exact fun s fn off size events b u o hu hfn hoff hal ht hr hs => exec_rcRead_clears events hu hfn hoff hal ht hr hs
  case board => exact fun s fn p o v hu hp hfn ho hal hv hs => exec_registerWrite_board hu hp hfn ho hal hv hs
  case refused => exact fun s c hu hc hs => exec_registerWrite_refused hu hc hs
  case mask => exact fun s fn v hu hfn hv hs => exec_intMaskWrite_opens hu hfn hv hs
  case dpAddr => exact fun s fn v hu hfn hv hs => exec_dpAddrWrite_starts hu hfn hv hs
  case dir =>
    exact fun s off x hu hoff hal hreq hstep hlo hhi hunit =>
      exec_dataPortAccess_dir x hu hoff hal hreq hstep rfl hlo hhi hunit
  case stall =>
    exact fun s fn x r hu hfn hreq hread hunit hsince hlimit =>
      exec_dpReadStall_zero hu hfn hreq hread hunit hsince hlimit
  case link =>
    exact fun s rate width flit hu hrate hwidth =>
      ⟨exec_linkStateChange_noRef flit hu hrate hwidth, exec_linkStateChange_shows flit hu hrate hwidth⟩
  case ide => exact fun s hu hfew => ⟨exec_ideKmRequest_counts true hu hfew, exec_ideKmRequest_counts false hu hfew⟩

end Sys2Proof.Proofs
end

section
/-! The grants of a scratch bank (R28): the winner among those that wait, and the waits after a grant. -/

namespace Sys2Proof.Proofs

open Sys2Proof.Machine Sys2Proof.Laws

/-! The winner. -/

/-- The one of two requesters that has waited longer, the earlier one if both have waited as long: the step of
`bankWinner`. -/
def longerWait (best : Option (Nat × Nat)) (p : Nat × Nat) : Option (Nat × Nat) :=
  match best with
  | none => some p
  | some x => if x.2 < p.2 then some p else some x

theorem bankWinner_eq (ages : List (Nat × Nat)) : bankWinner ages =
    (((ages.filter (fun p => 16 ≤ p.2)).foldl longerWait none).or ages.head?).map Prod.fst := by
  have hdef : bankWinner ages = match (ages.filter (fun p => 16 ≤ p.2)).foldl longerWait none with
      | some p => some p.1
      | none => (ages.head?).map Prod.fst := rfl
  rw [hdef]
  cases (ages.filter (fun p => 16 ≤ p.2)).foldl longerWait none <;> rfl

/-- From a requester on, the longest wait of a list is found. -/
theorem foldl_longerWait_some (l : List (Nat × Nat)) (x : Nat × Nat) :
    ∃ p ∈ x :: l, l.foldl longerWait (some x) = some p ∧ ∀ q ∈ x :: l, q.2 ≤ p.2 := by
  induction l generalizing x with
  | nil => exact ⟨x, by simp, rfl, by simp⟩
  | cons y l ih =>
    by_cases h : x.2 < y.2
    · obtain ⟨p, hp, hfold, hmax⟩ := ih y
      have hy := hmax y (by simp)
      refine ⟨p, List.mem_cons_of_mem x hp, by simpa [longerWait, h] using hfold, fun q hq => ?_⟩
      rcases List.mem_cons.1 hq with rfl | hq
      · omega
      · exact hmax q hq
    · obtain ⟨p, hp, hfold, hmax⟩ := ih x
      have hx := hmax x (by simp)
      refine ⟨p, ?_, by simpa [longerWait, h] using hfold, fun q hq => ?_⟩
      · rcases List.mem_cons.1 hp with rfl | hp <;> simp [*]
      · rcases List.mem_cons.1 hq with rfl | hq
        · exact hx
        · rcases List.mem_cons.1 hq with rfl | hq
          · omega
          · exact hmax q (List.mem_cons_of_mem x hq)

/-- With a requester that has waited 16 cycles the longest wait wins. -/
theorem bankWinner_aged {ages : List (Nat × Nat)} (h : ∃ p ∈ ages, 16 ≤ p.2) :
    ∃ p ∈ ages, bankWinner ages = some p.1 ∧ 16 ≤ p.2 ∧ ∀ q ∈ ages, q.2 ≤ p.2 := by
  have hmem (q : Nat × Nat) : q ∈ ages.filter (fun p => 16 ≤ p.2) ↔ q ∈ ages ∧ 16 ≤ q.2 := by simp
  obtain ⟨x, hx, h16⟩ := h
  cases hold : ages.filter (fun p => 16 ≤ p.2) with
  | nil => simpa [hold] using (hmem x).2 ⟨hx, h16⟩
  | cons y l =>
    obtain ⟨p, hp, hfold, hmax⟩ := foldl_longerWait_some l y
    rw [← hold] at hp hmax
    obtain ⟨hpa, hp16⟩ := (hmem p).1 hp
    refine ⟨p, hpa, ?_, hp16, fun q hq => ?_⟩
    · rw [bankWinner_eq, hold]
      simp [longerWait, hfold]
    · by_cases hq16 : 16 ≤ q.2
      · exact hmax q ((hmem q).2 ⟨hq, hq16⟩)
      · omega

/-- While nobody has waited 16 cycles the first in the order of priority wins. -/
theorem bankWinner_young {ages : List (Nat × Nat)} (h : ∀ p ∈ ages, p.2 < 16) :
    bankWinner ages = ages.head?.map Prod.fst := by
  have hnone : ages.filter (fun p => 16 ≤ p.2) = [] := by simpa [List.filter_eq_nil_iff] using h
  rw [bankWinner_eq, hnone]
  rfl

/-! Those that wait. -/

/-- Requester `r` of a bank: store shuttle, load shuttle or vector unit. -/
def bankAsks (store load vec : Bool) (r : Nat) : Bool := (r = 0 && store) || (r = 1 && load) || (r = 2 && vec)

/-- The requesters that wait, by priority. -/
def bankWaiting (store load vec : Bool) : List Nat :=
  (if store then [0] else []) ++ (if load then [1] else []) ++ (if vec then [2] else [])

theorem mem_bankWaiting {store load vec : Bool} {r : Nat} :
    r ∈ bankWaiting store load vec ↔ bankAsks store load vec r = true := by
  simp [bankWaiting, bankAsks, or_assoc]
  tauto

theorem bankWaiting_ascends : ∀ store load vec, (bankWaiting store load vec).Pairwise (· < ·) := by decide

theorem bankWaiting_ne_nil :
    ∀ store load vec, (store || load || vec) = true → bankWaiting store load vec ≠ [] := by decide

/-- The winner of a bank's cycle: one that waits, by its wait if anyone has waited 16 cycles, otherwise by its place. -/
theorem bankWinner_waiting {l : List Nat} (hne : l ≠ []) (hasc : l.Pairwise (· < ·)) (age : Nat → Nat) :
    ∃ win ∈ l, bankWinner (l.map (fun r => (r, age r))) = some win ∧
      ((∃ r ∈ l, 16 ≤ age r) → 16 ≤ age win ∧ ∀ r ∈ l, age r ≤ age win) ∧
      ((∀ r ∈ l, age r < 16) → ∀ r, r < win → r ∉ l) := by
  by_cases hold : ∃ r ∈ l, 16 ≤ age r
  · obtain ⟨p, hp, hwin, h16, hmax⟩ := bankWinner_aged (ages := l.map (fun r => (r, age r))) (by simpa using hold)
    obtain ⟨win, hmem, rfl⟩ := List.mem_map.1 hp
    refine ⟨win, hmem, hwin, fun _ => ⟨h16, fun r hr => hmax _ (List.mem_map_of_mem hr)⟩, fun hyoung => ?_⟩
    obtain ⟨r, hr, hr16⟩ := hold
    exact absurd (hyoung r hr) (by omega)
  · have hyoung : ∀ r ∈ l, age r < 16 := by simpa using hold
    cases l with
    | nil => exact absurd rfl hne
    | cons win l =>
      refine ⟨win, by simp, ?_, fun h => absurd h hold, fun _ r hr hmem => ?_⟩
      · rw [bankWinner_young (by simpa using hyoung)]
        rfl
      · rcases List.mem_cons.1 hmem with rfl | hmem
        · omega
        · have := (List.pairwise_cons.1 hasc).1 r hmem
          omega

/-! The waits after a grant. -/

/-- Writes of consecutive keys, each once. -/
theorem get_foldl_set (d : Nat) (v : Nat → Nat) (base : Nat) (l : List Nat) (m : FMap Nat) (j : Nat) :
    FMap.get d (l.foldl (fun m r => FMap.set d m (base + r) (v r)) m) j =
      if base ≤ j ∧ j - base ∈ l then v (j - base) else FMap.get d m j := by
  induction l generalizing m with
  | nil => simp
  | cons r l ih =>
    rw [List.foldl_cons, ih, get_set]
    by_cases hj : base ≤ j ∧ j - base ∈ l
    · rw [if_pos hj, if_pos ⟨hj.1, List.mem_cons_of_mem r hj.2⟩]
    · rw [if_neg hj]
      by_cases hr : base + r = j
      · subst hr
        simp
      · have : ¬ (base ≤ j ∧ j - base ∈ r :: l) := by
          rintro ⟨hb, hmem⟩
          rcases List.mem_cons.1 hmem with h | h
          · omega
          · exact hj ⟨hb, h⟩
        rw [if_neg hr, if_neg this]

/-- The waits on a bank after a cycle that `win` was granted: the step of `scratchGrant`. -/
def agedWaits (ages : FMap Nat) (bank win : Nat) (waiting : List Nat) : FMap Nat :=
  (List.range 3).foldl (fun m r => FMap.set 0 m (3 * bank + r)
    (if r = win || !waiting.contains r then 0 else FMap.get 0 ages (3 * bank + r) + 1)) ages

theorem agedWaits_bank (ages : FMap Nat) (bank win : Nat) (waiting : List Nat) {r : Nat} (hr : r < 3) :
    FMap.get 0 (agedWaits ages bank win waiting) (3 * bank + r) =
      if r = win ∨ r ∉ waiting then 0 else FMap.get 0 ages (3 * bank + r) + 1 := by
  rw [agedWaits, get_foldl_set, if_pos ⟨by omega, by simpa using hr⟩]
  simp

theorem agedWaits_other (ages : FMap Nat) (bank win : Nat) (waiting : List Nat) {j : Nat}
    (hj : j < 3 * bank ∨ 3 * bank + 3 ≤ j) :
    FMap.get 0 (agedWaits ages bank win waiting) j = FMap.get 0 ages j := by
  rw [agedWaits, get_foldl_set, if_neg (by rw [List.mem_range]; omega)]

theorem scratchGrant_winner {s : State} {c bank win : Nat} {store load vec : Bool}
    (h : bankWinner ((bankWaiting store load vec).map (fun r => (r, FMap.get 0 (s.core c).ages (3 * bank + r)))) =
      some win) :
    scratchGrant c bank store load vec s = s.setCore c { s.core c with
      ages := agedWaits (s.core c).ages bank win (bankWaiting store load vec)
      grants := (s.core c).grants + (if win = 2 then 1 else 0) } := by
  unfold bankWaiting at h
  simp only [scratchGrant, h]
  rfl

/-- A command that replaces one core's context. -/
theorem coreOnly_setCore (s : State) (c : Nat) (k : Core) : CoreOnly s (wrap s ((fresh s).setCore c k)) c [] := by
  refine ⟨rfl, fun n i _ => rfl, fun d hd => ?_⟩
  rw [core_read_wrap, core_setCore, if_neg (Ne.symm hd)]
  rfl

/-- Settles O26: those that wait stand in the order of priority, and the fold over their ages finds the longest wait. -/
theorem scratchBankGrantsByPriorityAndAge : Obligations.ScratchBankGrantsByPriorityAndAge := by
  intro s c bank store load vec hu hc hbank hasks asks age
  have hdef (r : Nat) : bankAsks store load vec r = asks r := rfl
  have hne : bankWaiting store load vec ≠ [] := bankWaiting_ne_nil _ _ _ hasks
  obtain ⟨win, hwin, hgrant, hold, hyoung⟩ := bankWinner_waiting hne (bankWaiting_ascends store load vec) age
  simp only [mem_bankWaiting, hdef] at hwin hold hyoung
  have hcore (k : Core) : (wrap s ((fresh s).setCore c k)).core c = k := by rw [core_read_wrap, core_setCore_same]
  rw [exec_scratchGrant, act_up (by simp [coreOk, hc, hbank]) hu, scratchGrant_winner (s := fresh s) hgrant]
  refine ⟨_, win, rfl, hwin, ?_, fun h r hr => by simpa using hyoung h r hr, fun r hr => ?_, fun j hj => ?_, ?_,
    coreOnly_setCore s c _⟩
  · rintro ⟨r, hr, hr16⟩
    exact hold ⟨r, hr, hr16⟩
  · rw [hcore, core_read_fresh, agedWaits_bank _ _ _ _ hr]
    simp [mem_bankWaiting, hdef, age]
  · rw [hcore, core_read_fresh, agedWaits_other _ _ _ _ hj]
  · rw [hcore, core_read_fresh]

end Sys2Proof.Proofs
end

section
/-! SUPPORT. What fencing a core does (R29, R67, R81): the contexts it gives up, its ledger entry, and the parts of the state
it leaves alone. -/

namespace Sys2Proof.Proofs

open Sys2Proof.Machine Sys2Proof.Laws

/-! Programs given up. -/

/-- Two states that differ by programs of cores given up, and by what those cores show of it. -/
def GivenUp (s t : State) : Prop :=
  t = { s with regs := t.regs, cores := t.cores } ∧
    ∀ n i, n ∉ [.CORE_STATUS_STATE, .VEC_STATUS_BUSY, .ARR_STATUS_ACTIVE, .ARR_STATUS_MODE, .ARR_STATUS_FACE_VALID] →
      t.f n i = s.f n i

theorem GivenUp.refl (s : State) : GivenUp s s := ⟨rfl, fun _ _ _ => rfl⟩

theorem GivenUp.trans {s t u : State} (h : GivenUp s t) (k : GivenUp t u) : GivenUp s u :=
  ⟨by rw [k.1, h.1], fun n i hn => (k.2 n i hn).trans (h.2 n i hn)⟩

theorem GivenUp.setCore {s t : State} (h : GivenUp s t) (c : Nat) (k : Core) : GivenUp s (t.setCore c k) :=
  h.trans ⟨rfl, fun _ _ _ => rfl⟩

theorem GivenUp.setF {s t : State} (h : GivenUp s t) {n : FieldName} (i v : Nat)
    (hn : n ∈ [FieldName.CORE_STATUS_STATE, .VEC_STATUS_BUSY, .ARR_STATUS_ACTIVE, .ARR_STATUS_MODE,
      .ARR_STATUS_FACE_VALID]) :
    GivenUp s (t.setF n i v) :=
  h.trans ⟨rfl, fun m j hm => by rw [f_setF, if_neg (by rintro ⟨rfl, -⟩; exact hm hn)]⟩

theorem abandon_givenUp (s : State) (c : Nat) : GivenUp s (s.abandon c) :=
  (((((((GivenUp.refl s).setF c 6 (by simp)).setCore c _).setF c _ (by simp)).setF c _ (by simp)).setF c _
    (by simp)).setF c _ (by simp))

theorem foldl_abandon_givenUp (l : List Nat) (s : State) : GivenUp s (l.foldl State.abandon s) :=
  List.foldlRecOn _ _ (GivenUp.refl s) (fun t ht c _ => ht.trans (abandon_givenUp t c))

/-- Core `x` has given up its program: it shows it, and nothing is queued. -/
def Stopped (x : Nat) (t : State) : Prop :=
  t.f .CORE_STATUS_STATE x = 6 ∧ (t.core x).matQ = [] ∧ (t.core x).shQ = [] ∧ (t.core x).vecQ = []

/-- What leaves the core and its state alone keeps it stopped. -/
theorem Stopped.congr {x : Nat} {s t : State} (h : Stopped x s) (hcore : t.core x = s.core x)
    (hf : t.f .CORE_STATUS_STATE x = s.f .CORE_STATUS_STATE x) : Stopped x t := by
  unfold Stopped
  rw [hcore, hf]
  exact h

theorem abandon_state (s : State) (c x : Nat) :
    (s.abandon c).f .CORE_STATUS_STATE x = if c = x then 6 else s.f .CORE_STATUS_STATE x := by
  have hshow (t : State) : ((t.showArr c).showVec c).f .CORE_STATUS_STATE x = t.f .CORE_STATUS_STATE x := by
    simp [State.showArr, State.showVec, f_setF]
  unfold State.abandon
  rw [hshow, f_read_setCore, f_setF]
  simp [fieldDesc]

theorem abandon_core (s : State) (c x : Nat) :
    (s.abandon c).core x = if c = x then { s.core c with
      matQ := [], shQ := [], vecQ := [], wait := .none, loops := [], arr := {}, vec := {} } else s.core x := by
  have hshow (t : State) : ((t.showArr c).showVec c).core x = t.core x := rfl
  rw [State.abandon, hshow, core_setCore]
  rfl

theorem abandon_stopped (s : State) (c : Nat) : Stopped c (s.abandon c) := by
  simp [Stopped, abandon_state, abandon_core]

theorem Stopped.abandon {x : Nat} {s : State} (h : Stopped x s) (c : Nat) : Stopped x (s.abandon c) := by
  by_cases hc : c = x
  · subst hc
    exact abandon_stopped s c
  · exact h.congr (by rw [abandon_core, if_neg hc]) (by rw [abandon_state, if_neg hc])

theorem foldl_abandon_stopped {l : List Nat} {x : Nat} (hx : x ∈ l) (s : State) : Stopped x (l.foldl State.abandon s) := by
  obtain ⟨l₁, l₂, rfl⟩ := List.append_of_mem hx
  rw [List.foldl_append, List.foldl_cons]
  exact List.foldlRecOn _ _ (abandon_stopped _ x) (fun t ht c _ => ht.abandon c)

/-! A step broken and a fault reported leave a stopped core stopped. -/

theorem Stopped.breakCore {x : Nat} {s : State} (h : Stopped x s) (c : Nat) : Stopped x (breakCore s c) := by
  have hraise : Stopped x (s.raise .CORE_STATUS_BROKEN c) :=
    h.congr rfl (by rw [raise_eq, f_setF, if_neg (by simp)])
  unfold Machine.breakCore
  dsimp only
  split
  case isFalse => exact hraise
  case isTrue hst =>
    have hne : c ≠ x := by
      rintro rfl
      rw [hraise.1] at hst
      simp at hst
    refine hraise.congr ?_ ?_
    · rw [core_setCore, if_neg hne]
      rfl
    · rw [f_read_setCore, f_setF, if_neg (by simp), f_setF, if_neg (by simp [hne])]

theorem Stopped.failStep {x : Nat} {s : State} (h : Stopped x s) (k b : Nat) : Stopped x (s.failStep k b) := by
  unfold State.failStep
  dsimp only
  split
  · exact List.foldlRecOn _ _ (h.congr rfl rfl) (fun t ht c _ => ht.breakCore c)
  · exact h.congr rfl rfl

theorem Stopped.interruptPart {x : Nat} {s : State} (h : Stopped x s) (p c : Nat) : Stopped x (s.interruptPart p c) :=
  h.congr (by rw [interruptPart_regsOut s p c]; rfl) (interruptPart_f s p c _ _ (by simp))

theorem Stopped.regionFault {x : Nat} {s : State} (h : Stopped x s) (r : Nat) : Stopped x (s.regionFault r) := by
  unfold State.regionFault
  split
  · exact h
  · exact Stopped.interruptPart (List.foldlRecOn _ _ h (fun t ht k _ => ht.failStep k causeUnit)) _ 5

theorem failed_kept {s t : State} (h : Failed s t) :
    t.ledgQ = s.ledgQ ∧ t.mem = s.mem ∧ t.doms = s.doms ∧ t.ports = s.ports := by
  rw [h.1]
  exact ⟨rfl, rfl, rfl, rfl⟩

theorem Stopped.ledger {x : Nat} {s : State} (h : Stopped x s) (type payload : Nat) : Stopped x (s.ledger type payload) :=
  h.congr rfl (ledger_f s type payload _ x (by simp))

/-! The parts of `State.fenceCore`. -/

/-- The other contexts awake on the physical core of logical core `own`. -/
def awakeBeside (s : State) (own : Nat) : List Nat :=
  ((s.contexts (own / 8) (own % 8)).map (fun x => 8 * (own / 8) + x)).filter (fun x => x ≠ own && !(s.core x).asleep)

theorem mem_awakeBeside {s : State} {own x : Nat} (hreg : x / 8 = own / 8)
    (hctx : x % 8 ∈ s.contexts (own / 8) (own % 8)) (hne : x ≠ own) (hawake : (s.core x).asleep = false) :
    x ∈ awakeBeside s own :=
  List.mem_filter.2 ⟨List.mem_map.2 ⟨x % 8, hctx, by omega⟩, by simp [hne, hawake]⟩

/-- The contexts of a fenced core stopped, and the core fenced with its cause kept. -/
def haltContexts (s : State) (own cause : Nat) : State :=
  let x := ((awakeBeside s own).foldl State.abandon s).abandon own
  (x.setF .CORE_STATUS_STATE own 4).setCore own { x.core own with faultCause := cause + 1 }

/-- The steps that a core's fault breaks: that of its swatch `k`, and those of its partition (R197). -/
def reportFault (s : State) (own k : Nat) : State :=
  ((if (s.sw k).started then s.failStep k causeBroken else s).regionFault (own / 8)).setF .CORE_STATUS_STATE own 4

theorem haltContexts_givenUp (s : State) (own cause : Nat) : GivenUp s (haltContexts s own cause) :=
  (((foldl_abandon_givenUp _ s).trans (abandon_givenUp _ own)).setF own 4 (by simp)).setCore own _

theorem haltContexts_stopped {s : State} {own x : Nat} (cause : Nat) (hx : x ∈ awakeBeside s own) (hne : x ≠ own) :
    Stopped x (haltContexts s own cause) := by
  refine Stopped.congr (s := ((awakeBeside s own).foldl State.abandon s).abandon own)
    ((foldl_abandon_stopped hx s).abandon own) ?_ ?_
  · rw [haltContexts, core_setCore, if_neg hne.symm, core_read_setF]
  · rw [haltContexts, f_read_setCore, f_setF, if_neg (by simp [hne.symm])]

theorem reportFault_failed (s : State) (own k : Nat) : Failed s (reportFault s own k) := by
  refine Failed.trans ?_ ((regionFault_failed _ _).trans (setF_failed _ own 4 (by simp)))
  split
  · exact failStep_failed s k causeBroken
  · exact Failed.refl s

theorem Stopped.reportFault {x own : Nat} {s : State} (h : Stopped x s) (hne : x ≠ own) (k : Nat) :
    Stopped x (reportFault s own k) := by
  have hstep : Stopped x (if (s.sw k).started then s.failStep k causeBroken else s) := by
    split
    · exact h.failStep k causeBroken
    · exact h
  exact (hstep.regionFault (own / 8)).congr rfl ((f_setF _ _ own 4 _ x).trans (if_neg (by simp [hne.symm])))

/-- The payload of a fenced core's ledger entry (R490). -/
def corePayload (s : State) (own cause : Nat) : Nat :=
  unitPayload .core (own / 8) (own % 8) cause (s.swOf own) (s.sw (s.swOf own)).step

theorem fenceCore_eq {s : State} {c : Nat} (cause : Nat) (h : s.f .CORE_STATUS_STATE (s.carrierOf c) ≠ 4) :
    s.fenceCore c cause =
      reportFault ((haltContexts s (s.carrierOf c) cause).ledger 0x06 (corePayload s (s.carrierOf c) cause))
        (s.carrierOf c) (s.swOf (s.carrierOf c)) := by
  have hsw (k : Nat) : (haltContexts s (s.carrierOf c) cause).sw k = s.sw k := by
    rw [(haltContexts_givenUp s _ cause).1]; rfl
  rw [corePayload, ← hsw]
  simp only [State.fenceCore, if_neg h]
  rfl

/-! Fencing a core. -/

section Fenced
variable {s : State} {c own : Nat} (cause : Nat) (hown : s.carrierOf c = own) (hst : s.f .CORE_STATUS_STATE own ≠ 4)
include hown hst

theorem fenceCore_state : (s.fenceCore c cause).f .CORE_STATUS_STATE own = 4 := by
  subst hown
  rw [fenceCore_eq cause hst]
  exact f_setF_fits _ _ (by decide)

/-- Every other context awake on the physical core is given up (R29). -/
theorem fenceCore_stops {x : Nat} (hx : x ∈ awakeBeside s own) (hne : x ≠ own) : Stopped x (s.fenceCore c cause) := by
  subst hown
  rw [fenceCore_eq cause hst]
  exact ((haltContexts_stopped cause hx hne).ledger _ _).reportFault hne _

/-- A fenced core takes one ledger entry, and leaves memories, domains and ports alone. -/
theorem fenceCore_kept : (s.fenceCore c cause).ledgQ = s.ledgQ ++ [⟨0x06, corePayload s own cause, s.clkTime⟩] ∧
    (s.fenceCore c cause).mem = s.mem ∧ (s.fenceCore c cause).doms = s.doms ∧
    (s.fenceCore c cause).ports = s.ports := by
  subst hown
  obtain ⟨hledgQ, hmem, hdoms, hports⟩ := failed_kept (reportFault_failed ((haltContexts s (s.carrierOf c) cause).ledger 0x06
    (corePayload s (s.carrierOf c) cause)) (s.carrierOf c) (s.swOf (s.carrierOf c)))
  rw [fenceCore_eq cause hst, hledgQ, hmem, hdoms, hports, ledger_ledgQ, State.clkTime,
    (haltContexts_givenUp s _ cause).1]
  exact ⟨rfl, rfl, rfl, rfl⟩

theorem fenceCore_f {n : FieldName} (i : Nat) (hn : n ∉ [.CORE_STATUS_STATE, .CORE_STATUS_BROKEN, .VEC_STATUS_BUSY,
    .ARR_STATUS_ACTIVE, .ARR_STATUS_MODE, .ARR_STATUS_FACE_VALID, .HST_INT_CAUSE_CAUSE, .LEDG_STATUS_QUEUE]) :
    (s.fenceCore c cause).f n i = s.f n i := by
  subst hown
  simp only [List.mem_cons, List.not_mem_nil, or_false, not_or] at hn
  obtain ⟨hstate, hbroken, hbusy, hact, hmode, hface, hint, hledg⟩ := hn
  rw [fenceCore_eq cause hst, (reportFault_failed _ _ _).2 n i (by simp [hbroken, hstate, hbusy, hint]),
    ledger_f _ _ _ _ _ hledg, (haltContexts_givenUp s _ cause).2 n i (by simp [hstate, hbusy, hact, hmode, hface])]

end Fenced

end Sys2Proof.Proofs
end

section
/-! The clauses of O23: a mismatch in the arrays (R27, R57, R90, R103) and a fault of a core (R81, R461). -/

namespace Sys2Proof.Proofs

open Sys2Proof.Machine Sys2Proof.Laws

/-! The assignment of logical cores depends on the map registers. -/

theorem carrierOf_congr {s t : State} (c : Nat)
    (h : ∀ n ∈ [FieldName.RGN_CORE_MAP_PHYS, .RGN_LIMP_CARRIER], ∀ i, t.f n i = s.f n i) :
    t.carrierOf c = s.carrierOf c := by
  unfold State.carrierOf State.physK State.sub
  rw [funext (h .RGN_CORE_MAP_PHYS (by simp)), funext (h .RGN_LIMP_CARRIER (by simp))]

theorem contexts_congr {s t : State} (r k : Nat)
    (h : ∀ n ∈ [FieldName.RGN_CORE_MAP_PHYS, .RGN_LIMP_CARRIER], ∀ i, t.f n i = s.f n i) :
    t.contexts r k = s.contexts r k := by
  unfold State.contexts State.physK State.sub
  rw [funext (h .RGN_CORE_MAP_PHYS (by simp)), funext (h .RGN_LIMP_CARRIER (by simp))]

/-! A mismatch in the arrays. -/

/-- Two states that differ by what an ARRAY cycle leaves in a core's arrays and counts of saturations. -/
def ArrNoted (s t : State) : Prop :=
  t = { s with regs := t.regs, cores := t.cores, tags := t.tags } ∧ (∀ x, (t.core x).asleep = (s.core x).asleep) ∧
    ∀ n i, n ∉ [.ARR_SAT, .ARR_NUMERIC_SAT_SEEN, .ARR_NUMERIC_LAST_SAT_STAGE, .ARR_NUMERIC_LAST_SAT_TAG] →
      t.f n i = s.f n i

theorem ArrNoted.trans {s t u : State} (h : ArrNoted s t) (k : ArrNoted t u) : ArrNoted s u :=
  ⟨by rw [k.1, h.1], fun x => (k.2.1 x).trans (h.2.1 x), fun n i hn => (k.2.2 n i hn).trans (h.2.2 n i hn)⟩

theorem setArr_arrNoted (s : State) (c : Nat) (r : ArrSt) : ArrNoted s (s.setCore c { s.core c with arr := r }) := by
  refine ⟨rfl, fun x => ?_, fun _ _ _ => rfl⟩
  rw [core_setCore]
  split
  case isTrue h => rw [← h]
  case isFalse => rfl

theorem ArrNoted.setF {s t : State} (h : ArrNoted s t) (n : FieldName) (i v : Nat)
    (hn : n ∈ [FieldName.ARR_SAT, .ARR_NUMERIC_SAT_SEEN, .ARR_NUMERIC_LAST_SAT_STAGE, .ARR_NUMERIC_LAST_SAT_TAG]) :
    ArrNoted s (t.setF n i v) :=
  h.trans ⟨rfl, fun _ => rfl, fun m j hm => by rw [f_setF, if_neg (by rintro ⟨rfl, -⟩; exact hm hn)]⟩

theorem ArrNoted.setTag {s t : State} (h : ArrNoted s t) (k tag : Nat) (v : TagAcc) : ArrNoted s (t.setTag k tag v) :=
  h.trans ⟨rfl, fun _ => rfl, fun _ _ _ => rfl⟩

theorem satAt_arrNoted (s : State) (c k tag stage n : Nat) : ArrNoted s (s.satAt c k tag stage n) := by
  have hrefl : ArrNoted s s := ⟨rfl, fun _ => rfl, fun _ _ _ => rfl⟩
  unfold State.satAt
  split
  · exact hrefl
  · exact ((((hrefl.setF .ARR_SAT c _ (by simp)).setTag k tag _).setF .ARR_NUMERIC_SAT_SEEN c 1 (by simp)).setF
      .ARR_NUMERIC_LAST_SAT_STAGE c stage (by simp)).setF .ARR_NUMERIC_LAST_SAT_TAG c tag (by simp)

/-- The place of a mismatch is recorded: the step of `arrayCycle`. -/
def recordMismatch (s : State) (c a col slot : Nat) : State :=
  (((s.raise .ARR_FAULT_VALID c).setF .ARR_FAULT_ARRAY c a).setF .ARR_FAULT_COLUMN c col).setF .ARR_FAULT_SLOT c slot

theorem recordMismatch_fields (s : State) (c : Nat) {a col slot : Nat} (ha : a < 4) (hcol : col < 64) (hslot : slot < 64) :
    (recordMismatch s c a col slot).f .ARR_FAULT_VALID c = 1 ∧ (recordMismatch s c a col slot).f .ARR_FAULT_ARRAY c = a ∧
      (recordMismatch s c a col slot).f .ARR_FAULT_COLUMN c = col ∧
      (recordMismatch s c a col slot).f .ARR_FAULT_SLOT c = slot := by
  unfold recordMismatch
  refine ⟨?_, ?_, ?_, f_setF_fits _ c hslot⟩
  · rw [f_setF, if_neg (by simp), f_setF, if_neg (by simp), f_setF, if_neg (by simp)]
    exact f_setF_fits s c (by decide)
  · rw [f_setF, if_neg (by simp), f_setF, if_neg (by simp), f_setF_fits _ c ha]
  · rw [f_setF, if_neg (by simp), f_setF_fits _ c hcol]

theorem recordMismatch_regs (s : State) (c a col slot : Nat) :
    recordMismatch s c a col slot = { s with regs := (recordMismatch s c a col slot).regs } := rfl

theorem recordMismatch_f (s : State) (c a col slot : Nat) {n : FieldName} (i : Nat)
    (hn : n ∉ [.ARR_FAULT_VALID, .ARR_FAULT_ARRAY, .ARR_FAULT_COLUMN, .ARR_FAULT_SLOT]) :
    (recordMismatch s c a col slot).f n i = s.f n i := by
  simp only [List.mem_cons, List.not_mem_nil, or_false, not_or] at hn
  obtain ⟨hvalid, harray, hcol, hslot⟩ := hn
  simp [recordMismatch, f_setF, Ne.symm hvalid, Ne.symm harray, Ne.symm hcol, Ne.symm hslot]

/-- The joins of the rows of core `c` in cycle c + 7 (R57). -/
def joinsOf (s : State) (c upset : Nat) : Joined :=
  (((s.core c).arr.pipe.map (fun p => { p with age := p.age + 1 })).filter (fun p => p.age = 7)).foldl
    (fun acc p => p.cols.zipIdx.foldl (joinColumn upset p.row) acc) ({ partials := (s.core c).arr.partials } : Joined)

/-- A mismatch, the lowest of a cycle, fences the core, its place recorded while none is; of the arrays and the counts of
saturations it is left open what they come to. -/
theorem arrayCycle_mismatch {s : State} {c upset a col slot : Nat} (hst : s.f .CORE_STATUS_STATE c ∈ [1, 2])
    (hawake : (s.core c).asleep = false) (hbad : firstBad (joinsOf s c upset).bad = some (a, col, slot)) :
    ∃ u, ArrNoted s u ∧ arrayCycle c upset s =
      (if u.f .ARR_FAULT_VALID c = 0 then recordMismatch u c a col slot else u).fenceCore c 0 := by
  have hruns : (!(s.f .CORE_STATUS_STATE c = 1 || s.f .CORE_STATUS_STATE c = 2) || (s.core c).asleep) = false := by
    simpa [hawake, or_iff_not_imp_left] using hst
  unfold joinsOf at hbad
  unfold arrayCycle
  simp only [hruns, Bool.false_eq_true, if_false, hbad]
  exact ⟨_, ((setArr_arrNoted s c _).trans (satAt_arrNoted _ _ _ _ _ _)).trans (satAt_arrNoted _ _ _ _ _ _), rfl⟩

theorem exec_arrayCycle_mismatch {s : State} {c upset a col slot own : Nat} (hu : s.up) (hc : c < 384)
    (hupset : upset ≤ 39936) (hst : s.f .CORE_STATUS_STATE c ∈ [1, 2]) (hawake : (s.core c).asleep = false)
    (hvalid : s.f .ARR_FAULT_VALID c = 0) (ha : a < 4) (hcol : col < 64) (hslot : slot < 64)
    (hcarrier : s.carrierOf c = own) (hown : s.f .CORE_STATUS_STATE own ≠ 4)
    (hbad : firstBad (joinsOf s c upset).bad = some (a, col, slot)) :
    ∃ t, exec (.arrayCycle c upset) s = .next t ∧ t.f .CORE_STATUS_STATE own = 4 ∧ t.f .ARR_FAULT_VALID c = 1 ∧
      t.f .ARR_FAULT_ARRAY c = a ∧ t.f .ARR_FAULT_COLUMN c = col ∧ t.f .ARR_FAULT_SLOT c = slot ∧
      (∀ x, x / 8 = own / 8 → x % 8 ∈ s.contexts (own / 8) (own % 8) → x ≠ own → (s.core x).asleep = false →
        Stopped x t) ∧
      t.ledgQ = s.ledgQ ++ [⟨0x06, corePayload s own 0, s.clkTime⟩] ∧
      t.mem = s.mem ∧ t.doms = s.doms ∧ t.ports = s.ports := by
  obtain ⟨u, ⟨hrest, hasleep, hf⟩, hrun⟩ := arrayCycle_mismatch (s := fresh s) hst hawake hbad
  rw [hf _ _ (by simp), f_read_fresh, if_pos hvalid] at hrun
  have hmap : ∀ n ∈ [FieldName.RGN_CORE_MAP_PHYS, .RGN_LIMP_CARRIER], ∀ i,
      (recordMismatch u c a col slot).f n i = s.f n i := by
    rintro n hn i
    simp only [List.mem_cons, List.not_mem_nil, or_false] at hn
    rcases hn with rfl | rfl <;> exact (recordMismatch_f u c a col slot i (by simp)).trans (hf _ i (by simp))
  have hcar : (recordMismatch u c a col slot).carrierOf c = own := (carrierOf_congr c hmap).trans hcarrier
  have hstate : (recordMismatch u c a col slot).f .CORE_STATUS_STATE own ≠ 4 := by
    rw [recordMismatch_f _ _ _ _ _ _ (by simp), hf _ _ (by simp)]
    exact hown
  obtain ⟨hv, har, hco, hsl⟩ := recordMismatch_fields u c ha hcol hslot
  have hkeep {n : FieldName} (hn : n ∈ [FieldName.ARR_FAULT_VALID, .ARR_FAULT_ARRAY, .ARR_FAULT_COLUMN, .ARR_FAULT_SLOT]) :
      ((recordMismatch u c a col slot).fenceCore c 0).f n c = (recordMismatch u c a col slot).f n c := by
    simp only [List.mem_cons, List.not_mem_nil, or_false] at hn
    rcases hn with rfl | rfl | rfl | rfl <;> exact fenceCore_f 0 hcar hstate c (by simp)
  have hx : recordMismatch u c a col slot = { fresh s with
      regs := (recordMismatch u c a col slot).regs, cores := u.cores, tags := u.tags } := by
    rw [recordMismatch_regs, hrest]
  have hpay : corePayload (recordMismatch u c a col slot) own 0 = corePayload s own 0 := by
    rw [corePayload, State.swOf, recordMismatch_f _ _ _ _ _ _ (by simp), hf _ _ (by simp), hx]
    rfl
  obtain ⟨hledgQ, hmem, hdoms, hports⟩ := fenceCore_kept 0 hcar hstate
  rw [exec_arrayCycle, act_up (by simp [coreOk, hc, hupset]) hu, hrun]
  refine ⟨_, rfl, fenceCore_state 0 hcar hstate, (hkeep (by simp)).trans hv, (hkeep (by simp)).trans har,
    (hkeep (by simp)).trans hco, (hkeep (by simp)).trans hsl, fun x hreg hctx hne hax => ?_, ?_, ?_, ?_, ?_⟩
  · refine fenceCore_stops 0 hcar hstate (mem_awakeBeside hreg ?_ hne ((hasleep x).trans hax)) hne
    rw [contexts_congr _ _ hmap]
    exact hctx
  · rw [ledgQ_wrap, hledgQ, hpay, hx]
    rfl
  · rw [mem_wrap, hmem, hx]
    rfl
  · rw [doms_wrap, hdoms, hx]
    rfl
  · rw [ports_wrap, hports, hx]
    rfl

/-! A fault of a physical core. -/

/-- A logical core that a physical core carries is its own carrier. -/
theorem carrierOf_carried {s : State} {r p k : Nat} (hp : p < 9) (h : s.carried r p = some k) : s.carrierOf k = k := by
  obtain ⟨j, hj, rfl⟩ := Option.map_eq_some_iff.1 h
  have hj8 : j < 8 := List.mem_range.1 (List.mem_of_find?_eq_some hj)
  have hphys : s.sub .RGN_CORE_MAP_PHYS r (4 * j) 4 = p := by simpa using List.find?_some hj
  have hr : (8 * r + j) / 8 = r := by omega
  have hk : (8 * r + j) % 8 = j := by omega
  rw [State.carrierOf, State.physK, hr, hk, hphys, if_neg (by omega)]

/-- A failed fitting slice is recorded in the region's map: the step of `coreFault` (R461). -/
def noteSlice (s : State) (r p cause : Nat) : State :=
  if cause = 2 then
    (s.setF .RGN_CORE_MAP_FIT_FAIL r (putBit (s.f .RGN_CORE_MAP_FIT_FAIL r) p true)).tally .RGN_SLICE_FAIL r 1
  else s

theorem noteSlice_regs (s : State) (r p cause : Nat) :
    noteSlice s r p cause = { s with regs := (noteSlice s r p cause).regs } := by
  unfold noteSlice
  split <;> rfl

theorem noteSlice_f (s : State) (r p cause : Nat) {n : FieldName} (i : Nat) (hfit : n ≠ .RGN_CORE_MAP_FIT_FAIL)
    (hslice : n ≠ .RGN_SLICE_FAIL) : (noteSlice s r p cause).f n i = s.f n i := by
  unfold noteSlice
  split
  · simp [f_setF, hfit.symm, hslice.symm]
  · rfl

theorem noteSlice_fitFail (s : State) (r p cause : Nat) : (noteSlice s r p cause).f .RGN_CORE_MAP_FIT_FAIL r =
    if cause = 2 then putBit (s.f .RGN_CORE_MAP_FIT_FAIL r) p true % 2 ^ 9 else s.f .RGN_CORE_MAP_FIT_FAIL r := by
  unfold noteSlice
  split
  · rw [tally_eq, f_setF, if_neg (by simp), f_setF_same]
    rfl
  · rfl

theorem coreFault_carried {s : State} {r p k : Nat} (cause : Nat) (h : s.carried r p = some k) :
    coreFault r p cause s = (noteSlice s r p cause).fenceCore k cause := by
  have hcar : (noteSlice s r p cause).carried r p = some k := by
    rw [← h]
    unfold State.carried State.sub
    rw [noteSlice_f s r p cause r (n := .RGN_CORE_MAP_PHYS) (by simp) (by simp)]
  have hdef : coreFault r p cause s = match (noteSlice s r p cause).carried r p with
      | some c => (noteSlice s r p cause).fenceCore c cause
      | none => noteSlice s r p cause := rfl
  rw [hdef, hcar]

theorem exec_coreFault_fences {s : State} {r p cause k : Nat} (hu : s.up) (hr : r < 48) (hp : p < 9) (hcause : cause < 3)
    (hcar : s.carried r p = some k) (hst : s.f .CORE_STATUS_STATE k ≠ 4) :
    ∃ t, exec (.coreFault r p cause) s = .next t ∧ t.f .CORE_STATUS_STATE k = 4 ∧
      t.f .RGN_CORE_MAP_FIT_FAIL r = (if cause = 2 then putBit (s.f .RGN_CORE_MAP_FIT_FAIL r) p true % 2 ^ 9
        else s.f .RGN_CORE_MAP_FIT_FAIL r) ∧
      t.ledgQ = s.ledgQ ++ [⟨0x06, corePayload s k cause, s.clkTime⟩] ∧
      t.mem = s.mem ∧ t.doms = s.doms ∧ t.ports = s.ports := by
  have hrest := noteSlice_regs (fresh s) r p cause
  have hcarrier : (noteSlice (fresh s) r p cause).carrierOf k = k := by
    refine (carrierOf_congr k (fun n hn i => ?_)).trans (carrierOf_carried hp hcar)
    exact noteSlice_f _ _ _ _ i (by rintro rfl; simp at hn) (by rintro rfl; simp at hn)
  have hstate : (noteSlice (fresh s) r p cause).f .CORE_STATUS_STATE k ≠ 4 := by
    rw [noteSlice_f _ _ _ _ _ (by simp) (by simp)]
    exact hst
  have hpay : corePayload (noteSlice (fresh s) r p cause) k cause = corePayload s k cause := by
    rw [corePayload, State.swOf, noteSlice_f _ _ _ _ _ (by simp) (by simp), hrest]
    rfl
  obtain ⟨hledgQ, hmem, hdoms, hports⟩ := fenceCore_kept cause hcarrier hstate
  rw [exec_coreFault, act_up (by simp [hr, hp, hcause]) hu, coreFault_carried (s := fresh s) cause hcar]
  refine ⟨_, rfl, fenceCore_state cause hcarrier hstate, ?_, ?_, ?_, ?_, ?_⟩
  · rw [f_read_wrap, fenceCore_f cause hcarrier hstate r (by simp), noteSlice_fitFail, f_read_fresh]
  · rw [ledgQ_wrap, hledgQ, hpay, hrest]
    rfl
  · rw [mem_wrap, hmem, hrest]
    rfl
  · rw [doms_wrap, hdoms, hrest]
    rfl
  · rw [ports_wrap, hports, hrest]
    rfl

/-- Settles O23, clause by clause. -/
theorem residueMismatchAndFaultFenceCore : Obligations.ResidueMismatchAndFaultFenceCore := by
  refine ⟨?mismatch, ?fault⟩
  case mismatch =>
    exact fun s c upset a col slot hu hc hupset hst hawake hvalid ha hcol hslot hown hbad =>
      exec_arrayCycle_mismatch hu hc hupset hst hawake hvalid ha hcol hslot rfl hown hbad
  case fault => exact fun s r p cause k hu hr hp hcause hcar hst => exec_coreFault_fences hu hr hp hcause hcar hst

end Sys2Proof.Proofs
end

section
/-! SUPPORT. What the tier layer's own work can change (R272 to R282, R301, R460): the directory and its moves, waits and
results, free locations and the capacity shown; never a stack's die, a flash controller's fence, a step or the ledger. -/

namespace Sys2Proof.Proofs

open Sys2Proof.Machine Sys2Proof.Laws

/-- The register fields that work of the tier layer can change. -/
def tierFields : List FieldName :=
  [.DIR_FLIPS, .TIER_DEFERS, .TIER_FREE_T1, .TIER_FREE_T2, .FLC_BUDGET_FALLBACK, .TIER_STALL_LAST_SWATCH,
    .TIER_STALL_LAST_CAUSE, .TIER_STALL_LAST_FAILED, .TIER_STALL_LAST_DURATION, .HST_INT_CAUSE_CAUSE, .HUB_CAPACITY_CORES,
    .HUB_CAPACITY_REGIONS_OUT, .HUB_CAPACITY_STACKS, .HUB_CAPACITY_FLASH_CTL, .HUB_CAPACITY_RETIRED, .HUB_BOOT_DEGRADED]

/-- Two states that differ by work of the tier layer. -/
def TierWork (s t : State) : Prop :=
  t = { s with regs := t.regs, out := t.out, mem := t.mem, slots := t.slots } ∧
    t.mem.stackDies = s.mem.stackDies ∧ (∀ c, (t.flc c).fenced = (s.flc c).fenced) ∧
    ∀ n i, n ∉ tierFields → t.f n i = s.f n i

namespace TierWork

theorem refl (s : State) : TierWork s s := ⟨rfl, rfl, fun _ => rfl, fun _ _ _ => rfl⟩

variable {s t u : State}

theorem trans (h : TierWork s t) (k : TierWork t u) : TierWork s u :=
  ⟨by rw [k.1, h.1], k.2.1.trans h.2.1, fun c => (k.2.2.1 c).trans (h.2.2.1 c),
    fun n i hn => (k.2.2.2 n i hn).trans (h.2.2.2 n i hn)⟩

theorem setF (h : TierWork s t) (n : FieldName) (i v : Nat)
    (hn : n ∈ tierFields) : TierWork s (t.setF n i v) :=
  h.trans ⟨rfl, rfl, fun _ => rfl, fun m j hm => by rw [f_setF, if_neg (by rintro ⟨rfl, -⟩; exact hm hn)]⟩

theorem tally (h : TierWork s t) (n : FieldName) (i k : Nat) (hn : n ∈ tierFields) : TierWork s (t.tally n i k) :=
  h.setF n i _ hn

theorem emit (h : TierWork s t) (o : Out) : TierWork s (t.emit o) :=
  h.trans ⟨rfl, rfl, fun _ => rfl, fun _ _ _ => rfl⟩

theorem setMem (h : TierWork s t) {m : Mem} (hdies : m.stackDies = t.mem.stackDies := by rfl)
    (hflash : m.flash = t.mem.flash := by rfl) : TierWork s (t.setMem m) :=
  h.trans ⟨rfl, hdies, fun c => by rw [State.flc, mem_setMem, hflash, State.flc], fun _ _ _ => rfl⟩

theorem setDir (h : TierWork s t) (b : Nat) (e : DirEntry) : TierWork s (t.setDir b e) := h.setMem

theorem setMove (h : TierWork s t) (b : Nat) (m : Option MoveRec) : TierWork s (t.setMove b m) := h.setMem

theorem interruptPart (h : TierWork s t) (p c : Nat) : TierWork s (t.interruptPart p c) := by
  have hregs := interruptPart_regsOut t p c
  exact h.trans ⟨by rw [hregs], by rw [hregs], fun x => by rw [hregs]; rfl,
    fun n i hn => interruptPart_f t p c n i (by rintro rfl; exact hn (by decide))⟩

theorem interruptAll (h : TierWork s t) (c : Nat) : TierWork s (t.interruptAll c) := by
  have hregs := interruptAll_regsOut t c
  exact h.trans ⟨by rw [hregs], by rw [hregs], fun x => by rw [hregs]; rfl,
    fun n i hn => interruptAll_f t c n i (by rintro rfl; exact hn (by decide))⟩

theorem foldl {α : Type} (h : TierWork s t) (l : List α) {g : State → α → State} (hg : ∀ u a, TierWork u (g u a)) :
    TierWork s (l.foldl g t) :=
  List.foldlRecOn _ _ h (fun u hu a _ => hu.trans (hg u a))

/-! Results and waits. -/

theorem post (h : TierWork s t) (part slot : Nat) (irq : Bool) (r : Result) : TierWork s (t.post part slot irq r) := by
  have hslot : TierWork s { t with slots := FMap.set {} t.slots (4096 * part + slot) ⟨true, some r.bits⟩ } :=
    h.trans ⟨rfl, rfl, fun _ => rfl, fun _ _ _ => rfl⟩
  unfold State.post
  dsimp only
  split
  · exact hslot.interruptPart part 0
  · exact hslot

theorem tierResult (h : TierWork s t) (q : TierReq) (status entry : Nat) : TierWork s (t.tierResult q status entry) := by
  unfold State.tierResult
  split
  · exact h
  · exact h.post _ _ _ _

theorem showStall (h : TierWork s t) (w : Waiter) (failed : Bool) : TierWork s (t.showStall w failed) :=
  (((h.setF .TIER_STALL_LAST_SWATCH 0 _ (by decide)).setF .TIER_STALL_LAST_CAUSE 0 _ (by decide)).setF
    .TIER_STALL_LAST_FAILED 0 _ (by decide)).setF .TIER_STALL_LAST_DURATION 0 _ (by decide)

theorem endWaits (h : TierWork s t) (key : Nat) : TierWork s (t.endWaits key) := by
  unfold State.endWaits
  refine (h.foldl _ (fun u w => ?_)).setMem
  split
  · exact refl u
  · exact (refl u).showStall w w.past

theorem waitOn (h : TierWork s t) (k cause key : Nat) : TierWork s (t.waitOn k cause key) := by
  unfold State.waitOn State.waitAs
  split
  · exact h
  · exact h.setMem

theorem heldFail (h : TierWork s t) (r : HeldReq) : TierWork s (t.heldFail r) := by
  unfold State.heldFail
  split
  · exact h
  · exact (h.endWaits _).tierResult _ _ _

/-! Locations freed and counted. -/

theorem countFree (h : TierWork s t) : TierWork s t.countFree :=
  (h.setF .TIER_FREE_T1 0 _ (by decide)).setF .TIER_FREE_T2 0 _ (by decide)

theorem setBuffer (h : TierWork s t) (c : Nat) (l : List Nat) :
    TierWork s (t.setFlc c { t.flc c with buffer := l }) := by
  refine h.trans ⟨rfl, rfl, fun x => ?_, fun _ _ _ => rfl⟩
  simp only [State.flc, setFlc_eq, mem_setMem, get_set]
  split
  case isTrue hx => rw [← hx]
  case isFalse => rfl

theorem freeLoc (h : TierWork s t) (tier loc : Nat) : TierWork s (t.freeLoc tier loc) := by
  unfold State.freeLoc
  split
  · exact h.setMem
  · split
    · exact (h.setBuffer (loc % 2) _).setMem
    · exact h

theorem advance (h : TierWork s t) (b : Nat) (freed : Bool) : TierWork s (t.advance b freed) := by
  unfold State.advance
  dsimp only
  exact emit (tally (setMem (setDir h b _)) .DIR_FLIPS _ 1 (by decide)) _

theorem dropPocketBolt (h : TierWork s t) (b : Nat) : TierWork s (t.dropPocketBolt b) := h.setMem

theorem freeBolt (h : TierWork s t) (b : Nat) : TierWork s (t.freeBolt b) := by
  unfold State.freeBolt
  dsimp only
  have hadv := h.advance b true
  generalize t.advance b true = a at hadv
  have hloc := (hadv.freeLoc (t.dirE b).tier (t.dirE b).home).dropPocketBolt b
  generalize (a.freeLoc (t.dirE b).tier (t.dirE b).home).dropPocketBolt b = f at hloc
  have hmem : TierWork s (f.setMem { f.mem with
      pendTier := FMap.erase f.mem.pendTier b, named := FMap.erase f.mem.named b }) := hloc.setMem
  exact foldl (countFree (setMove (setDir hmem b _) b none)) _ (fun u r => (refl u).heldFail r)

/-! The start of moves. -/

theorem deferEvict (h : TierWork s t) (b tier : Nat) : TierWork s (t.deferEvict b tier) := by
  unfold State.deferEvict
  dsimp only
  exact tally (setMem (setDir h b _)) .TIER_DEFERS 0 1 (by decide)

theorem reserveWaits (h : TierWork s t) (b : Nat) (m : MoveRec) (cause : Nat) : TierWork s (t.reserveWaits b m cause) :=
  (h.setMove b _).waitOn _ _ _

theorem use (h : TierWork s t) : TierWork s t.use := h.setMem

theorem moveReserve (h : TierWork s t) (b : Nat) : TierWork s (moveReserve b t) := by
  unfold Machine.moveReserve
  split
  · exact h
  · rename_i m hm
    split
    · exact h
    · extract_lets e k near take try1
      have htake (u : State) (dt loc : Nat) (hu : TierWork s u) : TierWork s (take u dt loc) :=
        countFree (use (setMove (setDir hu b _) b _))
      have htry (u : State) (dt : Nat) (hu : TierWork s u) : TierWork s (try1 u dt) := by
        simp only [try1]
        split
        · exact hu.reserveWaits _ _ _
        · split
          · exact hu.reserveWaits _ _ _
          · split
            · exact hu.reserveWaits _ _ _
            · exact htake u dt _ hu
      clear_value take try1
      split
      · split
        · exact h.reserveWaits _ _ _
        · exact (h.deferEvict _ _).reserveWaits _ _ _
      · split
        · split
          · exact h.reserveWaits _ _ _
          · split
            · exact htry _ _ h
            · exact htry _ _ (h.tally .FLC_BUDGET_FALLBACK _ 1 (by decide))
            · split
              · exact h
              · exact (h.tally .FLC_BUDGET_FALLBACK _ 1 (by decide)).reserveWaits _ _ _
        · split
          · exact h.reserveWaits _ _ _
          · exact htry _ _ h

/-! Promotes and evictions. -/

theorem startMove (h : TierWork s t) (b : Nat) (up : Bool) (dtier place cls : Nat) (inTier : Bool) :
    TierWork s (t.startMove b up dtier place cls inTier).state := by
  unfold State.startMove
  split
  · exact h
  · exact (h.setMove b _).moveReserve b

theorem holdReq (h : TierWork s t) (b : Nat) (r : HeldReq) : TierWork s (t.holdReq b r).state := by
  unfold State.holdReq
  split
  · exact h
  · exact h.setMove b _

theorem overtake (h : TierWork s t) (b : Nat) (m : MoveRec) (r : HeldReq) : TierWork s (t.overtake b m r).state := by
  unfold State.overtake
  extract_lets w x
  have hx : TierWork s x := (h.setMove b _).moveReserve b
  clear_value x
  split
  · split
    · exact hx
    · exact h.holdReq b r
  · exact hx

theorem joinUp (h : TierWork s t) (b : Nat) (r : HeldReq) : TierWork s (t.joinUp b r).state := by
  unfold State.joinUp
  split
  · split
    · exact h.setMove b _
    · split
      · exact h.overtake b _ r
      · exact h.holdReq b r
  · exact h

theorem joinDown (h : TierWork s t) (b : Nat) (r : HeldReq) : TierWork s (t.joinDown b r).state := by
  unfold State.joinDown
  split
  · split
    · exact h
    · split
      · exact h.overtake b _ r
      · exact h.holdReq b r
  · exact h

theorem promoteAt (h : TierWork s t) (b tier place cls k : Nat) (req : Option TierReq) :
    TierWork s (t.promoteAt b tier place cls k req).state := by
  unfold State.promoteAt
  extract_lets e r
  split
  · exact h
  · split
    · split
      · exact h
      · split
        · exact h.joinUp b r
        · exact h.startMove b true tier place cls false
    · exact h.joinUp b r

theorem evict (h : TierWork s t) (b tier cls k : Nat) (req : Option TierReq) :
    TierWork s (t.evict b tier cls k req).state := by
  unfold State.evict
  extract_lets e r
  split
  · exact h
  · split
    · split
      · exact h
      · split
        · exact h.deferEvict b tier
        · split
          · exact h.joinDown b r
          · exact h.startMove b false tier 0 cls false
    · split
      · exact h.deferEvict b tier
      · exact h.joinDown b r

/-! The end of moves. -/

theorem settleBolt (h : TierWork s t) (b : Nat) : TierWork s (t.settleBolt b) := by
  unfold State.settleBolt
  extract_lets e tier u
  have hu : TierWork s u := h.setDir b _
  clear_value u
  split
  · exact h
  · split
    · split
      · exact h.freeBolt b
      · exact h
    · split
      · have hev := TierWork.evict (t := u.setMem { u.mem with pendTier := FMap.erase u.mem.pendTier b }) hu.setMem
          b tier 3 e.owner none
        split
        · exact h
        · exact hev
      · exact h

theorem wake (h : TierWork s t) (b : Nat) : TierWork s (t.wake b) := by
  unfold State.wake
  dsimp only
  exact foldl (setMem h) _ (fun u x => (refl u).settleBolt x)

theorem heldOne (h : TierWork s t) (b : Nat) (r : HeldReq) : TierWork s (State.heldOne b t r) := by
  unfold State.heldOne
  extract_lets a
  have ha : TierWork s a.state := by
    simp only [a]
    split
    · exact h.evict b _ _ _ _
    · exact h.promoteAt b _ _ _ _ _
  clear_value a
  cases hreq : r.req with
  | none => exact ha
  | some q =>
    cases a with
    | ok u =>
      dsimp only
      split
      · exact (TierWork.endWaits ha _).tierResult _ _ _
      · exact (TierWork.endWaits ha _).setMem
    | wait u cause => exact TierWork.setMem ha
    | fail u status => exact (TierWork.endWaits ha _).tierResult _ _ _
    | held u => exact ha

theorem afterMove (h : TierWork s t) (b : Nat) (held : List HeldReq) : TierWork s (t.afterMove b held) := by
  unfold State.afterMove
  dsimp only
  split
  · exact (h.settleBolt b).foldl _ (fun u r => (refl u).heldFail r)
  · exact (h.settleBolt b).foldl _ (fun u r => (refl u).heldOne b r)

theorem abandonMove (h : TierWork s t) (b : Nat) : TierWork s (t.abandonMove b) := by
  unfold State.abandonMove
  extract_lets e u
  have hu : TierWork s u := h.setMove b none
  clear_value u
  split
  · exact hu
  · exact (hu.freeLoc _ _).setDir b _

theorem abandonTo (h : TierWork s t) (p : DirEntry → Bool) : TierWork s (t.abandonTo p) := by
  unfold State.abandonTo
  refine h.foldl _ (fun u x => ?_)
  split
  · exact refl u
  · dsimp only
    split
    · exact (((refl u).abandonMove _).afterMove _ _).wake _
    · exact refl u

/-! Capacity. -/

theorem showCapacity (h : TierWork s t) : TierWork s t.showCapacity :=
  setF (setF (setF (setF (setF (setF h .HUB_CAPACITY_CORES 0 _ (by decide)) .HUB_CAPACITY_REGIONS_OUT 0 _ (by decide))
    .HUB_CAPACITY_STACKS 0 _ (by decide)) .HUB_CAPACITY_FLASH_CTL 0 _ (by decide)) .HUB_CAPACITY_RETIRED 0 _ (by decide))
    .HUB_BOOT_DEGRADED 0 _ (by decide)

theorem loseCapacity (h : TierWork s t) : TierWork s t.loseCapacity := h.showCapacity.interruptAll 5

end TierWork

end Sys2Proof.Proofs
end

section
/-! SUPPORT. A unit fault and what it makes of the steps that run (R32, R197, R199): causes set stay set, and every step of
the module that is not latched fails. -/

namespace Sys2Proof.Proofs

open Sys2Proof.Machine Sys2Proof.Laws

/-! Steps that fail. -/

/-- Setting a bit clears no other. -/
theorem bitAt_putBit_keeps {v i : Nat} (c : Nat) (h : bitAt v i = true) : bitAt (putBit v c true) i = true := by
  have hlow : v % 2 ^ c < 2 ^ c := Nat.mod_lt _ (Nat.two_pow_pos c)
  have hsplit : putBit v c true = 2 ^ c * (2 * (v >>> (c + 1)) + 1) + v % 2 ^ c := by
    simp only [putBit, setBits, if_true, pow_succ]
    ring
  unfold bitAt at h ⊢
  rw [hsplit, Nat.testBit_two_pow_mul_add _ hlow]
  split
  case isTrue hi => rw [Nat.testBit_mod_two_pow, h, decide_eq_true hi]; rfl
  case isFalse hi =>
    obtain ⟨m, rfl⟩ := Nat.exists_eq_add_of_le (Nat.le_of_not_lt hi)
    rw [Nat.add_sub_cancel_left]
    cases m with
    | zero => simp
    | succ m =>
      rw [Nat.testBit_succ, Nat.mul_add_div (by decide)]
      simpa [Nat.testBit_shiftRight, Nat.add_assoc, Nat.add_comm 1] using h

/-- Swatch `k`'s step runs and is not latched. -/
def OpenStep (k : Nat) (s : State) : Prop := (s.sw k).started = true ∧ (s.sw k).latched = false

/-- Swatch `k`'s step runs, is not latched, and its bit is 0 with cause UNIT. -/
def UnitFailed (k : Nat) (s : State) : Prop :=
  OpenStep k s ∧ bitAt (s.sw k).cause causeUnit = true ∧ (s.sw k).bit0 = true

theorem UnitFailed.congr {k : Nat} {s t : State} (h : UnitFailed k s) (hsw : t.sw k = s.sw k) : UnitFailed k t := by
  unfold UnitFailed OpenStep
  rw [hsw]
  exact h

theorem breakCore_sws (s : State) (c : Nat) : (breakCore s c).sws = s.sws := by
  unfold breakCore
  dsimp only
  split <;> rfl

/-- What an event makes of the runs of the swatches (R197, R198). -/
theorem failStep_sw (s : State) (j b k : Nat) : (s.failStep j b).sw k =
    if j ≠ k then s.sw k
    else if (s.sw k).started && !(s.sw k).latched then
      { s.sw k with cause := putBit (s.sw k).cause b true, bit0 := true, broken := true }
    else { s.sw k with nextCause := putBit (s.sw k).nextCause b true, nextBit0 := true } := by
  have hbroken (r : SwRun) : ((((s.setSw j r).swCores j).foldl breakCore (s.setSw j r)).sw k) = (s.setSw j r).sw k := by
    refine congrArg (fun m => FMap.get {} m k) (?_ : State.sws _ = State.sws _)
    exact List.foldlRecOn (motive := fun t : State => t.sws = (s.setSw j r).sws) _ _ rfl
      (fun t ht c _ => (breakCore_sws t c).trans ht)
  unfold State.failStep
  by_cases hj : j = k
  · subst hj
    dsimp only
    split
    · rw [hbroken, sw_setSw_same, if_neg (by simp)]
    · rw [sw_setSw_same, if_neg (by simp)]
  · rw [if_pos hj]
    dsimp only
    split
    · rw [hbroken, sw_setSw, if_neg hj]
    · rw [sw_setSw, if_neg hj]

theorem OpenStep.failStep {k : Nat} {s : State} (h : OpenStep k s) (j b : Nat) : OpenStep k (s.failStep j b) := by
  obtain ⟨hstarted, hlatched⟩ := h
  unfold OpenStep
  rw [failStep_sw]
  split
  · exact ⟨hstarted, hlatched⟩
  · rw [if_pos (by simp [hstarted, hlatched])]
    exact ⟨hstarted, hlatched⟩

theorem OpenStep.failStep_unit {k : Nat} {s : State} (h : OpenStep k s) : UnitFailed k (s.failStep k causeUnit) := by
  refine ⟨h.failStep k causeUnit, ?_⟩
  rw [failStep_sw, if_neg (by simp), if_pos (by simp [h.1, h.2])]
  exact ⟨bitAt_putBit _ _, rfl⟩

theorem UnitFailed.failStep {k : Nat} {s : State} (h : UnitFailed k s) (j b : Nat) : UnitFailed k (s.failStep j b) := by
  obtain ⟨hopen, hcause, hbit⟩ := h
  refine ⟨hopen.failStep j b, ?_⟩
  rw [failStep_sw]
  split
  · exact ⟨hcause, hbit⟩
  · rw [if_pos (by simp [hopen.1, hopen.2])]
    exact ⟨bitAt_putBit_keeps b hcause, rfl⟩

theorem moduleFault_unitFailed {k : Nat} {s : State} (hk : k ∈ s.startedSws) (hlatched : (s.sw k).latched = false) :
    UnitFailed k s.moduleFault := by
  have hstarted : (s.sw k).started = true := (List.mem_filter.1 hk).2
  have hopen : OpenStep k s := ⟨hstarted, hlatched⟩
  unfold State.moduleFault
  refine UnitFailed.congr (s := s.startedSws.foldl (fun t k => t.failStep k causeUnit) s) ?_
    (by rw [interruptAll_regsOut]; rfl)
  obtain ⟨l₁, l₂, hl⟩ := List.append_of_mem hk
  rw [hl, List.foldl_append, List.foldl_cons]
  have hbefore : OpenStep k (l₁.foldl (fun t k => t.failStep k causeUnit) s) :=
    List.foldlRecOn _ _ hopen (fun t ht j _ => ht.failStep j causeUnit)
  exact List.foldlRecOn _ _ hbefore.failStep_unit (fun t ht j _ => ht.failStep j causeUnit)

theorem UnitFailed.setWithdraw {k : Nat} {s : State} (h : UnitFailed k s) (cause : Nat) :
    UnitFailed k (s.setWithdraw cause) := by
  unfold State.setWithdraw
  dsimp only
  refine List.foldlRecOn _ _ (h.congr ?_) (fun t ht j _ => ?_)
  · split <;> rfl
  · split
    · exact ht
    · have hfail := ht.failStep j causeWithdraw
      generalize t.failStep j causeWithdraw = u at hfail
      unfold UnitFailed OpenStep at hfail ⊢
      rw [updSw_eq, sw_setSw]
      split
      case isTrue hj => rw [← hj] at hfail; exact hfail
      case isFalse => exact hfail

/-! A unit fault reported. -/

/-- A unit fault has been taken: one ledger entry of type UNIT, and the module set to withdraw (R32, R197). -/
structure FaultTaken (s t : State) : Prop where
  entry    : ∃ e, t.ledgQ = s.ledgQ ++ [e] ∧ e.type = 0x06
  withdraw : withdrawal t = (some (s.withdraw.getD (2 ^ causeUnit)), false, 0)

/-- A state with the same queue and the same withdrawal before it takes the fault as well. -/
theorem FaultTaken.of_same {s t u : State} (h : FaultTaken t u) (hledgQ : t.ledgQ = s.ledgQ)
    (hwithdraw : t.withdraw = s.withdraw) : FaultTaken s u :=
  ⟨hledgQ ▸ h.entry, hwithdraw ▸ h.withdraw⟩

/-- Work of the tier layer after it leaves it a fault taken. -/
theorem FaultTaken.work {s t u : State} (h : FaultTaken s t) (hw : TierWork t u) : FaultTaken s u := by
  have hledgQ : u.ledgQ = t.ledgQ := by rw [hw.1]
  have hwithdrawal : withdrawal u = withdrawal t := by rw [hw.1]; rfl
  exact ⟨hledgQ ▸ h.entry, hwithdrawal ▸ h.withdraw⟩

theorem UnitFailed.work {k : Nat} {s t : State} (h : UnitFailed k s) (hw : TierWork s t) : UnitFailed k t :=
  h.congr (by rw [hw.1]; rfl)

theorem regionFault_withdraw (s : State) (r : Nat) : withdrawal (s.regionFault r) = withdrawal s := by
  unfold State.regionFault
  split
  · rfl
  · exact (regsOut_withdraw (interruptPart_regsOut _ _ 5)).trans
      (foldl_withdraw _ _ (fun s k => failStep_withdraw s k causeUnit) s)

/-- A report that leaves queue and withdrawal alone, between a fault's entry and the withdrawal. -/
theorem faultTaken_setWithdraw {s t : State} {payload : Nat} (hf : Failed (s.ledger 0x06 payload) t)
    (hw : withdrawal t = withdrawal (s.ledger 0x06 payload)) : FaultTaken s (t.setWithdraw (2 ^ causeUnit)) := by
  refine ⟨⟨⟨0x06, payload, s.clkTime⟩, ?_, rfl⟩, ?_⟩
  · rw [(failed_kept (setWithdraw_failed t _)).1, (failed_kept hf).1, ledger_ledgQ]
  · have hsame : t.withdraw = s.withdraw := congrArg Prod.fst hw
    rw [setWithdraw_withdraw, hsame]

/-- The report of a fault of a unit of the module: the step that `unitFault` and `State.fenceStack` share. -/
def unitReport (s : State) (payload : Nat) : State := ((s.ledger 0x06 payload).moduleFault).setWithdraw (2 ^ causeUnit)

theorem unitReport_failed (s : State) (payload : Nat) : Failed (s.ledger 0x06 payload) (unitReport s payload) :=
  (moduleFault_failed _).trans (setWithdraw_failed _ _)

theorem unitReport_taken (s : State) (payload : Nat) : FaultTaken s (unitReport s payload) :=
  faultTaken_setWithdraw (moduleFault_failed _) (moduleFault_withdraw _)

theorem unitReport_mem (s : State) (payload : Nat) : (unitReport s payload).mem = s.mem :=
  (failed_kept (unitReport_failed s payload)).2.1

theorem unitReport_unitFailed {k : Nat} {s : State} (payload : Nat) (hk : k ∈ s.startedSws)
    (hlatched : (s.sw k).latched = false) : UnitFailed k (unitReport s payload) :=
  (moduleFault_unitFailed (s := s.ledger 0x06 payload) hk hlatched).setWithdraw _

theorem regionUnitFault_failed (s : State) (kind : UnitKind) (r : Nat) :
    Failed (s.ledger 0x06 (unitPayload kind r 0 causeUnit 0 0)) (s.regionUnitFault kind r) :=
  (regionFault_failed _ r).trans (setWithdraw_failed _ _)

theorem regionUnitFault_taken (s : State) (kind : UnitKind) (r : Nat) : FaultTaken s (s.regionUnitFault kind r) :=
  faultTaken_setWithdraw (regionFault_failed _ r) (regionFault_withdraw _ r)

theorem regionUnitFault_mem (s : State) (kind : UnitKind) (r : Nat) : (s.regionUnitFault kind r).mem = s.mem :=
  (failed_kept (regionUnitFault_failed s kind r)).2.1

/-- The register fields that a unit fault's report can change. -/
def reportFields : List FieldName :=
  [.CORE_STATUS_BROKEN, .CORE_STATUS_STATE, .VEC_STATUS_BUSY, .HST_INT_CAUSE_CAUSE, .LEDG_STATUS_QUEUE]

theorem reported_f {s t : State} {payload : Nat} (h : Failed (s.ledger 0x06 payload) t) {n : FieldName} (i : Nat)
    (hn : n ∉ reportFields) : t.f n i = s.f n i := by
  simp only [reportFields, List.mem_cons, List.not_mem_nil, or_false, not_or] at hn
  obtain ⟨hbroken, hstate, hbusy, hint, hledg⟩ := hn
  rw [h.2 n i (by simp [hbroken, hstate, hbusy, hint]), ledger_f _ _ _ _ _ hledg]

/-! A fenced stack (R197, R254). -/

/-- The moves that no longer have a destination end, without a move in progress none. -/
theorem abandonTo_idle {s : State} (h : s.mem.moves = []) (p : DirEntry → Bool) : s.abandonTo p = s := by
  simp [State.abandonTo, h]

theorem countFree_mem (s : State) : s.countFree.mem = s.mem := by
  simp only [State.countFree, mem_setF]

theorem showCapacity_mem (s : State) : s.showCapacity.mem = s.mem := by
  simp only [State.showCapacity, mem_setF]

theorem interruptAll_mem (s : State) (c : Nat) : (s.interruptAll c).mem = s.mem := by rw [interruptAll_regsOut]

theorem loseCapacity_mem (s : State) : s.loseCapacity.mem = s.mem := (interruptAll_mem _ 5).trans (showCapacity_mem s)

/-- The entries in a stack that leaves service are lost: the first step of `State.fenceStack`. -/
def loseServed (s : State) (st : Nat) : State := if s.stackServes st then s.loseDir st else s

theorem loseServed_eq (s : State) (st : Nat) : loseServed s st = s.setMem { s.mem with
    dir := (loseServed s st).mem.dir, dirOut := (loseServed s st).mem.dirOut } := by
  have hdir : ∃ d o, loseServed s st = s.setMem { s.mem with dir := d, dirOut := o } := by
    unfold loseServed State.loseDir
    dsimp only
    split
    · split
      · exact ⟨_, _, rfl⟩
      · exact ⟨s.mem.dir, s.mem.dirOut, rfl⟩
    · exact ⟨s.mem.dir, s.mem.dirOut, rfl⟩
  obtain ⟨d, o, h⟩ := hdir
  rw [h]
  rfl

theorem loseServed_dir {s : State} {st : Nat} (h : st ∉ s.mem.rsvSet) : (loseServed s st).mem.dir = s.mem.dir := by
  simp [loseServed, State.loseDir, h]

/-- A stack out of service, its fault reported: `State.fenceStack` before the moves bound for it end. -/
def stackReport (s : State) (st code : Nat) (kind : UnitKind) : State :=
  unitReport ((loseServed s st).setF .BASE_STATUS_STATE st code) (unitPayload kind st 0 causeUnit 0 0)

theorem fenceStack_eq (s : State) (st code : Nat) (kind : UnitKind) : s.fenceStack st code kind =
    (((stackReport s st code kind).abandonTo (fun e => e.dtier = 1 && t1Stack e.dest = st)).countFree).loseCapacity := rfl

theorem fenceStack_work (s : State) (st code : Nat) (kind : UnitKind) :
    TierWork (stackReport s st code kind) (s.fenceStack st code kind) := by
  rw [fenceStack_eq]
  exact ((TierWork.refl _).abandonTo _).countFree.loseCapacity

theorem fenceStack_taken (s : State) (st code : Nat) (kind : UnitKind) : FaultTaken s (s.fenceStack st code kind) := by
  refine ((unitReport_taken _ _).of_same ?_ ?_).work (fenceStack_work s st code kind) <;> rw [loseServed_eq] <;> rfl

theorem fenceStack_unitFailed {s : State} {k : Nat} (st code : Nat) (kind : UnitKind) (hk : k ∈ s.startedSws)
    (hlatched : (s.sw k).latched = false) : UnitFailed k (s.fenceStack st code kind) := by
  refine UnitFailed.work (unitReport_unitFailed _ ?_ ?_) (fenceStack_work s st code kind) <;> rw [loseServed_eq]
  · exact hk
  · exact hlatched

/-- Beside the reports and the work of the tier layer a fenced stack changes its state alone. -/
theorem fenceStack_f (s : State) (st code : Nat) (kind : UnitKind) {n : FieldName} (i : Nat) (ht : n ∉ tierFields)
    (hr : n ∉ reportFields) : (s.fenceStack st code kind).f n i = (s.setF .BASE_STATUS_STATE st code).f n i := by
  obtain ⟨-, -, -, hf⟩ := fenceStack_work s st code kind
  rw [hf n i ht, stackReport, reported_f (unitReport_failed _ _) i hr, loseServed_eq]
  rfl

theorem fenceStack_stack (s : State) (st code : Nat) (kind : UnitKind) (j : Nat) :
    (s.fenceStack st code kind).stack j = s.stack j := by
  obtain ⟨-, hdies, -, -⟩ := fenceStack_work s st code kind
  unfold State.stack
  rw [hdies, stackReport, unitReport_mem, mem_setF, loseServed_eq]
  rfl

theorem fenceStack_smb (s : State) (st code : Nat) (kind : UnitKind) : (s.fenceStack st code kind).smb = s.smb := by
  rw [(fenceStack_work s st code kind).1]
  show (stackReport s st code kind).smb = s.smb
  rw [stackReport, (unitReport_failed _ _).1, loseServed_eq]
  rfl

/-- Without a move in progress a fenced stack costs the memories no more than the directory entries it held. -/
theorem fenceStack_mem {s : State} (st code : Nat) (kind : UnitKind) (h : s.mem.moves = []) :
    (s.fenceStack st code kind).mem = (loseServed s st).mem := by
  have hmem : (stackReport s st code kind).mem = (loseServed s st).mem := by rw [stackReport, unitReport_mem]; rfl
  have hidle : (stackReport s st code kind).mem.moves = [] := by rw [hmem, loseServed_eq]; exact h
  rw [fenceStack_eq, abandonTo_idle hidle, loseCapacity_mem, countFree_mem, hmem]

/-! A flash controller that is lost. -/

/-- A flash controller is taken out of service: the step of `unitFault`. -/
def fenceFlash (s : State) (num : Nat) : State :=
  (s.setFlc num { s.flc num with fenced := true }).setF .FLC_STATUS_STATE num 2

theorem fenceFlash_mem (s : State) (num : Nat) :
    (fenceFlash s num).mem = { s.mem with flash := (fenceFlash s num).mem.flash } := rfl

theorem FaultTaken.fenceFlash {s t : State} (h : FaultTaken s t) (num : Nat) : FaultTaken s (fenceFlash t num) :=
  ⟨h.entry, h.withdraw⟩

theorem UnitFailed.fenceFlash {k : Nat} {s : State} (h : UnitFailed k s) (num : Nat) : UnitFailed k (fenceFlash s num) := h

theorem fenceFlash_fenced (s : State) (num : Nat) :
    (Proofs.fenceFlash s num).f .FLC_STATUS_STATE num = 2 ∧ ((Proofs.fenceFlash s num).flc num).fenced = true := by
  refine ⟨f_setF_fits _ num (by decide), ?_⟩
  rw [State.flc, fenceFlash_mem]
  simp [Proofs.fenceFlash]

/-- A fault of a flash controller up to the moves that it ends. -/
def flashReport (s : State) (num : Nat) : State := fenceFlash (unitReport s (unitPayload .flash num 0 causeUnit 0 0)) num

theorem unitFault_flash (s : State) (num : Nat) : unitFault 7 num s =
    ((flashReport s num).abandonTo (fun e => e.dtier = 2 && e.dest % 2 = num)).loseCapacity := rfl

theorem flash_work (s : State) (num : Nat) : TierWork (flashReport s num) (unitFault 7 num s) := by
  rw [unitFault_flash]
  exact ((TierWork.refl _).abandonTo _).loseCapacity

theorem flash_taken (s : State) (num : Nat) : FaultTaken s (unitFault 7 num s) :=
  ((unitReport_taken s _).fenceFlash num).work (flash_work s num)

theorem flash_fenced (s : State) (num : Nat) :
    (unitFault 7 num s).f .FLC_STATUS_STATE num = 2 ∧ ((unitFault 7 num s).flc num).fenced = true := by
  obtain ⟨-, -, hflc, hf⟩ := flash_work s num
  obtain ⟨hstate, hfenced⟩ := fenceFlash_fenced (unitReport s (unitPayload .flash num 0 causeUnit 0 0)) num
  exact ⟨(hf _ num (by decide)).trans hstate, (hflc num).trans hfenced⟩

theorem flash_mem {s : State} (num : Nat) (h : s.mem.moves = []) :
    (unitFault 7 num s).mem.st = s.mem.st ∧ (unitFault 7 num s).mem.dir = s.mem.dir := by
  have hmem : (flashReport s num).mem = { s.mem with flash := (flashReport s num).mem.flash } := by
    rw [flashReport, fenceFlash_mem, unitReport_mem]
  rw [unitFault_flash, abandonTo_idle (by rw [hmem]; exact h), loseCapacity_mem, hmem]
  exact ⟨rfl, rfl⟩

/-! UNIT_FAULT. -/

/-- What UNIT_FAULT leaves behind, whatever the unit. -/
structure UnitLost (kind num : Nat) (s t : State) : Prop extends FaultTaken s t where
  pocket : kind = 1 → t.f .RGN_PKT_STATUS_FAULT_SEEN num = 1
  stack : kind = 3 ∨ kind = 4 → t.f .BASE_STATUS_STATE num = 5
  flash : kind = 7 → t.f .FLC_STATUS_STATE num = 2 ∧ (t.flc num).fenced = true
  steps : 3 ≤ kind → ∀ k ∈ s.startedSws, (s.sw k).latched = false → UnitFailed k t
  idle : s.mem.moves = [] → t.mem.st = s.mem.st ∧ ((kind = 3 ∨ kind = 4 → num ∉ s.mem.rsvSet) → t.mem.dir = s.mem.dir)

theorem pocket_lost (s : State) (num : Nat) : UnitLost 1 num s (unitFault 1 num s) where
  toFaultTaken := (regionUnitFault_taken (s.raise .RGN_PKT_STATUS_FAULT_SEEN num) .pocket num).of_same rfl rfl
  pocket _ :=
    (reported_f (regionUnitFault_failed (s.raise .RGN_PKT_STATUS_FAULT_SEEN num) .pocket num) num (by decide)).trans
      (f_setF_fits s num (by decide))
  stack h := by omega
  flash h := by omega
  steps h := by omega
  idle _ := by
    have hmem := regionUnitFault_mem (s.raise .RGN_PKT_STATUS_FAULT_SEEN num) .pocket num
    exact ⟨congrArg Mem.st hmem, fun _ => congrArg Mem.dir hmem⟩

theorem router_lost (s : State) (num : Nat) : UnitLost 2 num s (unitFault 2 num s) where
  toFaultTaken := regionUnitFault_taken s .router num
  pocket h := by omega
  stack h := by omega
  flash h := by omega
  steps h := by omega
  idle _ := by
    have hmem := regionUnitFault_mem s .router num
    exact ⟨congrArg Mem.st hmem, fun _ => congrArg Mem.dir hmem⟩

/-- A stack and a base die are fenced alike. -/
theorem stack_lost {kind : Nat} (s : State) (num : Nat) (unit : UnitKind) (hkind : kind = 3 ∨ kind = 4) :
    UnitLost kind num s (s.fenceStack num 5 unit) where
  toFaultTaken := fenceStack_taken s num 5 unit
  pocket h := by omega
  stack _ := (fenceStack_f s num 5 unit num (by decide) (by decide)).trans (f_setF_fits s num (by decide))
  flash h := by omega
  steps _ _ hk hlatched := fenceStack_unitFailed num 5 unit hk hlatched
  idle h := by
    rw [fenceStack_mem num 5 unit h]
    exact ⟨by rw [loseServed_eq]; rfl, fun hset => loseServed_dir (hset hkind)⟩

/-- So are a seam die and a hub, which have no fence of their own. -/
theorem hubOrSeam_lost {kind : Nat} (s : State) (num payload : Nat) (hkind : kind = 5 ∨ kind = 6) :
    UnitLost kind num s (unitReport s payload) where
  toFaultTaken := unitReport_taken s payload
  pocket h := by omega
  stack h := by omega
  flash h := by omega
  steps _ _ hk hlatched := unitReport_unitFailed payload hk hlatched
  idle _ := by
    rw [unitReport_mem]
    exact ⟨rfl, fun _ => rfl⟩

theorem flash_lost (s : State) (num : Nat) : UnitLost 7 num s (unitFault 7 num s) where
  toFaultTaken := flash_taken s num
  pocket h := by omega
  stack h := by omega
  flash _ := flash_fenced s num
  steps _ _ hk hlatched := ((unitReport_unitFailed _ hk hlatched).fenceFlash num).work (flash_work s num)
  idle h := ⟨(flash_mem num h).1, fun _ => (flash_mem num h).2⟩

theorem unitFault_lost (s : State) {kind num : Nat} (h : num < unitsOf kind) :
    UnitLost kind num s (unitFault kind num s) := by
  have hkind : kind = 1 ∨ kind = 2 ∨ kind = 3 ∨ kind = 4 ∨ kind = 5 ∨ kind = 6 ∨ kind = 7 := by
    by_contra hno
    simp only [not_or] at hno
    obtain ⟨h1, h2, h3, h4, h5, h6, h7⟩ := hno
    simp [unitsOf, h1, h2, h3, h4, h5, h6, h7] at h
  rcases hkind with rfl | rfl | rfl | rfl | rfl | rfl | rfl
  · exact pocket_lost s num
  · exact router_lost s num
  · exact stack_lost s num .stack (.inl rfl)
  · exact stack_lost s num .baseDie (.inr rfl)
  · exact hubOrSeam_lost s num _ (.inl rfl)
  · exact hubOrSeam_lost s num _ (.inr rfl)
  · exact flash_lost s num

end Sys2Proof.Proofs
end

section
/-! SUPPORT. A thermal sample (R252, R254, R426): what it makes of its own stack, and that it leaves what the others show. -/

namespace Sys2Proof.Proofs

open Sys2Proof.Machine Sys2Proof.Laws

/-- The register fields in which a sample and its consequences show. -/
def sampleFields : List FieldName :=
  [.BASE_TEMP_CUR, .BASE_TEMP_DIE, .BASE_STATUS_LEVEL, .BASE_STATUS_STATE, .BASE_STATUS_CRIT_SEEN]

/-- What stack `j` shows and holds, and the temperatures that the SMBus target gives, are the same. -/
structure StackKept (j : Nat) (s t : State) : Prop where
  regs  : ∀ n ∈ sampleFields, t.f n j = s.f n j
  stack : t.stack j = s.stack j
  temps : t.smb.temps = s.smb.temps

namespace StackKept

theorem refl (j : Nat) (s : State) : StackKept j s s := ⟨fun _ _ => rfl, rfl, rfl⟩

variable {j : Nat} {s t u : State}

theorem trans (h : StackKept j s t) (k : StackKept j t u) : StackKept j s u :=
  ⟨fun n hn => (k.regs n hn).trans (h.regs n hn), k.stack.trans h.stack, k.temps.trans h.temps⟩

theorem setF (h : StackKept j s t) (n : FieldName) (i v : Nat) (hn : n ∉ sampleFields ∨ i ≠ j) :
    StackKept j s (t.setF n i v) := by
  refine h.trans ⟨fun m hm => ?_, rfl, rfl⟩
  rw [f_setF, if_neg]
  rintro ⟨rfl, rfl⟩
  exact hn.elim (fun hn => hn hm) (fun hi => hi rfl)

theorem setStack (h : StackKept j s t) {i : Nat} (v : Stack) (hi : i ≠ j) : StackKept j s (t.setStack i v) := by
  refine h.trans ⟨fun _ _ => rfl, ?_, rfl⟩
  rw [State.stack, setStack_eq, mem_setMem, get_set_other _ _ _ hi, State.stack]

theorem setMeters (h : StackKept j s t) (m : Meters) : StackKept j s { t with meters := m } :=
  h.trans ⟨fun _ _ => rfl, rfl, rfl⟩

theorem foldl {α : Type} (h : StackKept j s t) (l : List α) {g : State → α → State}
    (hg : ∀ u, ∀ a ∈ l, StackKept j u (g u a)) :
    StackKept j s (l.foldl g t) :=
  List.foldlRecOn _ _ h (fun u hu a ha => hu.trans (hg u a ha))

theorem ledger (h : StackKept j s t) (type payload : Nat) : StackKept j s (t.ledger type payload) :=
  h.trans ⟨fun n hn => ledger_f t type payload n j (by rintro rfl; exact absurd hn (by decide)), rfl, rfl⟩

theorem alert (h : StackKept j s t) (c : Nat) : StackKept j s (t.alert c) := by
  have hmem : (t.alert c).mem = t.mem := by
    unfold State.alert
    dsimp only
    split
    · rfl
    · rw [interrupt_regsOut]
  refine h.trans ⟨fun n hn => alert_f t c n j (by rintro rfl; exact absurd hn (by decide)), ?_, ?_⟩
  · rw [State.stack, hmem, State.stack]
  · rw [alert_smb]

theorem trip (h : StackKept j s t) : StackKept j s t.trip := by
  unfold State.trip
  split
  · exact h
  · refine (ledger ?_ _ _).alert 6
    exact h.trans ⟨fun _ _ => rfl, rfl, rfl⟩

/-- A fenced stack changes, of what the stacks show, its own state alone. -/
theorem fenceStack (s : State) (st code : Nat) (kind : UnitKind) (j : Nat) :
    StackKept j (s.setF .BASE_STATUS_STATE st code) (s.fenceStack st code kind) := by
  refine ⟨fun n hn => fenceStack_f s st code kind j ?_ ?_, fenceStack_stack s st code kind j,
    congrArg Smb.temps (fenceStack_smb s st code kind)⟩
  · revert n; decide
  · revert n; decide

theorem critical (h : StackKept j s t) {st : Nat} (hst : st ≠ j) : StackKept j s (t.critical st) := by
  have hraise : StackKept j s (t.raise .BASE_STATUS_CRIT_SEEN st) := h.setF _ st 1 (.inr hst)
  unfold State.critical
  dsimp only
  split
  · exact (hraise.setF .BASE_STATUS_STATE st 3 (.inr hst)).trans (fenceStack _ st 3 .stack j)
  · exact hraise

end StackKept

/-! The sample of one stack. -/

/-- What follows from a level newly reached: the step of `State.sampleStack`. -/
def reachLevel (s : State) (st old new : Nat) : State := if new = 3 && old ≠ 3 then s.critical st else s

/-- What follows at 115 °C: the step of `State.sampleStack`. -/
def stopAccess (s : State) (st : Nat) (t : Int) : State :=
  if 115 ≤ t then (s.setStack st { s.stack st with stopped := true }).trip else s

/-- A sample as registers show it, before anything follows from its level. -/
structure SampleShown (st : Nat) (t : Int) (die : Nat) (s u : State) : Prop where
  others : ∀ j, j ≠ st → StackKept j s u
  smb    : u.smb = s.smb
  cur    : u.f .BASE_TEMP_CUR st = ofSigned t 8 % 2 ^ 8
  die    : u.f .BASE_TEMP_DIE st = die % 2 ^ 5
  level  : u.f .BASE_STATUS_LEVEL st = thermalLevel (s.f .BASE_STATUS_LEVEL st) t % 2 ^ 2
  state  : u.f .BASE_STATUS_STATE st = s.f .BASE_STATUS_STATE st

theorem SampleShown.hotSeen {st : Nat} {t : Int} {die : Nat} {s u : State} (h : SampleShown st t die s u) :
    SampleShown st t die s (u.raise .BASE_STATUS_HOT_SEEN st) := by
  have hf {n : FieldName} (hn : n ≠ .BASE_STATUS_HOT_SEEN) : (u.raise .BASE_STATUS_HOT_SEEN st).f n st = u.f n st := by
    rw [raise_eq, f_setF, if_neg (fun h => hn h.1.symm)]
  exact ⟨fun j hj => (h.others j hj).setF _ st 1 (.inl (by decide)), h.smb, (hf (by simp)).trans h.cur,
    (hf (by simp)).trans h.die, (hf (by simp)).trans h.level, (hf (by simp)).trans h.state⟩

/-- A state with new meters: of the machine as a sample shows it. -/
def withMeters (s : State) (m : Meters) : State := { s with meters := m }

@[simp] theorem f_read_withMeters (s : State) (m : Meters) (n : FieldName) (i : Nat) :
    (withMeters s m).f n i = s.f n i := rfl

theorem sampleShown_writes (s : State) (st : Nat) (t : Int) (die peak : Nat) (m : Meters) (v : Stack) :
    SampleShown st t die s (((withMeters (((s.setF .BASE_TEMP_CUR st (ofSigned t 8)).setF .BASE_TEMP_PEAK st peak).setF
      .BASE_TEMP_DIE st die) m).setStack st v).setF .BASE_STATUS_LEVEL st (thermalLevel (s.f .BASE_STATUS_LEVEL st) t)) := by
  refine ⟨fun j hj => ?_, rfl, ?_, ?_, ?_, ?_⟩
  · exact ((((((StackKept.refl j s).setF .BASE_TEMP_CUR st _ (.inr hj.symm)).setF .BASE_TEMP_PEAK st _ (.inr hj.symm)).setF
      .BASE_TEMP_DIE st _ (.inr hj.symm)).setMeters m).setStack v hj.symm).setF .BASE_STATUS_LEVEL st _ (.inr hj.symm)
  all_goals simp [f_setF, fieldDesc]

/-- A sample shows in registers and in its stack's record; a new level and 115 °C have their consequences then. -/
theorem sampleStack_shows (s : State) (st : Nat) (t : Int) (die : Nat) :
    ∃ u, SampleShown st t die s u ∧ s.sampleStack st t die =
      stopAccess (reachLevel u st (s.f .BASE_STATUS_LEVEL st) (thermalLevel (s.f .BASE_STATUS_LEVEL st) t)) st t := by
  refine ⟨_, ?_, rfl⟩
  split
  · exact SampleShown.hotSeen (sampleShown_writes s st t die _ _ _)
  · exact sampleShown_writes s st t die _ _ _

/-! What follows from a level. -/

theorem reachLevel_kept {j st : Nat} {s u : State} (h : StackKept j s u) (hst : st ≠ j) (old new : Nat) :
    StackKept j s (reachLevel u st old new) := by
  unfold reachLevel
  split
  · exact h.critical hst
  · exact h

theorem stopAccess_kept {j st : Nat} {s u : State} (h : StackKept j s u) (hst : st ≠ j) (t : Int) :
    StackKept j s (stopAccess u st t) := by
  unfold stopAccess
  split
  · exact (h.setStack _ hst).trip
  · exact h

/-- The sample of a stack leaves the others alone. -/
theorem sampleStack_kept {j st : Nat} (s : State) (hst : st ≠ j) (t : Int) (die : Nat) :
    StackKept j s (s.sampleStack st t die) := by
  obtain ⟨u, hu, heq⟩ := sampleStack_shows s st t die
  rw [heq]
  exact stopAccess_kept (reachLevel_kept (hu.others j hst.symm) hst _ _) hst t

/-- Reaching the critical level flags it, fences a stack in service, and leaves its temperature and level shown. -/
theorem critical_fields (s : State) (st : Nat) :
    (s.critical st).smb = s.smb ∧
    (∀ n ∈ [FieldName.BASE_TEMP_CUR, .BASE_TEMP_DIE, .BASE_STATUS_LEVEL], (s.critical st).f n st = s.f n st) ∧
      (s.f .BASE_STATUS_STATE st ≤ 2 →
        (s.critical st).f .BASE_STATUS_STATE st = 3 ∧ (s.critical st).f .BASE_STATUS_CRIT_SEEN st = 1) := by
  have hraise : (s.raise .BASE_STATUS_CRIT_SEEN st).f .BASE_STATUS_STATE st = s.f .BASE_STATUS_STATE st := by
    rw [raise_eq, f_setF, if_neg (by simp)]
  unfold State.critical
  dsimp only
  rw [hraise]
  split
  case isTrue hle =>
    have hkept := StackKept.fenceStack (s.raise .BASE_STATUS_CRIT_SEEN st) st 3 .stack st
    refine ⟨fenceStack_smb _ st 3 .stack, fun n hn => ?_, fun _ => ⟨?_, ?_⟩⟩
    · have hn' : n ∈ sampleFields ∧ n ≠ .BASE_STATUS_STATE ∧ n ≠ .BASE_STATUS_CRIT_SEEN := by revert n; decide
      obtain ⟨hmem, hstate, hcrit⟩ := hn'
      rw [hkept.regs n hmem, f_setF, if_neg (by simp [hstate.symm]), raise_eq, f_setF, if_neg (by simp [hcrit.symm])]
    · rw [hkept.regs _ (by decide), f_setF_fits _ st (by decide)]
    · rw [hkept.regs _ (by decide), f_setF, if_neg (by simp), raise_eq, f_setF_fits _ st (by decide)]
  case isFalse hgt =>
    refine ⟨rfl, fun n hn => ?_, fun hle => absurd hle hgt⟩
    rw [raise_eq, f_setF, if_neg (by rintro ⟨rfl, -⟩; simp at hn)]

/-- What a sample has made of its own stack (R252, R254). -/
structure Sampled (st : Nat) (t : Int) (die : Nat) (s u : State) : Prop where
  cur   : u.f .BASE_TEMP_CUR st = ofSigned t 8 % 2 ^ 8
  die   : u.f .BASE_TEMP_DIE st = die % 2 ^ 5
  level : u.f .BASE_STATUS_LEVEL st = thermalLevel (s.f .BASE_STATUS_LEVEL st) t
  fence : thermalLevel (s.f .BASE_STATUS_LEVEL st) t = 3 → s.f .BASE_STATUS_LEVEL st ≠ 3 → s.f .BASE_STATUS_STATE st ≤ 2 →
    u.f .BASE_STATUS_STATE st = 3 ∧ u.f .BASE_STATUS_CRIT_SEEN st = 1
  stop  : 115 ≤ t → (u.stack st).stopped = true
  temps : u.smb.temps = s.smb.temps

theorem thermalLevel_lt (old : Nat) (t : Int) : thermalLevel old t < 2 ^ 2 := by
  unfold thermalLevel
  split_ifs <;> decide

theorem stopAccess_regs (s : State) (st : Nat) (t : Int) :
    (∀ n ∈ sampleFields, (stopAccess s st t).f n st = s.f n st) ∧
      (115 ≤ t → ((stopAccess s st t).stack st).stopped = true) ∧ (stopAccess s st t).smb.temps = s.smb.temps := by
  unfold stopAccess
  split
  case isTrue =>
    have hkept := (StackKept.refl st (s.setStack st { s.stack st with stopped := true })).trip
    refine ⟨hkept.regs, fun _ => ?_, hkept.temps⟩
    rw [hkept.stack]
    simp [State.stack]
  case isFalse hcool => exact ⟨fun _ _ => rfl, fun h => absurd h hcool, rfl⟩

theorem sampleStack_sampled (s : State) (st : Nat) (t : Int) (die : Nat) : Sampled st t die s (s.sampleStack st t die) := by
  obtain ⟨u, hu, heq⟩ := sampleStack_shows s st t die
  rw [heq]
  have hlevel : u.f .BASE_STATUS_LEVEL st = thermalLevel (s.f .BASE_STATUS_LEVEL st) t := by
    rw [hu.level, Nat.mod_eq_of_lt (thermalLevel_lt _ _)]
  generalize hnew : thermalLevel (s.f .BASE_STATUS_LEVEL st) t = new at hlevel ⊢
  obtain ⟨hregs, hstop, htemps⟩ := stopAccess_regs (reachLevel u st (s.f .BASE_STATUS_LEVEL st) new) st t
  obtain ⟨hsmb, hsame, hfence⟩ := critical_fields u st
  have hshown (n : FieldName) (hn : n ∈ [FieldName.BASE_TEMP_CUR, .BASE_TEMP_DIE, .BASE_STATUS_LEVEL]) :
      (stopAccess (reachLevel u st (s.f .BASE_STATUS_LEVEL st) new) st t).f n st = u.f n st := by
    rw [hregs n (by revert n; decide), reachLevel]
    split
    · exact hsame n hn
    · rfl
  refine ⟨(hshown _ (by decide)).trans hu.cur, (hshown _ (by decide)).trans hu.die,
    (hshown _ (by decide)).trans (hlevel.trans hnew.symm), fun h3 hold hst => ?_, hstop, htemps.trans ?_⟩
  · rw [hregs _ (by decide), hregs _ (by decide), reachLevel, if_pos (by simp [hnew.symm.trans h3, hold])]
    exact hfence (hu.state ▸ hst)
  · rw [reachLevel]
    split
    · rw [hsmb, hu.smb]
    · rw [hu.smb]

/-! All stacks, and what follows. -/

theorem Sampled.of_kept {st die : Nat} {t : Int} {s a b c : State} (h : Sampled st t die a b) (hsa : StackKept st s a)
    (hbc : StackKept st b c) : Sampled st t die s c := by
  have hlevel := hsa.regs .BASE_STATUS_LEVEL (by decide)
  have hstate := hsa.regs .BASE_STATUS_STATE (by decide)
  refine ⟨(hbc.regs _ (by decide)).trans h.cur, (hbc.regs _ (by decide)).trans h.die, ?_, ?_, fun ht => ?_,
    hbc.temps.trans (h.temps.trans hsa.temps)⟩
  · rw [hbc.regs _ (by decide), h.level, hlevel]
  · rw [hbc.regs _ (by decide), hbc.regs _ (by decide), ← hlevel, ← hstate]
    exact h.fence
  · rw [hbc.stack]
    exact h.stop ht

/-- A stack's sample stands once all stacks of a list have been sampled. -/
theorem foldl_sampleStack {l : List Nat} (hl : l.Nodup) (t : Nat → Int) (die : Nat → Nat) (s : State) {st : Nat}
    (hst : st ∈ l) : Sampled st (t st) (die st) s (l.foldl (fun u st => u.sampleStack st (t st) (die st)) s) := by
  obtain ⟨l₁, l₂, rfl⟩ := List.append_of_mem hst
  obtain ⟨hnot, -⟩ := List.nodup_cons.1 (List.nodup_middle.1 hl)
  have hkept (k : List Nat) (hk : st ∉ k) (u : State) :
      StackKept st u (k.foldl (fun u st => u.sampleStack st (t st) (die st)) u) :=
    (StackKept.refl st u).foldl k (fun v j hj => sampleStack_kept v (by rintro rfl; exact hk hj) _ _)
  rw [List.foldl_append, List.foldl_cons]
  exact (sampleStack_sampled _ st (t st) (die st)).of_kept (hkept l₁ (fun h => hnot (List.mem_append_left _ h)) s)
    (hkept l₂ (fun h => hnot (List.mem_append_right _ h)) _)

theorem alertsAgain_kept (j : Nat) (s : State) : StackKept j s s.alertsAgain := by
  unfold State.alertsAgain
  refine (StackKept.refl j s).foldl _ (fun u c _ => ?_)
  split
  · exact (StackKept.refl j u).alert c
  · exact StackKept.refl j u

theorem sampleDie_kept (j : Nat) (s : State) (t : Int) : StackKept j s (s.sampleDie t) := by
  unfold State.sampleDie
  exact (StackKept.refl j s).setMeters _

/-- A byte is its own two's complement. -/
theorem ofSigned_signedOf {x : Nat} (hx : x < 256) : ofSigned (signedOf x 8) 8 = x := by
  unfold ofSigned signedOf
  norm_num
  split_ifs <;> omega

/-- The temperatures of a sample as the SMBus target gives them. -/
def withTemps (s : State) (temps : List Nat) : State := { s with smb := { s.smb with temps := temps } }

theorem thermalSample_sampled (s : State) {temps : List Nat} (dies : List Nat) (htemps : ∀ x ∈ temps, x < 256) {st : Nat}
    (hst : st < 24) :
    Sampled st (signedOf (temps.getD st 0) 8) (dies.getD st 0) (withTemps s temps) (thermalSample temps dies s) := by
  have hmap : temps.map (fun x => x % 256) = temps :=
    (List.map_congr_left (fun x hx => Nat.mod_eq_of_lt (htemps x hx))).trans (List.map_id temps)
  have hfold := foldl_sampleStack List.nodup_range (fun st => signedOf (temps.getD st 0) 8) (fun st => dies.getD st 0)
    (withTemps s temps) (List.mem_range.2 hst)
  unfold withTemps at hfold
  unfold thermalSample
  dsimp only
  rw [hmap]
  refine hfold.of_kept (StackKept.refl st _) (StackKept.trans ?_ (alertsAgain_kept st _))
  split
  · exact (sampleDie_kept st _ _).trip
  · exact sampleDie_kept st _ _

end Sys2Proof.Proofs
end

section
/-! The clauses of O41: thermal levels and the slices of a stack (R252, R254, R255), and faults of units (R32, R197). -/

namespace Sys2Proof.Proofs

open Sys2Proof.Machine Sys2Proof.Laws

theorem exec_thermalSample_shows {s : State} {temps dies : List Nat} (hu : s.up) (hlen : temps.length = 31)
    (hdlen : dies.length = 24) (htemps : ∀ x ∈ temps, x < 256) (hdies : ∀ x ∈ dies, x ≤ 16) :
    ∃ t, exec (.thermalSample temps dies) s = .next t ∧ t.smb.temps = temps ∧
      ∀ st, st < 24 → t.f .BASE_TEMP_CUR st = temps.getD st 0 ∧ t.f .BASE_TEMP_DIE st = dies.getD st 0 ∧
        t.f .BASE_STATUS_LEVEL st = thermalLevel (s.f .BASE_STATUS_LEVEL st) (signedOf (temps.getD st 0) 8) ∧
        (thermalLevel (s.f .BASE_STATUS_LEVEL st) (signedOf (temps.getD st 0) 8) = 3 → s.f .BASE_STATUS_LEVEL st ≠ 3 →
          s.f .BASE_STATUS_STATE st ≤ 2 → t.f .BASE_STATUS_STATE st = 3 ∧ t.f .BASE_STATUS_CRIT_SEEN st = 1) ∧
        (115 ≤ signedOf (temps.getD st 0) 8 → (t.stack st).stopped = true) := by
  have hrun (st : Nat) (hst : st < 24) := thermalSample_sampled (fresh s) dies htemps hst
  rw [exec_thermalSample, act_up (by simpa [hlen, hdlen] using ⟨htemps, hdies⟩) hu]
  generalize thermalSample temps dies (fresh s) = r at hrun ⊢
  refine ⟨_, rfl, (hrun 0 (by decide)).temps, fun st hst => ?_⟩
  have htemp : temps.getD st 0 < 2 ^ 8 := by
    rw [List.getD_eq_getElem temps 0 (by omega)]
    exact htemps _ (List.getElem_mem _)
  have hdie : dies.getD st 0 ≤ 16 := by
    rw [List.getD_eq_getElem dies 0 (by omega)]
    exact hdies _ (List.getElem_mem _)
  obtain ⟨hcur, hdieShown, hlevel, hfence, hstop, -⟩ := hrun st hst
  refine ⟨?_, ?_, hlevel, hfence, hstop⟩
  · rw [f_read_wrap, hcur, ofSigned_signedOf htemp, Nat.mod_eq_of_lt htemp]
  · rw [f_read_wrap, hdieShown, Nat.mod_eq_of_lt (by omega)]

theorem exec_stackFitSlice_begins {s : State} {st since : Nat} (hu : s.up) (hst : st < 24)
    (hcool : (s.stack st).below82 = some since) (hstate : s.f .BASE_STATUS_STATE st = 3)
    (hpending : (s.stack st).pending = 0) (hstopped : (s.stack st).stopped = false) (hlong : since + sec 1 ≤ s.now) :
    exec (.stackFitSlice st) s = .next { s with
      out := []
      mem := { s.mem with
        stackDies := FMap.set {} s.mem.stackDies st { s.stack st with pending := 1, pendingAt := s.now } } } := by
  have hrun : stackFitSlice st (fresh s) = (fresh s).setStack st { s.stack st with pending := 1, pendingAt := s.now } := by
    have hfresh : (fresh s).stack st = s.stack st := rfl
    simp only [stackFitSlice, hfresh, hcool, f_read_fresh, hstate, hpending, hstopped, now_fresh, hlong, decide_true,
      Bool.not_false, Bool.and_self, if_true]
  rw [exec_stackFitSlice, act_up (by simp [hst]) hu, hrun]
  rfl

/-- A slice ends: the stack waits for none. -/
def sliceOver (s : State) (st : Nat) : State := s.setStack st { s.stack st with pending := 0 }

theorem stackSliceResult_pending {s : State} {st : Nat} (pass : Bool) (hpending : (s.stack st).pending ≠ 0)
    (hstopped : (s.stack st).stopped = false) : stackSliceResult st pass s =
      if pass then
        (((((sliceOver s st).setF .BASE_STATUS_STATE st 2).setF .BASE_STATUS_LEVEL st 0).regainDir st).countFree).showCapacity
      else ((sliceOver s st).setF .BASE_STATUS_STATE st 4).mapAdd { kind := 4, unit := st, cause := 3 } := by
  simp only [stackSliceResult, sliceOver, hpending, hstopped, decide_false, Bool.or_self, Bool.false_eq_true, if_false]

theorem TierWork.regainDir {s t : State} (h : TierWork s t) (st : Nat) : TierWork s (t.regainDir st) := by
  unfold State.regainDir
  split
  · exact h
  · exact TierWork.setMem h

theorem mapAdd_entry (s : State) (e : MapEnt) :
    (∃ x, (s.mapAdd e).ledgQ = s.ledgQ ++ [x] ∧ x.type = 0x07) ∧ (s.mapAdd e).mem = s.mem ∧
      ∀ n i, n ≠ .LEDG_STATUS_QUEUE → (s.mapAdd e).f n i = s.f n i := by
  unfold State.mapAdd
  dsimp only
  split <;> exact ⟨⟨_, ledger_ledgQ s _ _, rfl⟩, rfl, fun n i hn => ledger_f s _ _ n i hn⟩

theorem exec_stackSliceResult_ends {s : State} {st : Nat} (pass : Bool) (hu : s.up) (hst : st < 24)
    (hpending : (s.stack st).pending ≠ 0) (hstopped : (s.stack st).stopped = false) :
    ∃ t, exec (.stackSliceResult st pass) s = .next t ∧ (t.stack st).pending = 0 ∧
      t.f .BASE_STATUS_STATE st = (if pass then 2 else 4) ∧
      (pass = true → t.f .BASE_STATUS_LEVEL st = 0 ∧ t.ledgQ = s.ledgQ ∧ t.boot = s.boot) ∧
      (pass = false → (∃ e, t.ledgQ = s.ledgQ ++ [e] ∧ e.type = 0x07) ∧
        t.f .BASE_STATUS_LEVEL st = s.f .BASE_STATUS_LEVEL st) := by
  rw [exec_stackSliceResult, act_up (by simp [hst]) hu, stackSliceResult_pending (s := fresh s) pass hpending hstopped]
  have hover : ((sliceOver (fresh s) st).stack st).pending = 0 := by simp [sliceOver, State.stack]
  have hsame : (sliceOver (fresh s) st).ledgQ = s.ledgQ ∧ (sliceOver (fresh s) st).boot = s.boot ∧
      (sliceOver (fresh s) st).f = s.f := ⟨rfl, rfl, rfl⟩
  generalize sliceOver (fresh s) st = x at hover hsame ⊢
  obtain ⟨hledgQ, hboot, hf⟩ := hsame
  cases pass with
  | true =>
    have hwork := (((TierWork.refl ((x.setF .BASE_STATUS_STATE st 2).setF .BASE_STATUS_LEVEL st 0)).regainDir
      st).countFree).showCapacity
    rw [if_pos rfl]
    generalize (((x.setF .BASE_STATUS_STATE st 2).setF .BASE_STATUS_LEVEL st 0).regainDir st).countFree.showCapacity = r
      at hwork ⊢
    obtain ⟨hrest, hdies, -, hregs⟩ := hwork
    refine ⟨_, rfl, ?_, ?_, fun _ => ⟨?_, ?_, ?_⟩, fun h => absurd h (by decide)⟩
    · have hstack : r.stack st = x.stack st := by rw [State.stack, hdies]; rfl
      exact (congrArg Stack.pending hstack).trans hover
    · rw [f_read_wrap, hregs _ _ (by decide), f_setF, if_neg (by simp), f_setF_fits _ st (by decide), if_pos rfl]
    · rw [f_read_wrap, hregs _ _ (by decide), f_setF_fits _ st (by decide)]
    · rw [ledgQ_wrap, hrest]
      exact hledgQ
    · rw [boot_wrap, hrest]
      exact hboot
  | false =>
    obtain ⟨hentry, hmem, hregs⟩ := mapAdd_entry (x.setF .BASE_STATUS_STATE st 4) { kind := 4, unit := st, cause := 3 }
    rw [if_neg (by decide)]
    generalize (x.setF .BASE_STATUS_STATE st 4).mapAdd { kind := 4, unit := st, cause := 3 } = r at hentry hmem hregs ⊢
    refine ⟨_, rfl, ?_, ?_, fun h => absurd h (by decide), fun _ => ⟨hledgQ ▸ hentry, ?_⟩⟩
    · have hstack : r.stack st = x.stack st := by rw [State.stack, hmem]; rfl
      exact (congrArg Stack.pending hstack).trans hover
    · rw [f_read_wrap, hregs _ _ (by simp), f_setF_fits _ st (by decide), if_neg (by decide)]
    · rw [f_read_wrap, hregs _ _ (by simp), f_setF, if_neg (by simp), hf]

theorem exec_unitFault_taken {s : State} {kind num : Nat} (hu : s.up) (hnum : num < unitsOf kind) :
    ∃ t, exec (.unitFault kind num) s = .next t ∧ (∃ e, t.ledgQ = s.ledgQ ++ [e] ∧ e.type = 0x06) ∧
      t.withdraw = some (s.withdraw.getD (2 ^ causeUnit)) ∧ t.timedOut = false ∧ t.rejoin = 0 ∧
      (kind = 1 → t.f .RGN_PKT_STATUS_FAULT_SEEN num = 1) ∧ (kind = 3 ∨ kind = 4 → t.f .BASE_STATUS_STATE num = 5) ∧
      (kind = 7 → t.f .FLC_STATUS_STATE num = 2 ∧ (t.flc num).fenced = true) ∧
      (3 ≤ kind → ∀ k ∈ s.startedSws, (s.sw k).latched = false →
        bitAt (t.sw k).cause causeUnit = true ∧ (t.sw k).bit0 = true) ∧
      (s.mem.moves = [] → t.mem.st = s.mem.st ∧
        ((kind = 3 ∨ kind = 4 → num ∉ s.mem.rsvSet) → t.mem.dir = s.mem.dir)) := by
  have hlost := unitFault_lost (fresh s) hnum
  have hwithdraw := hlost.withdraw
  simp only [withdrawal, Prod.mk.injEq] at hwithdraw
  obtain ⟨hset, htimed, hrejoin⟩ := hwithdraw
  rw [exec_unitFault, act_up (by simp [hnum]) hu]
  exact ⟨_, rfl, hlost.entry, hset, htimed, hrejoin, hlost.pocket, hlost.stack, hlost.flash,
    fun h3 k hk hlatched => (hlost.steps h3 k hk hlatched).2, hlost.idle⟩

/-- Settles O41, clause by clause. -/
theorem thermalLevelsAndUnitFaults : Obligations.ThermalLevelsAndUnitFaults := by
  refine ⟨?sample, ?begins, ?ends, ?fault⟩
  case sample => exact fun s temps dies hu hlen hdlen htemps hdies => exec_thermalSample_shows hu hlen hdlen htemps hdies
  case begins =>
    exact fun s st since hu hst hcool hstate hpending hstopped hlong =>
      exec_stackFitSlice_begins hu hst hcool hstate hpending hstopped hlong
  case ends => exact fun s st pass hu hst hpending hstopped => exec_stackSliceResult_ends pass hu hst hpending hstopped
  case fault => exact fun s kind num hu hnum => exec_unitFault_taken hu hnum

end Sys2Proof.Proofs
end

section
/-! SUPPORT. Words as rows of fields: a number cut into fields of given widths from bit 0 upward, and put together again. -/

namespace Sys2Proof.Proofs

open Sys2Proof.Machine Sys2Proof.Laws

/-- The number whose fields, from bit 0 upward, are those listed as width and value. -/
def packFields : List (Nat × Nat) → Nat
  | [] => 0
  | f :: l => f.2 + 2 ^ f.1 * packFields l

/-- The fields of `v` from bit `lo` upward, of the widths listed. -/
def cutFields (v : Nat) : Nat → List Nat → List (Nat × Nat)
  | _, [] => []
  | lo, w :: ws => (w, bitField v lo w) :: cutFields v (lo + w) ws

theorem bitField_eq_div_mod (v lo w : Nat) : bitField v lo w = v / 2 ^ lo % 2 ^ w := by
  rw [bitField, Nat.shiftRight_eq_div_pow]

theorem bitField_lt (v lo w : Nat) : bitField v lo w < 2 ^ w := Nat.mod_lt _ (Nat.two_pow_pos w)

/-- A field above the lowest `w` bits is one of the rest. -/
theorem bitField_add_mul {x w lo : Nat} (hx : x < 2 ^ w) (hlo : w ≤ lo) (y k : Nat) :
    bitField (x + 2 ^ w * y) lo k = bitField y (lo - w) k := by
  have hsplit : 2 ^ lo = 2 ^ w * 2 ^ (lo - w) := by rw [← pow_add, Nat.add_sub_cancel' hlo]
  rw [bitField_eq_div_mod, bitField_eq_div_mod, hsplit, ← Nat.div_div_eq_div_mul,
    Nat.add_mul_div_left _ _ (Nat.two_pow_pos w), Nat.div_eq_of_lt hx, Nat.zero_add]

theorem cutFields_add_mul {x w : Nat} (hx : x < 2 ^ w) (y : Nat) (ws : List Nat) {lo : Nat} (hlo : w ≤ lo) :
    cutFields (x + 2 ^ w * y) lo ws = cutFields y (lo - w) ws := by
  induction ws generalizing lo with
  | nil => rfl
  | cons v ws ih =>
    rw [cutFields, cutFields, bitField_add_mul hx hlo, ih (by omega), Nat.sub_add_comm hlo]

/-- Fields that fit their widths are read back. -/
theorem cutFields_packFields {l : List (Nat × Nat)} (h : ∀ f ∈ l, f.2 < 2 ^ f.1) :
    cutFields (packFields l) 0 (l.map Prod.fst) = l := by
  induction l with
  | nil => rfl
  | cons f l ih =>
    have hf : f.2 < 2 ^ f.1 := h f (by simp)
    have hrest := ih (fun g hg => h g (by simp [hg]))
    have hhead : bitField (f.2 + 2 ^ f.1 * packFields l) 0 f.1 = f.2 := by
      rw [bitField_eq_div_mod, pow_zero, Nat.div_one, Nat.add_mul_mod_self_left, Nat.mod_eq_of_lt hf]
    rw [packFields, List.map_cons, cutFields, hhead, cutFields_add_mul hf _ _ (by omega), Nat.zero_add, Nat.sub_self, hrest]

/-- The fields that a number is cut into make up its low bits. -/
theorem packFields_cutFields (v : Nat) (ws : List Nat) (lo : Nat) :
    packFields (cutFields v lo ws) = bitField v lo ws.sum := by
  induction ws generalizing lo with
  | nil => simp [packFields, cutFields, bitField, Nat.mod_one]
  | cons w ws ih =>
    rw [cutFields, packFields, ih, List.sum_cons, bitField_eq_div_mod, bitField_eq_div_mod, bitField_eq_div_mod,
      pow_add, pow_add, Nat.mod_mul, Nat.div_div_eq_div_mul]

theorem packFields_lt {l : List (Nat × Nat)} (h : ∀ f ∈ l, f.2 < 2 ^ f.1) : packFields l < 2 ^ (l.map Prod.fst).sum := by
  rw [← cutFields_packFields h, packFields_cutFields, cutFields_packFields h]
  exact bitField_lt _ _ _

/-- A flag is the field of one bit at its place. -/
theorem bitField_one (v i : Nat) : bitField v i 1 = flagBit (bitAt v i) := by
  have h : v >>> i % 2 < 2 := Nat.mod_lt _ (by decide)
  rw [bitAt, Nat.testBit_eq_decide_div_mod_eq, bitField, Nat.shiftRight_eq_div_pow, flagBit, pow_one] at *
  by_cases hb : v / 2 ^ i % 2 = 1
  · simp [hb]
  · simp [hb]; omega

theorem flagBit_inj {a b : Bool} : flagBit a = flagBit b ↔ a = b := by
  cases a <;> cases b <;> simp [flagBit]

theorem flagBit_le (b : Bool) : flagBit b ≤ 1 := by cases b <;> decide

end Sys2Proof.Proofs
end

section
/-! Program words as rows of fields (R70 to R75, R131 to R134): the layout of every word, and that reading a word is
reading the fields of its layout. -/

namespace Sys2Proof.Proofs

open Sys2Proof.Machine Sys2Proof.Laws

/-- The fields of a word from bit 0 upward, as width and value; reserved bits are fields of value 0. -/
def wordLayout : CoreWord → List (Nat × Nat)
  | .nop => [(58, 0), (6, 0x00)]
  | .mma ta tw tc ti ts acc fuse pi wst n =>
    [(21, n), (7, 0), (1, flagBit wst), (2, pi), (1, flagBit fuse), (1, flagBit acc), (5, ts), (5, ti), (5, tc), (5, tw),
      (5, ta), (6, 0x01)]
  | .tdld slot off => [(17, off), (36, 0), (5, slot), (6, 0x08)]
  | .tdadd slot scale delta => [(40, delta), (12, 0), (1, flagBit scale), (5, slot), (6, 0x09)]
  | .cpy src dst eng wst rows =>
    [(25, rows), (21, 0), (1, flagBit wst), (1, flagBit eng), (5, dst), (5, src), (6, 0x10)]
  | .fence ld st => [(56, 0), (1, flagBit st), (1, flagBit ld), (6, 0x18)]
  | .sync scope barrier => [(48, 0), (8, barrier), (2, scope), (6, 0x19)]
  | .loop count back => [(16, back), (20, 0), (22, count), (6, 0x20)]
  | .vec op tx ty tz tr fn wst n =>
    [(21, n), (7, 0), (1, flagBit wst), (5, 0), (4, fn), (5, tr), (5, tz), (5, ty), (5, tx), (6, op)]
  | .vpos q k m => [(12, 0), (2, m), (22, k), (22, q), (6, 0x33)]
  | .vsetf r v => [(32, v), (24, 0), (2, r), (6, 0x34)]
  | .stepend => [(58, 0), (6, 0x3F)]

theorem wordLayout_sum (x : CoreWord) : ((wordLayout x).map Prod.fst).sum = 64 := by cases x <;> rfl

theorem encodeWord_eq_packFields (x : CoreWord) : encodeWord x = packFields (wordLayout x) := by
  cases x <;> simp only [encodeWord, wordLayout, packFields] <;> omega

/-- The operands of a legal word fit the fields of its layout. -/
theorem wordLayout_fits {x : CoreWord} (h : x.ok = true) : ∀ f ∈ wordLayout x, f.2 < 2 ^ f.1 := by
  cases x <;>
    simp only [CoreWord.ok, Bool.and_eq_true, decide_eq_true_eq, wordLayout, List.forall_mem_cons, List.not_mem_nil,
      false_implies, implies_true, and_true] at h ⊢ <;>
    simp [flagBit_le] <;> omega

/-- Are the fields of `w` those of word `x`'s layout? -/
def HasLayout (w : Nat) (x : CoreWord) : Prop := cutFields w 0 ((wordLayout x).map Prod.fst) = wordLayout x

/-- The branch of the decoder for the vector words of R131. -/
theorem decodeWord_of_vec_op {w : Nat} (h : 0x28 ≤ opOf w ∧ opOf w ≤ 0x32) : decodeWord w =
    if zeroBits w 29 5 && zeroBits w 21 7 && fnLegal (opOf w) (bitField w 34 4) then
      some (.vec (opOf w) (bitField w 53 5) (bitField w 48 5) (bitField w 43 5) (bitField w 38 5) (bitField w 34 4)
        (bitAt w 28) (bitField w 0 21))
    else none := by
  have hnone : opOf w ≠ 0x00 ∧ opOf w ≠ 0x01 ∧ opOf w ≠ 0x08 ∧ opOf w ≠ 0x09 ∧ opOf w ≠ 0x10 ∧ opOf w ≠ 0x18 ∧
      opOf w ≠ 0x19 ∧ opOf w ≠ 0x20 := by omega
  simp [decodeWord, hnone, h]

/-- A legal word whose fields stand in their places is read. -/
theorem decodeWord_of_layout {w : Nat} {x : CoreWord} (hok : x.ok = true) (h : HasLayout w x) : decodeWord w = some x := by
  cases x
  all_goals
    simp only [HasLayout, wordLayout, List.map_cons, List.map_nil, cutFields, List.cons.injEq, Prod.mk.injEq, true_and,
      and_true, bitField_one, flagBit_inj, Nat.reduceAdd, Nat.zero_add] at h
    simp only [CoreWord.ok, Bool.and_eq_true, decide_eq_true_eq] at hok
  case vec op tx ty tz tr fn wst n =>
    have hop : opOf w = op := by simp [opOf, h]
    rw [decodeWord_of_vec_op (by omega)]
    simp [hop, zeroBits, h, hok]
  all_goals
    simp [decodeWord, opOf, zeroBits, h] <;> omega

/-- A branch of the decoder: its opcode with its checks, or one of the branches after it. -/
theorem ite_ite_eq_some_iff {α : Type} {p q : Prop} [Decidable p] [Decidable q] {a x : α} {r : Option α} :
    (if p then if q then some a else none else r) = some x ↔ p ∧ q ∧ a = x ∨ ¬ p ∧ r = some x := by
  by_cases hp : p <;> by_cases hq : q <;> simp [hp, hq]

/-- A word read as a vector word has a vector opcode. -/
theorem decodeWord_vec_op {w op tx ty tz tr fn n : Nat} {wst : Bool}
    (h : decodeWord w = some (.vec op tx ty tz tr fn wst n)) : 0x28 ≤ op ∧ op ≤ 0x32 := by
  have hop : opOf w = op := decodeWord_op h
  simp [decodeWord, ite_ite_eq_some_iff, hop] at h
  omega

theorem cutFields_fits (w : Nat) (ws : List Nat) (lo : Nat) : ∀ f ∈ cutFields w lo ws, f.2 < 2 ^ f.1 := by
  induction ws generalizing lo with
  | nil => simp [cutFields]
  | cons k ws ih => simpa [cutFields, bitField_lt] using fun a b => ih (lo + k) (a, b)

theorem HasLayout.fits {w : Nat} {x : CoreWord} (h : HasLayout w x) : ∀ f ∈ wordLayout x, f.2 < 2 ^ f.1 := by
  rw [← h]
  exact cutFields_fits w _ 0

/-- The fields of a word that is read stand in their places. -/
theorem hasLayout_of_decodeWord {w : Nat} {x : CoreWord} (h : decodeWord w = some x) : HasLayout w x := by
  have hop : bitField w 58 6 = wordOp x := decodeWord_op h
  cases x
  case vec op tx ty tz tr fn wst n =>
    rw [decodeWord_of_vec_op (by rw [decodeWord_op h]; exact decodeWord_vec_op h)] at h
    simp [opOf, hop, wordOp, zeroBits] at h
    simp [HasLayout, wordLayout, cutFields, bitField_one, h, hop, wordOp]
  all_goals
    simp [decodeWord, opOf, hop, wordOp, zeroBits] at h
    simp [HasLayout, wordLayout, cutFields, bitField_one, h, hop, wordOp]

/-- A word that is read is legal. -/
theorem ok_of_decodeWord {w : Nat} {x : CoreWord} (h : decodeWord w = some x) : x.ok = true := by
  have hfits := (hasLayout_of_decodeWord h).fits
  have hop : bitField w 58 6 = wordOp x := decodeWord_op h
  cases x
  case vec op tx ty tz tr fn wst n =>
    have hvec := decodeWord_vec_op h
    rw [decodeWord_of_vec_op (by rw [decodeWord_op h]; exact hvec)] at h
    simp only [Option.ite_none_right_eq_some, Bool.and_eq_true, Option.some.injEq, CoreWord.vec.injEq] at h
    obtain ⟨⟨-, hfn⟩, rfl, -, -, -, -, rfl, -⟩ := h
    simp [wordLayout] at hfits
    simp [CoreWord.ok, hvec, hfn]
    omega
  all_goals
    simp [decodeWord, opOf, hop, wordOp, zeroBits] at h
    simp [wordLayout] at hfits
    simp [CoreWord.ok] <;> omega

/-- Settles O11: encoding puts the fields of the layout together, and reading a word is reading those fields. -/
theorem programWordsRoundTrip : Obligations.ProgramWordsRoundTrip := by
  refine ⟨fun x hok => ⟨?_, ?_⟩, fun w x hw h => ⟨ok_of_decodeWord h, ?_⟩⟩
  · rw [encodeWord_eq_packFields, ← wordLayout_sum x]
    exact packFields_lt (wordLayout_fits hok)
  · rw [encodeWord_eq_packFields]
    exact decodeWord_of_layout hok (cutFields_packFields (wordLayout_fits hok))
  · have hlay : HasLayout w x := hasLayout_of_decodeWord h
    rw [encodeWord_eq_packFields, ← hlay, packFields_cutFields, wordLayout_sum, bitField_eq_div_mod, pow_zero, Nat.div_one,
      Nat.mod_eq_of_lt hw]

end Sys2Proof.Proofs
end

section
/-! SUPPORT. Rules for commands that act on one core: what they leave alone, and a word at the issue position that is read
(R65, R66). -/

namespace Sys2Proof.Proofs

open Sys2Proof.Machine Sys2Proof.Laws

/-! What a command of one core leaves alone. -/

theorem coreOnly_fresh (s : State) (c : Nat) (l : List (FieldName × Nat)) : CoreOnly s (fresh s) c l :=
  ⟨rfl, fun _ _ _ => rfl, fun _ _ => rfl⟩

end Sys2Proof.Proofs

namespace Sys2Proof.Machine.CoreOnly

open Sys2Proof.Laws

variable {s t : State} {c : Nat} {l : List (FieldName × Nat)}

theorem setF (h : CoreOnly s t c l) {n : FieldName} {i : Nat} (v : Nat) (hn : (n, i) ∈ l) :
    CoreOnly s (t.setF n i v) c l := by
  obtain ⟨hrest, hregs, hcores⟩ := h
  exact ⟨by rw [hrest]; rfl, Proofs.sameRegs_setF hregs v hn, hcores⟩

theorem setCore (h : CoreOnly s t c l) (k : Core) : CoreOnly s (t.setCore c k) c l := by
  obtain ⟨hrest, hregs, hcores⟩ := h
  exact ⟨by rw [hrest]; rfl, hregs, fun d hd => by rw [core_setCore, if_neg hd.symm, hcores d hd]⟩

theorem setWait (h : CoreOnly s t c l) (w : SeqWait) : CoreOnly s (t.setWait c w) c l := h.setCore _

theorem issued (h : CoreOnly s t c l) (hissued : (.CORE_ISSUED, c) ∈ l) (hpc : (.CORE_PC_PC, c) ∈ l) :
    CoreOnly s (t.issued c) c l :=
  ((h.setF _ hissued).setF _ hpc).setCore _

/-- Time, queue and clocks are as they were, so that nothing is put back. -/
theorem wrap_eq (h : CoreOnly s t c l) : Machine.wrap s t = t := by
  rw [h.1]; rfl

theorem wrap (h : CoreOnly s t c l) : CoreOnly s (Machine.wrap s t) c l := by rwa [h.wrap_eq]

end Sys2Proof.Machine.CoreOnly

namespace Sys2Proof.Proofs

open Sys2Proof.Machine Sys2Proof.Laws

/-! A word that is read. -/

theorem coreOk_of_lt {c : Nat} (h : c < 384) : coreOk c = true := by simpa [coreOk] using h

theorem isOp_of_reads {s : State} {c : Nat} {x : CoreWord} (h : s.reads c x) : isOp (wordOp x) (s.wordAt c) = true := by
  simpa [isOp] using decodeWord_op h.2.2

/-- The command of a word that is read and that it recognises acts on the word. -/
theorem exec_word {s : State} {c : Nat} {x : CoreWord} {is : Nat → Bool} {f : CoreWord → State → State} {i : Instr}
    (hexec : exec i s = act (coreOk c) (whenUp (issueWord c is f)) s) (hu : s.up) (hc : c < 384) (h : s.reads c x)
    (hi : is (s.wordAt c) = true) : exec i s = .next (wrap s (f x (fresh s))) := by
  rw [hexec, act_up (coreOk_of_lt hc) hu, issueWord_reads (reads_fresh h) hi]

/-- A word that is issued, the core and its counts being as they were, counts as issued. -/
theorem counted_issued {s t : State} {c : Nat} (hissued : t.f .CORE_ISSUED c = s.f .CORE_ISSUED c)
    (hpc : t.f .CORE_PC_PC c = s.f .CORE_PC_PC c) (hcore : (t.core c).issued = (s.core c).issued) :
    s.counted (t.issued c) c := by
  obtain ⟨hi, hp⟩ := issued_counts t c
  exact ⟨by rw [hi, hissued], by rw [hp, hpc], by rw [issued_core, if_pos rfl, ← hcore]⟩

@[simp] theorem issued_core_same (s : State) (c : Nat) :
    (s.issued c).core c = { s.core c with issued := (s.core c).issued + 1 } := by rw [issued_core, if_pos rfl]

@[simp] theorem setWait_core_same (s : State) (c : Nat) (w : SeqWait) :
    (s.setWait c w).core c = { s.core c with wait := w, waitSince := s.now } := core_setCore_same _ _ _

/-- A word that changes its core's context and issues. -/
theorem setCore_issued (s : State) (c : Nat) {k : Core} (hk : k.issued = (s.core c).issued) :
    let t := wrap s (((fresh s).setCore c k).issued c)
    s.counted t c ∧ t.core c = { k with issued := (s.core c).issued + 1 } ∧
      CoreOnly s t c [(.CORE_ISSUED, c), (.CORE_PC_PC, c)] := by
  refine ⟨counted_issued (t := (fresh s).setCore c k) rfl rfl ?_, ?_,
    CoreOnly.wrap (((coreOnly_fresh s c _).setCore _).issued (by simp) (by simp))⟩
  · rw [core_setCore_same, hk]
  · rw [core_read_wrap, issued_core_same, core_setCore_same, hk]

/-- A word that issues and leaves the sequencer waiting. -/
theorem issued_setWait (s : State) (c : Nat) (w : SeqWait) : let t := wrap s (((fresh s).issued c).setWait c w)
    s.counted t c ∧ t.core c = { s.core c with issued := (s.core c).issued + 1, wait := w, waitSince := s.now } ∧
      CoreOnly s t c [(.CORE_ISSUED, c), (.CORE_PC_PC, c)] := by
  intro t
  have hcore : t.core c = { s.core c with issued := (s.core c).issued + 1, wait := w, waitSince := s.now } := by
    rw [core_read_wrap, setWait_core_same, issued_core_same]
    rfl
  obtain ⟨hissued, hpc, -⟩ := counted_issued (s := s) (t := fresh s) (c := c) rfl rfl rfl
  exact ⟨⟨hissued, hpc, by rw [hcore]⟩, hcore,
    CoreOnly.wrap (((coreOnly_fresh s c _).issued (by simp) (by simp)).setWait _)⟩

end Sys2Proof.Proofs
end

section
/-! The clauses of O12: NOP, TDADD, VPOS, VSETF and STEPEND (R65, R70, R74, R75, R89, R134). -/

namespace Sys2Proof.Proofs

open Sys2Proof.Machine Sys2Proof.Laws

theorem exec_nop_issues {s : State} {c : Nat} (hu : s.up) (hc : c < 384) (h : s.reads c .nop) :
    ∃ t, exec (.nop c) s = .next t ∧ s.counted t c ∧ t.core c = { s.core c with issued := (s.core c).issued + 1 } ∧
      CoreOnly s t c [(.CORE_ISSUED, c), (.CORE_PC_PC, c)] := by
  rw [exec_word (exec_nop c s) hu hc h (isOp_of_reads h)]
  have honly : CoreOnly s ((fresh s).issued c) c [(.CORE_ISSUED, c), (.CORE_PC_PC, c)] :=
    (coreOnly_fresh s c _).issued (by simp) (by simp)
  exact ⟨_, rfl, counted_issued (t := fresh s) rfl rfl rfl, issued_core_same _ _, honly.wrap⟩

/-- A core's context with a descriptor slot written (R40). -/
def withSlot (k : Core) (i d : Nat) : Core := { k with slots := FMap.set 0 k.slots i d }

/-- A word that writes a descriptor slot and issues. -/
theorem withSlot_issued (s : State) (c i d : Nat) : let t := wrap s (((fresh s).setCore c (withSlot (s.core c) i d)).issued c)
    s.counted t c ∧ t.slot c i = d ∧ (∀ j, j ≠ i → t.slot c j = s.slot c j) ∧
      t.core c = { s.core c with issued := (s.core c).issued + 1, slots := (t.core c).slots } ∧
      CoreOnly s t c [(.CORE_ISSUED, c), (.CORE_PC_PC, c)] := by
  intro t
  obtain ⟨hcounted, hcore, honly⟩ := setCore_issued s c (k := withSlot (s.core c) i d) rfl
  have hslot (j : Nat) : t.slot c j = if i = j then d else s.slot c j := by
    rw [State.slot, hcore]
    exact get_set _ _ _ _ _
  exact ⟨hcounted, by rw [hslot, if_pos rfl], fun j hj => by rw [hslot, if_neg hj.symm], by rw [hcore]; rfl, honly⟩

theorem exec_tdadd_issues {s : State} {c i delta : Nat} {scale : Bool} (hu : s.up) (hc : c < 384)
    (h : s.reads c (.tdadd i scale delta)) :
    ∃ t, exec (.tdadd c) s = .next t ∧ s.counted t c ∧ t.slot c i = dMoved (s.slot c i) scale delta ∧
      (∀ j, j ≠ i → t.slot c j = s.slot c j) ∧
      t.core c = { s.core c with issued := (s.core c).issued + 1, slots := (t.core c).slots } ∧
      CoreOnly s t c [(.CORE_ISSUED, c), (.CORE_PC_PC, c)] := by
  rw [exec_word (exec_tdadd c s) hu hc h (isOp_of_reads h)]
  exact ⟨_, rfl, withSlot_issued s c i (dMoved (s.slot c i) scale delta)⟩

theorem exec_vpos_issues {s : State} {c q k m : Nat} (hu : s.up) (hc : c < 384) (h : s.reads c (.vpos q k m))
    (hq : q < 2 ^ 22) (hk : k < 2 ^ 22) (hm : m < 2) :
    ∃ t, exec (.vpos c) s = .next t ∧ s.counted t c ∧ t.f .VEC_POS_QBASE c = q ∧ t.f .VEC_POS_KBASE c = k ∧
      t.f .VEC_POS_MASK c = m ∧ t.core c = { s.core c with issued := (s.core c).issued + 1 } ∧
      CoreOnly s t c [(.CORE_ISSUED, c), (.CORE_PC_PC, c), (.VEC_POS_QBASE, c), (.VEC_POS_KBASE, c),
        (.VEC_POS_MASK, c)] := by
  rw [exec_word (exec_vpos c s) hu hc h (isOp_of_reads h)]
  refine ⟨_, rfl, counted_issued (t := (((fresh s).setF _ c q).setF _ c k).setF _ c m) ?_ ?_ rfl, ?_, ?_, ?_,
    issued_core_same _ _, CoreOnly.wrap ?_⟩
  · simp [f_setF]
  · simp [f_setF]
  · rw [f_read_wrap, issued_f _ _ _ _ (by simp), f_setF, if_neg (by simp), f_setF, if_neg (by simp), f_setF_fits _ _ hq]
  · rw [f_read_wrap, issued_f _ _ _ _ (by simp), f_setF, if_neg (by simp), f_setF_fits _ _ hk]
  · rw [f_read_wrap, issued_f _ _ _ _ (by simp), f_setF_fits _ _ (Nat.lt_of_lt_of_le hm (by decide))]
  · exact ((((coreOnly_fresh s c _).setF q (by simp)).setF k (by simp)).setF m (by simp)).issued (by simp) (by simp)

theorem exec_vsetf_issues {s : State} {c r v : Nat} (hu : s.up) (hc : c < 384) (h : s.reads c (.vsetf r v))
    (hv : v < 2 ^ 32) :
    ∃ t, exec (.vsetf c) s = .next t ∧ s.counted t c ∧
      t.f .VEC_BETA_BETA c = (if r = 0 then v else s.f .VEC_BETA_BETA c) ∧
      t.f .VEC_EPS_EPS c = (if r = 0 then s.f .VEC_EPS_EPS c else v) ∧
      t.core c = { s.core c with issued := (s.core c).issued + 1 } ∧
      CoreOnly s t c [(.CORE_ISSUED, c), (.CORE_PC_PC, c), (.VEC_BETA_BETA, c), (.VEC_EPS_EPS, c)] := by
  rw [exec_word (exec_vsetf c s) hu hc h (isOp_of_reads h)]
  have hmod : v % 4294967296 = v := Nat.mod_eq_of_lt hv
  by_cases hr : r = 0
  all_goals
    simp only [hr, if_true, if_false]
    refine ⟨_, rfl, counted_issued (t := (fresh s).setF _ c v) ?_ ?_ rfl, ?_, ?_, issued_core_same _ _,
      CoreOnly.wrap (((coreOnly_fresh s c _).setF v (by simp)).issued (by simp) (by simp))⟩
    · simp [f_setF]
    · simp [f_setF]
    · rw [f_read_wrap, issued_f _ _ _ _ (by simp)]
      simp [f_setF, fieldDesc, hmod]
    · rw [f_read_wrap, issued_f _ _ _ _ (by simp)]
      simp [f_setF, fieldDesc, hmod]

theorem exec_stepend_issues {s : State} {c : Nat} (hu : s.up) (hc : c < 384) (h : s.reads c .stepend) :
    ∃ t, exec (.stepend c) s = .next t ∧ s.counted t c ∧
      t.core c = { s.core c with issued := (s.core c).issued + 1, wait := .stepend, waitSince := s.now } ∧
      CoreOnly s t c [(.CORE_ISSUED, c), (.CORE_PC_PC, c)] := by
  rw [exec_word (exec_stepend c s) hu hc h (isOp_of_reads h)]
  exact ⟨_, rfl, issued_setWait s c .stepend⟩

/-- Settles O12, word by word. -/
theorem plainWordsIssue : Obligations.PlainWordsIssue :=
  ⟨fun _ _ hu hc h => exec_nop_issues hu hc h, fun _ _ _ _ _ hu hc h => exec_tdadd_issues hu hc h,
    fun _ _ _ _ _ hu hc h hq hk hm => exec_vpos_issues hu hc h hq hk hm,
    fun _ _ _ _ hu hc h _ hv => exec_vsetf_issues hu hc h hv, fun _ _ hu hc h => exec_stepend_issues hu hc h⟩

/-- Settles O14: a valid image passes every check of TDLD and is written into its slot. -/
theorem tdldLoadsSlot : Obligations.TdldLoadsSlot := by
  intro s c i o hu hc h hwin hzero hgen
  have hrun := exec_word (exec_tdld c s) hu hc h (isOp_of_reads h)
  have hscr : (fresh s).scr c (32 * o) 32 = s.scr c (32 * o) 32 := rfl
  simp only [hscr, swOf_fresh, inWindow_fresh, hwin, hzero, hgen, firstFail] at hrun
  rw [hrun]
  exact ⟨_, rfl, withSlot_issued s c i (leNat (s.scr c (32 * o) 32))⟩

end Sys2Proof.Proofs
end

section
/-! A field written in a number (R8), and the clauses of O13: TDADD on an image (R74). -/

namespace Sys2Proof.Proofs

open Sys2Proof.Machine Sys2Proof.Laws

theorem setBits_eq (v lo w x : Nat) :
    setBits v lo w x = v % 2 ^ lo + 2 ^ lo * (x % 2 ^ w + 2 ^ w * (v >>> (lo + w))) := by
  rw [setBits, pow_add]
  ring

theorem bitField_setBits_same (v lo w x : Nat) : bitField (setBits v lo w x) lo w = x % 2 ^ w := by
  rw [setBits_eq, bitField_add_mul (Nat.mod_lt _ (Nat.two_pow_pos lo)) le_rfl, Nat.sub_self, bitField_eq_div_mod, pow_zero,
    Nat.div_one, Nat.add_mul_mod_self_left, Nat.mod_mod]

theorem bitField_setBits_below (v lo w x : Nat) : bitField (setBits v lo w x) 0 lo = bitField v 0 lo := by
  rw [setBits_eq, bitField_eq_div_mod, bitField_eq_div_mod, pow_zero, Nat.div_one, Nat.div_one, Nat.add_mul_mod_self_left,
    Nat.mod_mod]

theorem bitField_setBits_above (v lo w x k : Nat) :
    bitField (setBits v lo w x) (lo + w) k = bitField v (lo + w) k := by
  rw [setBits_eq, bitField_add_mul (Nat.mod_lt _ (Nat.two_pow_pos lo)) (by omega), Nat.add_sub_cancel_left,
    bitField_add_mul (Nat.mod_lt _ (Nat.two_pow_pos w)) le_rfl, Nat.sub_self]
  rfl

/-- A two's complement pattern is the integer modulo the width. -/
theorem ofSigned_mod (x : Int) (w : Nat) : ((ofSigned x w % 2 ^ w : Nat) : Int) = x % 2 ^ w := by
  have hpos : (0 : Int) < 2 ^ w := by positivity
  rw [ofSigned, Int.natCast_emod, Int.toNat_of_nonneg (Int.emod_nonneg _ (by simp)), Int.ofNat_eq_natCast, Nat.cast_pow,
    Nat.cast_ofNat, Int.emod_emod_of_dvd _ (dvd_refl _)]

/-- Settles O13: the moved base is the field written, and the fields on both sides of it stay. -/
theorem tdaddMovesOneBase : Obligations.TdaddMovesOneBase := fun d delta _ =>
  ⟨by rw [dBase, dMoved]; exact (congrArg Nat.cast (bitField_setBits_same _ _ _ _)).trans (ofSigned_mod _ _),
    bitField_setBits_below d 32 52 _, bitField_setBits_above d 32 52 _ 172,
    by rw [dScaleBase, dMoved]; exact (congrArg Nat.cast (bitField_setBits_same _ _ _ _)).trans (ofSigned_mod _ _),
    bitField_setBits_below d 192 52 _, bitField_setBits_above d 192 52 _ 12⟩

end Sys2Proof.Proofs
end

section
/-! The clauses of O17 and O18: words after which the sequencer waits (R74, R75) and LOOP (R75). -/

namespace Sys2Proof.Proofs

open Sys2Proof.Machine Sys2Proof.Laws

theorem exec_fence_waits {s : State} {c : Nat} {ld st : Bool} (hu : s.up) (hc : c < 384) (h : s.reads c (.fence ld st)) :
    ∃ t, exec (.fence c) s = .next t ∧ s.counted t c ∧
      t.core c = (if ld || st then { s.core c with
          issued := (s.core c).issued + 1, wait := .fence ld st (s.core c).issued, waitSince := s.now }
        else { s.core c with issued := (s.core c).issued + 1 }) ∧
      CoreOnly s t c [(.CORE_ISSUED, c), (.CORE_PC_PC, c)] := by
  rw [exec_word (exec_fence c s) hu hc h (isOp_of_reads h)]
  cases hwait : ld || st
  case false =>
    simp only [hwait, if_false, Bool.false_eq_true]
    have honly : CoreOnly s ((fresh s).issued c) c [(.CORE_ISSUED, c), (.CORE_PC_PC, c)] :=
      (coreOnly_fresh s c _).issued (by simp) (by simp)
    exact ⟨_, rfl, counted_issued (t := fresh s) rfl rfl rfl, issued_core_same _ _, honly.wrap⟩
  case true =>
    simp only [hwait, if_true]
    exact ⟨_, rfl, issued_setWait s c (.fence ld st (s.core c).issued)⟩

theorem exec_sync_waits {s : State} {c scope barrier : Nat} (hu : s.up) (hc : c < 384)
    (h : s.reads c (.sync scope barrier)) :
    ∃ t, exec (.sync c) s = .next t ∧ s.counted t c ∧ t.f .CORE_STATUS_STATE c = 2 ∧
      t.core c = { s.core c with
        issued := (s.core c).issued + 1, wait := .sync scope barrier (s.core c).issued, waitSince := s.now } ∧
      CoreOnly s t c [(.CORE_ISSUED, c), (.CORE_PC_PC, c), (.CORE_STATUS_STATE, c)] := by
  rw [exec_word (exec_sync c s) hu hc h (isOp_of_reads h)]
  obtain ⟨⟨hissued, hpc, hnum⟩, hcore, -⟩ := issued_setWait s c (.sync scope barrier (s.core c).issued)
  rw [f_read_wrap] at hissued hpc
  refine ⟨_, rfl, ⟨?_, ?_, hnum⟩, ?_, hcore, CoreOnly.wrap ?_⟩
  · rw [f_read_wrap, f_setF, if_neg (by simp)]
    exact hissued
  · rw [f_read_wrap, f_setF, if_neg (by simp)]
    exact hpc
  · rw [f_read_wrap]
    exact f_setF_fits _ c (by decide)
  · exact (((coreOnly_fresh s c _).issued (by simp) (by simp)).setWait _).setF 2 (by simp)

/-- Settles O17. -/
theorem fenceAndSyncWait : Obligations.FenceAndSyncWait :=
  ⟨fun _ _ _ _ hu hc h _ => exec_fence_waits hu hc h, fun _ _ _ _ hu hc h _ => exec_sync_waits hu hc h⟩

/-! LOOP. -/

section Loop
variable {s : State} {c count back : Nat} (hu : s.up) (hc : c < 384) (h : s.reads c (.loop count back))
include hu hc h

theorem exec_loop_opens (hloops : (s.core c).loops = []) (hnest : (s.core c).nestAt (s.f .CORE_PC_PC c) back ≤ 4)
    (hcount : 1 < count) :
    ∃ t, exec (.loop c) s = .next t ∧ t.f .CORE_ISSUED c = satAdd (s.f .CORE_ISSUED c) 1 ∧
      t.f .CORE_PC_PC c = (s.f .CORE_PC_PC c + 2 ^ 19 - back) % 2 ^ 19 ∧ t.f .CORE_PC_DEPTH c = 1 ∧
      (t.core c).loops = [(s.f .CORE_PC_PC c, count - 1)] ∧
      t.core c = { s.core c with
        issued := (s.core c).issued + 1, loops := (t.core c).loops, nest := (t.core c).nest } ∧
      CoreOnly s t c [(.CORE_ISSUED, c), (.CORE_PC_PC, c), (.CORE_PC_DEPTH, c)] := by
  have hrun := exec_word (exec_loop c s) hu hc h (isOp_of_reads h)
  obtain ⟨hissued, -⟩ := issued_counts (fresh s) c
  simp only [core_read_fresh, f_read_fresh, hloops, Nat.not_lt.2 hnest, if_false, Nat.ne_of_gt hcount] at hrun
  rw [hrun]
  refine ⟨_, rfl, ?_, ?_, ?_, ?_, ?_, CoreOnly.wrap ?_⟩
  · simpa [f_setF] using hissued
  · simp [f_setF, fieldDesc]
  · simp [f_setF, fieldDesc]
  · rw [core_read_wrap, core_read_setF, core_read_setF, core_setCore_same]
  · rw [core_read_wrap, core_read_setF, core_read_setF, core_setCore_same, core_setCore_same, issued_core_same]
    rfl
  · exact (((((coreOnly_fresh s c _).issued (by simp) (by simp)).setCore _).setCore _).setF _ (by simp)).setF _ (by simp)

theorem exec_loop_once (hloops : (s.core c).loops = []) (hnest : (s.core c).nestAt (s.f .CORE_PC_PC c) back ≤ 4)
    (hcount : count = 1) :
    ∃ t, exec (.loop c) s = .next t ∧ s.counted t c ∧ (t.core c).loops = [] ∧
      t.core c = { s.core c with issued := (s.core c).issued + 1, nest := (t.core c).nest } ∧
      CoreOnly s t c [(.CORE_ISSUED, c), (.CORE_PC_PC, c)] := by
  have hrun := exec_word (exec_loop c s) hu hc h (isOp_of_reads h)
  obtain ⟨hissued, hpc, hnum⟩ := counted_issued (s := s) (t := fresh s) (c := c) rfl rfl rfl
  simp only [core_read_fresh, f_read_fresh, hloops, Nat.not_lt.2 hnest, if_false, hcount, if_true] at hrun
  rw [hrun]
  exact ⟨_, rfl, ⟨hissued, hpc, by simp⟩, by simpa using hloops, by simp,
    CoreOnly.wrap (((coreOnly_fresh s c _).issued (by simp) (by simp)).setCore _)⟩

theorem exec_loop_closes {left : Nat} {rest : List (Nat × Nat)}
    (hloops : (s.core c).loops = (s.f .CORE_PC_PC c, left) :: rest) (hleft : left ≤ 1) (hdepth : rest.length < 8) :
    ∃ t, exec (.loop c) s = .next t ∧ s.counted t c ∧ t.f .CORE_PC_DEPTH c = rest.length ∧
      t.core c = { s.core c with issued := (s.core c).issued + 1, loops := rest } ∧
      CoreOnly s t c [(.CORE_ISSUED, c), (.CORE_PC_PC, c), (.CORE_PC_DEPTH, c)] := by
  have hrun := exec_word (exec_loop c s) hu hc h (isOp_of_reads h)
  obtain ⟨hissued, hpc, hnum⟩ := counted_issued (s := s) (t := fresh s) (c := c) rfl rfl rfl
  simp only [core_read_fresh, f_read_fresh, hloops, hleft, if_true] at hrun
  rw [hrun]
  refine ⟨_, rfl, ⟨?_, ?_, by simp⟩, ?_, by simp, CoreOnly.wrap ?_⟩
  · simpa [f_setF] using hissued
  · simpa [f_setF] using hpc
  · rw [f_read_wrap, f_read_setCore]
    exact f_setF_fits _ c hdepth
  · exact ((((coreOnly_fresh s c _).issued (by simp) (by simp)).setF _ (by simp)).setCore _)

theorem exec_loop_repeats {left : Nat} {rest : List (Nat × Nat)}
    (hloops : (s.core c).loops = (s.f .CORE_PC_PC c, left) :: rest) (hleft : 1 < left) :
    ∃ t, exec (.loop c) s = .next t ∧ t.f .CORE_ISSUED c = satAdd (s.f .CORE_ISSUED c) 1 ∧
      t.f .CORE_PC_PC c = (s.f .CORE_PC_PC c + 2 ^ 19 - back) % 2 ^ 19 ∧
      t.core c = { s.core c with
        issued := (s.core c).issued + 1, loops := (s.f .CORE_PC_PC c, left - 1) :: rest } ∧
      CoreOnly s t c [(.CORE_ISSUED, c), (.CORE_PC_PC, c)] := by
  have hrun := exec_word (exec_loop c s) hu hc h (isOp_of_reads h)
  obtain ⟨hissued, -⟩ := issued_counts (fresh s) c
  simp only [core_read_fresh, f_read_fresh, hloops, if_true, Nat.not_le.2 hleft, if_false] at hrun
  rw [hrun]
  refine ⟨_, rfl, ?_, ?_, ?_, CoreOnly.wrap ?_⟩
  · simpa [f_setF] using hissued
  · simp [f_setF, fieldDesc]
  · rw [core_read_wrap, core_read_setF, core_setCore_same, issued_core_same]
    rfl
  · exact (((coreOnly_fresh s c _).issued (by simp) (by simp)).setCore _).setF _ (by simp)

end Loop

/-- Settles O18: the loops that are open decide between opening, running again and closing. -/
theorem loopRepeatsBody : Obligations.LoopRepeatsBody := fun _ _ _ _ hu hc h _ =>
  ⟨exec_loop_opens hu hc h, exec_loop_once hu hc h, fun _ _ => exec_loop_closes hu hc h,
    fun _ _ => exec_loop_repeats hu hc h⟩

end Sys2Proof.Proofs
end

section
/-! The clauses of O20: the ends of a core's waits (R63, R65, R74, R75, R128) and the release of a barrier (R75). -/

namespace Sys2Proof.Proofs

open Sys2Proof.Machine Sys2Proof.Laws

/-- The first word of a queue that waits begins, once nothing before it is left. -/
theorem release_first {k : Core} {pre post : List QEnt} {e : QEnt} (hpre : ∀ x ∈ pre, x.wst = false ∨ x.go = true)
    (hwst : e.wst = true) (hgo : e.go = false) (hclear : k.clearBefore e.seq = true) :
    k.release (pre ++ e :: post) = pre ++ { e with go := true } :: post := by
  have hnone : pre.findIdx? (fun x => x.wst && !x.go) = none := by
    rw [List.findIdx?_eq_none_iff]
    intro x hx
    rcases hpre x hx with h | h <;> simp [h]
  have hfind : (pre ++ e :: post).findIdx? (fun x => x.wst && !x.go) = some pre.length := by
    simp [List.findIdx?_append, hnone, List.findIdx?_cons, hwst, hgo]
  simp [Core.release, hfind, hclear]

theorem exec_wstRelease_core {s : State} {c q : Nat} (hu : s.up) (hc : c < 384) (hq : q < 3) :
    ∃ t, exec (.wstRelease c q) s = .next t ∧ CoreOnly s t c [] ∧
      t.core c = (if q = 0 then { s.core c with matQ := (s.core c).release (s.core c).matQ }
        else if q = 1 then { s.core c with shQ := (s.core c).release (s.core c).shQ }
        else { s.core c with vecQ := (s.core c).release (s.core c).vecQ }) := by
  rw [exec_wstRelease, act_up (by simp [coreOk_of_lt hc, hq]) hu]
  exact ⟨_, rfl, coreOnly_setCore s c _, core_setCore_same _ _ _⟩

/-- A command that ends core `c`'s wait and does nothing else. -/
theorem ends_wait {s : State} {c : Nat} {i : Instr} {f : State → State} (hu : s.up) (hc : c < 384)
    (hexec : exec i s = act (coreOk c) (whenUp f) s) (hf : f (fresh s) = (fresh s).setWait c .none) :
    ∃ t, exec i s = .next t ∧ t.core c = { s.core c with wait := .none, waitSince := s.now } ∧ CoreOnly s t c [] := by
  rw [hexec, act_up (coreOk_of_lt hc) hu, hf]
  exact ⟨_, rfl, setWait_core_same _ _ _, coreOnly_setCore s c _⟩

theorem fenceComplete_of {s : State} {c seq : Nat} {ld st : Bool} (hwait : (s.core c).wait = .fence ld st seq)
    (hld : ld = true → (s.core c).loadedBefore seq = true) (hst : st = true → (s.core c).clearBefore seq = true) :
    fenceComplete c s = s.setWait c .none := by
  have hdone : ((!ld || (s.core c).loadedBefore seq) && (!st || (s.core c).clearBefore seq)) = true := by
    cases ld <;> cases st <;> simp_all
  simp [fenceComplete, hwait, hdone]

theorem issueResume_of {s : State} {c q : Nat} (hwait : (s.core c).wait = .full q)
    (hroom : (if q = 0 then (s.core c).matQ.length else if q = 1 then (s.core c).shQ.length
      else (s.core c).vecQ.length) < 16) : issueResume c s = s.setWait c .none := by
  simp [issueResume, hwait, hroom]

theorem exec_stependDone_ends {s : State} {c : Nat} (hu : s.up) (hc : c < 384) (hwait : (s.core c).wait = .stepend)
    (hmat : (s.core c).matQ = []) (hsh : (s.core c).shQ = []) (hvec : (s.core c).vecQ = []) :
    ∃ t, exec (.stependDone c) s = .next t ∧ t.f .CORE_STATUS_STATE c = 5 ∧
      t.core c = { s.core c with wait := .none, waitSince := s.now } ∧ CoreOnly s t c [(.CORE_STATUS_STATE, c)] := by
  have hrun : stependDone c (fresh s) = ((fresh s).setWait c .none).setF .CORE_STATUS_STATE c 5 := by
    simp [stependDone, hwait, hmat, hsh, hvec]
  rw [exec_stependDone, act_up (coreOk_of_lt hc) hu, hrun]
  refine ⟨_, rfl, ?_, ?_, CoreOnly.wrap (((coreOnly_fresh s c _).setWait _).setF 5 (by simp))⟩
  · rw [f_read_wrap]
    exact f_setF_fits _ c (by decide)
  · rw [core_read_wrap, core_read_setF, setWait_core_same]
    rfl

/-! The release of a barrier. -/

/-- Core `c` stands at a barrier. -/
def StandsAt (scope barrier : Nat) (s : State) (c : Nat) : Prop := ∃ seq, (s.core c).wait = .sync scope barrier seq

/-- The context of a core that goes on from a barrier. -/
def passedBarrier (scope barrier : Nat) (k : Core) : Core :=
  { k with wait := .none, passed := (256 * scope + barrier) :: k.passed }

section Barrier
variable {scope barrier : Nat} {s : State} {c d : Nat}

theorem passBarrier_stands (h : StandsAt scope barrier s c) : passBarrier scope barrier s c =
    (s.setCore c (passedBarrier scope barrier (s.core c))).setF .CORE_STATUS_STATE c 1 := by
  obtain ⟨seq, hwait⟩ := h
  simp [passBarrier, hwait, passedBarrier]

theorem passBarrier_idle (h : ¬ StandsAt scope barrier s c) : passBarrier scope barrier s c = s := by
  unfold passBarrier
  split
  · rename_i sc b seq hwait
    have hne : ¬ (sc = scope ∧ b = barrier) := by
      rintro ⟨rfl, rfl⟩
      exact h ⟨seq, hwait⟩
    simp [hne]
  · rfl

/-- What a core shows and holds of a barrier: its state and its context. -/
def barrierView (s : State) (d : Nat) : Nat × Core := (s.f .CORE_STATUS_STATE d, s.core d)

theorem passBarrier_view_other (hd : c ≠ d) :
    barrierView (passBarrier scope barrier s c) d = barrierView s d := by
  by_cases h : StandsAt scope barrier s c
  · rw [passBarrier_stands h, barrierView, f_setF, if_neg (by simp [hd]), core_read_setF, core_setCore, if_neg hd]
    rfl
  · rw [passBarrier_idle h]

theorem passBarrier_view_same (h : StandsAt scope barrier s c) :
    barrierView (passBarrier scope barrier s c) c = (1, passedBarrier scope barrier (s.core c)) := by
  rw [passBarrier_stands h, barrierView, f_setF_fits _ c (by decide), core_read_setF, core_setCore_same]

theorem not_standsAt_passBarrier : ¬ StandsAt scope barrier (passBarrier scope barrier s c) c := by
  by_cases h : StandsAt scope barrier s c
  · have hcore : (passBarrier scope barrier s c).core c = passedBarrier scope barrier (s.core c) :=
      congrArg Prod.snd (passBarrier_view_same h)
    rintro ⟨seq, hwait⟩
    rw [hcore] at hwait
    cases hwait
  · rwa [passBarrier_idle h]

theorem foldl_passBarrier_view_of_not_mem {l : List Nat} (hd : d ∉ l) :
    barrierView (l.foldl (passBarrier scope barrier) s) d = barrierView s d := by
  induction l generalizing s with
  | nil => rfl
  | cons c l ih =>
    rw [List.mem_cons, not_or] at hd
    rw [List.foldl_cons, ih hd.2, passBarrier_view_other (Ne.symm hd.1)]

theorem standsAt_congr {t : State} (h : barrierView t d = barrierView s d) :
    StandsAt scope barrier t d ↔ StandsAt scope barrier s d := by
  have hcore : t.core d = s.core d := congrArg Prod.snd h
  rw [StandsAt, hcore, StandsAt]

/-- A core that has gone on stays so. -/
theorem foldl_passBarrier_view_idle {l : List Nat} (hd : ¬ StandsAt scope barrier s d) :
    barrierView (l.foldl (passBarrier scope barrier) s) d = barrierView s d := by
  induction l generalizing s with
  | nil => rfl
  | cons c l ih =>
    have hstep : barrierView (passBarrier scope barrier s c) d = barrierView s d := by
      by_cases hc : c = d
      · rw [hc, passBarrier_idle hd]
      · exact passBarrier_view_other hc
    rw [List.foldl_cons, ih (by rwa [standsAt_congr hstep]), hstep]

/-- Every core of the list that stands at the barrier goes on. -/
theorem foldl_passBarrier_view_of_mem {l : List Nat} (hd : d ∈ l) (h : StandsAt scope barrier s d) :
    barrierView (l.foldl (passBarrier scope barrier) s) d = (1, passedBarrier scope barrier (s.core d)) := by
  induction l generalizing s with
  | nil => cases hd
  | cons c l ih =>
    rw [List.foldl_cons]
    by_cases hc : c = d
    · subst hc
      rw [foldl_passBarrier_view_idle not_standsAt_passBarrier, passBarrier_view_same h]
    · have hview := passBarrier_view_other (scope := scope) (barrier := barrier) (s := s) hc
      have hcore : (passBarrier scope barrier s c).core d = s.core d := congrArg Prod.snd hview
      rw [ih ((List.mem_cons.1 hd).resolve_left (Ne.symm hc)) ((standsAt_congr hview).2 h), hcore]

/-- Two states that differ by cores that have gone on. -/
def WentOn (s t : State) : Prop :=
  t = { s with regs := t.regs, cores := t.cores } ∧ ∀ n i, n ≠ .CORE_STATUS_STATE → t.f n i = s.f n i

theorem passBarrier_wentOn : WentOn s (passBarrier scope barrier s c) := by
  by_cases h : StandsAt scope barrier s c
  · rw [passBarrier_stands h]
    exact ⟨rfl, fun n i hn => by rw [f_setF, if_neg (by rintro ⟨rfl, -⟩; exact hn rfl)]; rfl⟩
  · rw [passBarrier_idle h]
    exact ⟨rfl, fun _ _ _ => rfl⟩

theorem foldl_passBarrier_wentOn (l : List Nat) : WentOn s (l.foldl (passBarrier scope barrier) s) := by
  refine List.foldlRecOn _ _ ⟨rfl, fun _ _ _ => rfl⟩ (fun t ht c _ => ?_)
  obtain ⟨hrest, hregs⟩ := passBarrier_wentOn (scope := scope) (barrier := barrier) (s := t) (c := c)
  exact ⟨by rw [hrest, ht.1], fun n i hn => (hregs n i hn).trans (ht.2 n i hn)⟩

theorem atBarrier_of {seq : Nat} (hwait : (s.core c).wait = .sync scope barrier seq)
    (hclear : (s.core c).clearBefore seq = true) : s.atBarrier scope barrier c = true := by
  simp [State.atBarrier, hwait, hclear]

end Barrier

theorem exec_syncRelease_passes {s : State} {k scope barrier region : Nat} (hu : s.up) (hk : k < 65536) (hscope : scope < 3)
    (hbarrier : barrier < 256) (hregion : region < 48)
    (hall : ∀ c ∈ s.scopeCores k scope region,
      ∃ seq, (s.core c).wait = .sync scope barrier seq ∧ (s.core c).clearBefore seq = true) :
    ∃ t, exec (.syncRelease k scope barrier region) s = .next t ∧
      (∀ c ∈ s.scopeCores k scope region, t.f .CORE_STATUS_STATE c = 1 ∧
        t.core c = { s.core c with wait := .none, passed := (256 * scope + barrier) :: (s.core c).passed }) ∧
      (∀ c, c ∉ s.scopeCores k scope region →
        t.core c = s.core c ∧ t.f .CORE_STATUS_STATE c = s.f .CORE_STATUS_STATE c) ∧
      t = { s with regs := t.regs, cores := t.cores, out := [] } ∧
      ∀ n i, n ≠ .CORE_STATUS_STATE → t.f n i = s.f n i := by
  have hreached : (s.scopeCores k scope region).all ((fresh s).atBarrier scope barrier) = true := by
    rw [List.all_eq_true]
    intro c hc
    obtain ⟨seq, hwait, hclear⟩ := hall c hc
    exact atBarrier_of (s := fresh s) hwait hclear
  have hrun : syncRelease k scope barrier region (fresh s) =
      (s.scopeCores k scope region).foldl (passBarrier scope barrier) (fresh s) := by
    have hcores : (fresh s).scopeCores k scope region = s.scopeCores k scope region := rfl
    simp [syncRelease, hcores, hreached]
  rw [exec_syncRelease, act_up (by simp [hk, hscope, hbarrier, hregion]) hu, hrun]
  obtain ⟨hrest, hregs⟩ := foldl_passBarrier_wentOn (scope := scope) (barrier := barrier) (s := fresh s)
    (s.scopeCores k scope region)
  refine ⟨_, rfl, fun c hc => ?_, fun c hc => ?_, ?_, hregs⟩
  · obtain ⟨seq, hwait, -⟩ := hall c hc
    have hview := foldl_passBarrier_view_of_mem (s := fresh s) hc ⟨seq, hwait⟩
    exact ⟨congrArg Prod.fst hview, congrArg Prod.snd hview⟩
  · have hview := foldl_passBarrier_view_of_not_mem (scope := scope) (barrier := barrier) (s := fresh s) hc
    exact ⟨congrArg Prod.snd hview, congrArg Prod.fst hview⟩
  · rw [hrest]
    rfl

/-- Settles O20, wait by wait. -/
theorem coreWaitsAndBarriersEnd : Obligations.CoreWaitsAndBarriersEnd := by
  refine ⟨fun k pre post e => release_first, fun s c q hu hc hq => exec_wstRelease_core hu hc hq, ?fence, ?full,
    fun s c => exec_stependDone_ends, ?barrier⟩
  case fence =>
    exact fun s c seq ld st hu hc hwait hld hst =>
      ends_wait hu hc (exec_fenceComplete c s) (fenceComplete_of (s := fresh s) hwait hld hst)
  case full =>
    exact fun s c q hu hc hwait hroom => ends_wait hu hc (exec_issueResume c s) (issueResume_of (s := fresh s) hwait hroom)
  case barrier =>
    exact fun s k scope barrier region hu hk hscope hbarrier hregion hall =>
      exec_syncRelease_passes hu hk hscope hbarrier hregion hall

end Sys2Proof.Proofs
end

section
/-! SUPPORT. What a core's arrays show (R90) and count (R110): the registers that follow them, and what counting leaves
alone. -/

namespace Sys2Proof.Proofs

open Sys2Proof.Machine Sys2Proof.Laws

/-- Two states that differ by core `c`'s context, the listed registers and the counts of tags. -/
def CoreTags (s t : State) (c : Nat) (l : List (FieldName × Nat)) : Prop :=
  t = { s with regs := t.regs, cores := t.cores, tags := t.tags } ∧ SameRegs s t l ∧ ∀ d, d ≠ c → t.core d = s.core d

namespace CoreTags

variable {s t u : State} {c : Nat} {l : List (FieldName × Nat)}

theorem refl (s : State) (c : Nat) (l : List (FieldName × Nat)) : CoreTags s s c l :=
  ⟨rfl, fun _ _ _ => rfl, fun _ _ => rfl⟩

theorem trans (h : CoreTags s t c l) (k : CoreTags t u c l) : CoreTags s u c l :=
  ⟨by rw [k.1, h.1], fun n i hn => (k.2.1 n i hn).trans (h.2.1 n i hn), fun d hd => (k.2.2 d hd).trans (h.2.2 d hd)⟩

theorem mono {k : List (FieldName × Nat)} (h : CoreTags s t c l) (hl : l ⊆ k) : CoreTags s t c k :=
  ⟨h.1, fun n i hn => h.2.1 n i (fun hm => hn (hl hm)), h.2.2⟩

theorem setF (h : CoreTags s t c l) {n : FieldName} {i : Nat} (v : Nat) (hn : (n, i) ∈ l) :
    CoreTags s (t.setF n i v) c l := by
  obtain ⟨hrest, hregs, hcores⟩ := h
  exact ⟨by rw [hrest]; rfl, Proofs.sameRegs_setF hregs v hn, hcores⟩

theorem setCore (h : CoreTags s t c l) (k : Core) : CoreTags s (t.setCore c k) c l := by
  obtain ⟨hrest, hregs, hcores⟩ := h
  exact ⟨by rw [hrest]; rfl, hregs, fun d hd => by rw [core_setCore, if_neg hd.symm, hcores d hd]⟩

theorem setTag (h : CoreTags s t c l) (k tag : Nat) (v : TagAcc) : CoreTags s (t.setTag k tag v) c l :=
  h.trans ⟨rfl, fun _ _ _ => rfl, fun _ _ => rfl⟩

theorem issued (h : CoreTags s t c l) (hissued : (.CORE_ISSUED, c) ∈ l) (hpc : (.CORE_PC_PC, c) ∈ l) :
    CoreTags s (t.issued c) c l := ((h.setF _ hissued).setF _ hpc).setCore _

theorem satAt (h : CoreTags s t c l) (k tag stage n : Nat) (hl : [(.ARR_SAT, c), (.ARR_NUMERIC_SAT_SEEN, c),
    (.ARR_NUMERIC_LAST_SAT_STAGE, c), (.ARR_NUMERIC_LAST_SAT_TAG, c)] ⊆ l) : CoreTags s (t.satAt c k tag stage n) c l := by
  unfold State.satAt
  split
  · exact h
  · exact ((((h.setF _ (hl (by simp))).setTag k tag _).setF 1 (hl (by simp))).setF stage (hl (by simp))).setF tag
      (hl (by simp))

theorem showArr (h : CoreTags s t c l)
    (hl : [(.ARR_STATUS_ACTIVE, c), (.ARR_STATUS_MODE, c), (.ARR_STATUS_FACE_VALID, c)] ⊆ l) :
    CoreTags s (t.showArr c) c l :=
  ((h.setF _ (hl (by simp))).setF _ (hl (by simp))).setF _ (hl (by simp))

/-- Time, queue and clocks are as they were, so that nothing is put back. -/
theorem wrap_eq (h : CoreTags s t c l) {r : State} (hclk : s.clk = r.clk) (hpending : s.pending = r.pending)
    (hnow : s.now = r.now) : wrap r t = t := by
  rw [h.1, wrap, ← hclk, ← hpending, ← hnow]

end CoreTags

@[simp] theorem setTag_core (s : State) (k tag : Nat) (v : TagAcc) (d : Nat) : (s.setTag k tag v).core d = s.core d := rfl
@[simp] theorem setTag_f (s : State) (k tag : Nat) (v : TagAcc) (n : FieldName) (i : Nat) :
    (s.setTag k tag v).f n i = s.f n i := rfl
@[simp] theorem showArr_core (s : State) (c d : Nat) : (s.showArr c).core d = s.core d := rfl

@[simp] theorem satAt_core (s : State) (c k tag stage n d : Nat) : (s.satAt c k tag stage n).core d = s.core d := by
  unfold State.satAt
  split <;> rfl

theorem satAt_zero (s : State) (c k tag stage : Nat) : s.satAt c k tag stage 0 = s := by simp [State.satAt]

theorem satAt_sat {s : State} {c k tag stage n : Nat} (hn : 0 < n) :
    (s.satAt c k tag stage n).f .ARR_SAT c = satAdd (s.f .ARR_SAT c) n := by
  rw [State.satAt, if_neg (Nat.ne_of_gt hn)]
  simp [f_setF, fieldDesc]

theorem showArr_f (s : State) (c : Nat) {n : FieldName} (i : Nat)
    (hn : n ∉ [.ARR_STATUS_ACTIVE, .ARR_STATUS_MODE, .ARR_STATUS_FACE_VALID]) : (s.showArr c).f n i = s.f n i := by
  simp only [List.mem_cons, List.not_mem_nil, or_false, not_or] at hn
  obtain ⟨hactive, hmode, hface⟩ := hn
  simp [State.showArr, f_setF, Ne.symm hactive, Ne.symm hmode, Ne.symm hface]

/-- ARR_STATUS.FACE_VALID tells whether the faces hold a tile. -/
theorem showArr_faceValid (s : State) (c : Nat) :
    (s.showArr c).f .ARR_STATUS_FACE_VALID c = flagBit (s.core c).arr.face.isSome := by
  unfold State.showArr
  exact f_setF_fits _ c (Nat.lt_succ_of_le (flagBit_le _))

end Sys2Proof.Proofs

namespace Sys2Proof.Machine.CoreOnly

theorem showArr {s t : State} {c : Nat} {l : List (FieldName × Nat)} (h : CoreOnly s t c l)
    (hl : [(.ARR_STATUS_ACTIVE, c), (.ARR_STATUS_MODE, c), (.ARR_STATUS_FACE_VALID, c)] ⊆ l) :
    CoreOnly s (t.showArr c) c l :=
  ((h.setF _ (hl (by simp))).setF _ (hl (by simp))).setF _ (hl (by simp))

end Sys2Proof.Machine.CoreOnly
end

section
/-! The clauses of O21: the faces take the next tile, or the program is given up (R47, R54, R55, R67, R69). -/

namespace Sys2Proof.Proofs

open Sys2Proof.Machine Sys2Proof.Laws

/-- A core that has given up its program shows empty arrays and an idle vector unit. -/
theorem abandon_shown (s : State) (c : Nat) : (s.abandon c).f .ARR_STATUS_ACTIVE c = 0 ∧
    (s.abandon c).f .ARR_STATUS_MODE c = 0 ∧ (s.abandon c).f .ARR_STATUS_FACE_VALID c = 0 ∧
    (s.abandon c).f .VEC_STATUS_BUSY c = 0 := by
  simp [State.abandon, State.showArr, State.showVec, f_setF, maskOf, flagBit]

/-- At a K-tile boundary where a switch is asked for nothing is swapped in. -/
theorem bobbinSwap_switching {s : State} {c : Nat} (hkdone : (s.core c).kTileDone = true)
    (hbroken : s.f .CORE_STATUS_BROKEN c ≠ 1) (hswitch : FMap.get none s.switches c ≠ none) : bobbinSwap c s = s := by
  unfold bobbinSwap
  simp [hkdone, hbroken, Option.isSome_iff_ne_none, hswitch]

section Swap
variable {s : State} {c : Nat} (hst : s.f .CORE_STATUS_STATE c = 1 ∨ s.f .CORE_STATUS_STATE c = 2)
  (hawake : (s.core c).asleep = false) (hdone : (s.core c).tileDone = true)
include hst hawake hdone

/-- A running core whose tile is done is at the choice that BOBBIN_SWAP makes. -/
theorem bobbinSwap_awake : (!(s.f .CORE_STATUS_STATE c = 1 || s.f .CORE_STATUS_STATE c = 2) || (s.core c).asleep ||
    !(s.core c).tileDone) = false := by
  simpa [hawake, hdone, or_iff_not_imp_left] using hst

theorem bobbinSwap_gives_up (hkdone : (s.core c).kTileDone = true) (hbroken : s.f .CORE_STATUS_BROKEN c = 1) :
    bobbinSwap c s = s.abandon c := by
  unfold bobbinSwap
  simp only [bobbinSwap_awake hst hawake hdone, hkdone, hbroken]
  rfl

theorem bobbinSwap_takes {g : Face} {e : QEnt}
    (hgo : (s.core c).kTileDone = false ∨ (s.f .CORE_STATUS_BROKEN c ≠ 1 ∧ FMap.get none s.switches c = none))
    (hnext : (s.core c).nextFace = some g) (hmat : (s.core c).mat g.seq = some e) (hfill : e.fillTime ≤ (s.core c).arr.fill)
    (hprom : ∀ f o, (s.core c).arr.face = some f → (s.core c).mat f.seq = some o →
      o.promTime f.blk f.tile ≤ (s.core c).arr.cyc) :
    bobbinSwap c s = (s.setCore c { s.core c with arr := (s.core c).arr.swapIn e g }).showArr c := by
  have hbroken : ((s.core c).kTileDone && decide (s.f .CORE_STATUS_BROKEN c = 1)) = false := by
    rcases hgo with h | h <;> simp [h]
  have hswitch : ((s.core c).kTileDone && (FMap.get none s.switches c).isSome) = false := by
    rcases hgo with h | h <;> simp [h]
  have hswap : (∀ f o, (s.core c).arr.face = some f → (s.core c).mat f.seq = some o →
      ¬ (s.core c).arr.cyc < o.promTime f.blk f.tile) := fun f o hf ho => Nat.not_lt.2 (hprom f o hf ho)
  unfold bobbinSwap
  simp only [bobbinSwap_awake hst hawake hdone, hbroken, hswitch, hnext, hmat, Nat.not_lt.2 hfill]
  cases hface : (s.core c).arr.face with
  | none => rfl
  | some f =>
    cases hold : (s.core c).mat f.seq with
    | none => simp [hold]
    | some o => simp [hold, hswap f o hface hold]

end Swap

theorem exec_bobbinSwap_gives_up {s : State} {c : Nat} (hu : s.up) (hc : c < 384)
    (hrun : bobbinSwap c (fresh s) = (fresh s).abandon c) :
    ∃ t, exec (.bobbinSwap c) s = .next t ∧ t.f .CORE_STATUS_STATE c = 6 ∧ t.f .ARR_STATUS_ACTIVE c = 0 ∧
      t.f .ARR_STATUS_MODE c = 0 ∧ t.f .ARR_STATUS_FACE_VALID c = 0 ∧ t.f .VEC_STATUS_BUSY c = 0 ∧
      t.core c = { s.core c with
        matQ := [], shQ := [], vecQ := [], wait := .none, loops := [], arr := {}, vec := {} } ∧
      CoreOnly s t c [(.CORE_STATUS_STATE, c), (.ARR_STATUS_ACTIVE, c), (.ARR_STATUS_MODE, c),
        (.ARR_STATUS_FACE_VALID, c), (.VEC_STATUS_BUSY, c)] := by
  rw [exec_bobbinSwap, act_up (coreOk_of_lt hc) hu, hrun]
  obtain ⟨hactive, hmode, hface, hbusy⟩ := abandon_shown (fresh s) c
  refine ⟨_, rfl, ?_, hactive, hmode, hface, hbusy, ?_, CoreOnly.wrap ?_⟩
  · rw [f_read_wrap, abandon_state, if_pos rfl]
  · rw [core_read_wrap, abandon_core, if_pos rfl]
    rfl
  · exact ((((coreOnly_fresh s c _).setF 6 (by simp)).setCore _).showArr (by simp)).setF _ (by simp)

theorem exec_bobbinSwap_takes {s : State} {c : Nat} {g : Face} {e : QEnt} (hu : s.up) (hc : c < 384)
    (hrun : bobbinSwap c (fresh s) =
      ((fresh s).setCore c { s.core c with arr := (s.core c).arr.swapIn e g }).showArr c) :
    ∃ t, exec (.bobbinSwap c) s = .next t ∧ (t.core c).arr.face = some g ∧ (t.core c).arr.slot = 0 ∧
      (t.core c).arr.cyc = 0 ∧ (t.core c).arr.fill = 0 ∧ t.f .ARR_STATUS_FACE_VALID c = 1 ∧
      (t.core c).arr.pipe = (s.core c).arr.pipe ∧ (t.core c).arr.edge = (s.core c).arr.edge ∧
      (t.core c).arr.partials = (s.core c).arr.partials ∧
      t.core c = { s.core c with arr := (s.core c).arr.swapIn e g } ∧
      CoreOnly s t c [(.ARR_STATUS_ACTIVE, c), (.ARR_STATUS_MODE, c), (.ARR_STATUS_FACE_VALID, c)] := by
  rw [exec_bobbinSwap, act_up (coreOk_of_lt hc) hu, hrun]
  have hcore : (wrap s (((fresh s).setCore c { s.core c with arr := (s.core c).arr.swapIn e g }).showArr c)).core c =
      { s.core c with arr := (s.core c).arr.swapIn e g } := by
    rw [core_read_wrap, showArr_core, core_setCore_same]
  refine ⟨_, rfl, by rw [hcore]; rfl, by rw [hcore]; rfl, by rw [hcore]; rfl, by rw [hcore]; rfl, ?_, by rw [hcore]; rfl,
    by rw [hcore]; rfl, by rw [hcore]; rfl, hcore, CoreOnly.wrap (((coreOnly_fresh s c _).setCore _).showArr (by simp))⟩
  rw [f_read_wrap, showArr_faceValid, core_setCore_same]
  rfl

/-- Settles O21: BOBBIN_SWAP gives the program up, leaves the faces to a switch, or takes the next tile. -/
theorem bobbinSwapTakesNextTile : Obligations.BobbinSwapTakesNextTile := by
  intro s c hu hc hst hawake hdone
  refine ⟨fun hk hbroken => ?_, fun hk hbroken hswitch => ?_, fun hgo g e hnext hmat hfill hprom => ?_⟩
  · exact exec_bobbinSwap_gives_up hu hc (bobbinSwap_gives_up (s := fresh s) hst hawake hdone hk hbroken)
  · rw [exec_bobbinSwap, act_up (coreOk_of_lt hc) hu,
      bobbinSwap_switching (s := fresh s) hk hbroken hswitch, (coreOnly_fresh s c []).wrap_eq]
    rfl
  · exact exec_bobbinSwap_takes hu hc (bobbinSwap_takes (s := fresh s) hst hawake hdone hgo hnext hmat hfill hprom)

end Sys2Proof.Proofs
end

section
/-! O22: an ARRAY cycle of arrays that drain: no row enters and none is promoted (R57, R102). -/

namespace Sys2Proof.Proofs

open Sys2Proof.Machine Sys2Proof.Laws

theorem promotions_none {s : State} {c : Nat} (h : (s.core c).arr.due = []) : s.promotions c = s := by
  simp [State.promotions, h]

theorem idleEntry_none {s : State} {c : Nat} (bound : Nat) (h : (s.core c).nextFill = 0) : s.idleEntry c bound = s := by
  simp [State.idleEntry, h]

/-- With no tile in the faces or queued nothing enters, and no fill begins. -/
theorem entries_none {s : State} {c : Nat} (hface : (s.core c).arr.face = none) (hfill : (s.core c).nextFill = 0) :
    s.entries c = s.setCore c (s.core c) := by
  have hkeep : { s.core c with arr := { (s.core c).arr with face := none } } = s.core c := by rw [← hface]
  have hidle : ¬ (((none : Option Face).isSome || decide ((0 : Nat) ≠ 0)) = true) := by simp
  simp only [State.entries, hface, hfill, if_neg hidle, hkeep]
  exact idleEntry_none 0 ((congrArg Core.nextFill (core_setCore_same s c _)).trans hfill)

/-- The rows in the pipelines, one cycle older. -/
def agedRows (s : State) (c : Nat) : List PipeRow := (s.core c).arr.pipe.map (fun p => { p with age := p.age + 1 })

/-- The context after a cycle in which rows only age, join and leave. -/
def drainedCore (s : State) (c upset : Nat) : Core :=
  { s.core c with arr := { (s.core c).arr with
    pipe := (agedRows s c).filter (fun p => p.age < 8), partials := (joinsOf s c upset).partials } }

theorem agedRows_none_due {s : State} {c : Nat} (h : ∀ p ∈ (s.core c).arr.pipe, p.age ≠ 7) :
    (agedRows s c).filter (fun p => p.age = 8) = [] := by
  simp only [agedRows, List.filter_eq_nil_iff, List.mem_map, decide_eq_true_eq]
  rintro _ ⟨p, hp, rfl⟩ hage
  exact h p hp (Nat.succ.inj hage)

/-- The state in which a cycle's joins stand in the partials, with their saturations counted; `tag` is that of the
instruction whose rows join. -/
def joinedState (s : State) (c upset tag : Nat) : State :=
  ((s.setCore c (drainedCore s c upset)).satAt c (s.swOf c) tag 1 (joinsOf s c upset).tileSat).satAt c (s.swOf c) tag 2
    (joinsOf s c upset).joinSat

theorem joinedState_core (s : State) (c upset tag : Nat) : (joinedState s c upset tag).core c = drainedCore s c upset := by
  rw [joinedState, satAt_core, satAt_core, core_setCore_same]

/-- Without a mismatch and with no row at the end of an interval, a cycle joins, promotes and lets rows enter. -/
theorem arrayCycle_joins {s : State} {c upset : Nat} (hst : s.f .CORE_STATUS_STATE c ∈ [1, 2])
    (hawake : (s.core c).asleep = false) (hdue : (s.core c).arr.due = []) (hage : ∀ p ∈ (s.core c).arr.pipe, p.age ≠ 7)
    (hbad : firstBad (joinsOf s c upset).bad = none) :
    ∃ tag, arrayCycle c upset s = (((joinedState s c upset tag).promotions c).entries c).showArr c := by
  have hruns : (!(s.f .CORE_STATUS_STATE c = 1 || s.f .CORE_STATUS_STATE c = 2) || (s.core c).asleep) = false := by
    simpa [hawake, or_iff_not_imp_left] using hst
  have hkeep : drainedCore s c upset = { s.core c with arr := { (s.core c).arr with
      pipe := (agedRows s c).filter (fun p => p.age < 8), partials := (joinsOf s c upset).partials, due := [] } } := by
    rw [drainedCore, ← hdue]
  have hnone := agedRows_none_due hage
  unfold joinedState
  rw [hkeep]
  unfold agedRows joinsOf at *
  unfold arrayCycle
  simp only [hruns, Bool.false_eq_true, if_false, hbad, hnone, hdue, List.filterMap_nil, List.append_nil]
  exact ⟨_, rfl⟩

/-- The cycle of draining arrays. -/
theorem arrayCycle_drains {s : State} {c upset : Nat} (hst : s.f .CORE_STATUS_STATE c ∈ [1, 2])
    (hawake : (s.core c).asleep = false) (hface : (s.core c).arr.face = none) (hfill : (s.core c).nextFill = 0)
    (hdue : (s.core c).arr.due = []) (hage : ∀ p ∈ (s.core c).arr.pipe, p.age ≠ 7)
    (hbad : firstBad (joinsOf s c upset).bad = none) :
    ∃ tag, arrayCycle c upset s = ((joinedState s c upset tag).setCore c (drainedCore s c upset)).showArr c := by
  obtain ⟨tag, hrun⟩ := arrayCycle_joins hst hawake hdue hage hbad
  have hcore := joinedState_core s c upset tag
  rw [promotions_none (by rw [hcore]; exact hdue), entries_none (by rw [hcore]; exact hface) (by rw [hcore]; exact hfill),
    hcore] at hrun
  exact ⟨tag, hrun⟩

/-- The registers in which a cycle of draining arrays shows. -/
def cycleFields (c : Nat) : List (FieldName × Nat) :=
  [(.ARR_SAT, c), (.ARR_NUMERIC_SAT_SEEN, c), (.ARR_NUMERIC_LAST_SAT_STAGE, c), (.ARR_NUMERIC_LAST_SAT_TAG, c),
    (.ARR_STATUS_ACTIVE, c), (.ARR_STATUS_MODE, c), (.ARR_STATUS_FACE_VALID, c)]

theorem joinedState_coreTags (s : State) (c upset tag : Nat) :
    CoreTags s (((joinedState s c upset tag).setCore c (drainedCore s c upset)).showArr c) c (cycleFields c) :=
  (((((CoreTags.refl s c _).setCore _).satAt _ _ _ _ (by simp [cycleFields])).satAt _ _ _ _ (by simp [cycleFields])).setCore
    _).showArr (by simp [cycleFields])

theorem joinedState_sat {s : State} {c upset : Nat} (tag : Nat) (hjoin : (joinsOf s c upset).joinSat = 0) :
    (joinedState s c upset tag).f .ARR_SAT c = if (joinsOf s c upset).tileSat = 0 then s.f .ARR_SAT c
      else satAdd (s.f .ARR_SAT c) (joinsOf s c upset).tileSat := by
  rw [joinedState, hjoin, satAt_zero]
  split
  case isTrue htile => rw [htile, satAt_zero, f_read_setCore]
  case isFalse htile => rw [satAt_sat (Nat.pos_of_ne_zero htile), f_read_setCore]

/-- A running core with nothing queued and a row that joins in the next cycle. -/
def drainingCore : State :=
  ((({ inReset := false } : State).setF .CORE_STATUS_STATE 0 1).setCore 0 { ({} : Core) with
    arr := { pipe := [⟨6, 0, 0, 0, 0, 5, [({ present := true }, {})]⟩] } })

/-- It meets what O22 asks of a state, and its row does join. -/
theorem drainingCore_drains : drainingCore.up ∧ drainingCore.f .CORE_STATUS_STATE 0 ∈ [1, 2] ∧
    (drainingCore.core 0).asleep = false ∧ (drainingCore.core 0).arr.face = none ∧ (drainingCore.core 0).nextFill = 0 ∧
    (drainingCore.core 0).arr.due = [] ∧ (∀ p ∈ (drainingCore.core 0).arr.pipe, p.age ≠ 7) ∧
    firstBad (joinsOf drainingCore 0 0).bad = none ∧ (joinsOf drainingCore 0 0).partials ≠ [] := by decide +kernel

/-- Settles O22: the rows age, join at age 7 and leave at age 8; the guards of promotion and entry hold nothing up. -/
theorem arrayCycleAdvancesRows : Obligations.ArrayCycleAdvancesRows := by
  intro s c upset hu hc hupset hst hawake hface hfill hdue hage aged j hbad
  obtain ⟨tag, hrun⟩ := arrayCycle_drains (s := fresh s) hst hawake hface hfill hdue hage hbad
  obtain ⟨hrest, hregs, hcores⟩ := joinedState_coreTags (fresh s) c upset tag
  rw [exec_arrayCycle, act_up (by simp [coreOk_of_lt hc, hupset]) hu, hrun]
  have hcore : (wrap s (((joinedState (fresh s) c upset tag).setCore c (drainedCore (fresh s) c upset)).showArr c)).core c =
      drainedCore s c upset := by
    rw [core_read_wrap, showArr_core, core_setCore_same]
    rfl
  have hsat (hjoin : j.joinSat = 0) : (joinedState (fresh s) c upset tag).f .ARR_SAT c =
      if j.tileSat = 0 then s.f .ARR_SAT c else satAdd (s.f .ARR_SAT c) j.tileSat :=
    joinedState_sat (s := fresh s) tag hjoin
  refine ⟨_, rfl, by rw [hcore]; rfl, by rw [hcore]; rfl, by rw [hcore]; rfl, fun htile hjoin => ?_, fun htile hjoin => ?_,
    ?_, ?_, hcores, hregs⟩
  · rw [f_read_wrap, showArr_f _ _ _ (by simp), f_read_setCore, hsat hjoin, if_pos htile]
  · rw [f_read_wrap, showArr_f _ _ _ (by simp), f_read_setCore, hsat hjoin, if_neg (Nat.ne_of_gt htile)]
  · rw [f_read_wrap, showArr_faceValid, core_setCore_same]
    exact congrArg (fun f : Option Face => flagBit f.isSome) hface
  · rw [hrest]
    rfl

end Sys2Proof.Proofs
end

section
/-! SUPPORT. The settings that a step takes (R18, R84, R422): what taking them can change, and what they then are. -/

namespace Sys2Proof.Proofs

open Sys2Proof.Machine Sys2Proof.Laws

/-- The register fields that change when writes held for a step boundary come into force. -/
def heldFields : List FieldName := [.TXN_APPLIED_APPLIED, .TXN_STATUS_HELD, .HST_INT_CAUSE_CAUSE]

/-- Two states that differ by settings taken: held writes applied, recipes, hint bytes, the swatches' limits and the
cores' shuttle settings. -/
def Settled (s t : State) : Prop :=
  t = { s with
    regs := t.regs, out := t.out, mem := t.mem, cores := t.cores, sws := t.sws, held := t.held
    recipes := t.recipes, hints := t.hints } ∧
  ∀ n i, n ∉ heldFields → t.f n i = s.f n i

namespace Settled

theorem refl (s : State) : Settled s s := ⟨rfl, fun _ _ _ => rfl⟩

variable {s t u : State}

theorem trans (h : Settled s t) (k : Settled t u) : Settled s u :=
  ⟨by rw [k.1, h.1], fun n i hn => (k.2 n i hn).trans (h.2 n i hn)⟩

theorem setF (h : Settled s t) (n : FieldName) (i v : Nat) (hn : n ∈ heldFields) : Settled s (t.setF n i v) :=
  h.trans ⟨rfl, fun m j hm => by rw [f_setF, if_neg (by rintro ⟨rfl, -⟩; exact hm hn)]⟩

theorem setMem (h : Settled s t) (m : Mem) : Settled s (t.setMem m) := h.trans ⟨rfl, fun _ _ _ => rfl⟩

theorem setSw (h : Settled s t) (k : Nat) (r : SwRun) : Settled s (t.setSw k r) := h.trans ⟨rfl, fun _ _ _ => rfl⟩

theorem setCore (h : Settled s t) (c : Nat) (k : Core) : Settled s (t.setCore c k) := h.trans ⟨rfl, fun _ _ _ => rfl⟩

theorem recipes (h : Settled s t) (r : FMap Recipe) : Settled s { t with recipes := r } := h.trans ⟨rfl, fun _ _ _ => rfl⟩

theorem hints (h : Settled s t) (r : FMap Nat) : Settled s { t with hints := r } := h.trans ⟨rfl, fun _ _ _ => rfl⟩

theorem held (h : Settled s t) (l : List HeldWrite) : Settled s { t with held := l } := h.trans ⟨rfl, fun _ _ _ => rfl⟩

theorem interrupt (h : Settled s t) (fn c : Nat) : Settled s (t.interrupt fn c) := by
  refine h.trans ⟨?_, fun n i hn => interrupt_f t fn c n i (by rintro rfl; exact hn (by decide))⟩
  rw [interrupt_regsOut t fn c]

theorem foldl {α : Type} (h : Settled s t) (l : List α) {g : State → α → State} (hg : ∀ u a, Settled u (g u a)) :
    Settled s (l.foldl g t) := List.foldlRecOn _ _ h (fun u hu a _ => hu.trans (hg u a))

theorem setDesc (h : Settled s t) (k lo w v : Nat) : Settled s (t.setDesc k lo w v) := h.setMem _

theorem markDirty (h : Settled s t) (b : Nat) (gs : List Nat) : Settled s (t.markDirty b gs) := by
  unfold State.markDirty
  split
  · exact h
  · split
    · exact h.setMem _
    · exact h

theorem devPut (h : Settled s t) (fuel a : Nat) (bs : List Byte) : Settled s (t.devPut a bs fuel) := by
  induction fuel generalizing t a bs with
  | zero => exact h
  | succ fuel ih =>
    unfold State.devPut
    extract_lets here t'
    have ht' : Settled s t' := by
      simp only [t']
      split
      · exact markDirty (h.setMem _) _ _
      · exact h
    clear_value t'
    split
    · exact ih ht' _ _
    · exact ht'

theorem putDev (h : Settled s t) (a : Nat) (bs : List Byte) : Settled s (t.putDev a bs) := h.devPut _ a bs

/-! Writes held for the boundary (R351, R422). -/

theorem runAgain (h : Settled s t) (k : Nat) : Settled s (t.runAgain k) := h.setDesc _ _ _ _

theorem putDescWord (h : Settled s t) (k w v : Nat) : Settled s (t.putDescWord k w v) := by
  unfold State.putDescWord
  extract_lets n keep t1 t2
  have h1 : Settled s t1 := h.setDesc _ _ _ _
  clear_value t1
  have h2 : Settled s t2 := by
    simp only [t2]
    split
    · exact (h1.runAgain k).setSw _ _
    · exact h1
  clear_value t2
  split
  · exact h2.setSw _ _
  · exact h2

theorem applyHeld (h : Settled s t) (w : HeldWrite) : Settled s (t.applyHeld w) := by
  unfold State.applyHeld
  split
  · exact h.putDescWord _ _ _
  · exact h.putDev _ _

theorem commitDone (h : Settled s t) (fn num : Nat) : Settled s (t.commitDone fn num) := by
  unfold State.commitDone
  split
  · exact h
  · exact ((h.setF .TXN_APPLIED_APPLIED fn _ (by decide)).setF .TXN_STATUS_HELD fn _ (by decide)).interrupt fn 2

theorem applyHelds (h : Settled s t) (k : Nat) : Settled s (t.applyHelds k) := by
  unfold State.applyHelds
  dsimp only
  exact ((h.held _).foldl _ (fun u w => (refl u).applyHeld w)).foldl _ (fun u c => (refl u).commitDone c.1 c.2)

/-! Recipes, hint bytes and limits (R152, R153, R243). -/

theorem loadRecipes (h : Settled s t) (k : Nat) : Settled s (t.loadRecipes k) := by
  unfold State.loadRecipes
  extract_lets base image
  split
  · exact h
  · refine h.foldl _ (fun u g => ?_)
    extract_lets x kind inForce x2 u2 r
    have hu2 : Settled u u2 := by
      simp only [u2]
      split
      · exact refl u
      · exact (refl u).putDev _ _
    exact hu2.recipes _

theorem putImage (h : Settled s t) (k : Nat) : Settled s (t.putImage k) := by
  unfold State.putImage
  extract_lets stat code
  split
  · exact h
  · exact h.putDev _ _

theorem loadHints (h : Settled s t) (k : Nat) : Settled s (t.loadHints k) := by
  unfold State.loadHints
  extract_lets base bs
  split
  · exact h.hints _
  · exact h.foldl _ (fun u g => (refl u).hints _)

theorem takeSettings (h : Settled s t) (k : Nat) : Settled s (t.takeSettings k) :=
  ((((h.applyHelds k).loadRecipes k).putImage k).loadHints k).setSw k _

theorem openStep (h : Settled s t) (k : Nat) : Settled s (t.openStep k) := by
  unfold State.openStep
  split
  · exact h
  · exact ((h.takeSettings k).setSw k _).foldl _ (fun u c => (refl u).setCore c _)

end Settled

theorem openStep_settled (s : State) (k : Nat) : Settled s (s.openStep k) := (Settled.refl s).openStep k

end Sys2Proof.Proofs
end

section
/-! The clauses of O15: the opening of a step (R18, R84, R197), and MMA and CPY that join their queues (R64, R72, R73, R75,
R107). -/

namespace Sys2Proof.Proofs

open Sys2Proof.Machine Sys2Proof.Laws

/-! The opening of a step. -/

theorem openStep_stays {s : State} {k : Nat} (h : (s.sw k).opened = true ∨ (s.sw k).started = false) : s.openStep k = s := by
  rw [State.openStep, if_pos (by simpa using h)]

/-- The state of a step just opened, before its cores take their shuttle settings. -/
def openedState (s : State) (k : Nat) : State := (s.takeSettings k).updSw k (fun r => { r with opened := true })

theorem openStep_opens {s : State} {k : Nat} (hopened : (s.sw k).opened = false) (hstarted : (s.sw k).started = true) :
    s.openStep k = ((openedState s k).swCores k).foldl State.takeShuttle (openedState s k) := by
  rw [State.openStep, if_neg (by simp [hopened, hstarted])]
  rfl

theorem openedState_f (s : State) (k : Nat) {n : FieldName} (i : Nat) (hn : n ∉ heldFields) :
    (openedState s k).f n i = s.f n i := (((Settled.refl s).takeSettings k).setSw k _).2 n i hn

/-- The state in which a swatch's held writes, recipes and hint bytes have come into force. -/
def loadedState (s : State) (k : Nat) : State := (((s.applyHelds k).loadRecipes k).putImage k).loadHints k

theorem loadedState_f (s : State) (k : Nat) {n : FieldName} (i : Nat) (hn : n ∉ heldFields) :
    (loadedState s k).f n i = s.f n i := (((((Settled.refl s).applyHelds k).loadRecipes k).putImage k).loadHints k).2 n i hn

theorem openedState_eq (s : State) (k : Nat) : openedState s k =
    ((loadedState s k).updSw k (fun r => { r with
      maxOut := (loadedState s k).f .SWT_CFG_MAX_OUT 0, preempt := (loadedState s k).f .SWT_CFG_PREEMPT 0
      stallMs := (loadedState s k).f .TIER_CFG_STALL_LIMIT 0 })).updSw k (fun r => { r with opened := true }) := rfl

theorem openedState_sw (s : State) (k : Nat) : ((openedState s k).sw k).opened = true ∧
    ((openedState s k).sw k).maxOut = s.f .SWT_CFG_MAX_OUT 0 ∧ ((openedState s k).sw k).preempt = s.f .SWT_CFG_PREEMPT 0 ∧
    ((openedState s k).sw k).stallMs = s.f .TIER_CFG_STALL_LIMIT 0 := by
  have hmax := loadedState_f s k (n := .SWT_CFG_MAX_OUT) 0 (by decide)
  have hpre := loadedState_f s k (n := .SWT_CFG_PREEMPT) 0 (by decide)
  have hstall := loadedState_f s k (n := .TIER_CFG_STALL_LIMIT) 0 (by decide)
  rw [openedState_eq, hmax, hpre, hstall]
  simp

/-- Shuttle settings are all that a core takes. -/
theorem foldl_takeShuttle_rest (l : List Nat) (s : State) :
    l.foldl State.takeShuttle s = { s with cores := (l.foldl State.takeShuttle s).cores } := by
  induction l generalizing s with
  | nil => rfl
  | cons c l ih => rw [List.foldl_cons, ih]; rfl

theorem foldl_takeShuttle_f (l : List Nat) (s : State) (n : FieldName) (i : Nat) :
    (l.foldl State.takeShuttle s).f n i = s.f n i := by
  rw [foldl_takeShuttle_rest]
  rfl

theorem foldl_takeShuttle_sw (l : List Nat) (s : State) (k : Nat) : (l.foldl State.takeShuttle s).sw k = s.sw k := by
  rw [foldl_takeShuttle_rest]
  rfl

theorem foldl_takeShuttle_swCores (l : List Nat) (s : State) (k : Nat) :
    (l.foldl State.takeShuttle s).swCores k = s.swCores k := by
  rw [foldl_takeShuttle_rest]
  rfl

/-- Core `c`'s shuttle settings in force are those of `s`, within their ranges (R84). -/
def HasShuttle (s : State) (c : Nat) (t : State) : Prop :=
  (t.core c).dist = clampTo (s.f .CORE_SHUTTLE_CFG_LOAD_DIST c) 32 ∧
    (t.core c).ringBase = 16384 * s.f .CORE_SHUTTLE_CFG_STAGE_BASE c

theorem takeShuttle_hasShuttle (s : State) (c : Nat) : HasShuttle s c (s.takeShuttle c) := by
  simp [HasShuttle, State.takeShuttle]

theorem HasShuttle.takeShuttle {s t : State} {c d : Nat} (h : HasShuttle s c t) (hd : d ≠ c) :
    HasShuttle s c (t.takeShuttle d) := by
  unfold HasShuttle State.takeShuttle
  rw [core_setCore, if_neg hd]
  exact h

/-- Every core of the list takes its settings. -/
theorem foldl_takeShuttle_hasShuttle {l : List Nat} {c : Nat} (hc : c ∈ l) (s : State) :
    HasShuttle s c (l.foldl State.takeShuttle s) := by
  induction l using List.reverseRecOn with
  | nil => cases hc
  | append_singleton l d ih =>
    rw [List.foldl_append, List.foldl_cons, List.foldl_nil]
    by_cases hd : d = c
    · have htake := takeShuttle_hasShuttle (l.foldl State.takeShuttle s) d
      rw [HasShuttle, foldl_takeShuttle_f, foldl_takeShuttle_f] at htake
      exact hd ▸ htake
    · exact (ih (by simpa [Ne.symm hd] using hc)).takeShuttle hd

theorem openStep_settings {s : State} {k : Nat} (hopened : (s.sw k).opened = false) (hstarted : (s.sw k).started = true) :
    let u := s.openStep k
    (u.sw k).opened = true ∧ (u.sw k).maxOut = s.f .SWT_CFG_MAX_OUT 0 ∧ (u.sw k).preempt = s.f .SWT_CFG_PREEMPT 0 ∧
      (u.sw k).stallMs = s.f .TIER_CFG_STALL_LIMIT 0 ∧ ∀ c ∈ u.swCores k, HasShuttle s c u := by
  obtain ⟨hopen, hmax, hpre, hstall⟩ := openedState_sw s k
  simp only [openStep_opens hopened hstarted, foldl_takeShuttle_sw, foldl_takeShuttle_swCores]
  refine ⟨hopen, hmax, hpre, hstall, fun c hc => ?_⟩
  have hshuttle := foldl_takeShuttle_hasShuttle hc (openedState s k)
  rw [HasShuttle, openedState_f _ _ _ (by decide), openedState_f _ _ _ (by decide)] at hshuttle
  exact hshuttle

/-! MMA. -/

/-- The step of `issueMma` that counts a compensated instruction (R107). -/
def compensated (s : State) (c w o : Nat) : State :=
  if 2 ^ 20 < dRows w then
    (s.tally .ARR_COMP_INSTR c 1).setTag (s.swOf c) (dTag o)
      { s.tag (s.swOf c) (dTag o) with comp := satAdd (s.tag (s.swOf c) (dTag o)).comp 1 }
  else s

section Compensated
variable (s : State) (c w o : Nat)

theorem compensated_coreTags : CoreTags s (compensated s c w o) c [(.ARR_COMP_INSTR, c)] := by
  unfold compensated
  split
  · exact ((CoreTags.refl s c _).setF _ (by simp)).setTag _ _ _
  · exact CoreTags.refl s c _

theorem compensated_cores : (compensated s c w o).cores = s.cores := by
  unfold compensated
  split <;> rfl

theorem compensated_counter : (compensated s c w o).f .ARR_COMP_INSTR c =
    if 2 ^ 20 < dRows w then satAdd (s.f .ARR_COMP_INSTR c) 1 else s.f .ARR_COMP_INSTR c := by
  unfold compensated
  split
  · rw [setTag_f]
    exact f_tally_same s c 1 rfl
  · rfl

theorem compensated_tags (j : Nat) : FMap.get {} (compensated s c w o).tags j =
    if 2 ^ 20 < dRows w ∧ j = 4096 * s.swOf c + dTag o then
      { FMap.get {} s.tags j with comp := satAdd (FMap.get {} s.tags j).comp 1 }
    else FMap.get {} s.tags j := by
  unfold compensated
  by_cases hw : 2 ^ 20 < dRows w
  · rw [if_pos hw, State.setTag, get_set]
    by_cases hj : 4096 * s.swOf c + dTag o = j
    · rw [if_pos hj, if_pos ⟨hw, hj.symm⟩, ← hj]
      rfl
    · rw [if_neg hj, if_neg (fun h => hj h.2.symm)]
      rfl
  · rw [if_neg hw, if_neg (fun h => hw h.1)]

end Compensated

theorem physOf_congr {s t : State} (c : Nat)
    (h : ∀ n ∈ [FieldName.RGN_CORE_MAP_PHYS, .RGN_LIMP_CARRIER], ∀ i, t.f n i = s.f n i) : t.physOf c = s.physOf c := by
  unfold State.physOf State.sub
  rw [funext (h .RGN_CORE_MAP_PHYS (by simp)), funext (h .RGN_LIMP_CARRIER (by simp))]

/-- A queue entry of the word at the issue position depends on the memories, the context and no count of arrays. -/
theorem entry_congr {s t : State} {c : Nat} (hmem : t.mem = s.mem) (hcore : t.core c = s.core c)
    (hf : ∀ n i, n ≠ .ARR_COMP_INSTR → t.f n i = s.f n i) (ds : List Nat) :
    t.entry c (t.wordAt c) ds = s.entry c (s.wordAt c) ds := by
  have hphys : t.physOf c = s.physOf c := physOf_congr c (fun n hn i => hf n i (by rintro rfl; simp at hn))
  simp [State.entry, State.wordAt, State.scr, State.scrAddr, hphys, hf, hmem, hcore]

/-- A matrix instruction that passes its checks, with room in its queue, joins it. -/
theorem issueMma_queues {s : State} {c ta tw tc ti ts pi n : Nat} {acc fuse wst : Bool}
    (h : s.reads c (.mma ta tw tc ti ts acc fuse pi wst n)) (hn : 0 < n)
    (hcheck : (s.openStep (s.swOf c)).mmaCheck c (s.slot c ta) (s.slot c tw) (s.slot c tc) (s.slot c ti) (s.slot c ts) acc
      fuse n = 0)
    (hroom : ((s.openStep (s.swOf c)).core c).matQ.length < 16) :
    issueMma c s =
      let x := compensated (s.openStep (s.swOf c)) c (s.slot c tw) (s.slot c tc)
      (x.setCore c { x.core c with matQ := (x.core c).matQ ++
        [x.entry c (x.wordAt c) [s.slot c ta, s.slot c tw, s.slot c tc, s.slot c ti, s.slot c ts]] }).issued c := by
  rw [issueMma, issueWord_reads (is := isOp 0x01) h (isOp_of_reads h)]
  have hfull : ¬ ((n ≠ 0 && 16 ≤ ((s.openStep (s.swOf c)).core c).matQ.length) = true) := by
    simpa using fun _ => hroom
  dsimp only
  rw [if_neg (not_not.2 hcheck), if_neg hfull, if_neg (Nat.ne_of_gt hn)]
  rfl

theorem openStep_swOf (s : State) (k c : Nat) : (s.openStep k).swOf c = s.swOf c :=
  (openStep_settled s k).2 _ _ (by decide)

/-- What opening a step leaves of the queue, time and clocks. -/
theorem openStep_fresh_kept (s : State) (k : Nat) : ((fresh s).openStep k).clk = s.clk ∧
    ((fresh s).openStep k).pending = s.pending ∧ ((fresh s).openStep k).now = s.now := by
  rw [(openStep_settled (fresh s) k).1]
  exact ⟨rfl, rfl, rfl⟩

theorem exec_mma_queues {s : State} {c ta tw tc ti ts pi n : Nat} {acc fuse wst : Bool} (hu : s.up) (hc : c < 384)
    (h : s.reads c (.mma ta tw tc ti ts acc fuse pi wst n)) (hn : 0 < n) :
    let u := (fresh s).openStep (s.swOf c)
    u.mmaCheck c (s.slot c ta) (s.slot c tw) (s.slot c tc) (s.slot c ti) (s.slot c ts) acc fuse n = 0 →
    (u.core c).matQ.length < 16 →
    ∃ t, exec (.mma c) s = .next t ∧ u.counted t c ∧
      t.core c = { u.core c with
          issued := (u.core c).issued + 1,
          matQ := (u.core c).matQ ++ [u.entry c (u.wordAt c) [s.slot c ta, s.slot c tw, s.slot c tc, s.slot c ti, s.slot c ts]] } ∧
      t.f .ARR_COMP_INSTR c =
        (if 2 ^ 20 < dRows (s.slot c tw) then satAdd (u.f .ARR_COMP_INSTR c) 1 else u.f .ARR_COMP_INSTR c) ∧
      (∀ j, FMap.get {} t.tags j =
        (if 2 ^ 20 < dRows (s.slot c tw) ∧ j = 4096 * s.swOf c + dTag (s.slot c tc) then
          { FMap.get {} u.tags j with comp := satAdd (FMap.get {} u.tags j).comp 1 } else FMap.get {} u.tags j)) ∧
      t = { u with regs := t.regs, cores := t.cores, tags := t.tags } ∧
      SameRegs u t [(.CORE_ISSUED, c), (.CORE_PC_PC, c), (.ARR_COMP_INSTR, c)] ∧ ∀ d, d ≠ c → t.core d = u.core d := by
  intro u hcheck hroom
  have hrun := issueMma_queues (s := fresh s) h hn hcheck hroom
  have hsw : u.swOf c = s.swOf c := openStep_swOf (fresh s) _ c
  have hcomp := compensated_coreTags u c (s.slot c tw) (s.slot c tc)
  have hcount := compensated_counter u c (s.slot c tw) (s.slot c tc)
  have htags := compensated_tags u c (s.slot c tw) (s.slot c tc)
  have hcore : (compensated u c (s.slot c tw) (s.slot c tc)).core c = u.core c := by
    rw [State.core, compensated_cores, State.core]
  have hmem : (compensated u c (s.slot c tw) (s.slot c tc)).mem = u.mem := by rw [hcomp.1]
  have hentry := entry_congr hmem hcore (fun m i hm => hcomp.2.1 m i (by simp [hm]))
    [s.slot c ta, s.slot c tw, s.slot c tc, s.slot c ti, s.slot c ts]
  obtain ⟨hclk, hpending, hnow⟩ := openStep_fresh_kept s (s.swOf c)
  have hexec : exec (.mma c) s = .next (wrap s (issueMma c (fresh s))) := act_up (coreOk_of_lt hc) hu
  simp only [slot_fresh, swOf_fresh] at hrun
  rw [hexec, hrun]
  change ∃ t, Host.Outcome.next (wrap s (((compensated u c (s.slot c tw) (s.slot c tc)).setCore c _).issued c)) = .next t ∧ _
  rw [hcore, hentry]
  rw [hsw] at htags
  generalize compensated u c (s.slot c tw) (s.slot c tc) = x at hcore hcomp hcount htags
  generalize hk : ({ u.core c with matQ := _ } : Core) = k
  have hkissued : k.issued = (u.core c).issued := by rw [← hk]
  have ht : CoreTags u ((x.setCore c k).issued c) c [(.CORE_ISSUED, c), (.CORE_PC_PC, c), (.ARR_COMP_INSTR, c)] :=
    ((hcomp.mono (by simp)).setCore k).issued (by simp) (by simp)
  rw [ht.wrap_eq hclk hpending hnow]
  refine ⟨_, rfl, ?_, ?_, ?_, htags, ht⟩
  · refine counted_issued ?_ ?_ ?_
    · exact hcomp.2.1 _ _ (by simp)
    · exact hcomp.2.1 _ _ (by simp)
    · rw [core_setCore_same, hkissued]
  · rw [issued_core_same, core_setCore_same, hkissued, ← hk]
  · rw [issued_f _ _ _ _ (by simp)]
    exact hcount

theorem exec_cpy_queues {s : State} {c a b rows : Nat} {eng wst : Bool} (hu : s.up) (hc : c < 384)
    (h : s.reads c (.cpy a b eng wst rows)) (hcheck : s.cpyCheck c (s.slot c a) (s.slot c b) rows = 0)
    (hroom : (s.core c).shQ.length < 16) :
    ∃ t, exec (.cpy c) s = .next t ∧ s.counted t c ∧
      t.core c = { s.core c with
          issued := (s.core c).issued + 1, shQ := (s.core c).shQ ++ [s.entry c (s.wordAt c) [s.slot c a, s.slot c b]] } ∧
      CoreOnly s t c [(.CORE_ISSUED, c), (.CORE_PC_PC, c)] := by
  have hrun := exec_word (exec_cpy c s) hu hc h (isOp_of_reads h)
  have hcheck' : (fresh s).cpyCheck c (s.slot c a) (s.slot c b) rows = 0 := hcheck
  have hfull : ¬ 16 ≤ ((fresh s).core c).shQ.length := Nat.not_le.2 hroom
  simp only [slot_fresh, hcheck', hfull, ne_eq, not_true_eq_false, if_false] at hrun
  rw [hrun]
  exact ⟨_, rfl, setCore_issued s c
    (k := { s.core c with shQ := (s.core c).shQ ++ [s.entry c (s.wordAt c) [s.slot c a, s.slot c b]] }) rfl⟩

/-- Settles O15: the opening of a step, an MMA and a CPY. -/
theorem matrixAndCopyWordsQueue : Obligations.MatrixAndCopyWordsQueue :=
  ⟨fun _ _ => ⟨openStep_stays, openStep_settings⟩,
    fun _ _ _ _ _ _ _ _ _ _ _ _ hu hc h _ hn => exec_mma_queues hu hc h hn,
    fun _ _ _ _ _ _ _ hu hc h _ => exec_cpy_queues hu hc h⟩

end Sys2Proof.Proofs
end

section
/-! SUPPORT. A refusal (R66, R67, R89): what it records, and what breaking the swatch's step can change. -/

namespace Sys2Proof.Proofs

open Sys2Proof.Machine Sys2Proof.Laws

/-- Two states that differ by steps broken: the fields that show it, contexts given up, and the swatches' runs. -/
def StepsBroken (s t : State) : Prop :=
  t = { s with regs := t.regs, cores := t.cores, sws := t.sws } ∧
    ∀ n i, n ∉ [.CORE_STATUS_BROKEN, .CORE_STATUS_STATE, .VEC_STATUS_BUSY] → t.f n i = s.f n i

namespace StepsBroken

variable {s t u : State}

theorem refl (s : State) : StepsBroken s s := ⟨rfl, fun _ _ _ => rfl⟩

theorem trans (h : StepsBroken s t) (k : StepsBroken t u) : StepsBroken s u :=
  ⟨by rw [k.1, h.1], fun n i hn => (k.2 n i hn).trans (h.2 n i hn)⟩

theorem setF (h : StepsBroken s t) {n : FieldName} (i v : Nat)
    (hn : n ∈ [FieldName.CORE_STATUS_BROKEN, .CORE_STATUS_STATE, .VEC_STATUS_BUSY]) : StepsBroken s (t.setF n i v) :=
  h.trans ⟨rfl, fun m j hm => by rw [f_setF, if_neg (by rintro ⟨rfl, -⟩; exact hm hn)]⟩

theorem setCore (h : StepsBroken s t) (c : Nat) (k : Core) : StepsBroken s (t.setCore c k) :=
  h.trans ⟨rfl, fun _ _ _ => rfl⟩

theorem setSw (h : StepsBroken s t) (k : Nat) (r : SwRun) : StepsBroken s (t.setSw k r) :=
  h.trans ⟨rfl, fun _ _ _ => rfl⟩

theorem breakCore (h : StepsBroken s t) (c : Nat) : StepsBroken s (breakCore t c) := by
  have hraise : StepsBroken s (t.raise .CORE_STATUS_BROKEN c) := h.setF c 1 (by simp)
  unfold Machine.breakCore
  dsimp only
  split
  · exact ((hraise.setF c 6 (by simp)).setF c 0 (by simp)).setCore c _
  · exact hraise

theorem failStep (h : StepsBroken s t) (k b : Nat) : StepsBroken s (t.failStep k b) := by
  unfold State.failStep
  dsimp only
  split
  · exact List.foldlRecOn _ _ (h.setSw k _) (fun u hu c _ => hu.breakCore c)
  · exact h.setSw k _

end StepsBroken

/-- What a refusal records of the word, before the step is broken. -/
def recordRefusal (s : State) (c code : Nat) : State :=
  ((((s.setF .CORE_STATUS_LAST_REFUSAL c code).setF .CORE_STATUS_REFUSAL_PC c (s.f .CORE_PC_PC c)).raise
    .CORE_STATUS_REFUSED c).tally .CORE_REFUSALS c 1).tally .CORE_ISSUED c 1

/-- The registers of a refusal. -/
def refusalRegs (c : Nat) : List (FieldName × Nat) :=
  [(.CORE_STATUS_LAST_REFUSAL, c), (.CORE_STATUS_REFUSAL_PC, c), (.CORE_STATUS_REFUSED, c), (.CORE_REFUSALS, c),
   (.CORE_ISSUED, c)]

theorem recordRefusal_sameRegs (s : State) (c code : Nat) : SameRegs s (recordRefusal s c code) (refusalRegs c) := by
  refine sameRegs_setF (sameRegs_setF (sameRegs_setF (sameRegs_setF (sameRegs_setF (fun _ _ _ => rfl) _ ?_) _ ?_) _ ?_) _ ?_)
    _ ?_ <;> simp [refusalRegs]

theorem recordRefusal_rest (s : State) (c code : Nat) :
    recordRefusal s c code = { s with regs := (recordRefusal s c code).regs } := rfl

theorem recordRefusal_sw (s : State) (c code k : Nat) : (recordRefusal s c code).sw k = s.sw k := rfl

theorem refuse_eq (s : State) (c code : Nat) :
    s.refuse c code = (recordRefusal s c code).failStep (s.swOf c) causeBroken := by
  have hsw : (recordRefusal s c code).swOf c = s.swOf c := recordRefusal_sameRegs s c code _ _ (by simp [refusalRegs])
  rw [← hsw]
  rfl

theorem refuse_stepsBroken (s : State) (c code : Nat) : StepsBroken (recordRefusal s c code) (s.refuse c code) := by
  rw [refuse_eq]
  exact (StepsBroken.refl _).failStep _ _

theorem recordRefusal_codes (s : State) (c : Nat) {code : Nat} (hcode : code < 2 ^ 8) :
    (recordRefusal s c code).f .CORE_STATUS_LAST_REFUSAL c = code ∧
    (recordRefusal s c code).f .CORE_STATUS_REFUSAL_PC c = s.f .CORE_PC_PC c % 2 ^ 19 ∧
    (recordRefusal s c code).f .CORE_STATUS_REFUSED c = 1 := by
  simp [recordRefusal, f_setF, fieldDesc]
  exact hcode

theorem recordRefusal_counts (s : State) (c code : Nat) :
    (recordRefusal s c code).f .CORE_REFUSALS c = satAdd (s.f .CORE_REFUSALS c) 1 ∧
    (recordRefusal s c code).f .CORE_ISSUED c = satAdd (s.f .CORE_ISSUED c) 1 := by
  simp [recordRefusal, f_setF, fieldDesc]

theorem refuse_refusedAs (s : State) (c : Nat) {code : Nat} (hcode : code < 2 ^ 8) :
    s.refusedAs (s.refuse c code) c code := by
  obtain ⟨hrest, hregs⟩ := refuse_stepsBroken s c code
  obtain ⟨hlast, hpc, hrefused⟩ := recordRefusal_codes s c hcode
  obtain ⟨hrefusals, hissued⟩ := recordRefusal_counts s c code
  have hsw (k : Nat) := failStep_sw (recordRefusal s c code) (s.swOf c) causeBroken k
  rw [← refuse_eq] at hsw
  simp only [recordRefusal_sw] at hsw
  refine ⟨?_, ?_, ?_, ?_, ?_, ?_, fun k hk => ?_, ?_, fun n i hn hi => ?_⟩
  · rw [hregs _ _ (by simp), hlast]
  · rw [hregs _ _ (by simp), hpc]
  · rw [hregs _ _ (by simp), hrefused]
  · rw [hregs _ _ (by simp), hrefusals]
  · rw [hregs _ _ (by simp), hissued]
  · rw [hsw, if_neg (not_not.2 rfl)]
    by_cases hlive : ((s.sw (s.swOf c)).started && !(s.sw (s.swOf c)).latched) = true
    · simp only [hlive, if_true, Bool.or_true, Bool.not_true, Bool.or_false]
    · simp only [Bool.eq_false_of_not_eq_true hlive, Bool.false_eq_true, if_false, Bool.or_false, Bool.not_false, Bool.or_true]
  · rw [hsw, if_pos hk.symm]
  · rw [hrest, recordRefusal_rest]
  · rw [hregs n i hn, recordRefusal_sameRegs s c code n i hi]

/-- A refusal leaves time, queue and clocks alone, so that nothing is put back. -/
theorem wrap_refuse {r s : State} (c code : Nat) (hclk : s.clk = r.clk) (hpending : s.pending = r.pending)
    (hnow : s.now = r.now) : wrap r (s.refuse c code) = s.refuse c code := by
  rw [(refuse_stepsBroken s c code).1, recordRefusal_rest, wrap, ← hclk, ← hpending, ← hnow]

end Sys2Proof.Proofs
end

section
/-! The clauses of O19: the checks that a word fails at issue (R66, R70, R71, R73, R75, R135, R354). -/

namespace Sys2Proof.Proofs

open Sys2Proof.Machine Sys2Proof.Laws

/-! The codes of the checks. -/

theorem firstFail_lt {n : Nat} (hn : 0 < n) {l : List (Bool × Nat)} (h : ∀ p ∈ l, p.2 < n) : firstFail l < n := by
  induction l with
  | nil => exact hn
  | cons p l ih =>
    rw [List.forall_mem_cons] at h
    unfold firstFail
    split
    · exact h.1
    · exact ih h.2

theorem mmaCheck_lt (s : State) (c a w o i r : Nat) (acc fuse : Bool) (n : Nat) :
    s.mmaCheck c a w o i r acc fuse n < 2 ^ 8 :=
  firstFail_lt (by decide)
    (by simp [rfIllegal, rfGen, rfNTooLong, rfKTooLong, rfShape, rfFormat, rfBounds])

theorem cpyCheck_lt (s : State) (c a b rows : Nat) : s.cpyCheck c a b rows < 2 ^ 8 :=
  firstFail_lt (by decide) (by simp [rfIllegal, rfGen, rfShape, rfFormat, rfBounds])

theorem vecCheck_lt (s : State) (c op fn n x y z r : Nat) : s.vecCheck c op fn n x y z r < 2 ^ 8 :=
  firstFail_lt (by decide) (by simp [rfIllegal, rfGen, rfNTooLong, rfShape, rfFormat, rfBounds])

/-! The commands of the words are the sequencer's step. -/

theorem exec_vectorCommands (s : State) (c : Nat) :
    ∀ i ∈ vectorCommands c, exec i.1 s = act (coreOk c) (whenUp (issueVec c i.2)) s := by
  simp only [vectorCommands, List.forall_mem_cons]
  exact ⟨exec_vmap c s, exec_vfma c s, exec_vrow c s, exec_vnorm c s, exec_vsmax c s, exec_vrscRescale c s,
    exec_vrscFinal c s, exec_vrscClose c s, exec_vsti c s, exec_vdot c s, exec_vsbwd c s, exec_vloss c s, exec_vqnt c s,
    List.forall_mem_nil _⟩

theorem exec_wordCommands (s : State) (c : Nat) :
    ∀ i ∈ wordCommands c, ∃ f, exec i.1 s = act (coreOk c) (whenUp (issueWord c i.2 f)) s := by
  simp only [wordCommands, List.cons_append, List.nil_append, List.forall_mem_cons]
  exact ⟨⟨_, exec_nop c s⟩, ⟨_, exec_mma c s⟩, ⟨_, exec_tdld c s⟩, ⟨_, exec_tdadd c s⟩, ⟨_, exec_cpy c s⟩,
    ⟨_, exec_fence c s⟩, ⟨_, exec_sync c s⟩, ⟨_, exec_loop c s⟩, ⟨_, exec_vpos c s⟩, ⟨_, exec_vsetf c s⟩,
    ⟨_, exec_stepend c s⟩, ⟨_, exec_illegalWord c s⟩, fun i hi => ⟨_, exec_vectorCommands s c i hi⟩⟩

/-! The sequencer's step for a word that it refuses by itself. -/

theorem issueWord_outside {s : State} {c : Nat} (is : Nat → Bool) (f : CoreWord → State → State)
    (hissues : s.issues c = true) (hwin : s.inWindow (s.swOf c) (8 * s.f .CORE_PC_PC c) 8 = false) :
    issueWord c is f s = s.refuse c rfBounds := by
  simp [issueWord, hissues, hwin]

theorem issueWord_illegal {s : State} {c : Nat} {is : Nat → Bool} (f : CoreWord → State → State)
    (hissues : s.issues c = true) (hwin : s.inWindow (s.swOf c) (8 * s.f .CORE_PC_PC c) 8 = true)
    (hnone : decodeWord (s.wordAt c) = none) (his : is (s.wordAt c) = true) :
    issueWord c is f s = s.refuse c rfIllegal := by
  simp [issueWord, hissues, hwin, hnone, his]

/-- An opcode that no word has reads as no word. -/
theorem decodeWord_unassigned {w : Nat} (h : unassigned w = true) : decodeWord w = none := by
  rw [Option.eq_none_iff_forall_ne_some]
  intro x hx
  have hop : opOf w = wordOp x := decodeWord_op hx
  cases x
  case vec op tx ty tz tr fn wst n =>
    have hvec := decodeWord_vec_op hx
    simp [unassigned, hop, wordOp] at h
    omega
  all_goals simp [unassigned, hop, wordOp] at h

/-! The commands that refuse. -/

/-- A command whose step refuses the word, on a state that differs in no time, queue or clock. -/
theorem refused_of_exec {s b : State} {c code : Nat} {i : Instr} (hexec : exec i s = .next (wrap s (b.refuse c code)))
    (hclk : b.clk = s.clk) (hpending : b.pending = s.pending) (hnow : b.now = s.now) (hcode : code < 2 ^ 8) :
    ∃ t, exec i s = .next t ∧ b.refusedAs t c code :=
  ⟨_, by rw [hexec, wrap_refuse c code hclk hpending hnow], refuse_refusedAs b c hcode⟩

section Word
variable {s : State} {c : Nat} (hu : s.up) (hc : c < 384)
include hu hc

theorem exec_outside_refused {i : Instr × (Nat → Bool)} (hissues : s.issues c = true)
    (hwin : s.inWindow (s.swOf c) (8 * s.f .CORE_PC_PC c) 8 = false) (hi : i ∈ wordCommands c) :
    ∃ t, exec i.1 s = .next t ∧ (fresh s).refusedAs t c rfBounds := by
  obtain ⟨f, hexec⟩ := exec_wordCommands s c i hi
  rw [act_up (coreOk_of_lt hc) hu, issueWord_outside (s := fresh s) i.2 f hissues hwin] at hexec
  exact refused_of_exec hexec rfl rfl rfl (by decide)

theorem exec_illegal_refused {i : Instr × (Nat → Bool)} (hissues : s.issues c = true)
    (hwin : s.inWindow (s.swOf c) (8 * s.f .CORE_PC_PC c) 8 = true) (hnone : decodeWord (s.wordAt c) = none)
    (hi : i ∈ wordCommands c) (his : i.2 (s.wordAt c) = true) :
    ∃ t, exec i.1 s = .next t ∧ (fresh s).refusedAs t c rfIllegal := by
  obtain ⟨f, hexec⟩ := exec_wordCommands s c i hi
  rw [act_up (coreOk_of_lt hc) hu, issueWord_illegal (s := fresh s) f hissues hwin hnone his] at hexec
  exact refused_of_exec hexec rfl rfl rfl (by decide)

theorem exec_mma_refused {ta tw tc ti ts pi n : Nat} {acc fuse wst : Bool}
    (h : s.reads c (.mma ta tw tc ti ts acc fuse pi wst n)) :
    let opened := (fresh s).openStep (s.swOf c)
    let code := opened.mmaCheck c (s.slot c ta) (s.slot c tw) (s.slot c tc) (s.slot c ti) (s.slot c ts) acc fuse n
    code ≠ 0 → ∃ t, exec (.mma c) s = .next t ∧ opened.refusedAs t c code := by
  intro opened code hcode
  have hexec := exec_word (exec_mma c s) hu hc h (isOp_of_reads h)
  have hcheck : ((fresh s).openStep ((fresh s).swOf c)).mmaCheck c (s.slot c ta) (s.slot c tw) (s.slot c tc) (s.slot c ti)
      (s.slot c ts) acc fuse n = code := rfl
  simp only [slot_fresh, hcheck, if_pos hcode] at hexec
  obtain ⟨hclk, hpending, hnow⟩ := openStep_fresh_kept s (s.swOf c)
  exact refused_of_exec hexec hclk hpending hnow (mmaCheck_lt _ _ _ _ _ _ _ _ _ _)

theorem exec_cpy_refused {a b rows : Nat} {eng wst : Bool} (h : s.reads c (.cpy a b eng wst rows)) :
    let code := s.cpyCheck c (s.slot c a) (s.slot c b) rows
    code ≠ 0 → ∃ t, exec (.cpy c) s = .next t ∧ (fresh s).refusedAs t c code := by
  intro code hcode
  have hexec := exec_word (exec_cpy c s) hu hc h (isOp_of_reads h)
  have hcheck : s.cpyCheck c (s.slot c a) (s.slot c b) rows = code := rfl
  simp only [slot_fresh, cpyCheck_fresh, hcheck, if_pos hcode] at hexec
  exact refused_of_exec hexec rfl rfl rfl (cpyCheck_lt _ _ _ _ _)

theorem exec_vec_refused {op tx ty tz tr fn n : Nat} {wst : Bool} (h : s.reads c (.vec op tx ty tz tr fn wst n)) :
    let code := s.vecCheck c op fn n (s.slot c tx) (s.slot c ty) (s.slot c tz) (s.slot c tr)
    code ≠ 0 → ∀ i ∈ vectorCommands c, i.2 (s.wordAt c) = true →
      ∃ t, exec i.1 s = .next t ∧ (fresh s).refusedAs t c code := by
  intro code hcode i hi his
  have hexec := exec_word (exec_vectorCommands s c i hi) hu hc h his
  have hcheck : s.vecCheck c op fn n (s.slot c tx) (s.slot c ty) (s.slot c tz) (s.slot c tr) = code := rfl
  simp only [slot_fresh, vecCheck_fresh, hcheck, if_pos hcode] at hexec
  exact refused_of_exec hexec rfl rfl rfl (vecCheck_lt _ _ _ _ _ _ _ _ _)

/-- The checks of TDLD in the order of R75. -/
def tdldCode (s : State) (c o : Nat) : Nat :=
  firstFail [(!s.inWindow (s.swOf c) (32 * o) 32, rfBounds), (!dReservedZero (leNat (s.scr c (32 * o) 32)), rfIllegal),
    (dGen (leNat (s.scr c (32 * o) 32)) ≠ 1, rfGen)]

omit hu hc in
theorem tdldCode_lt (s : State) (c o : Nat) : tdldCode s c o < 2 ^ 8 :=
  firstFail_lt (by decide) (by simp [rfIllegal, rfGen, rfBounds])

theorem exec_tdld_refused {i o : Nat} (h : s.reads c (.tdld i o)) (hcode : tdldCode s c o ≠ 0) :
    ∃ t, exec (.tdld c) s = .next t ∧ (fresh s).refusedAs t c (tdldCode s c o) := by
  have hexec := exec_word (exec_tdld c s) hu hc h (isOp_of_reads h)
  have hrefuse := hexec.trans (congrArg (fun t => Host.Outcome.next (wrap s t)) (if_pos hcode))
  exact refused_of_exec (b := fresh s) hrefuse rfl rfl rfl (tdldCode_lt s c o)

theorem exec_loop_refused {count back : Nat} (h : s.reads c (.loop count back))
    (hnew : ∀ left rest, (s.core c).loops ≠ (s.f .CORE_PC_PC c, left) :: rest)
    (hdeep : 4 < (s.core c).nestAt (s.f .CORE_PC_PC c) back ∨ (count ≠ 1 ∧ 4 ≤ (s.core c).loops.length)) :
    ∃ t, exec (.loop c) s = .next t ∧ (fresh s).refusedAs t c rfIllegal := by
  have hexec := exec_word (exec_loop c s) hu hc h (isOp_of_reads h)
  refine refused_of_exec (b := fresh s) (hexec.trans (congrArg (fun t => Host.Outcome.next (wrap s t)) ?_)) rfl rfl rfl (by decide)
  by_cases hnil : (s.core c).loops = []
  · have hnest : 4 < (s.core c).nestAt (s.f .CORE_PC_PC c) back := by simpa [hnil] using hdeep
    simp [hnil, hnest]
  · obtain ⟨p, rest, hloops⟩ := List.exists_cons_of_ne_nil hnil
    have hp : p.1 ≠ s.f .CORE_PC_PC c := fun hp => hnew p.2 rest (by rw [hloops, ← hp])
    rw [hloops] at hdeep
    simp only [core_read_fresh, f_read_fresh, hloops, if_neg hp]
    rw [if_pos]
    rw [Bool.or_eq_true, Bool.and_eq_true]
    exact hdeep.imp decide_eq_true (And.imp decide_eq_true decide_eq_true)

end Word

/-- Settles O19, check by check. -/
theorem wordsThatFailChecksAreRefused : Obligations.WordsThatFailChecksAreRefused := by
  intro s c hu hc hissues inside w pc refused opened
  refine ⟨fun hwin i hi => exec_outside_refused hu hc hissues hwin hi,
    fun hwin hnone i hi his => exec_illegal_refused hu hc hissues hwin hnone hi his,
    fun hwin hw => exec_illegal_refused (i := (.illegalWord c, unassigned)) hu hc hissues hwin (decodeWord_unassigned hw)
      (by simp [wordCommands]) hw,
    fun _ _ _ _ _ _ _ _ _ _ h _ => exec_mma_refused hu hc h, fun _ _ _ _ _ h _ => exec_cpy_refused hu hc h,
    fun _ _ _ _ _ _ _ _ h => exec_vec_refused hu hc h, fun i o h _ => ?_,
    fun _ _ h _ hnew hdeep => exec_loop_refused hu hc h hnew hdeep⟩
  have htdld := exec_tdld_refused hu hc h
  refine ⟨fun hwin => ?_, fun hwin hzero => ?_, fun hwin hzero hgen => ?_⟩
  · have hcode : tdldCode s c o = rfBounds := by simp [tdldCode, firstFail, hwin]
    rw [hcode] at htdld
    exact htdld (by decide)
  · have hcode : tdldCode s c o = rfIllegal := by simp [tdldCode, firstFail, hwin, hzero]
    rw [hcode] at htdld
    exact htdld (by decide)
  · have hcode : tdldCode s c o = rfGen := by simp [tdldCode, firstFail, hwin, hzero, hgen]
    rw [hcode] at htdld
    exact htdld (by decide)

end Sys2Proof.Proofs
end

section
/-! SUPPORT. Operands in core scratch (R41, R60, R93): reads leave the state alone, waits on no access and takes no ring
bytes; writes change the store of core scratch alone. -/

namespace Sys2Proof.Proofs

open Sys2Proof.Machine Sys2Proof.Laws

/-! Reads. -/

theorem gather_stays {α β : Type} {f : State → α → State × β} {s : State} (h : ∀ x, (f s x).1 = s) (l : List α) :
    gather f s l = (s, l.map (fun x => (f s x).2)) := by
  have hfold (acc : List β) : l.foldl (fun a x => ((f a.1 x).1, a.2 ++ [(f a.1 x).2])) (s, acc) =
      (s, acc ++ l.map (fun x => (f s x).2)) := by
    induction l generalizing acc with
    | nil => simp
    | cons x l ih => rw [List.foldl_cons, h, ih]; simp
  exact hfold []

/-- Core scratch reads alike where memories and registers are the same. -/
theorem scr_congr {s t : State} (hmem : t.mem = s.mem) (hregs : t.regs = s.regs) (c a n : Nat) :
    t.scr c a n = s.scr c a n := by
  have hphys : t.physOf c = s.physOf c := physOf_congr c (fun _ _ _ => by rw [State.f, State.f, hregs])
  simp only [State.scr, State.scrAddr, hphys, hmem]

section Reads
variable {d : Nat} (hd : dSpace d = 0)
include hd

theorem readElems_scratch (s : State) (c i j0 n : Nat) : (s.readElems c d i j0 n).1 = s := by
  simp [State.readElems, State.operand, hd]

/-- The scale code of the block of an element of a tensor in scratch. -/
def scratchCode (s : State) (c d i j : Nat) : Nat := if dScaled d then leNat (s.scr c (dScaleAddr d i j) 1) else 127

theorem readScale_code (s : State) (c i j : Nat) : s.readScale c d i j = (s, scratchCode s c d i j) := by
  unfold State.readScale scratchCode
  split
  · simp [State.operand, hd]
  · rfl

theorem readScale_scratch (s : State) (c i j : Nat) : (s.readScale c d i j).1 = s := by rw [readScale_code hd]

theorem readScales_codes (s : State) (c x t k : Nat) (col : Bool) :
    let code (h : Nat) := if 64 * t + 32 * h < k then
      (if col then scratchCode s c d (64 * t + 32 * h) x else scratchCode s c d x (64 * t + 32 * h)) else 127
    s.readScales c d x t k col = (s, (code 0, code 1)) := by
  have hone (u : State) (h : Nat) : (if 64 * t + 32 * h < k then
      (if col then u.readScale c d (64 * t + 32 * h) x else u.readScale c d x (64 * t + 32 * h)) else (u, 127)) =
      (u, if 64 * t + 32 * h < k then
        (if col then scratchCode u c d (64 * t + 32 * h) x else scratchCode u c d x (64 * t + 32 * h)) else 127) := by
    split
    · split
      · exact readScale_code hd u c _ _
      · exact readScale_code hd u c _ _
    · rfl
  unfold State.readScales
  dsimp only
  rw [hone, hone]

theorem readScales_scratch (s : State) (c x t k : Nat) (col : Bool) : (s.readScales c d x t k col).1 = s := by
  rw [readScales_codes hd]

theorem readScales_congr {s t : State} (hmem : t.mem = s.mem) (hregs : t.regs = s.regs) (c x b k : Nat) (col : Bool) :
    (t.readScales c d x b k col).2 = (s.readScales c d x b k col).2 := by
  rw [readScales_codes hd, readScales_codes hd]
  simp only [scratchCode, scr_congr hmem hregs]

theorem readElems_congr {s t : State} (hmem : t.mem = s.mem) (hregs : t.regs = s.regs) (c i j0 n : Nat) :
    (t.readElems c d i j0 n).2 = (s.readElems c d i j0 n).2 := by
  simp only [State.readElems, State.operand, hd, if_true, scr_congr hmem hregs]

theorem readIn_scratch (s : State) (c i n : Nat) : (s.readIn c d i n).1 = s := by
  unfold State.readIn
  dsimp only
  rw [gather_stays (fun j => ?_)]
  · exact readElems_scratch hd s c i 0 n
  · rw [readElems_scratch hd]
    exact readScale_scratch hd s c i j

/-- What an operand in scratch takes of the ring: nothing. -/
theorem ringPut_scratch (s : State) (c : Nat) (bs : List Byte) : s.ringPut c d bs = s := by
  unfold State.ringPut
  simp [hd]

theorem foldl_ringPut_scratch {α : Type} (s : State) (c : Nat) (l : List α) (bs : α → List Byte) :
    l.foldl (fun y r => y.ringPut c d (bs r)) s = s :=
  List.foldlRecOn (motive := fun t => t = s) _ _ rfl (fun _ ht r _ => (ringPut_scratch hd _ c (bs r)).trans ht)

theorem readsWait_scratch (s : State) (q : Rq) (l : List (Nat × Nat)) : s.readsWait q d l = none := by
  simp [State.readsWait, hd]

theorem tensorWaits_scratch (s : State) (q : Rq) (n : Nat) (write : Bool) : s.tensorWaits q d n write = none := by
  simp [State.tensorWaits, hd]

end Reads

/-! Writes. -/

/-- Of the memories, only the store of core scratch differs. -/
def ScratchOnly (s t : State) : Prop := t = s.setStores { s.mem.st with scratch := t.mem.st.scratch }

namespace ScratchOnly

variable {s t u : State}

theorem refl (s : State) : ScratchOnly s s := rfl

theorem putScr (h : ScratchOnly s t) (c a : Nat) (bs : List Byte) : ScratchOnly s (t.putScr c a bs) := by
  unfold ScratchOnly at h ⊢
  rw [h]
  rfl

theorem putOperand (h : ScratchOnly s t) (c : Nat) (q : Rq) (a : Nat) (bs : List Byte) {sp : Nat} (hsp : sp = 0) :
    ScratchOnly s (t.putOperand c q sp a bs).1 := by
  rw [State.putOperand, if_pos hsp]
  exact h.putScr c a bs

theorem foldl {α : Type} (h : ScratchOnly s t) (l : List α) {g : State → α → State}
    (hg : ∀ u x, ScratchOnly s u → ScratchOnly s (g u x)) : ScratchOnly s (l.foldl g t) :=
  List.foldlRecOn _ _ h (fun u hu x _ => hg u x hu)

end ScratchOnly

/-- A store after the stretches of a list are written, each at its address. -/
def writeAll {α : Type} (at8 : α → Nat) (bs : α → List Byte) (l : List α) (m : Memory) : Memory :=
  l.foldl (fun m x => Memory.write 0 m (at8 x) (bs x)) m

/-- A byte outside every stretch written stays. -/
theorem get_writeAll_other {α : Type} {at8 : α → Nat} {bs : α → List Byte} {l : List α} (m : Memory) {a : Nat}
    (h : ∀ x ∈ l, a < at8 x ∨ at8 x + (bs x).length ≤ a) : FMap.get 0 (writeAll at8 bs l m) a = FMap.get 0 m a := by
  refine List.foldlRecOn (motive := fun t => FMap.get 0 t a = FMap.get 0 m a) _ _ rfl (fun t ht x hx => ?_)
  have hout := h x hx
  rw [get_write, dif_neg (by omega), ht]

theorem foldl_putScr {α : Type} (s : State) (c : Nat) (at8 : α → Nat) (bs : α → List Byte) (l : List α) :
    l.foldl (fun t x => t.putScr c (at8 x) (bs x)) s =
      s.setStores { s.mem.st with scratch := writeAll (fun x => s.scrAddr c (at8 x)) bs l s.mem.st.scratch } := by
  induction l generalizing s with
  | nil => rfl
  | cons x l ih => rw [List.foldl_cons, ih]; rfl

/-- The store of core scratch after converted rows and scales are written into a tensor there, addresses taken by `at8`. -/
def writtenScratch (at8 : Nat → Nat) (z : Nat) (w : Written) (m : Memory) : Memory :=
  writeAll (fun p => at8 p.1) (fun p => [BitVec.ofNat 8 p.2]) w.scales
    (writeAll (fun p => at8 (dRowAddr z p.1)) (fun p => packRow (fmtWidth (dFmt z)) p.2) w.rows m)

theorem putRows_scratch {z : Nat} (hz : dSpace z = 0) (s : State) (c : Nat) (q : Rq) (w : Written) :
    s.putRows c q z w =
      s.setStores { s.mem.st with scratch := writtenScratch (s.scrAddr c) z w s.mem.st.scratch } := by
  have hput (t : State) (a : Nat) (bs : List Byte) : (t.putOperand c q (dSpace z) a bs).1 = t.putScr c a bs := by
    rw [State.putOperand, if_pos hz]
  unfold State.putRows
  simp only [hput]
  rw [foldl_putScr, foldl_putScr]
  rfl

theorem get_writtenScratch_other {at8 : Nat → Nat} {z : Nat} {w : Written} (m : Memory) {a : Nat}
    (hrows : ∀ p ∈ w.rows, a < at8 (dRowAddr z p.1) ∨
      at8 (dRowAddr z p.1) + (packRow (fmtWidth (dFmt z)) p.2).length ≤ a)
    (hscales : ∀ p ∈ w.scales, a ≠ at8 p.1) : FMap.get 0 (writtenScratch at8 z w m) a = FMap.get 0 m a := by
  rw [writtenScratch, get_writeAll_other _ (fun p hp => ?_), get_writeAll_other _ hrows]
  have hne := hscales p hp
  simp only [List.length_cons, List.length_nil]
  omega

end Sys2Proof.Proofs
end

section
/-! The load shuttle's clause of O24 (R60): a step's weight tile, then its A rows. -/

namespace Sys2Proof.Proofs

open Sys2Proof.Machine Sys2Proof.Laws

/-! A weight tile. -/

/-- A step's weight tile in scratch, with accumulate-in rows in scratch or none, is staged and nothing else changes. -/
theorem stageTile_scratch {e : QEnt} {t : Nat} (hw : dSpace e.w = 0) (hi : e.acc = false ∨ t ≠ 0 ∨ dSpace e.i = 0)
    (s : State) (c b : Nat) :
    ∃ x : Staged, (x.seq = e.seq ∧ x.blk = b ∧ x.tile = t) ∧ x.aRows = [] ∧ x.wCols.length = e.nc ∧
      x.bytes = e.ringBytes b t ∧ x.inBytes = e.inBytes b t ∧
      s.stageTile c e b t = s.setCore c { s.core c with
        arr := { (s.core c).arr with staged := (s.core c).arr.staged ++ [x] } } := by
  have hcols : (gather (fun x i => x.readElems c e.w (64 * t + i) 0 e.nc) s (List.range (e.tileRows t))).1 = s := by
    rw [gather_stays (fun i => readElems_scratch hw s c _ _ _)]
  have hscales : (gather (fun x j => x.readScales c e.w j t e.k true) s (List.range e.nc)).1 = s := by
    rw [gather_stays (fun j => readScales_scratch hw s c _ _ _ _)]
  have hins : (if t = 0 && e.acc then s.readIns c e b else (s, [])).1 = s ∧
      ∀ u : State, ((if t = 0 && e.acc then s.readIns c e b else (s, [])).2.map Prod.fst).foldl
        (fun y r => y.ringPut c e.i (packRow 32 r)) u = u := by
    by_cases hacc : (t = 0 && e.acc) = true
    · have hin : dSpace e.i = 0 := by
        simp only [Bool.and_eq_true, decide_eq_true_eq] at hacc
        rcases hi with h | h | h
        · rw [hacc.2] at h
          cases h
        · exact absurd hacc.1 h
        · exact h
      rw [if_pos hacc]
      refine ⟨?_, fun u => foldl_ringPut_scratch hin u c _ _⟩
      rw [State.readIns, gather_stays (fun i => readIn_scratch hin s c _ _)]
    · rw [if_neg hacc]
      exact ⟨rfl, fun _ => rfl⟩
  unfold State.stageTile
  simp only [hcols, hscales, hins.1, hins.2, ringPut_scratch hw, List.foldl_fixed]
  refine ⟨_, ⟨rfl, rfl, rfl⟩, rfl, ?_, rfl, rfl, rfl⟩
  rw [List.length_map, List.length_range]

/-! A rows. -/

/-- A staged step with further A rows. -/
def addRows (rows : List (List Nat)) (scales : List (Nat × Nat)) (x : Staged) : Staged :=
  { x with aRows := x.aRows ++ rows, aScale := x.aScale ++ scales }

theorem updStaged_addRows (k : Core) (seq b t : Nat) (r r' : List (List Nat)) (z z' : List (Nat × Nat)) :
    (k.updStaged seq b t (addRows r z)).updStaged seq b t (addRows r' z') =
      k.updStaged seq b t (addRows (r ++ r') (z ++ z')) := by
  unfold Core.updStaged
  simp only [List.map_map]
  congr 2
  refine List.map_congr_left (fun x _ => ?_)
  by_cases h : (x.seq = seq && x.blk = b && x.tile = t) = true
  · simp only [Function.comp_apply, h, if_true]
    have h' : ((addRows r z x).seq = seq && (addRows r z x).blk = b && (addRows r z x).tile = t) = true := h
    rw [if_pos h']
    simp [addRows]
  · simp only [Function.comp_apply, if_neg h]

theorem updStaged_addRows_nil (k : Core) (seq b t : Nat) : k.updStaged seq b t (addRows [] []) = k := by
  unfold Core.updStaged
  simp [addRows]

/-- Rows of A in scratch are all staged, and the instruction has one more step staged. -/
theorem stageRows_scratch {e : QEnt} (ha : dSpace e.a = 0) (c b t : Nat) (is : List Nat) (s : State) :
    let u := s.stageRows c e b t is
    let rows := is.map (fun r => (s.readElems c e.a (256 * b + r) (64 * t) (e.tileRows t)).2)
    let scales := is.map (fun r => (s.readScales c e.a (256 * b + r) t e.k false).2)
    u = { s with cores := u.cores } ∧ (∀ d, d ≠ c → u.core d = s.core d) ∧
      u.core c = ((s.core c).updStaged e.seq b t (addRows rows scales)).markMat e.seq
        (fun x => { x with staged := x.staged + 1 }) := by
  induction is generalizing s with
  | nil =>
    refine ⟨rfl, fun d hd => ?_, ?_⟩
    · rw [State.stageRows, core_setCore, if_neg hd.symm]
    · rw [State.stageRows, core_setCore_same, List.map_nil, List.map_nil, updStaged_addRows_nil]
  | cons i is ih =>
    have hstep : s.stageRows c e b t (i :: is) = (s.setCore c ((s.core c).updStaged e.seq b t
        (addRows [(s.readElems c e.a (256 * b + i) (64 * t) (e.tileRows t)).2]
          [(s.readScales c e.a (256 * b + i) t e.k false).2]))).stageRows c e b t is := by
      rw [State.stageRows]
      simp only [readsWait_scratch ha, readElems_scratch ha, readScales_scratch ha, ringPut_scratch ha]
      rfl
    obtain ⟨hrest, hcores, hcore⟩ := ih (s.setCore c ((s.core c).updStaged e.seq b t
      (addRows [(s.readElems c e.a (256 * b + i) (64 * t) (e.tileRows t)).2]
        [(s.readScales c e.a (256 * b + i) t e.k false).2])))
    rw [← hstep] at hrest hcores hcore
    refine ⟨hrest, fun d hd => ?_, ?_⟩
    · rw [hcores d hd, core_setCore, if_neg hd.symm]
    · rw [hcore, core_setCore_same, updStaged_addRows]
      simp only [readElems_congr ha (mem_setCore _ _ _) (regs_setCore _ _ _),
        readScales_congr ha (mem_setCore _ _ _) (regs_setCore _ _ _)]
      rfl

/-! The command. -/

/-- A core that runs or stands at a barrier, and is not asleep, goes on with its shuttles (R29, R86). -/
theorem loadShuttle_awake {s : State} {c : Nat} (hst : s.f .CORE_STATUS_STATE c ∈ [1, 2])
    (hawake : (s.core c).asleep = false) :
    (!(s.f .CORE_STATUS_STATE c = 1 || s.f .CORE_STATUS_STATE c = 2) || (s.core c).asleep) = false := by
  simpa [hawake, or_iff_not_imp_left] using hst

section Stage
variable {s : State} {c : Nat} {e : QEnt} (hst : s.f .CORE_STATUS_STATE c ∈ [1, 2]) (hawake : (s.core c).asleep = false)
  (hnext : (s.core c).stageNext = some e) (hk : e.k ≠ 0)
include hst hawake hnext hk

theorem loadShuttleStage_tile :
    let b := e.staged / natMax e.kt 1
    let i := e.staged % natMax e.kt 1
    (s.core c).arr.staged.find? (fun x => x.seq = e.seq && x.blk = b && x.tile = i) = none →
    (s.core c).arr.ahead < (s.core c).dist →
    ((s.core c).arr.ringHeld = 0 ∨
      (s.core c).arr.ringHeld + e.ringBytes b i + e.inBytes b i ≤ (s.core c).ring) →
    s.tileWaits c e b i = none → loadShuttleStage c s = s.stageTile c e b i := by
  intro b i hfind hahead hring hwaits
  have hroom : ((s.core c).dist ≤ (s.core c).arr.ahead || !((s.core c).arr.ringHeld = 0 ||
      (s.core c).arr.ringHeld + e.ringBytes b i + e.inBytes b i ≤ (s.core c).ring)) = false := by
    simp only [Bool.or_eq_false_iff, decide_eq_false_iff_not, Nat.not_le, Bool.not_eq_false', Bool.or_eq_true,
      decide_eq_true_eq]
    exact ⟨hahead, hring⟩
  unfold loadShuttleStage
  simp only [loadShuttle_awake hst hawake, hnext, hk, if_false, Bool.false_eq_true]
  simp only [b, i] at hfind hroom hwaits ⊢
  simp only [hfind, hroom, hwaits, if_false, Bool.false_eq_true]

theorem loadShuttleStage_rows {x : Staged} :
    let b := e.staged / natMax e.kt 1
    let i := e.staged % natMax e.kt 1
    (s.core c).arr.staged.find? (fun x => x.seq = e.seq && x.blk = b && x.tile = i) = some x →
    loadShuttleStage c s = s.stageRows c e b i ((List.range (e.rows b)).drop x.aRows.length) := by
  intro b i hfind
  unfold loadShuttleStage
  simp only [loadShuttle_awake hst hawake, hnext, hk, if_false, Bool.false_eq_true]
  simp only [b, i] at hfind ⊢
  simp only [hfind]

end Stage

section Command
variable {s : State} {c : Nat} {e : QEnt} (hu : s.up) (hc : c < 384) (hst : s.f .CORE_STATUS_STATE c ∈ [1, 2])
  (hawake : (s.core c).asleep = false) (hnext : (s.core c).stageNext = some e) (hk : e.k ≠ 0)
include hu hc hst hawake hnext hk

theorem exec_loadShuttleStage_tile :
    let b := e.staged / natMax e.kt 1
    let i := e.staged % natMax e.kt 1
    let step (x : Staged) : Bool := x.seq = e.seq && x.blk = b && x.tile = i
    (s.core c).arr.staged.find? step = none → (s.core c).arr.ahead < (s.core c).dist →
    ((s.core c).arr.ringHeld = 0 ∨
      (s.core c).arr.ringHeld + e.ringBytes b i + e.inBytes b i ≤ (s.core c).ring) →
    (fresh s).tileWaits c e b i = none →
      exec (.loadShuttleStage c) s = .next (wrap s ((fresh s).stageTile c e b i)) ∧
      (dSpace e.w = 0 → (e.acc = false ∨ i ≠ 0 ∨ dSpace e.i = 0) →
        ∃ x : Staged, step x = true ∧ x.aRows = [] ∧ x.wCols.length = e.nc ∧
          x.bytes = e.ringBytes b i ∧ x.inBytes = e.inBytes b i ∧
          exec (.loadShuttleStage c) s = .next { s with
            out := []
            cores := FMap.set {} s.cores c { s.core c with
              arr := { (s.core c).arr with staged := (s.core c).arr.staged ++ [x] } } }) := by
  intro b i step hfind hahead hring hwaits
  have hexec : exec (.loadShuttleStage c) s = .next (wrap s ((fresh s).stageTile c e b i)) := by
    rw [exec_loadShuttleStage, act_up (coreOk_of_lt hc) hu,
      loadShuttleStage_tile (s := fresh s) hst hawake hnext hk hfind hahead hring hwaits]
  refine ⟨hexec, fun hw hi => ?_⟩
  obtain ⟨x, ⟨hseq, hblk, htile⟩, hrows, hcols, hbytes, hin, hstage⟩ := stageTile_scratch hw hi (fresh s) c b
  refine ⟨x, by simp [step, hseq, hblk, htile], hrows, hcols, hbytes, hin, ?_⟩
  rw [hexec, hstage]
  rfl

theorem exec_loadShuttleStage_rows {x : Staged} :
    let b := e.staged / natMax e.kt 1
    let i := e.staged % natMax e.kt 1
    let step (x : Staged) : Bool := x.seq = e.seq && x.blk = b && x.tile = i
    (s.core c).arr.staged.find? step = some x → dSpace e.a = 0 →
    let is := (List.range (e.rows b)).drop x.aRows.length
    let rows := is.map (fun r => (s.readElems c e.a (256 * b + r) (64 * i) (e.tileRows i)).2)
    let scales := is.map (fun r => (s.readScales c e.a (256 * b + r) i e.k false).2)
    ∃ t, exec (.loadShuttleStage c) s = .next t ∧ t = { s with cores := t.cores, out := [] } ∧
      (∀ d, d ≠ c → t.core d = s.core d) ∧
      t.core c = { (s.core c).markMat e.seq (fun x => { x with staged := x.staged + 1 }) with
        arr := { (s.core c).arr with
          staged := (s.core c).arr.staged.map (fun y =>
            if step y then { y with aRows := y.aRows ++ rows, aScale := y.aScale ++ scales } else y) } } := by
  intro b i step hfind ha is rows scales
  have hrun := loadShuttleStage_rows (s := fresh s) hst hawake hnext hk hfind
  obtain ⟨hrest, hcores, hcore⟩ := stageRows_scratch ha c b i is (fresh s)
  have hwrap : wrap s ((fresh s).stageRows c e b i is) = (fresh s).stageRows c e b i is := by
    rw [hrest]
    rfl
  refine ⟨(fresh s).stageRows c e b i is, ?_, hrest, hcores, ?_⟩
  · rw [exec_loadShuttleStage, act_up (coreOk_of_lt hc) hu, hrun, hwrap]
  · rw [hcore]
    simp only [readElems_congr (s := s) (t := fresh s) ha rfl rfl, readScales_congr (s := s) (t := fresh s) ha rfl rfl]
    rfl

end Command

end Sys2Proof.Proofs
end

section
/-! The store shuttle's clause of O24 (R62, R110): what counting a drained block can change, and where it is stored. -/

namespace Sys2Proof.Proofs

open Sys2Proof.Machine Sys2Proof.Laws

theorem CoreTags.binAll {s t : State} {c : Nat} {l : List (FieldName × Nat)} (h : CoreTags s t c l) (k tag : Nat)
    (vs : List Fv) : CoreTags s (t.binAll k tag vs) c l := by
  unfold State.binAll
  split
  · exact h
  · exact h.setTag _ _ _

theorem CoreTags.firstUse {s t : State} {c : Nat} {l : List (FieldName × Nat)} (h : CoreTags s t c l)
    (hl : (.VEC_FIRST_USE, c) ∈ l) (k tag : Nat) : CoreTags s (t.firstUse c k tag) c l :=
  (h.setF _ hl).setTag _ _ _

@[simp] theorem binAll_core (s : State) (k tag : Nat) (vs : List Fv) (d : Nat) : (s.binAll k tag vs).core d = s.core d := by
  unfold State.binAll
  split <;> rfl

@[simp] theorem firstUse_core (s : State) (c k tag d : Nat) : (s.firstUse c k tag).core d = s.core d := rfl

/-- What the store shuttle counts of a block before its written result: saturations, bins and a first use. -/
def drainCounts (s : State) (c blk : Nat) (e : QEnt) (sat4 : Nat) (vs : List Fv) : State :=
  let u := (s.satAt c (s.swOf c) e.tag 4 sat4).binAll ((s.satAt c (s.swOf c) e.tag 4 sat4).swOf c) e.tag vs
  if blk = 0 && u.atFirstUse (u.swOf c) e.c then u.firstUse c (u.swOf c) e.tag else u

/-- The registers that count a block, but for its non-finite elements. -/
def drainRegs (c : Nat) : List (FieldName × Nat) :=
  [(.ARR_SAT, c), (.ARR_NUMERIC_SAT_SEEN, c), (.ARR_NUMERIC_LAST_SAT_STAGE, c), (.ARR_NUMERIC_LAST_SAT_TAG, c),
   (.VEC_FIRST_USE, c)]

section Counts
variable (s : State) (c blk : Nat) (e : QEnt) (sat4 : Nat) (vs : List Fv)

theorem drainCounts_coreTags : CoreTags s (drainCounts s c blk e sat4 vs) c (drainRegs c) := by
  have hbase := ((CoreTags.refl s c (drainRegs c)).satAt (s.swOf c) e.tag 4 sat4 (by simp [drainRegs])).binAll
    ((s.satAt c (s.swOf c) e.tag 4 sat4).swOf c) e.tag vs
  unfold drainCounts
  dsimp only
  split
  · exact hbase.firstUse (by simp [drainRegs]) _ _
  · exact hbase

theorem drainCounts_core (d : Nat) : (drainCounts s c blk e sat4 vs).core d = s.core d := by
  unfold drainCounts
  dsimp only
  split
  · rw [firstUse_core, binAll_core, satAt_core]
  · rw [binAll_core, satAt_core]

end Counts

theorem countStore_coreTags (s : State) (c : Nat) (e : QEnt) (w : Written) :
    CoreTags s (s.countStore c e w) c ((.ARR_NONFINITE, c) :: drainRegs c) :=
  ((CoreTags.refl s c _).satAt (s.swOf c) e.tag 5 w.sat (by simp [drainRegs])).setF _ (by simp)

theorem countStore_core (s : State) (c : Nat) (e : QEnt) (w : Written) (d : Nat) :
    (s.countStore c e w).core d = s.core d := satAt_core s c _ _ _ _ d

theorem countStore_nonfinite (s : State) (c : Nat) (e : QEnt) (w : Written) :
    (s.countStore c e w).f .ARR_NONFINITE c = satAdd (s.f .ARR_NONFINITE c) w.nonfin := by
  have hsat : CoreTags s (s.satAt c (s.swOf c) e.tag 5 w.sat) c (drainRegs c) :=
    (CoreTags.refl s c _).satAt _ _ _ _ (by simp [drainRegs])
  rw [State.countStore, f_tally_same _ c _ rfl, hsat.2.1 _ _ (by simp [drainRegs])]

/-! The queues after a block. -/

/-- A core's context without its oldest complete edge bank. -/
def nextDrain (k : Core) : Core := { k with arr := { k.arr with drains := k.arr.drains.tail } }

theorem retire_drains (k : Core) (e : QEnt) : (k.retire e).arr.drains = k.arr.drains := by
  unfold Core.retire
  split <;> rfl

theorem retire_last {k : Core} {e : QEnt} (h : ceilDiv e.n 256 ≤ e.drained + 1) :
    (k.retire e).matQ = k.matQ.filter (fun x => x.seq ≠ e.seq) := by
  rw [Core.retire, if_pos h]

theorem retire_more {k : Core} {e : QEnt} (h : e.drained + 1 < ceilDiv e.n 256) :
    (k.retire e).matQ = k.matQ.map (fun x => if x.seq = e.seq then { x with drained := x.drained + 1 } else x) := by
  rw [Core.retire, if_neg (Nat.not_le.2 h)]
  rfl

/-! The store shuttle's step. -/

/-- A row block's rows as they leave their edge bank: FP32 patterns and whether the last sum saturated (R106). -/
def edgeRows (e : QEnt) (job : DrainJob) : List (Nat × List (Nat × Bool)) :=
  (List.range (e.rows job.blk)).map (fun i =>
    (256 * job.blk + i, (List.range e.nc).map (fun j => drainEdge e.comp (FMap.get (0, 0) job.edge (64 * i + j)))))

/-- Their values. -/
def edgeValues (e : QEnt) (job : DrainJob) : List (Nat × List Fv) :=
  (edgeRows e job).map (fun p => (p.1, p.2.map (fun x => f32 x.1)))

theorem edgeValues_eq (e : QEnt) (job : DrainJob) : edgeValues e job =
    (List.range (e.rows job.blk)).map (fun i => (256 * job.blk + i, (List.range e.nc).map (fun j =>
      f32 (drainEdge e.comp (FMap.get (0, 0) job.edge (64 * i + j))).1))) := by
  simp [edgeValues, edgeRows, Function.comp_def]

/-- The state when a block's values are counted, before its written result is. -/
def countedBlock (s : State) (c : Nat) (e : QEnt) (job : DrainJob) : State :=
  drainCounts s c job.blk e ((edgeRows e job).foldl (fun n p => n + (p.2.filter Prod.snd).length) 0)
    ((edgeValues e job).flatMap Prod.snd)

/-! What counting a block leaves of the state. -/

section Counted
variable (s : State) (c : Nat) (e : QEnt) (job : DrainJob) (w : Written)

theorem countedBlock_store_coreTags :
    CoreTags s ((countedBlock s c e job).countStore c e w) c ((.ARR_NONFINITE, c) :: drainRegs c) :=
  ((drainCounts_coreTags s c job.blk e _ _).mono (by simp)).trans (countStore_coreTags _ c e w)

theorem countedBlock_store_core (d : Nat) : ((countedBlock s c e job).countStore c e w).core d = s.core d := by
  rw [countStore_core, countedBlock, drainCounts_core]

theorem countedBlock_store_nonfinite : ((countedBlock s c e job).countStore c e w).f .ARR_NONFINITE c =
    satAdd (s.f .ARR_NONFINITE c) w.nonfin := by
  rw [countStore_nonfinite, countedBlock, (drainCounts_coreTags s c job.blk e _ _).2.1 _ _ (by simp [drainRegs])]

theorem countedBlock_store_scrAddr : ((countedBlock s c e job).countStore c e w).scrAddr c = s.scrAddr c := by
  have hregs := (countedBlock_store_coreTags s c e job w).2.1
  have hphys := physOf_congr c (fun n hn i => hregs n i (by
    simp only [List.mem_cons, List.not_mem_nil, or_false] at hn
    rcases hn with rfl | rfl <;> simp [drainRegs]))
  funext a
  rw [State.scrAddr, State.scrAddr, hphys]

theorem countedBlock_store_mem : ((countedBlock s c e job).countStore c e w).mem = s.mem := by
  rw [(countedBlock_store_coreTags s c e job w).1]

end Counted

/-- The state after a counted block is stored in core scratch and has left its edge bank. -/
def storedState (u : State) (c : Nat) (e : QEnt) (scratch : Memory) : State :=
  ((u.setStores { u.mem.st with scratch := scratch }).setCore c ((nextDrain (u.core c)).retire e)).showArr c

section Stored
variable (u : State) (c : Nat) (e : QEnt) (m : Memory)

theorem storedState_coreTags : CoreTags (u.setStores { u.mem.st with scratch := m }) (storedState u c e m) c
    [(.ARR_STATUS_ACTIVE, c), (.ARR_STATUS_MODE, c), (.ARR_STATUS_FACE_VALID, c)] :=
  ((CoreTags.refl _ c _).setCore _).showArr (by simp)

theorem storedState_core : (storedState u c e m).core c = (nextDrain (u.core c)).retire e := by
  rw [storedState, showArr_core, core_setCore_same]

theorem storedState_mem : (storedState u c e m).mem = { u.mem with st := { u.mem.st with scratch := m } } := by
  rw [(storedState_coreTags u c e m).1]
  rfl

end Stored

section Drain
variable {s : State} {c : Nat} {job : DrainJob} {rest : List DrainJob} {e : QEnt}
  (hworks : s.works c = true) (hdrains : (s.core c).arr.drains = job :: rest) (hmat : (s.core c).mat job.seq = some e)
  (hcopies : ∀ x ∈ (s.core c).shQ, x.seq < e.seq → bitAt x.word 47 = false) (hspace : dSpace e.c = 0)
  (hfuse : e.fuse = false)
include hworks hdrains hmat hcopies hspace hfuse

theorem storeDrain_eq :
    let w := convertRows (s.recipe (s.swOf c) e.tag) e.c (edgeValues e job)
    let u := countedBlock s c e job
    let v := (u.countStore c e w).putRows c (u.rq c e.c) e.c w
    storeDrain c s = (v.setCore c ((nextDrain (v.core c)).retire e)).showArr c := by
  have hbusy : (s.core c).shQ.any (fun x => x.seq < e.seq && bitAt x.word 47) = false := by
    simpa using hcopies
  unfold storeDrain
  simp only [hworks, hdrains, hmat, hbusy, tensorWaits_scratch hspace, hfuse, Bool.not_true, Bool.false_eq_true, if_false]
  rfl

theorem storeDrain_scratch :
    let w := convertRows (s.recipe (s.swOf c) e.tag) e.c (edgeValues e job)
    storeDrain c s = storedState ((countedBlock s c e job).countStore c e w) c e
      (writtenScratch (s.scrAddr c) e.c w s.mem.st.scratch) := by
  intro w
  have hmem := countedBlock_store_mem s c e job w
  have hput := putRows_scratch hspace ((countedBlock s c e job).countStore c e w) c ((countedBlock s c e job).rq c e.c) w
  rw [countedBlock_store_scrAddr] at hput
  rw [storeDrain_eq hworks hdrains hmat hcopies hspace hfuse, hput, storedState, ← hmem]
  rfl

end Drain

theorem exec_storeDrain_scratch {s : State} {c : Nat} {job : DrainJob} {rest : List DrainJob} {e : QEnt}
    (hu : s.up) (hc : c < 384) (hworks : s.works c = true) (hdrains : (s.core c).arr.drains = job :: rest)
    (hmat : (s.core c).mat job.seq = some e)
    (hcopies : ∀ x ∈ (s.core c).shQ, x.seq < e.seq → bitAt x.word 47 = false) (hspace : dSpace e.c = 0)
    (hfuse : e.fuse = false) :
    let w := convertRows (s.recipe (s.swOf c) e.tag) e.c (edgeValues e job)
    ∃ t, exec (.storeDrain c) s = .next t ∧ (t.core c).arr.drains = rest ∧
      (ceilDiv e.n 256 ≤ e.drained + 1 → (t.core c).matQ = (s.core c).matQ.filter (fun x => x.seq ≠ e.seq)) ∧
      (e.drained + 1 < ceilDiv e.n 256 → (t.core c).matQ =
        (s.core c).matQ.map (fun x => if x.seq = e.seq then { x with drained := x.drained + 1 } else x)) ∧
      t.mem.st.scratch = (s.putRows c (s.rq c e.c) e.c w).mem.st.scratch ∧
      (∀ a, (∀ p ∈ w.rows, a < s.scrAddr c (dRowAddr e.c p.1) ∨
          s.scrAddr c (dRowAddr e.c p.1) + (packRow (fmtWidth (dFmt e.c)) p.2).length ≤ a) →
        (∀ p ∈ w.scales, a ≠ s.scrAddr c p.1) → FMap.get 0 t.mem.st.scratch a = FMap.get 0 s.mem.st.scratch a) ∧
      t.mem = { s.mem with st := { s.mem.st with scratch := t.mem.st.scratch } } ∧
      t.f .ARR_NONFINITE c = satAdd (s.f .ARR_NONFINITE c) w.nonfin ∧ (∀ d, d ≠ c → t.core d = s.core d) ∧
      t = { s with regs := t.regs, cores := t.cores, mem := t.mem, tags := t.tags, out := [] } := by
  intro w
  have hrun := storeDrain_scratch (s := fresh s) hworks hdrains hmat hcopies hspace hfuse
  have htags := countedBlock_store_coreTags (fresh s) c e job w
  have hcounted := countedBlock_store_core (fresh s) c e job w
  have hnonfin := countedBlock_store_nonfinite (fresh s) c e job w
  have hmem := countedBlock_store_mem (fresh s) c e job w
  have hw : convertRows ((fresh s).recipe ((fresh s).swOf c) e.tag) e.c (edgeValues e job) = w := rfl
  simp only [hw] at hrun
  generalize (countedBlock (fresh s) c e job).countStore c e w = u at hrun htags hcounted hnonfin hmem
  generalize hm : writtenScratch ((fresh s).scrAddr c) e.c w (fresh s).mem.st.scratch = m at hrun
  obtain ⟨hrest, hregs, hcores⟩ := storedState_coreTags u c e m
  have hcore := storedState_core u c e m
  have hstored := storedState_mem u c e m
  generalize storedState u c e m = t at hrun hrest hregs hcores hcore hstored
  have ht : t = { s with regs := t.regs, cores := t.cores, mem := t.mem, tags := t.tags, out := [] } := by
    rw [hrest, htags.1]
    rfl
  have hmemt : t.mem = { s.mem with st := { s.mem.st with scratch := m } } := by
    rw [hstored, hmem]
    rfl
  have hwrap : wrap s t = t := by
    rw [ht]
    rfl
  rw [hcounted] at hcore
  refine ⟨t, ?_, ?_, fun hlast => ?_, fun hmore => ?_, ?_, fun a hrows hscales => ?_, ?_, ?_, fun d hd => ?_, ht⟩
  · rw [exec_storeDrain, act_up (coreOk_of_lt hc) hu, hrun, hwrap]
  · rw [hcore, retire_drains]
    exact congrArg List.tail hdrains
  · rw [hcore, retire_last hlast]
    rfl
  · rw [hcore, retire_more hmore]
    rfl
  · rw [hmemt, putRows_scratch hspace, ← hm]
    rfl
  · rw [hmemt, ← hm]
    exact get_writtenScratch_other _ hrows hscales
  · rw [hmemt]
  · rw [hregs _ _ (by simp)]
    exact hnonfin
  · rw [hcores d hd]
    exact hcounted d

end Sys2Proof.Proofs
end

section
/-! A copy's clause of O24 (R75), and O24. -/

namespace Sys2Proof.Proofs

open Sys2Proof.Machine Sys2Proof.Laws

/-! A copy from scratch to scratch. -/

section Scratch
variable {a b : Nat} (ha : dSpace a = 0) (hb : dSpace b = 0) {s t : State} (h : ScratchOnly s t)
include ha hb h

theorem copyRow_scratch (c i : Nat) : ScratchOnly s (t.copyRow c a b i) := by
  unfold State.copyRow
  simp only [State.operand, ha, hb, if_true]
  split
  · exact h.putOperand _ _ _ _ rfl
  · exact h.putOperand _ _ _ _ rfl

theorem copyScale_scratch (c n : Nat) (p : Nat × Nat) : ScratchOnly s (t.copyScale c a b n p) := by
  unfold State.copyScale
  rw [gather_stays (fun q => readScale_scratch ha t c q.1 q.2)]
  exact h.putOperand _ _ _ _ hb

end Scratch

/-- The state after a copy's rows and then its block scales. -/
def copied (s : State) (c a b n : Nat) : State :=
  (scaleBlocks b n (dCols a)).foldl (fun t p => t.copyScale c a b n p)
    ((List.range n).foldl (fun t i => t.copyRow c a b i) s)

theorem copied_scratch {a b : Nat} (ha : dSpace a = 0) (hb : dSpace b = 0) (s : State) (c n : Nat) :
    ScratchOnly s (copied s c a b n) :=
  ((ScratchOnly.refl s).foldl _ (fun _ i h => copyRow_scratch ha hb h c i)).foldl _
    (fun _ p h => copyScale_scratch ha hb h c n p)

/-! The command. -/

/-- A core's context without a copy that has run. -/
def withoutCopy (k : Core) (seq : Nat) : Core := { k with shQ := k.shQ.filter (fun x => x.seq ≠ seq) }

theorem cpyTransfer_copies {s : State} {c eng : Nat} {e : QEnt} (hworks : s.works c = true)
    (hfind : (s.core c).shQ.find? (fun e => bitAt e.word 47 = (eng = 1)) = some e)
    (hbehind : ∀ x ∈ (s.core c).matQ, x.seq < e.seq → eng = 0 ∧ x.steps ≤ x.staged) (hgo : e.wst = true → e.go = true)
    (ha : s.tensorWaits (s.rq c (e.descs.getD 0 0)) (e.descs.getD 0 0) e.copyRows false = none)
    (hb : s.tensorWaits (s.rq c (e.descs.getD 1 0)) (e.descs.getD 1 0) e.copyRows true = none) :
    let u := copied s c (e.descs.getD 0 0) (e.descs.getD 1 0) e.copyRows
    cpyTransfer c eng s = u.setCore c (withoutCopy (u.core c) e.seq) := by
  have hidle : ((s.core c).matQ.any (fun x => x.seq < e.seq && (eng = 1 || x.staged < x.steps)) || (e.wst && !e.go)) =
      false := by
    rw [Bool.or_eq_false_iff]
    constructor
    · rw [List.any_eq_false]
      intro x hx
      have := hbehind x hx
      simp only [Bool.and_eq_true, Bool.or_eq_true, decide_eq_true_eq]
      omega
    · cases hwst : e.wst with
      | false => rfl
      | true => rw [hgo hwst]; rfl
  unfold cpyTransfer
  simp only [hworks, hfind, hidle, ha, hb, Bool.not_true, Bool.false_eq_true, if_false]
  rfl

theorem exec_cpyTransfer_copies {s : State} {c eng : Nat} {e : QEnt} (hu : s.up) (hc : c < 384) (heng : eng < 2)
    (hworks : s.works c = true) (hfind : (s.core c).shQ.find? (fun e => bitAt e.word 47 = (eng = 1)) = some e)
    (hbehind : ∀ x ∈ (s.core c).matQ, x.seq < e.seq → eng = 0 ∧ x.steps ≤ x.staged) (hgo : e.wst = true → e.go = true) :
    let a := e.descs.getD 0 0
    let b := e.descs.getD 1 0
    (fresh s).tensorWaits (s.rq c a) a e.copyRows false = none →
    (fresh s).tensorWaits (s.rq c b) b e.copyRows true = none →
    let u := copied (fresh s) c a b e.copyRows
    ∃ t, exec (.cpyTransfer c eng) s = .next t ∧ (t.core c).shQ = (u.core c).shQ.filter (fun x => x.seq ≠ e.seq) ∧
      t.mem = u.mem ∧ t.regs = u.regs ∧
      (dSpace a = 0 → dSpace b = 0 →
        t = { s with cores := t.cores, mem := t.mem, out := [] } ∧ (∀ d, d ≠ c → t.core d = s.core d) ∧
        t.mem = { s.mem with st := { s.mem.st with scratch := t.mem.st.scratch } } ∧
        t.core c = { s.core c with shQ := (s.core c).shQ.filter (fun x => x.seq ≠ e.seq) }) := by
  intro a b ha hb u
  have hrun : cpyTransfer c eng (fresh s) = u.setCore c (withoutCopy (u.core c) e.seq) :=
    cpyTransfer_copies (s := fresh s) hworks hfind hbehind hgo ha hb
  have hscratch (hsrc : dSpace a = 0) (hdst : dSpace b = 0) : ScratchOnly (fresh s) u :=
    copied_scratch hsrc hdst (fresh s) c e.copyRows
  have hok : (coreOk c && eng < 2) = true := by simp [coreOk_of_lt hc, heng]
  rw [exec_cpyTransfer, act_up hok hu, hrun]
  clear_value u
  have hcore : (wrap s (u.setCore c (withoutCopy (u.core c) e.seq))).core c = withoutCopy (u.core c) e.seq := by
    rw [core_read_wrap, core_setCore_same]
  refine ⟨_, rfl, by rw [hcore]; rfl, rfl, rfl, fun hsrc hdst => ?_⟩
  have hu' := hscratch hsrc hdst
  have hcores (d : Nat) : u.core d = s.core d := by rw [hu']; rfl
  refine ⟨?_, fun d hd => ?_, congrArg State.mem hu', ?_⟩
  · rw [hu']
    rfl
  · rw [core_read_wrap, core_setCore, if_neg hd.symm, hcores]
  · rw [hcore, hcores]
    rfl

/-- Settles O24: the load shuttle's two parts of a step, the store shuttle's block, and a copy. -/
theorem shuttlesStageDrainAndCopy : Obligations.ShuttlesStageDrainAndCopy := by
  refine ⟨fun s c e hu hc hst hawake hnext hk => ⟨?_, fun x => ?_⟩,
    fun s c job rest e hu hc hworks hdrains hmat hcopies hspace hfuse => ?_,
    fun s c eng e hu hc heng hworks hfind hbehind hgo => ?_⟩
  · exact exec_loadShuttleStage_tile hu hc hst hawake hnext hk
  · exact exec_loadShuttleStage_rows hu hc hst hawake hnext hk
  · rw [← edgeValues_eq]
    exact exec_storeDrain_scratch hu hc hworks hdrains hmat hcopies hspace hfuse
  · exact exec_cpyTransfer_copies hu hc heng hworks hfind hbehind hgo

end Sys2Proof.Proofs
end

section
/-! SUPPORT. The store of swatch descriptors, SRAM (R22, R349): a descriptor field is read back as it was written, and the
tier layer's own work (R272 to R284), which moves bolts between their homes, leaves SRAM alone. -/

namespace Sys2Proof.Proofs

open Sys2Proof.Machine Sys2Proof.Laws

/-! A field of a descriptor, read back. -/

@[simp] theorem leBytes_length (v n : Nat) : (leBytes v n).length = n := by
  induction n generalizing v with
  | zero => rfl
  | succ n ih => simp [leBytes, ih]

theorem leNat_leBytes (v n : Nat) : leNat (leBytes v n) = v % 2 ^ (8 * n) := by
  induction n generalizing v with
  | zero => simp [leBytes, leNat, Nat.mod_one]
  | succ n ih =>
    rw [leBytes, leNat, ih, BitVec.toNat_ofNat, Nat.mul_succ, Nat.add_comm (8 * n), pow_add, Nat.mod_mul]
    rfl

/-- A field within the bits that a number is cut to is the number's own. -/
theorem bitField_mod {lo w m : Nat} (h : lo + w ≤ m) (v : Nat) : bitField (v % 2 ^ m) lo w = bitField v lo w := by
  refine Nat.eq_of_testBit_eq fun i => ?_
  simp only [bitField, Nat.testBit_mod_two_pow, Nat.testBit_shiftRight]
  by_cases hi : i < w
  · rw [decide_eq_true (show lo + i < m by omega), Bool.true_and]
  · simp [hi]

theorem leNat_bytes_write (d : Byte) (m : Memory) (a v n : Nat) :
    leNat (Memory.bytes d (Memory.write d m a (leBytes v n)) a n) = v % 2 ^ (8 * n) := by
  have hbytes := bytes_write d m a (leBytes v n)
  rw [leBytes_length] at hbytes
  rw [hbytes, leNat_leBytes]

theorem desc_setDesc_same (s : State) (k lo w v : Nat) : (s.setDesc k lo w v).desc k lo w = v % 2 ^ w := by
  simp only [State.desc, State.setDesc, mem_setStores]
  rw [leNat_bytes_write, bitField_mod (by omega), bitField_setBits_same]

/-- A descriptor reads alike where SRAM is the same. -/
theorem desc_congr {s t : State} (h : t.mem.st.sram = s.mem.st.sram) (k lo w : Nat) : t.desc k lo w = s.desc k lo w := by
  rw [State.desc, State.desc, h]

/-! What leaves SRAM alone. -/

theorem sram_foldl {α : Type} {g : State → α → State} (hg : ∀ u x, (g u x).mem.st.sram = u.mem.st.sram) (l : List α)
    (s : State) : (l.foldl g s).mem.st.sram = s.mem.st.sram :=
  List.foldlRecOn (motive := fun t => t.mem.st.sram = s.mem.st.sram) _ _ rfl (fun t ht x _ => (hg t x).trans ht)

@[simp] theorem state_ok (t : State) : (TierAct.ok t).state = t := rfl
@[simp] theorem state_wait (t : State) (c : Nat) : (TierAct.wait t c).state = t := rfl
@[simp] theorem state_fail (t : State) (c : Nat) : (TierAct.fail t c).state = t := rfl
@[simp] theorem state_held (t : State) : (TierAct.held t).state = t := rfl

/-! Results and waits. -/

@[simp] theorem mem_interruptPart (s : State) (p c : Nat) : (s.interruptPart p c).mem = s.mem := by
  rw [interruptPart_regsOut]

@[simp] theorem mem_post (s : State) (part slot : Nat) (irq : Bool) (r : Result) : (s.post part slot irq r).mem = s.mem := by
  unfold State.post
  dsimp only
  split
  · exact mem_interruptPart _ _ _
  · rfl

@[simp] theorem mem_tierResult (s : State) (q : TierReq) (status entry : Nat) :
    (s.tierResult q status entry).mem = s.mem := by
  unfold State.tierResult
  split
  · rfl
  · exact mem_post _ _ _ _ _

@[simp] theorem sram_endWaits (s : State) (key : Nat) : (s.endWaits key).mem.st.sram = s.mem.st.sram := by
  unfold State.endWaits
  refine sram_foldl (fun u w => ?_) _ s
  split
  · rfl
  · rfl

@[simp] theorem sram_waitOn (s : State) (k cause key : Nat) : (s.waitOn k cause key).mem.st.sram = s.mem.st.sram := by
  unfold State.waitOn State.waitAs
  split
  · rfl
  · rfl

@[simp] theorem sram_heldFail (s : State) (h : HeldReq) : (s.heldFail h).mem.st.sram = s.mem.st.sram := by
  unfold State.heldFail
  split
  · rfl
  · simp

/-! Locations freed. -/

@[simp] theorem sram_freeLoc (s : State) (tier loc : Nat) : (s.freeLoc tier loc).mem.st.sram = s.mem.st.sram := by
  unfold State.freeLoc
  split
  · rfl
  · split
    · rfl
    · rfl

@[simp] theorem sram_freeBolt (s : State) (b : Nat) : (s.freeBolt b).mem.st.sram = s.mem.st.sram := by
  unfold State.freeBolt
  extract_lets e held a g f
  have hfree : f.mem.st.sram = s.mem.st.sram := (sram_freeLoc a _ _).trans rfl
  clear_value f
  exact (sram_foldl sram_heldFail _ _).trans hfree

/-! The start of moves. -/

@[simp] theorem sram_reserveWaits (s : State) (b : Nat) (m : MoveRec) (cause : Nat) :
    (s.reserveWaits b m cause).mem.st.sram = s.mem.st.sram := sram_waitOn _ _ _ _

@[simp] theorem sram_deferEvict (s : State) (b t : Nat) : (s.deferEvict b t).mem.st.sram = s.mem.st.sram := rfl

@[simp] theorem sram_moveReserve (b : Nat) (s : State) : (moveReserve b s).mem.st.sram = s.mem.st.sram := by
  unfold moveReserve
  split
  · rfl
  · split
    · rfl
    · extract_lets e k near take try1
      have htry (u : State) (dt : Nat) : (try1 u dt).mem.st.sram = u.mem.st.sram := by
        simp only [try1]
        split
        · exact sram_reserveWaits _ _ _ _
        · split
          · exact sram_reserveWaits _ _ _ _
          · split
            · exact sram_reserveWaits _ _ _ _
            · rfl
      clear_value try1
      split
      · split
        · simp
        · simp
      · split
        · split
          · simp
          · split
            · exact htry _ _
            · simp [htry]
            · split
              · rfl
              · simp
        · split
          · simp
          · exact htry _ _

@[simp] theorem sram_startMove (s : State) (b : Nat) (up : Bool) (dtier place cls : Nat) (inTier : Bool) :
    (s.startMove b up dtier place cls inTier).state.mem.st.sram = s.mem.st.sram := by
  unfold State.startMove
  split
  · rfl
  · exact sram_moveReserve b _

@[simp] theorem sram_holdReq (s : State) (b : Nat) (h : HeldReq) :
    (s.holdReq b h).state.mem.st.sram = s.mem.st.sram := by
  unfold State.holdReq
  split
  · rfl
  · rfl

@[simp] theorem sram_overtake (s : State) (b : Nat) (m : MoveRec) (h : HeldReq) :
    (s.overtake b m h).state.mem.st.sram = s.mem.st.sram := by
  unfold State.overtake
  extract_lets w t
  have ht : t.mem.st.sram = s.mem.st.sram := sram_moveReserve b _
  clear_value t
  split
  · split
    · exact ht
    · exact sram_holdReq s b h
  · exact ht

/-! Promotes and evictions. -/

@[simp] theorem sram_joinUp (s : State) (b : Nat) (h : HeldReq) : (s.joinUp b h).state.mem.st.sram = s.mem.st.sram := by
  unfold State.joinUp
  split
  · split
    · rfl
    · split
      · simp
      · simp
  · rfl

@[simp] theorem sram_joinDown (s : State) (b : Nat) (h : HeldReq) :
    (s.joinDown b h).state.mem.st.sram = s.mem.st.sram := by
  unfold State.joinDown
  split
  · split
    · rfl
    · split
      · simp
      · simp
  · rfl

@[simp] theorem sram_promoteAt (s : State) (b t place cls k : Nat) (req : Option TierReq) :
    (s.promoteAt b t place cls k req).state.mem.st.sram = s.mem.st.sram := by
  unfold State.promoteAt
  extract_lets e h
  split
  · rfl
  · split
    · split
      · rfl
      · split
        · simp
        · simp
    · simp

@[simp] theorem sram_evict (s : State) (b t cls k : Nat) (req : Option TierReq) :
    (s.evict b t cls k req).state.mem.st.sram = s.mem.st.sram := by
  unfold State.evict
  extract_lets e h
  split
  · rfl
  · split
    · split
      · rfl
      · split
        · simp
        · split
          · simp
          · simp
    · split
      · simp
      · simp

/-! The end of moves. -/

@[simp] theorem sram_settleBolt (s : State) (b : Nat) : (s.settleBolt b).mem.st.sram = s.mem.st.sram := by
  unfold State.settleBolt
  extract_lets e t u
  split
  · rfl
  · split
    · split
      · simp
      · rfl
    · split
      · have hevict := sram_evict (u.setMem { u.mem with pendTier := FMap.erase u.mem.pendTier b }) b t 3 e.owner none
        split
        · rfl
        · exact hevict
      · rfl

@[simp] theorem sram_heldOne (b : Nat) (s : State) (h : HeldReq) :
    (State.heldOne b s h).mem.st.sram = s.mem.st.sram := by
  unfold State.heldOne
  extract_lets a
  have ha : a.state.mem.st.sram = s.mem.st.sram := by
    simp only [a]
    split
    · simp
    · simp
  clear_value a
  cases h.req with
  | none => exact ha
  | some q =>
    cases a with
    | ok t =>
      dsimp only
      split
      · simpa using ha
      · simpa using ha
    | wait t cause => exact ha
    | fail t status => simpa using ha
    | held t => exact ha

@[simp] theorem sram_afterMove (s : State) (b : Nat) (held : List HeldReq) :
    (s.afterMove b held).mem.st.sram = s.mem.st.sram := by
  unfold State.afterMove
  dsimp only
  split
  · exact (sram_foldl sram_heldFail _ _).trans (sram_settleBolt s b)
  · exact (sram_foldl (sram_heldOne b) _ _).trans (sram_settleBolt s b)

@[simp] theorem sram_abandonMove (s : State) (b : Nat) : (s.abandonMove b).mem.st.sram = s.mem.st.sram := by
  unfold State.abandonMove
  dsimp only
  split
  · rfl
  · simp

@[simp] theorem sram_cancelMove (s : State) (b : Nat) : (s.cancelMove b).mem.st.sram = s.mem.st.sram := sram_abandonMove s b

theorem sram_andThen (a : TierAct) {f : State → State} (hf : ∀ u, (f u).mem.st.sram = u.mem.st.sram) :
    (a.andThen f).state.mem.st.sram = a.state.mem.st.sram := by
  cases a with
  | ok t => exact hf t
  | wait t cause => exact hf t
  | fail t status => exact hf t
  | held t => exact hf t

@[simp] theorem sram_promote (s : State) (b t place cls k : Nat) (req : Option TierReq) :
    (s.promote b t place cls k req).state.mem.st.sram = s.mem.st.sram := by
  unfold State.promote
  extract_lets e h held v
  split
  · simp
  · split
    · rw [sram_andThen _ (fun u => sram_afterMove u b _)]
      simp
    · have hv : v.mem.st.sram = s.mem.st.sram := by
        simp only [v]
        split
        · rfl
        · rfl
      rw [sram_holdReq, hv]

/-! Prefetch and release (R283, R284). -/

@[simp] theorem sram_orQueue (a : TierAct) (op tier place k b : Nat) :
    (a.orQueue op tier place k b).mem.st.sram = a.state.mem.st.sram := by
  cases a with
  | ok t => rfl
  | wait t cause => rfl
  | fail t status => rfl
  | held t => rfl

@[simp] theorem sram_passOne (s : State) (k op tier place b : Nat) :
    (s.passOne k op tier place b).mem.st.sram = s.mem.st.sram := by
  unfold State.passOne
  dsimp only
  split
  · rfl
  · rw [sram_orQueue]
    split
    · simp
    · simp

@[simp] theorem sram_prefPass (s : State) (k l : Nat) (release : Bool) :
    (s.prefPass k l release).mem.st.sram = s.mem.st.sram := by
  unfold State.prefPass
  refine sram_foldl (fun u v => ?_) _ s
  split
  · rfl
  · dsimp only
    split
    · split
      · exact sram_foldl (fun x b => sram_passOne x k 3 _ 0 b) _ u
      · rfl
    · split
      · exact sram_foldl (fun x b => sram_passOne x k 2 _ _ b) _ u
      · rfl

/-- L is as the change set it: the walks of the list move bolts and leave the descriptor. -/
theorem layerTo_layer (s : State) (k l : Nat) : (s.layerTo k l).desc k 1920 16 = l % 2 ^ 16 := by
  rw [State.layerTo, desc_congr ((sram_prefPass _ k l false).trans (sram_prefPass _ k l true)), desc_setDesc_same]

theorem layerZero_layer (s : State) (k : Nat) : (s.layerZero k).desc k 1920 16 = 0 := by
  unfold State.layerZero
  split
  · assumption
  · exact layerTo_layer s k 0

end Sys2Proof.Proofs
end

section
/-! O39: the step boundary (R121, R207, R211, R284, R369, R405, R464). -/

namespace Sys2Proof.Proofs

open Sys2Proof.Machine Sys2Proof.Laws

/-! The swatch's cores. -/

/-- A core that shows no step: idle, not broken, without an array fault and with its context cleared. -/
def ShowsIdle (c : Nat) (t : State) : Prop :=
  t.f .CORE_STATUS_STATE c = 0 ∧ t.f .CORE_STATUS_BROKEN c = 0 ∧ t.f .ARR_FAULT_VALID c = 0 ∧ t.core c = {}

/-- One core of `State.idleCores`. -/
def idleCore (s : State) (c : Nat) : State :=
  ((((s.setCore c {}).showArr c).showVec c).setF .ARR_FAULT_VALID c 0 |>.setF .CORE_STATUS_BROKEN c 0).setF
    .CORE_STATUS_STATE c 0

theorem idleCores_eq (s : State) (k : Nat) : s.idleCores k = (s.swCores k).foldl idleCore s := rfl

theorem idleCore_core (s : State) (c x : Nat) : (idleCore s c).core x = if c = x then {} else s.core x := by
  simp [idleCore, State.showVec, State.showArr, core_setCore]

theorem idleCore_f {n : FieldName} (hn : n ∈ [.CORE_STATUS_STATE, .CORE_STATUS_BROKEN, .ARR_FAULT_VALID]) (s : State)
    (c x : Nat) : (idleCore s c).f n x = if c = x then 0 else s.f n x := by
  simp only [List.mem_cons, List.not_mem_nil, or_false] at hn
  rcases hn with rfl | rfl | rfl <;> simp [idleCore, State.showVec, State.showArr, f_setF]

theorem idleCore_showsIdle (s : State) (c : Nat) : ShowsIdle c (idleCore s c) := by
  simp [ShowsIdle, idleCore_f, idleCore_core]

theorem ShowsIdle.idleCore {c : Nat} {s : State} (h : ShowsIdle c s) (d : Nat) : ShowsIdle c (idleCore s d) := by
  by_cases hd : d = c
  · subst hd
    exact idleCore_showsIdle s d
  · simpa [ShowsIdle, idleCore_f, idleCore_core, hd] using h

theorem idleCores_showsIdle {s : State} {k c : Nat} (hc : c ∈ s.swCores k) : ShowsIdle c (s.idleCores k) := by
  obtain ⟨l₁, l₂, hl⟩ := List.append_of_mem hc
  rw [idleCores_eq, hl, List.foldl_append, List.foldl_cons]
  exact List.foldlRecOn _ _ (idleCore_showsIdle _ c) (fun t ht d _ => ht.idleCore d)

/-! The order of the work. -/

/-- An engine none of whose bolts is denied does its work as it stands (R271). -/
theorem withShare_allowed {s : State} {k : Nat} {rd wr : List Nat} (hrd : ∀ b ∈ rd, s.boltDenied k b false = false)
    (hwr : ∀ b ∈ wr, s.boltDenied k b true = false) (f : State → State) : s.withShare k rd wr f = f s := by
  have hnoRead : rd.filter (fun b => s.boltDenied k b false) = [] := by simpa using hrd
  have hnoWrite : wr.filter (fun b => s.boltDenied k b true) = [] := by simpa using hwr
  unfold State.withShare
  simp only [hnoRead, hnoWrite]
  rfl

/-! The output of an earlier command bears on no condition of the boundary. -/

@[simp] theorem atBoundary_fresh (s : State) (k : Nat) : (fresh s).atBoundary k = s.atBoundary k := rfl
@[simp] theorem tagTables_fresh (s : State) (k : Nat) : (fresh s).tagTables k = s.tagTables k := rfl
@[simp] theorem boltsServed_fresh (s : State) (k : Nat) (rd wr : List Nat) :
    (fresh s).boltsServed k rd wr = s.boltsServed k rd wr := rfl

/-- Settles O39: the work of the boundary in its order; the swatch's cores, its run and its descriptor after it. -/
theorem stepBoundaryClosesStep : Obligations.StepBoundaryClosesStep := by
  intro s k hu hk hat tables hserved r v a hallowed b c e g h l w
  have hrest : g.sw k = ((e.idleCores k).sw k).rest := sw_setSw_same _ k _
  refine ⟨?_, congrArg SwRun.started hrest, congrArg SwRun.final hrest, congrArg SwRun.cause hrest,
    congrArg SwRun.bit0 hrest, fun x hx => idleCores_showsIdle hx, desc_setDesc_same _ _ _ _ _, layerZero_layer _ k⟩
  rw [exec_stepBoundary, act_up (by simpa using hk) hu, stepBoundary]
  extract_lets run verdict kept remapped folded
  rw [if_neg (by simpa using hat), if_neg (by simpa using hserved)]
  have hfolded : folded = (a.streams (a.tagTables k) (a.tagTables k)).foldTags k v :=
    withShare_allowed (fun b hb => (hallowed b hb).1) (fun b hb => (hallowed b hb).2) _
  clear_value folded
  subst hfolded
  rfl

end Sys2Proof.Proofs
end

section
/-! O16: a vector word that passes its checks, with room in its queue, joins it (R131 to R135). -/

namespace Sys2Proof.Proofs

open Sys2Proof.Machine Sys2Proof.Laws

/-- Settles O16: the thirteen commands run one step of the sequencer, which queues what passes its checks. -/
theorem vectorWordsQueue : Obligations.VectorWordsQueue := by
  intro s c op tx ty tz tr fn n wst hu hc h hn hcheck hroom i hi his
  have hrun := exec_word (exec_vectorCommands s c i hi) hu hc h his
  have hnone : n ≠ 0 := Nat.ne_of_gt hn
  have hfull : ¬ 16 ≤ (s.core c).vecQ.length := Nat.not_le.2 hroom
  simp only [slot_fresh, vecCheck_fresh, core_read_fresh, hcheck, hnone, hfull, ne_eq, not_true_eq_false,
    if_false] at hrun
  rw [hrun]
  exact ⟨_, rfl, setCore_issued s c (k := { s.core c with
    vecQ := (s.core c).vecQ ++ [s.entry c (s.wordAt c) [s.slot c tx, s.slot c ty, s.slot c tz, s.slot c tr]] }) rfl⟩

end Sys2Proof.Proofs
end

section
/-! SUPPORT. A context written twice; operations that change nothing but registers and the counts of tags; results and
records written to core scratch. -/

namespace Sys2Proof.Proofs

open Sys2Proof.Machine Sys2Proof.Laws

/-! A second write at a key replaces the first. -/

section Maps
variable {α : Type}

theorem insert_insert (m : FMap α) (k : Nat) (v w : α) : FMap.insert (FMap.insert m k v) k w = FMap.insert m k w := by
  induction m with
  | nil => simp [FMap.insert]
  | cons p m ih =>
    obtain ⟨j, x⟩ := p
    by_cases hkj : k = j
    · simp [FMap.insert, hkj]
    · by_cases hlt : k < j
      · simp [FMap.insert, hkj, hlt]
      · simp [FMap.insert, hkj, hlt, ih]

theorem erase_insert (m : FMap α) (k : Nat) (v : α) : FMap.erase (FMap.insert m k v) k = FMap.erase m k := by
  induction m with
  | nil => simp [FMap.insert, FMap.erase]
  | cons p m ih =>
    obtain ⟨j, x⟩ := p
    unfold FMap.erase at ih ⊢
    by_cases hkj : k = j
    · simp [FMap.insert, hkj]
    · by_cases hlt : k < j
      · simp [FMap.insert, hkj, hlt]
      · simp [FMap.insert, hkj, hlt, ih, List.filter_cons]

theorem set_set [DecidableEq α] {d v : α} (hv : v ≠ d) (m : FMap α) (k : Nat) (w : α) :
    FMap.set d (FMap.set d m k v) k w = FMap.set d m k w := by
  simp only [FMap.set, if_neg hv, insert_insert, erase_insert]

end Maps

/-- A context with a vector word in progress is not the empty one, so that a later write of the core replaces it. -/
theorem setCore_busy_setCore (s : State) (c : Nat) {k : Core} (hk : k.vec.busy = true) (w : Core) :
    (s.setCore c k).setCore c w = s.setCore c w := by
  have hne : k ≠ {} := by
    rintro rfl
    cases hk
  simp only [State.setCore, set_set hne]

/-! Operations that count. -/

/-- Two states that differ by registers and the counts of tags. -/
def CountsOnly (s t : State) : Prop := t = { s with regs := t.regs, tags := t.tags }

namespace CountsOnly

variable {s t u : State}

theorem refl (s : State) : CountsOnly s s := rfl

theorem trans (h : CountsOnly s t) (k : CountsOnly t u) : CountsOnly s u := by
  unfold CountsOnly at *
  rw [k, h]

theorem setF (h : CountsOnly s t) (n : FieldName) (i v : Nat) : CountsOnly s (t.setF n i v) := h.trans rfl

theorem setTag (h : CountsOnly s t) (k tag : Nat) (v : TagAcc) : CountsOnly s (t.setTag k tag v) := h.trans rfl

theorem satVec (h : CountsOnly s t) (c k tag n : Nat) : CountsOnly s (t.satVec c k tag n) := by
  unfold State.satVec
  split
  · exact h
  · exact (((h.setF _ _ _).setTag k tag _).setF _ _ _).setF _ _ _

theorem binAll (h : CountsOnly s t) (k tag : Nat) (vs : List Fv) : CountsOnly s (t.binAll k tag vs) := by
  unfold State.binAll
  split
  · exact h
  · exact h.setTag _ _ _

theorem firstUse (h : CountsOnly s t) (c k tag : Nat) : CountsOnly s (t.firstUse c k tag) :=
  (h.setF _ _ _).setTag _ _ _

theorem core_eq (h : CountsOnly s t) (d : Nat) : t.core d = s.core d := by
  rw [h]
  rfl

theorem mem_eq (h : CountsOnly s t) : t.mem = s.mem := by rw [h]

end CountsOnly

/-! Results and records in core scratch. -/

namespace ScratchOnly

variable {s t : State}

theorem putRows (h : ScratchOnly s t) (c : Nat) (q : Rq) {z : Nat} (hz : dSpace z = 0) (w : Written) :
    ScratchOnly s (t.putRows c q z w) :=
  (h.foldl _ (fun _ _ hu => hu.putOperand c q _ _ hz)).foldl _ (fun _ _ hu => hu.putOperand c q _ _ hz)

theorem putRec (h : ScratchOnly s t) (c i : Nat) {d : Nat} (hd : dSpace d = 0) (r : Nat × Nat × Nat) :
    ScratchOnly s (t.putRec c d i r) := h.putOperand _ _ _ _ hd

theorem core_eq (h : ScratchOnly s t) (d : Nat) : t.core d = s.core d := by
  rw [h]
  rfl

end ScratchOnly

end Sys2Proof.Proofs
end

section
/-! O25: a chunk of a vector word (R127, R130). -/

namespace Sys2Proof.Proofs

open Sys2Proof.Machine Sys2Proof.Laws

/-! The vector unit's step. -/

/-- Does the word write under the first-use rule (R155)? -/
def isFirstUse (s : State) (c : Nat) (e : QEnt) : Bool := decide (e.op = 0x32) && s.atFirstUse (s.swOf c) e.vz

/-- The grants of the traffic of the word's next chunk (R127). -/
def chunkGrants (s : State) (c : Nat) (e : QEnt) : Nat := ceilDiv (chunkBytes e (isFirstUse s c e) (s.core c).vec) 64

/-- A core's context with its vector word in progress. -/
def inProgress (k : Core) : Core := { k with vec := { k.vec with busy := true } }

/-- The word in progress shown (R157). -/
def shown (s : State) (c : Nat) (e : QEnt) : State := (s.raise .VEC_STATUS_BUSY c).setF .VEC_STATUS_OP c e.op

/-- The state in which a chunk with its grants spent is done. -/
def spent (s : State) (c : Nat) (e : QEnt) : State :=
  ((shown s c e).setCore c
    { inProgress (s.core c) with grants := (s.core c).grants - chunkGrants s c e }).tally .VEC_BUSY c 1

/-- The position after the chunk, and whether the word ends. -/
def afterChunk (s : State) (c : Nat) (e : QEnt) : VecSt × Bool :=
  nextChunk e (isFirstUse s c e) (chunkOf (spent s c e) c e (isFirstUse s c e) (inProgress (s.core c)).vec)

/-- A core whose context holds a word in progress shows it. -/
theorem showVec_inProgress (s : State) (c : Nat) (k : Core) :
    (s.setCore c (inProgress k)).showVec c = (s.setCore c (inProgress k)).raise .VEC_STATUS_BUSY c := by
  rw [State.showVec, core_setCore_same]
  rfl

theorem spent_eq (s : State) (c : Nat) (e : QEnt) :
    spent s c e = ((((s.setCore c (inProgress (s.core c))).showVec c).setF .VEC_STATUS_OP c e.op).setCore c
      { inProgress (s.core c) with grants := (s.core c).grants - chunkGrants s c e }).tally .VEC_BUSY c 1 := by
  rw [showVec_inProgress]
  exact congrArg (fun t => (shown t c e).tally .VEC_BUSY c 1) (setCore_busy_setCore s c rfl _).symm

/-- The oldest word's next chunk: a stall without its grants, otherwise the chunk and the position after it. -/
theorem vectorChunk_eq {s : State} {c : Nat} {e : QEnt} {rest : List QEnt} (hworks : s.works c = true)
    (hq : (s.core c).vecQ = e :: rest) (hgo : e.wst = true → e.go = true) :
    vectorChunk c s =
      if (s.core c).grants < chunkGrants s c e then
        (shown (s.setCore c (inProgress (s.core c))) c e).tally .VEC_STALL_SCRATCH c 1
      else if (afterChunk s c e).2 then (spent s c e).vecEnd c e (afterChunk s c e).1
      else (spent s c e).setCore c { (spent s c e).core c with vec := (afterChunk s c e).1 } := by
  have hbegun : ¬ ((e.wst && !e.go) = true) := by simpa using hgo
  rw [shown, ← showVec_inProgress, afterChunk, spent_eq]
  unfold vectorChunk
  dsimp only
  rw [if_neg (by simp [hworks])]
  split
  case h_1 hnil => cases hq.symm.trans hnil
  case h_2 hcons =>
    obtain ⟨rfl, -⟩ := List.cons.inj (hq.symm.trans hcons)
    rw [if_neg hbegun]
    rfl

/-! The end of a word. -/

/-- The rows of results of a word, without the rows it leaves out. -/
def vecResults (e : QEnt) (v : VecSt) : List (Nat × List Fv) :=
  ((if vecT e.op e.fn then transposed e.walk v.out else v.out).zipIdx.map (fun p => (p.2, p.1))).filter
    (fun p => !p.2.isEmpty)

/-- The state when a word's results are counted and binned. -/
def vecCounted (s : State) (c : Nat) (e : QEnt) (v : VecSt) (w : Written) : State :=
  let u := if !(vecResults e v).isEmpty && s.atFirstUse (s.swOf c) e.vz then s.firstUse c (s.swOf c) (dTag e.vz) else s
  let nonfin := v.nonfin + (if e.op = 0x31 && v.nonfin ≠ 0 then 0 else w.nonfin)
  (((u.satVec c (s.swOf c) e.vtag (v.sat + w.sat)).tally .VEC_NONFINITE c nonfin).tally .VEC_EMPTY_NORM c v.empty).binAll
    (s.swOf c) (dTag e.vz) ((vecResults e v).flatMap Prod.snd)

theorem vecCounted_countsOnly (s : State) (c : Nat) (e : QEnt) (v : VecSt) (w : Written) :
    CountsOnly s (vecCounted s c e v w) := by
  unfold vecCounted
  dsimp only
  refine CountsOnly.binAll (((CountsOnly.satVec ?_ _ _ _ _).setF _ _ _).setF _ _ _) _ _ _
  split
  · exact (CountsOnly.refl s).firstUse _ _ _
  · exact CountsOnly.refl s

/-- The state when a word's results and records are written. -/
def vecStored (s : State) (c : Nat) (e : QEnt) (v : VecSt) : State :=
  let w := convertRows (s.recipe (s.swOf c) (dTag e.vz)) e.vz (vecResults e v)
  let u := vecCounted s c e v w
  v.recs.foldl (fun t r => t.putRec c e.vr r.1 r.2) (u.putRows c (u.rq c e.vz) e.vz w)

/-- A core's context when a vector word has left its queue. -/
def withoutVec (k : Core) (seq : Nat) : Core := { k with vec := {}, vecQ := k.vecQ.filter (fun x => x.seq ≠ seq) }

theorem vecEnd_eq (s : State) (c : Nat) (e : QEnt) (v : VecSt) :
    s.vecEnd c e v = ((vecStored s c e v).setCore c (withoutVec ((vecStored s c e v).core c) e.seq)).showVec c := rfl

theorem vecEnd_core_same (s : State) (c : Nat) (e : QEnt) (v : VecSt) :
    (s.vecEnd c e v).core c = withoutVec ((vecStored s c e v).core c) e.seq := by
  rw [vecEnd_eq, State.showVec, core_read_setF, core_setCore_same]

theorem vecEnd_busy (s : State) (c : Nat) (e : QEnt) (v : VecSt) : (s.vecEnd c e v).f .VEC_STATUS_BUSY c = 0 := by
  rw [vecEnd_eq, State.showVec, core_setCore_same]
  exact f_setF_same _ _ c _

theorem withoutVec_seq {k : Core} {seq : Nat} {x : QEnt} (h : x ∈ (withoutVec k seq).vecQ) : x.seq ≠ seq := by
  simpa using (List.mem_filter.1 h).2

section Scratch
variable {e : QEnt} (hz : dSpace e.vz = 0) (hr : dSpace e.vr = 0)
include hz hr

/-- With its operands in core scratch a word's end changes nothing but counts and that store. -/
theorem vecStored_scratch (s : State) (c : Nat) (v : VecSt) :
    ∃ u, CountsOnly s u ∧ ScratchOnly u (vecStored s c e v) :=
  ⟨_, vecCounted_countsOnly s c e v _,
    ((ScratchOnly.refl _).putRows c _ hz _).foldl _ (fun _ _ hu => hu.putRec c _ hr _)⟩

theorem vecStored_core (s : State) (c : Nat) (v : VecSt) (d : Nat) : (vecStored s c e v).core d = s.core d := by
  obtain ⟨u, hcounts, hscratch⟩ := vecStored_scratch hz hr s c v
  rw [hscratch.core_eq, hcounts.core_eq]

theorem vecStored_rest (s : State) (c : Nat) (v : VecSt) :
    let t := vecStored s c e v
    t = { s with
      regs := t.regs, tags := t.tags, mem := { s.mem with st := { s.mem.st with scratch := t.mem.st.scratch } } } := by
  obtain ⟨u, hcounts, hscratch⟩ := vecStored_scratch hz hr s c v
  intro t
  change t = _ at hscratch
  rw [hscratch, State.setStores, hcounts]

end Scratch

/-! The command. -/

section Command
variable {s : State} {c : Nat} {e : QEnt} {rest : List QEnt} (hu : s.up) (hc : c < 384) (hworks : s.works c = true)
  (hq : (s.core c).vecQ = e :: rest) (hgo : e.wst = true → e.go = true)
include hu hc hworks hq hgo

theorem exec_vectorChunk_stalls (hneed : (s.core c).grants < chunkGrants s c e) :
    ∃ t, exec (.vectorChunk c) s = .next t ∧
      t.f .VEC_STALL_SCRATCH c = satAdd (s.f .VEC_STALL_SCRATCH c) 1 ∧ t.f .VEC_STATUS_BUSY c = 1 ∧
      CoreOnly s t c [(.VEC_STALL_SCRATCH, c), (.VEC_STATUS_BUSY, c), (.VEC_STATUS_OP, c)] ∧
      t.core c = inProgress (s.core c) := by
  rw [exec_vectorChunk, act_up (coreOk_of_lt hc) hu, vectorChunk_eq (s := fresh s) hworks hq hgo,
    if_pos (show ((fresh s).core c).grants < chunkGrants (fresh s) c e from hneed)]
  refine ⟨_, rfl, ?_, ?_, CoreOnly.wrap ?_, ?_⟩
  · rw [f_read_wrap, f_tally_same _ _ _ rfl]
    simp [shown, f_setF]
  · simp [shown, f_setF, fieldDesc]
  · exact ((((coreOnly_fresh s c _).setCore _).setF _ (by simp)).setF _ (by simp)).setF _ (by simp)
  · exact core_setCore_same _ _ _

theorem exec_vectorChunk_runs (hneed : chunkGrants s c e ≤ (s.core c).grants) :
    exec (.vectorChunk c) s = .next (wrap s
      (let u := spent (fresh s) c e
      let r := afterChunk (fresh s) c e
      if r.2 then u.vecEnd c e r.1 else u.setCore c { u.core c with vec := r.1 })) := by
  rw [exec_vectorChunk, act_up (coreOk_of_lt hc) hu, vectorChunk_eq (s := fresh s) hworks hq hgo,
    if_neg (show ¬ ((fresh s).core c).grants < chunkGrants (fresh s) c e from Nat.not_lt.2 hneed)]

/-- A chunk that is not the word's last. -/
theorem exec_vectorChunk_goesOn (hneed : chunkGrants s c e ≤ (s.core c).grants)
    (hmore : (afterChunk (fresh s) c e).2 = false) :
    ∃ t, exec (.vectorChunk c) s = .next t ∧ t.f .VEC_BUSY c = satAdd (s.f .VEC_BUSY c) 1 ∧
      t.f .VEC_STATUS_BUSY c = 1 ∧ t.core c = { s.core c with
        grants := (s.core c).grants - chunkGrants s c e, vec := (afterChunk (fresh s) c e).1 } ∧
      CoreOnly s t c [(.VEC_BUSY, c), (.VEC_STATUS_BUSY, c), (.VEC_STATUS_OP, c)] := by
  have hcore : (spent (fresh s) c e).core c =
      { inProgress (s.core c) with grants := (s.core c).grants - chunkGrants s c e } := core_setCore_same _ _ _
  rw [exec_vectorChunk_runs hu hc hworks hq hgo hneed]
  dsimp only
  rw [hmore, if_neg (by decide), hcore]
  refine ⟨_, rfl, ?_, ?_, core_setCore_same _ _ _, CoreOnly.wrap ?_⟩
  · rw [f_read_wrap, f_read_setCore, spent, f_tally_same _ _ _ rfl]
    simp [shown, f_setF]
  · simp [spent, shown, f_setF, fieldDesc]
  · exact (((((coreOnly_fresh s c _).setF _ (by simp)).setF _ (by simp)).setCore _).setF _ (by simp)).setCore _

/-- A word's last chunk. -/
theorem exec_vectorChunk_ends (hneed : chunkGrants s c e ≤ (s.core c).grants)
    (hlast : (afterChunk (fresh s) c e).2 = true) :
    ∃ t, exec (.vectorChunk c) s = .next t ∧ t.f .VEC_STATUS_BUSY c = 0 ∧ (t.core c).vec = {} ∧
      (∀ x ∈ (t.core c).vecQ, x.seq ≠ e.seq) ∧
      (dSpace e.vz = 0 → dSpace e.vr = 0 →
        t.core c = { s.core c with
          grants := (s.core c).grants - chunkGrants s c e, vec := {},
          vecQ := (s.core c).vecQ.filter (fun x => x.seq ≠ e.seq) } ∧
        (∀ d, d ≠ c → t.core d = s.core d) ∧
        t.mem = { s.mem with st := { s.mem.st with scratch := t.mem.st.scratch } } ∧
        t = { s with regs := t.regs, cores := t.cores, mem := t.mem, tags := t.tags, out := [] }) := by
  have hspent (d : Nat) : (spent (fresh s) c e).core d = if c = d then
      { inProgress (s.core c) with grants := (s.core c).grants - chunkGrants s c e } else s.core d :=
    core_setCore _ _ _ _
  rw [exec_vectorChunk_runs hu hc hworks hq hgo hneed]
  dsimp only
  rw [hlast, if_pos rfl]
  generalize (afterChunk (fresh s) c e).1 = v
  have hcore := vecEnd_core_same (spent (fresh s) c e) c e v
  refine ⟨_, rfl, vecEnd_busy _ _ _ _, ?_, fun x hx => ?_, fun hz hr => ?_⟩
  · rw [core_read_wrap, hcore]
    rfl
  · rw [core_read_wrap, hcore] at hx
    exact withoutVec_seq hx
  · have hstored := vecStored_core hz hr (spent (fresh s) c e) c v
    have hrest := vecStored_rest hz hr (spent (fresh s) c e) c v
    refine ⟨?_, fun d hd => ?_, ?_, ?_⟩
    · rw [core_read_wrap, hcore, hstored, hspent, if_pos rfl]
      rfl
    · rw [core_read_wrap, vecEnd_eq, State.showVec, core_read_setF, core_setCore, if_neg hd.symm, hstored, hspent,
        if_neg hd.symm]
    · exact congrArg State.mem hrest
    · rw [vecEnd_eq, hrest]
      rfl

end Command

/-- Settles O25: the stall, a chunk after which the word goes on, and the word's last chunk. -/
theorem vectorChunkSpendsGrants : Obligations.VectorChunkSpendsGrants := fun _ _ _ _ hu hc hworks hq hgo =>
  ⟨exec_vectorChunk_stalls hu hc hworks hq hgo, fun hneed => ⟨exec_vectorChunk_goesOn hu hc hworks hq hgo hneed,
    exec_vectorChunk_ends hu hc hworks hq hgo hneed⟩⟩

end Sys2Proof.Proofs
end

section
/-! SUPPORT. What the accesses of an engine change (R242 to R245, R264, R272): reads and writes pass the base caches;
writes reach the stores and mark granules of moves as dirty. -/

namespace Sys2Proof.Proofs

open Sys2Proof.Machine Sys2Proof.Laws

/-! Reads of device memory. -/

/-- Two states in which every device address and every descriptor reads alike: the stores, the directory, the ways of the
pockets, the stacks in service and the base of T3 are the same. -/
structure ReadsAlike (s t : State) : Prop where
  st : t.mem.st = s.mem.st
  dir : t.mem.dir = s.mem.dir
  ways : t.mem.ways = s.mem.ways
  status : ∀ i, t.f .BASE_STATUS_STATE i = s.f .BASE_STATUS_STATE i
  t3Base : t.f .TIER_T3_BASE_BASE 0 = s.f .TIER_T3_BASE_BASE 0

namespace ReadsAlike

variable {s t : State} (h : ReadsAlike s t)
include h

theorem dirE_eq (b : Nat) : t.dirE b = s.dirE b := by rw [State.dirE, h.dir, State.dirE]

theorem homeLive_eq (a : Nat) : t.homeLive a = s.homeLive a := by
  simp only [State.homeLive, h.dirE_eq, h.status]

theorem homePlace_eq (a : Nat) : t.homePlace a = s.homePlace a := by
  have hway : t.way = s.way := by
    funext r w
    simp only [State.way, h.ways]
  have hwindow (r k o : Nat) : t.windowAddr r k o = s.windowAddr r k o := by
    unfold State.windowAddr State.waysOf
    rw [hway]
  simp only [State.homePlace, State.placeOf, h.dirE_eq, hwindow, h.t3Base]

theorem devBytes_eq (fuel a n : Nat) : t.devBytes fuel a n = s.devBytes fuel a n := by
  induction fuel generalizing a n with
  | zero => rfl
  | succ fuel ih =>
    unfold State.devBytes
    simp only [h.homeLive_eq, h.homePlace_eq, h.st, ih]

theorem devNat_eq (a n : Nat) : t.devNat a n = s.devNat a n := by simp only [State.devNat, State.dev, h.devBytes_eq]

theorem devNats_eq (a w n : Nat) : t.devNats a w n = s.devNats a w n := by
  simp only [State.devNats, State.dev, h.devBytes_eq]

theorem desc_eq (k lo w : Nat) : t.desc k lo w = s.desc k lo w := desc_congr (by rw [h.st]) k lo w

theorem span_eq (k i : Nat) : t.span k i = s.span k i := by simp only [State.span, h.devNat_eq, h.desc_eq]

theorem group_eq (k i : Nat) : t.group k i = s.group k i := by simp only [State.group, h.devNat_eq, h.desc_eq]

theorem pendAt_eq (k j : Nat) : t.pendAt k j = s.pendAt k j := by
  simp only [State.pendAt, State.pendSize, State.pendCols, State.spans, State.spanCount, h.span_eq, h.group_eq, h.desc_eq]

theorem pendHead_eq (k j : Nat) : t.pendHead k j = s.pendHead k j := by
  simp only [State.pendHead, h.devNat_eq, h.pendAt_eq]

end ReadsAlike

/-! The base caches. -/

/-- The counters of the base caches. -/
def cacheFields : List FieldName := [.BASE_HIT, .BASE_MISS, .BASE_DALU_DROP]

/-- Two states that differ by requests that have passed the base caches. -/
def Cached (s t : State) : Prop :=
  t = { s with regs := t.regs, mem := { s.mem with cache := t.mem.cache, plru := t.mem.plru, tick := t.mem.tick } } ∧
    ∀ n i, n ∉ cacheFields → t.f n i = s.f n i

namespace Cached

theorem refl (s : State) : Cached s s := ⟨rfl, fun _ _ _ => rfl⟩

variable {s t u : State}

theorem trans (h : Cached s t) (k : Cached t u) : Cached s u :=
  ⟨by rw [k.1, h.1], fun n i hn => (k.2 n i hn).trans (h.2 n i hn)⟩

theorem tally (h : Cached s t) {n : FieldName} (i k : Nat) (hn : n ∈ cacheFields) : Cached s (t.tally n i k) :=
  h.trans ⟨rfl, fun m j hm => by rw [tally_eq, f_setF, if_neg (by rintro ⟨rfl, -⟩; exact hm hn)]⟩

theorem setLines (h : Cached s t) (c : FMap (Option CLine)) (p : FMap Nat) (k : Nat) :
    Cached s (t.setMem { t.mem with cache := c, plru := p, tick := k }) :=
  h.trans ⟨rfl, fun _ _ _ => rfl⟩

theorem use (h : Cached s t) : Cached s t.use := h.setLines _ _ _

theorem foldl {α : Type} (h : Cached s t) (l : List α) {g : State → α → State} (hg : ∀ u a, Cached u (g u a)) :
    Cached s (l.foldl g t) := List.foldlRecOn _ _ h (fun u hu a _ => hu.trans (hg u a))

theorem touchWay (h : Cached s t) (set w : Nat) (l : CLine) : Cached s (touchWay t set w l) := (h.setLines _ _ _).use

theorem allocLine (h : Cached s t) (st set : Nat) (l : CLine) : Cached s (t.allocLine st set l) := by
  unfold State.allocLine
  extract_lets lines free ordinary keeps pick
  clear_value free ordinary keeps pick
  split
  · cases lruKeep lines l.part with
    | some w => exact h.touchWay _ _ _
    | none => exact h
  · cases free with
    | some w => exact h.touchWay _ _ _
    | none =>
      dsimp only
      split
      · exact h.touchWay _ _ _
      · exact h.touchWay _ _ _

theorem cacheAccess (h : Cached s t) (st slot granule hint uses part : Nat) (write : Bool) :
    Cached s (t.cacheAccess st slot granule hint uses part write) := by
  have hhit : Cached s (t.tally .BASE_HIT st 1) := h.tally _ _ (by decide)
  have hmiss : Cached s (t.tally .BASE_MISS st 1) := h.tally _ _ (by decide)
  unfold State.cacheAccess
  extract_lets set n hit
  clear_value hit
  cases hit with
  | some p =>
    dsimp -zeta only
    extract_lets keeps kept written line
    clear_value line
    split
    · exact (hhit.setLines _ _ _).tally _ _ (by decide)
    · exact hhit.touchWay _ _ _
  | none =>
    dsimp only
    split
    · exact hmiss
    · split
      · exact hmiss.tally _ _ (by decide)
      · exact hmiss.allocLine _ _ _

theorem streamHome (h : Cached s t) (loc o n : Nat) (write : Bool) : Cached s (t.streamHome loc o n write) := by
  unfold State.streamHome
  split
  · exact h
  · exact h.foldl _ (fun u i => (refl u).cacheAccess _ _ _ _ _ _ _)

theorem streamOver (h : Cached s t) (write : Bool) (fuel a n : Nat) : Cached s (t.streamOver write fuel a n) := by
  induction fuel generalizing t a n with
  | zero => exact h
  | succ fuel ih =>
    unfold State.streamOver
    extract_lets here e t'
    have ht' : Cached s t' := by
      simp only [t']
      split
      · exact h.streamHome _ _ _ _
      · exact h
    clear_value t'
    split
    · exact ih ht' _ _
    · exact ht'

theorem streams (h : Cached s t) (rd wr : List (Nat × Nat)) : Cached s (t.streams rd wr) := by
  have hgo (write : Bool) (u : State) (r : Nat × Nat) :
      Cached u (if r.2 = 0 then u else u.streamOver write (r.2 / 65536 + 2) r.1 r.2) := by
    split
    · exact refl u
    · exact (refl u).streamOver _ _ _ _
  exact (h.foldl rd (hgo false)).foldl wr (hgo true)

/-! What such requests leave alone. -/

theorem st_eq (h : Cached s t) : t.mem.st = s.mem.st := by rw [h.1]

theorem dirE_eq (h : Cached s t) (b : Nat) : t.dirE b = s.dirE b := by rw [h.1]; rfl

theorem readsAlike (h : Cached s t) : ReadsAlike s t where
  st := h.st_eq
  dir := by rw [h.1]
  ways := by rw [h.1]
  status _ := h.2 _ _ (by decide)
  t3Base := h.2 _ _ (by decide)

theorem farBolts_eq (h : Cached s t) (st : Nat) (l : List (Nat × Nat)) : t.farBolts st l = s.farBolts st l := by
  simp only [State.farBolts, h.dirE_eq]

end Cached

/-! The stores. -/

/-- Two states that differ by bytes written at device addresses: the stores but for the descriptors' SRAM, and the marks of
dirty granules. -/
def Stored (s t : State) : Prop :=
  t = { s with mem := { s.mem with st := t.mem.st, moves := t.mem.moves } } ∧ t.mem.st.sram = s.mem.st.sram

namespace Stored

theorem refl (s : State) : Stored s s := ⟨rfl, rfl⟩

variable {s t u : State}

theorem trans (h : Stored s t) (k : Stored t u) : Stored s u := ⟨by rw [k.1, h.1], k.2.trans h.2⟩

theorem foldl {α : Type} (h : Stored s t) (l : List α) {g : State → α → State} (hg : ∀ u a, Stored u (g u a)) :
    Stored s (l.foldl g t) := List.foldlRecOn _ _ h (fun u hu a _ => hu.trans (hg u a))

theorem write (h : Stored s t) (p : Place) (bs : List Byte) : Stored s (t.setStores (t.mem.st.write p bs)) := by
  refine h.trans ⟨rfl, ?_⟩
  cases p with
  | hbm a => rfl
  | pocket a => rfl
  | flash a => rfl
  | host a => rfl

theorem markDirty (h : Stored s t) (b : Nat) (gs : List Nat) : Stored s (t.markDirty b gs) := by
  unfold State.markDirty
  split
  · exact h
  · split
    · exact h.trans ⟨rfl, rfl⟩
    · exact h

theorem devPut (h : Stored s t) (fuel a : Nat) (bs : List Byte) : Stored s (t.devPut a bs fuel) := by
  induction fuel generalizing t a bs with
  | zero => exact h
  | succ fuel ih =>
    unfold State.devPut
    extract_lets here t'
    have ht' : Stored s t' := by
      simp only [t']
      split
      · exact (h.write _ _).markDirty _ _
      · exact h
    clear_value t'
    split
    · exact ih ht' _ _
    · exact ht'

theorem putDev (h : Stored s t) (a : Nat) (bs : List Byte) : Stored s (t.putDev a bs) := h.devPut _ a bs

theorem putDevNat (h : Stored s t) (a v n : Nat) : Stored s (t.putDevNat a v n) := h.putDev a _

theorem putPlane (h : Stored s t) (base b : Nat) (p : Nat × List Nat) : Stored s (t.putPlane base b p) := h.putDev _ _

theorem putWork (h : Stored s t) (v b : Nat) (ws : List Fv) : Stored s (t.putWork v b ws) := by
  unfold State.putWork
  extract_lets padded q u
  refine putDevNat (h.foldl _ (fun x i => ?_)) _ _ _
  split
  · exact refl x
  · exact (refl x).putDevNat _ _ _

theorem zeroTails (h : Stored s t) (wide : Bool) (v : Nat) : Stored s (t.zeroTails wide v) := by
  unfold State.zeroTails
  split
  · exact h
  · exact h.foldl _ (fun x i => (refl x).putDev _ _)

theorem f_eq (h : Stored s t) (n : FieldName) (i : Nat) : t.f n i = s.f n i := by rw [h.1]; rfl

theorem dirE_eq (h : Stored s t) (b : Nat) : t.dirE b = s.dirE b := by rw [h.1]; rfl

end Stored

/-! Both together. -/

/-- Two states that differ by reads and writes of an engine. -/
def Accessed (s t : State) : Prop :=
  t = { s with regs := t.regs, mem := t.mem } ∧ MemOnly s.mem t.mem ∧ SameButCache s t []

theorem memOnly_trans {m n o : Mem} (h : MemOnly m n) (k : MemOnly n o) : MemOnly m o := by
  unfold MemOnly at *
  rw [k, h]

namespace Accessed

variable {s t u : State}

theorem trans (h : Accessed s t) (k : Accessed t u) : Accessed s u :=
  ⟨by rw [k.1, h.1], memOnly_trans h.2.1 k.2.1, fun n i hn hi => (k.2.2 n i hn hi).trans (h.2.2 n i hn hi)⟩

theorem of_cached (h : Cached s t) : Accessed s t :=
  ⟨by rw [h.1], by rw [h.1]; rfl, fun n i hn _ => h.2 n i hn⟩

theorem of_stored (h : Stored s t) : Accessed s t :=
  ⟨by rw [h.1], by rw [h.1]; rfl, fun n i _ _ => h.f_eq n i⟩

end Accessed

/-! An engine whose bolts are served and not denied. -/

/-- Such an engine works at once, on what it finds behind the base caches (R264, R271). -/
theorem engineAs_free {s : State} {k : Nat} {rd wr : List (Nat × Nat)} (h : s.engineFree k rd wr) (stuck : Bool)
    (f : State → State) : s.engineAs k rd wr stuck f = f (s.streams rd wr) := by
  obtain ⟨hserved, hread, hwrite⟩ := h
  unfold State.engineAs
  rw [if_pos hserved, withShare_allowed hread hwrite]

theorem engine_free {s : State} {k : Nat} {rd wr : List (Nat × Nat)} (h : s.engineFree k rd wr) (f : State → State) :
    s.engine k rd wr f = f (s.streams rd wr) := engineAs_free h false f

theorem engineFree_fresh {s : State} {k : Nat} {rd wr : List (Nat × Nat)} (h : s.engineFree k rd wr) :
    (fresh s).engineFree k rd wr := h

end Sys2Proof.Proofs
end

section
/-! SUPPORT. The queue of a press (R182, R194, R195) after a job has left it, and frames that leave the base caches'
counters aside. -/

namespace Sys2Proof.Proofs

open Sys2Proof.Machine Sys2Proof.Laws

/-! Registers beside the base caches' counters. -/

theorem sameButCache_trans {s t u : State} {l : List (FieldName × Nat)} (h : SameButCache s t l) (k : SameButCache t u l) :
    SameButCache s u l := fun n i hn hi => (k n i hn hi).trans (h n i hn hi)

theorem sameButCache_mono {s t : State} {l k : List (FieldName × Nat)} (h : SameButCache s t l) (hl : l ⊆ k) :
    SameButCache s t k := fun n i hn hi => h n i hn (fun hm => hi (hl hm))

theorem sameButCache_of_sameRegs {s t : State} {l : List (FieldName × Nat)} (h : SameRegs s t l) : SameButCache s t l :=
  fun n i _ hi => h n i hi

theorem sameRegs_tally (s : State) (n : FieldName) (i k : Nat) : SameRegs s (s.tally n i k) [(n, i)] :=
  sameRegs_setF (sameRegs_refl s _) _ (by simp)

/-! The queue of a press. -/

/-- The registers that show a press's queue. -/
def queueRegs (st : Nat) : List (FieldName × Nat) :=
  [(.PRESS_STATUS_STATE, st), (.PRESS_STATUS_SPAN, st), (.PRESS_STATUS_SWATCH, st), (.PRESS_QUEUE_DEPTH, st)]

theorem setJobs_rest (s : State) (st : Nat) (l : List PressJob) :
    s.setJobs st l = { s with regs := (s.setJobs st l).regs, pressQ := FMap.set [] s.pressQ st l } := by
  cases l with
  | nil => rfl
  | cons j l => rfl

theorem setJobs_jobs (s : State) (st : Nat) (l : List PressJob) (p : Nat) :
    (s.setJobs st l).jobs p = if st = p then l else s.jobs p := by
  rw [setJobs_rest]
  exact get_set _ _ _ _ _

@[simp] theorem mem_setJobs (s : State) (st : Nat) (l : List PressJob) : (s.setJobs st l).mem = s.mem := by
  rw [setJobs_rest]

@[simp] theorem sw_setJobs (s : State) (st : Nat) (l : List PressJob) (k : Nat) : (s.setJobs st l).sw k = s.sw k := by
  rw [setJobs_rest]
  rfl

@[simp] theorem doms_setJobs (s : State) (st : Nat) (l : List PressJob) : (s.setJobs st l).doms = s.doms := by
  rw [setJobs_rest]

@[simp] theorem ports_setJobs (s : State) (st : Nat) (l : List PressJob) : (s.setJobs st l).ports = s.ports := by
  rw [setJobs_rest]

@[simp] theorem thm_setJobs (s : State) (st : Nat) (l : List PressJob) : (s.setJobs st l).thm = s.thm := by
  rw [setJobs_rest]

theorem setJobs_sameRegs (s : State) (st : Nat) (l : List PressJob) : SameRegs s (s.setJobs st l) (queueRegs st) := by
  have hdepth : SameRegs s ({ s with pressQ := FMap.set [] s.pressQ st l }.setF .PRESS_QUEUE_DEPTH st (natMin l.length 1023))
      (queueRegs st) := sameRegs_setF (sameRegs_refl s _) _ (by simp [queueRegs])
  cases l with
  | nil => exact sameRegs_setF hdepth _ (by simp [queueRegs])
  | cons j l =>
    exact sameRegs_setF (sameRegs_setF (sameRegs_setF hdepth _ (by simp [queueRegs])) _ (by simp [queueRegs])) _
      (by simp [queueRegs])

/-- PRESS_STATUS.STATE names the kind of the front job (R194). -/
theorem setJobs_state (s : State) (st : Nat) (l : List PressJob) : (s.setJobs st l).f .PRESS_STATUS_STATE st =
    ((l.head?.map (fun j => j.kind + 1)).getD 0) % 2 ^ (fieldDesc .PRESS_STATUS_STATE).width := by
  cases l with
  | nil => exact f_setF_same _ _ _ _
  | cons j l => simp [State.setJobs, f_setF]

/-- PRESS_QUEUE.DEPTH counts the jobs (R195). -/
theorem setJobs_depth (s : State) (st : Nat) (l : List PressJob) :
    (s.setJobs st l).f .PRESS_QUEUE_DEPTH st = natMin l.length 1023 := by
  have hfits : natMin l.length 1023 % 2 ^ 10 = natMin l.length 1023 := by
    unfold natMin
    split
    · omega
    · rfl
  cases l with
  | nil => simp [State.setJobs, f_setF, natMin]
  | cons j l => simpa [State.setJobs, f_setF, fieldDesc] using hfits

end Sys2Proof.Proofs
end

section
/-! O31: a closing hop (R172, R173). -/

namespace Sys2Proof.Proofs

open Sys2Proof.Machine Sys2Proof.Laws

/-- A change of an open collective is a change of its domain alone. -/
theorem updColl_rest (s : State) (d seq : Nat) (f : Coll → Coll) :
    s.updColl d seq f = { s with doms := (s.updColl d seq f).doms } := by
  unfold State.updColl
  split
  · rfl
  · rfl

/-- An engine's accesses and the mark of a collective: the memories as `MemOnly` has them, the caches' counters, the domains. -/
theorem updColl_frame {s w : State} (h : Accessed (fresh s) w) (d seq : Nat) (f : Coll → Coll) :
    MemOnly s.mem (w.updColl d seq f).mem ∧ (w.updColl d seq f).sws = s.sws ∧
      w.updColl d seq f = { s with
        mem := (w.updColl d seq f).mem, regs := (w.updColl d seq f).regs, doms := (w.updColl d seq f).doms, out := [] } ∧
      SameButCache s (w.updColl d seq f) [] := by
  obtain ⟨hrest, hmem, hregs⟩ := h
  have hu := updColl_rest w d seq f
  generalize w.updColl d seq f = u at hu
  rw [hrest] at hu
  exact ⟨by rw [hu]; exact hmem, by rw [hu]; rfl, by rw [hu]; rfl, by rw [hu]; exact hregs⟩

/-- Settles O31: the hop reads the residuals behind the base caches as they stand, and writes two blocks and its own mark. -/
theorem closingHopWritesReducedBlock : Obligations.ClosingHopWritesReducedBlock := by
  intro s k span block c hu hk hfind d v len i half cur rd wr hfree y acc r u
  have hcached : Cached (fresh s) y := (Cached.refl _).streams rd wr
  have hres : y.devNats (half cur) 2 32 = s.devNats (half cur) 2 32 := hcached.readsAlike.devNats_eq _ _ _
  have hwritten : Accessed (fresh s) ((y.putDev (half (1 - cur)) ((newErrors r).flatMap (fun e => leBytes e 2))).putPlane
      (spRed v) block (quantE5M2 r)) :=
    (Accessed.of_cached hcached).trans (.of_stored (((Stored.refl y).putDev _ _).putPlane _ _ _))
  have hhop : closingHop k span block (fresh s) = u.advanceDom d := by
    unfold closingHop
    extract_lets d'
    split
    · rename_i hnone
      exact absurd (hfind.symm.trans hnone) (by simp)
    · rename_i c' hsome
      obtain rfl : c' = c := Option.some.inj (hsome.symm.trans hfind)
      refine (engine_free (engineFree_fresh hfree) _).trans ?_
      simp only [u, r, ← hres]
      rfl
  exact ⟨by rw [exec_closingHop, act_up (by simpa using hk) hu, hhop], updColl_frame hwritten _ _ _⟩

end Sys2Proof.Proofs
end

section
/-! O28: the updates of a span's blocks (R165, R169, R176, R183, R192) and the error pass of a foreign span (R184). -/

namespace Sys2Proof.Proofs

open Sys2Proof.Machine Sys2Proof.Laws

/-! What updates of blocks change. -/

/-- Two states that differ by updates of swatch `k`'s blocks in the press of stack `st`: what its accesses change, its
saturations and blocks counted, and the swatch's limited blocks and constants formed. -/
structure Updated (k st : Nat) (s t : State) : Prop where
  rest : t = { s with regs := t.regs, mem := t.mem, sws := t.sws }
  mem : MemOnly s.mem t.mem
  regs : SameButCache s t [(.PRESS_SAT, st), (.PRESS_BLOCKS, st)]
  others : ∀ j, j ≠ k → t.sw j = s.sw j
  own : t.sw k = { s.sw k with clipped := (t.sw k).clipped, formed := (t.sw k).formed }
  formed : (s.sw k).formed ⊆ (t.sw k).formed

namespace Updated

variable {k st : Nat} {s t u : State}

theorem refl (s : State) : Updated k st s s := ⟨rfl, rfl, fun _ _ _ _ => rfl, fun _ _ => rfl, rfl, fun _ hx => hx⟩

theorem trans (h : Updated k st s t) (h' : Updated k st t u) : Updated k st s u where
  rest := by rw [h'.rest, h.rest]
  mem := memOnly_trans h.mem h'.mem
  regs := sameButCache_trans h.regs h'.regs
  others j hj := (h'.others j hj).trans (h.others j hj)
  own := by rw [h'.own, h.own]
  formed := fun _ hx => h'.formed (h.formed hx)

theorem foldl {α : Type} (h : Updated k st s t) (l : List α) {g : State → α → State}
    (hg : ∀ u a, Updated k st u (g u a)) : Updated k st s (l.foldl g t) :=
  List.foldlRecOn _ _ h (fun u hu a _ => hu.trans (hg u a))

theorem accessed (h : Updated k st s t) (hu : Accessed t u) : Updated k st s u := by
  have hsw (j : Nat) : u.sw j = t.sw j := by rw [hu.1]; rfl
  exact h.trans ⟨by rw [hu.1], hu.2.1, sameButCache_mono hu.2.2 (List.nil_subset _), fun j _ => hsw j, by rw [hsw],
    by rw [hsw]; exact fun _ hx => hx⟩

theorem tally (h : Updated k st s t) {n : FieldName} (c : Nat)
    (hn : (n, st) ∈ [(FieldName.PRESS_SAT, st), (.PRESS_BLOCKS, st)]) : Updated k st s (t.tally n st c) :=
  h.trans ⟨rfl, rfl, sameButCache_of_sameRegs (sameRegs_setF (sameRegs_refl _ _) _ hn), fun _ _ => rfl, rfl,
    fun _ hx => hx⟩

theorem setSw (h : Updated k st s t) {r : SwRun} (hr : r = { t.sw k with clipped := r.clipped, formed := r.formed })
    (hformed : (t.sw k).formed ⊆ r.formed) : Updated k st s (t.setSw k r) := by
  have hown : (t.setSw k r).sw k = r := sw_setSw_same _ _ _
  exact h.trans ⟨rfl, rfl, fun _ _ _ _ => rfl, fun j hj => by rw [sw_setSw, if_neg hj.symm], by rw [hown]; exact hr,
    by rw [hown]; exact hformed⟩

theorem formConsts (h : Updated k st s t) (gi : Nat) : Updated k st s (t.formConsts k st gi) := by
  unfold State.formConsts
  split
  · exact h
  · exact (h.tally _ (by simp)).setSw rfl (List.subset_cons_self _ _)

theorem updateBlock (h : Updated k st s t) (v b : Nat) : Updated k st s (t.updateBlock k st v b) := by
  unfold State.updateBlock
  extract_lets gi g wide pad gr xs es bs x y
  have hx : Updated k st s x := h.accessed (.of_stored (((Stored.refl t).putDev _ _).putWork _ _ _))
  have hy : Updated k st s y := (hx.tally _ (by simp)).tally _ (by simp)
  clear_value y
  split
  · exact hy.setSw rfl (fun _ hm => hm)
  · exact hy

end Updated

/-- Once formed, a group's constants are noted with the swatch (R169). -/
theorem mem_formed_formConsts (s : State) (k st gi : Nat) : (st, gi) ∈ ((s.formConsts k st gi).sw k).formed := by
  unfold State.formConsts
  split
  · rename_i hformed
    simpa using hformed
  · rw [updSw_eq, sw_setSw_same]
    exact List.mem_cons_self

/-! An update job. -/

/-- What an update job reads. -/
def updateReads (s : State) (j : PressJob) : List (Nat × Nat) :=
  s.spanReads j.sw j.span (s.span j.sw j.span) ++ [(spRed (s.span j.sw j.span), 33 * spBlocks (s.span j.sw j.span))]

/-- The blocks of an update job's span after it, on what the engine finds behind the base caches. -/
def updatedSpan (s y : State) (st : Nat) (j : PressJob) : State :=
  let v := s.span j.sw j.span
  ((List.range (spBlocks v)).foldl (fun x b => x.updateBlock j.sw st v b) (y.formConsts j.sw st (spGroup v))).zeroTails
    (gWide (s.group j.sw (spGroup v))) v

/-- The far bolts of an update job's record, gradient and planes (R165). -/
def updateFar (s y : State) (st : Nat) (j : PressJob) : Nat :=
  y.farBolts st ((updateReads s j).drop 2 ++ s.updateWrites j.sw (s.span j.sw j.span))

/-- The cycles of an update job (R183, R192). -/
def updateCycles (s : State) (j : PressJob) : Nat :=
  let v := s.span j.sw j.span
  pressCycles (updateBytes (gWide (s.group j.sw (spGroup v))) (spRows v * spCols v) (spBlocks v))

/-- An update job counted (R165, R183, R192) and taken from its queue. -/
def endUpdate (x : State) (st far cycles : Nat) (rest : List PressJob) : State :=
  ((x.tally .PRESS_FAR st far).tally .PRESS_UPD_CYC st cycles).setJobs st rest

@[simp] theorem mem_endUpdate (x : State) (st far cycles : Nat) (rest : List PressJob) :
    (endUpdate x st far cycles rest).mem = x.mem := mem_setJobs _ _ _

@[simp] theorem sw_endUpdate (x : State) (st far cycles : Nat) (rest : List PressJob) (k : Nat) :
    (endUpdate x st far cycles rest).sw k = x.sw k := sw_setJobs _ _ _ _

/-- The registers that an update job changes, the base caches' counters aside. -/
def updateRegs (st : Nat) : List (FieldName × Nat) :=
  [(.PRESS_SAT, st), (.PRESS_BLOCKS, st), (.PRESS_FAR, st), (.PRESS_UPD_CYC, st),
    (.PRESS_STATUS_STATE, st), (.PRESS_STATUS_SPAN, st), (.PRESS_STATUS_SWATCH, st), (.PRESS_QUEUE_DEPTH, st)]

section UpdateJob
variable {s : State} {st : Nat} {j : PressJob} {rest : List PressJob}

theorem updateJob_free (hjobs : s.jobs st = j :: rest) (hkind : j.kind = 1)
    (hlive : ∀ b ∈ rangeBolts (updateReads s j ++ s.updateWrites j.sw (s.span j.sw j.span)),
      (s.dirE b).state ≠ 0 → (s.dirE b).tier = 1 → s.stackFenced (t1Stack (s.dirE b).home) = false)
    (hfree : s.engineFree j.sw (updateReads s j) (s.updateWrites j.sw (s.span j.sw j.span))) :
    updateJob st [] s =
      let y := s.streams (updateReads s j) (s.updateWrites j.sw (s.span j.sw j.span))
      endUpdate (updatedSpan s y st j) st (updateFar s y st j) (updateCycles s j) rest := by
  unfold updateJob
  split
  · rename_i hnil
    exact absurd (hjobs.symm.trans hnil) (by simp)
  · rename_i j' rest' hcons
    obtain ⟨rfl, rfl⟩ := List.cons.inj (hcons.symm.trans hjobs)
    rw [if_neg (by simp [hkind])]
    extract_lets v g n rd wr y
    have hserving : ∀ b ∈ rangeBolts (rd ++ wr), (s.dirE b).state ≠ 0 → (s.dirE b).tier = 1 →
        s.stackFenced (t1Stack (s.dirE b).home) = false := hlive
    rw [if_neg (by simpa using hserving)]
    exact engineAs_free hfree true _

theorem updatedBlocks_updated (y : State) (k v gi : Nat) (l : List Nat) (wide : Bool) : Updated k st (y.formConsts k st gi)
    ((l.foldl (fun x b => x.updateBlock k st v b) (y.formConsts k st gi)).zeroTails wide v) :=
  ((Updated.refl _).foldl l (fun u b => (Updated.refl u).updateBlock v b)).accessed
    (.of_stored ((Stored.refl _).zeroTails _ _))

theorem updatedSpan_updated (y : State) : Updated j.sw st y (updatedSpan s y st j) :=
  ((Updated.refl y).formConsts _).trans (updatedBlocks_updated y _ _ _ _ _)

theorem mem_formed_updatedSpan (y : State) :
    (st, spGroup (s.span j.sw j.span)) ∈ ((updatedSpan s y st j).sw j.sw).formed :=
  (updatedBlocks_updated y _ _ _ _ _).formed (mem_formed_formConsts y j.sw st _)

end UpdateJob

section EndUpdate
variable {s x : State} {k st : Nat} (far cycles : Nat) (rest : List PressJob) (h : Updated k st s x)
include h

theorem endUpdate_counts : (endUpdate x st far cycles rest).f .PRESS_UPD_CYC st = satAdd (s.f .PRESS_UPD_CYC st) cycles ∧
    (endUpdate x st far cycles rest).f .PRESS_FAR st = satAdd (s.f .PRESS_FAR st) far := by
  have hfar : (x.tally .PRESS_FAR st far).f .PRESS_FAR st = satAdd (s.f .PRESS_FAR st) far := by
    rw [f_tally_same _ _ _ rfl, h.regs _ _ (by decide) (by simp)]
  have hcyc : (x.tally .PRESS_FAR st far).f .PRESS_UPD_CYC st = s.f .PRESS_UPD_CYC st :=
    (sameRegs_tally _ _ _ _ _ _ (by simp)).trans (h.regs _ _ (by decide) (by simp))
  unfold endUpdate
  rw [setJobs_sameRegs _ _ _ _ _ (by simp [queueRegs]), setJobs_sameRegs _ _ _ _ _ (by simp [queueRegs]),
    f_tally_same _ _ _ rfl, hcyc]
  exact ⟨rfl, (sameRegs_tally _ _ _ _ _ _ (by simp)).trans hfar⟩

theorem endUpdate_sameButCache : SameButCache s (endUpdate x st far cycles rest) (updateRegs st) := by
  have hcounted : SameRegs x ((x.tally .PRESS_FAR st far).tally .PRESS_UPD_CYC st cycles) (updateRegs st) :=
    sameRegs_setF (sameRegs_setF (sameRegs_refl x _) _ (by simp [updateRegs])) _ (by simp [updateRegs])
  exact sameButCache_trans (sameButCache_mono h.regs (by simp [updateRegs]))
    (sameButCache_trans (sameButCache_of_sameRegs hcounted)
      (sameButCache_mono (sameButCache_of_sameRegs (setJobs_sameRegs _ st rest)) (by simp [queueRegs, updateRegs])))

theorem endUpdate_rest : endUpdate x st far cycles rest = { s with
    regs := (endUpdate x st far cycles rest).regs, mem := x.mem, sws := x.sws, pressQ := FMap.set [] s.pressQ st rest } := by
  unfold endUpdate
  rw [setJobs_rest]
  generalize (((x.tally .PRESS_FAR st far).tally .PRESS_UPD_CYC st cycles).setJobs st rest).regs = regs
  rw [h.rest]
  rfl

theorem endUpdate_jobs (p : Nat) : (endUpdate x st far cycles rest).jobs p = if st = p then rest else s.jobs p := by
  rw [endUpdate_rest far cycles rest h]
  exact get_set _ _ _ _ _

end EndUpdate


/-! A foreign error pass. -/

/-- The error plane of a foreign span after its pass. -/
def passedErrors (s y : State) (j : PressJob) : State :=
  let v := s.span j.sw j.span
  (List.range (spBlocks v)).foldl (fun (x : State) b => x.putDev (errAt false v b)
    ((newErrors (x.packValues false v b).1).flatMap (fun e => leBytes e 2))) y

/-- A foreign error pass counted (R165) and taken from its queue. -/
def endPass (x : State) (st far : Nat) (rest : List PressJob) : State := (x.tally .PRESS_FAR st far).setJobs st rest

@[simp] theorem mem_endPass (x : State) (st far : Nat) (rest : List PressJob) : (endPass x st far rest).mem = x.mem :=
  mem_setJobs _ _ _

/-- The registers that an error pass changes, the base caches' counters aside. -/
def passRegs (st : Nat) : List (FieldName × Nat) :=
  [(.PRESS_FAR, st), (.PRESS_STATUS_STATE, st), (.PRESS_STATUS_SPAN, st), (.PRESS_STATUS_SWATCH, st),
    (.PRESS_QUEUE_DEPTH, st)]

theorem foreignPass_free {s : State} {st : Nat} {j : PressJob} {rest : List PressJob} (hjobs : s.jobs st = j :: rest)
    (hkind : j.kind = 2) (hdone : s.jobsOf j.sw 1 = [])
    (hfree : s.engineFree j.sw (s.spanReads j.sw j.span (s.span j.sw j.span)) [s.recRange j.sw (s.span j.sw j.span)]) :
    foreignPass st s =
      let y := s.streams (s.spanReads j.sw j.span (s.span j.sw j.span)) [s.recRange j.sw (s.span j.sw j.span)]
      endPass (passedErrors s y j) st (y.farBolts st ((s.spanReads j.sw j.span (s.span j.sw j.span)).drop 2)) rest := by
  unfold foreignPass
  split
  · rename_i hnil
    exact absurd (hjobs.symm.trans hnil) (by simp)
  · rename_i j' rest' hcons
    obtain ⟨rfl, rfl⟩ := List.cons.inj (hcons.symm.trans hjobs)
    rw [if_neg (by simp [hkind, hdone])]
    exact engineAs_free hfree true _

theorem passedErrors_stored (s y : State) (j : PressJob) : Stored y (passedErrors s y j) :=
  (Stored.refl y).foldl _ (fun u _ => (Stored.refl u).putDev _ _)

section EndPass
variable {s x : State} {st : Nat} (far : Nat) (rest : List PressJob) (h : Accessed s x)
include h

theorem endPass_far : (endPass x st far rest).f .PRESS_FAR st = satAdd (s.f .PRESS_FAR st) far := by
  unfold endPass
  rw [setJobs_sameRegs _ _ _ _ _ (by simp [queueRegs]), f_tally_same _ _ _ rfl, h.2.2 _ _ (by decide) (by simp)]

theorem endPass_sameButCache : SameButCache s (endPass x st far rest) (passRegs st) := by
  have hcounted : SameRegs x (x.tally .PRESS_FAR st far) (passRegs st) :=
    sameRegs_setF (sameRegs_refl x _) _ (by simp [passRegs])
  exact sameButCache_trans (sameButCache_mono h.2.2 (List.nil_subset _)) (sameButCache_trans
    (sameButCache_of_sameRegs hcounted)
    (sameButCache_mono (sameButCache_of_sameRegs (setJobs_sameRegs _ st rest)) (by simp [queueRegs, passRegs])))

theorem endPass_rest : endPass x st far rest = { s with
    regs := (endPass x st far rest).regs, mem := x.mem, pressQ := FMap.set [] s.pressQ st rest } := by
  unfold endPass
  rw [setJobs_rest]
  generalize ((x.tally .PRESS_FAR st far).setJobs st rest).regs = regs
  rw [h.1]
  rfl

theorem endPass_jobs (p : Nat) : (endPass x st far rest).jobs p = if st = p then rest else s.jobs p := by
  rw [endPass_rest far rest h]
  exact get_set _ _ _ _ _

end EndPass

/-- The first clause of O28: the job works on what the engine finds behind the base caches. -/
theorem exec_updateJob_free {s : State} {st : Nat} {j : PressJob} {rest : List PressJob} (hu : s.up) (hst : st < 24)
    (hjobs : s.jobs st = j :: rest) (hkind : j.kind = 1)
    (hlive : ∀ b ∈ rangeBolts (updateReads s j ++ s.updateWrites j.sw (s.span j.sw j.span)),
      (s.dirE b).state ≠ 0 → (s.dirE b).tier = 1 → s.stackFenced (t1Stack (s.dirE b).home) = false)
    (hfree : s.engineFree j.sw (updateReads s j) (s.updateWrites j.sw (s.span j.sw j.span))) :
    let x := updatedSpan s ((fresh s).streams (updateReads s j) (s.updateWrites j.sw (s.span j.sw j.span))) st j
    Updated j.sw st (fresh s) x ∧ (st, spGroup (s.span j.sw j.span)) ∈ (x.sw j.sw).formed ∧
      exec (.updateJob st []) s = .next (wrap s (endUpdate x st (updateFar s s st j) (updateCycles s j) rest)) := by
  intro x
  have hcached := (Cached.refl (fresh s)).streams (updateReads s j) (s.updateWrites j.sw (s.span j.sw j.span))
  have hfar : updateFar s ((fresh s).streams (updateReads s j) (s.updateWrites j.sw (s.span j.sw j.span))) st j =
      updateFar s s st j := hcached.farBolts_eq _ _
  refine ⟨((Updated.refl _).accessed (.of_cached hcached)).trans (updatedSpan_updated _), mem_formed_updatedSpan _, ?_⟩
  rw [exec_updateJob, act_up (by simpa using hst) hu, ← hfar]
  exact congrArg (fun u => Host.Outcome.next (wrap s u))
    (updateJob_free (s := fresh s) hjobs hkind hlive (engineFree_fresh hfree))

/-- The second clause of O28. -/
theorem exec_foreignErrorPass_free {s : State} {st : Nat} {j : PressJob} {rest : List PressJob} (hu : s.up) (hst : st < 24)
    (hjobs : s.jobs st = j :: rest) (hkind : j.kind = 2) (hdone : s.jobsOf j.sw 1 = [])
    (hfree : s.engineFree j.sw (s.spanReads j.sw j.span (s.span j.sw j.span)) [s.recRange j.sw (s.span j.sw j.span)]) :
    let rd := s.spanReads j.sw j.span (s.span j.sw j.span)
    let x := passedErrors s ((fresh s).streams rd [s.recRange j.sw (s.span j.sw j.span)]) j
    Accessed (fresh s) x ∧
      exec (.foreignErrorPass st) s = .next (wrap s (endPass x st (s.farBolts st (rd.drop 2)) rest)) := by
  intro rd x
  have hcached := (Cached.refl (fresh s)).streams rd [s.recRange j.sw (s.span j.sw j.span)]
  have hfar : ((fresh s).streams rd [s.recRange j.sw (s.span j.sw j.span)]).farBolts st (rd.drop 2) =
      s.farBolts st (rd.drop 2) := hcached.farBolts_eq _ _
  refine ⟨(Accessed.of_cached hcached).trans (.of_stored (passedErrors_stored _ _ _)), ?_⟩
  rw [exec_foreignErrorPass, act_up (by simpa using hst) hu, ← hfar]
  exact congrArg (fun u => Host.Outcome.next (wrap s u))
    (foreignPass_free (s := fresh s) hjobs hkind hdone (engineFree_fresh hfree))

/-- Settles O28: what the blocks' updates and the error terms change, and the end of each job. -/
theorem updateAndErrorJobsWriteRecords : Obligations.UpdateAndErrorJobsWriteRecords := by
  constructor
  · intro s st j rest hu hst hjobs hkind v wide n rd wr hlive hfree
    obtain ⟨hx, hformed, hexec⟩ := exec_updateJob_free hu hst hjobs hkind hlive hfree
    obtain ⟨hcyc, hfar⟩ := endUpdate_counts (updateFar s s st j) (updateCycles s j) rest hx
    have hqueue := endUpdate_jobs (updateFar s s st j) (updateCycles s j) rest hx
    have hregs := endUpdate_sameButCache (updateFar s s st j) (updateCycles s j) rest hx
    refine ⟨_, hexec, (hqueue st).trans (if_pos rfl), fun p hp => (hqueue p).trans (if_neg hp.symm), ?_, hcyc, hfar,
      fun k hk => ?_, ?_, ?_, ?_, ?_, hregs⟩
    · rw [mem_wrap, mem_endUpdate]
      rfl
    · rw [sw_read_wrap, sw_endUpdate]
      exact hx.others k hk
    · rw [sw_read_wrap, sw_endUpdate]
      exact hx.own
    · rw [sw_read_wrap, sw_endUpdate]
      exact hformed
    · rw [mem_wrap, mem_endUpdate]
      exact hx.mem
    · rw [endUpdate_rest _ _ _ hx]
      rfl
  · intro s st j rest hu hst hjobs hkind hdone v rd wr hfree
    obtain ⟨hx, hexec⟩ := exec_foreignErrorPass_free hu hst hjobs hkind hdone hfree
    have hqueue := endPass_jobs (st := st) (s.farBolts st (rd.drop 2)) rest hx
    have hfar := endPass_far (st := st) (s.farBolts st (rd.drop 2)) rest hx
    have hregs := endPass_sameButCache (st := st) (s.farBolts st (rd.drop 2)) rest hx
    refine ⟨_, hexec, (hqueue st).trans (if_pos rfl), fun p hp => (hqueue p).trans (if_neg hp.symm), ?_, hfar, ?_, ?_,
      hregs⟩
    · rw [mem_wrap, mem_endPass]
      rfl
    · rw [mem_wrap, mem_endPass]
      exact hx.2.1
    · rw [endPass_rest _ _ hx]
      rfl

end Sys2Proof.Proofs
end

section
/-! O27: a pack job (R170, R174, R194, R198). -/

namespace Sys2Proof.Proofs

open Sys2Proof.Machine Sys2Proof.Laws

/-- Two states that differ by blocks packed: an engine's accesses, registers, and steps broken. -/
structure Packed (s t : State) : Prop where
  rest : t = { s with regs := t.regs, mem := t.mem, sws := t.sws, cores := t.cores }
  mem : MemOnly s.mem t.mem

namespace Packed

variable {s t u : State}

theorem refl (s : State) : Packed s s := ⟨rfl, rfl⟩

theorem trans (h : Packed s t) (k : Packed t u) : Packed s u := ⟨by rw [k.rest, h.rest], memOnly_trans h.mem k.mem⟩

theorem foldl {α : Type} (h : Packed s t) (l : List α) {g : State → α → State} (hg : ∀ u a, Packed u (g u a)) :
    Packed s (l.foldl g t) := List.foldlRecOn _ _ h (fun u hu a _ => hu.trans (hg u a))

theorem accessed (h : Packed s t) (hu : Accessed t u) : Packed s u := h.trans ⟨by rw [hu.1], hu.2.1⟩

theorem tally (h : Packed s t) (n : FieldName) (i k : Nat) : Packed s (t.tally n i k) := h.trans ⟨rfl, rfl⟩

theorem failStep (h : Packed s t) (k b : Nat) : Packed s (t.failStep k b) := by
  have hbroken := (StepsBroken.refl t).failStep k b
  refine h.trans ⟨by rw [hbroken.1], ?_⟩
  rw [hbroken.1]
  rfl

end Packed

/-- One block of a pack job, for swatch `k` in the press of stack `st`: its values quantised into the plane at `base`, its
saturations counted, and the step's bit 0 where the scale is FFh (R170). -/
def packBlock (k st base : Nat) (wide : Bool) (v : Nat) (t : State) (b : Nat) : State :=
  let p := t.packValues wide v b
  let u := (t.putPlane base b (quantE5M2 p.1)).tally .PRESS_SAT st p.2
  if (quantE5M2 p.1).1 = 0xFF then u.failStep k causeNonFinite else u

theorem packBlock_packed (k st base : Nat) (wide : Bool) (v : Nat) (t : State) (b : Nat) :
    Packed t (packBlock k st base wide v t b) := by
  have hcounted : Packed t ((t.putPlane base b (quantE5M2 (t.packValues wide v b).1)).tally .PRESS_SAT st
      (t.packValues wide v b).2) :=
    ((Packed.refl t).accessed (.of_stored ((Stored.refl t).putPlane _ _ _))).tally _ _ _
  unfold packBlock
  dsimp only
  split
  · exact hcounted.failStep _ _
  · exact hcounted

/-- The plane that a pack job writes (R174). -/
def packBase (s : State) (j : PressJob) : Nat :=
  if s.packsReduced j.sw then spRed (s.span j.sw j.span) else spSend (s.span j.sw j.span)

/-- The blocks of a pack job's span, packed on `y`. -/
def packedSpan (s y : State) (st : Nat) (j : PressJob) : State :=
  (List.range (spBlocks (s.span j.sw j.span))).foldl
    (packBlock j.sw st (packBase s j) (gWide (s.group j.sw (spGroup (s.span j.sw j.span)))) (s.span j.sw j.span)) y

/-- What follows a pack job that has left its queue: the latch of a domain of one, and the engines of the domain (R198). -/
def afterPack (u : State) (k : Nat) : State :=
  let x := u.packsDone k
  if (x.sw k).domain < 16 then x.advanceDom (x.sw k).domain else x

theorem packJob_free {s : State} {st : Nat} {j : PressJob} {rest : List PressJob} (hjobs : s.jobs st = j :: rest)
    (hkind : j.kind = 0) (hfree : s.engineFree j.sw (s.spanReads j.sw j.span (s.span j.sw j.span))
      [(packBase s j, 33 * spBlocks (s.span j.sw j.span))]) :
    packJob st s =
      let y := s.streams (s.spanReads j.sw j.span (s.span j.sw j.span)) [(packBase s j, 33 * spBlocks (s.span j.sw j.span))]
      afterPack ((packedSpan s y st j).setJobs st rest) j.sw := by
  unfold packJob
  split
  · rename_i hnil
    exact absurd (hjobs.symm.trans hnil) (by simp)
  · rename_i j' rest' hcons
    obtain ⟨rfl, rfl⟩ := List.cons.inj (hcons.symm.trans hjobs)
    rw [if_neg (not_not.2 hkind)]
    exact engine_free hfree _

/-- Settles O27: the blocks are packed on what the engine finds behind the base caches, and the job leaves its queue. -/
theorem packJobQuantisesSpan : Obligations.PackJobQuantisesSpan := by
  intro s st j rest hu hst hjobs hkind v base rd wr hfree w u x
  have hspan : Packed (fresh s) w :=
    ((Packed.refl _).accessed (.of_cached ((Cached.refl (fresh s)).streams rd wr))).foldl _ (packBlock_packed _ _ _ _ _)
  have hqueue (p : Nat) : u.jobs p = if st = p then rest else w.jobs p := setJobs_jobs w st rest p
  have hmem : u.mem = w.mem := mem_setJobs w st rest
  have hkept : u.doms = s.doms ∧ u.ports = s.ports ∧ u.thm = s.thm := by
    rw [doms_setJobs, ports_setJobs, thm_setJobs, hspan.rest]
    exact ⟨rfl, rfl, rfl⟩
  refine ⟨?_, (hqueue st).trans (if_pos rfl), fun p hp => (hqueue p).trans ?_, setJobs_state w st rest,
    setJobs_depth w st rest, ?_, hkept⟩
  · rw [exec_packJob, act_up (by simpa using hst) hu, packJob_free (s := fresh s) hjobs hkind (engineFree_fresh hfree)]
    rfl
  · rw [if_neg hp.symm, hspan.rest]
    rfl
  · rw [hmem]
    exact hspan.mem

end Sys2Proof.Proofs
end

section
/-! SUPPORT. What a swatch's run and descriptor keep while an engine waits or works for it (R264, R271, R277): SRAM, the
step's number and its final verdict. -/

namespace Sys2Proof.Proofs

open Sys2Proof.Machine Sys2Proof.Laws

/-- Two states with the same descriptors, and with the same step and the same final verdict in every swatch. -/
structure RunKept (s t : State) : Prop where
  sram : t.mem.st.sram = s.mem.st.sram
  step : ∀ k, (t.sw k).step = (s.sw k).step
  final : ∀ k, (t.sw k).final = (s.sw k).final

namespace RunKept

theorem refl (s : State) : RunKept s s := ⟨rfl, fun _ => rfl, fun _ => rfl⟩

variable {s t u : State}

theorem trans (h : RunKept s t) (h' : RunKept t u) : RunKept s u :=
  ⟨h'.sram.trans h.sram, fun k => (h'.step k).trans (h.step k), fun k => (h'.final k).trans (h.final k)⟩

theorem foldl {α : Type} (h : RunKept s t) (l : List α) {g : State → α → State} (hg : ∀ u a, RunKept u (g u a)) :
    RunKept s (l.foldl g t) := List.foldlRecOn _ _ h (fun u hu a _ => hu.trans (hg u a))

/-- What leaves SRAM and the swatches' runs alone. -/
theorem of_sws (h : RunKept s t) (hsram : u.mem.st.sram = t.mem.st.sram) (hsws : u.sws = t.sws) : RunKept s u := by
  have hsw (k : Nat) : u.sw k = t.sw k := by rw [State.sw, hsws, State.sw]
  exact h.trans ⟨hsram, fun k => by rw [hsw], fun k => by rw [hsw]⟩

theorem cached (h : RunKept s t) (hu : Cached t u) : RunKept s u :=
  h.of_sws (by rw [hu.st_eq]) (by rw [hu.1])

theorem stored (h : RunKept s t) (hu : Stored t u) : RunKept s u := h.of_sws hu.2 (by rw [hu.1])

theorem sent (h : RunKept s t) (hu : Sent t u) : RunKept s u :=
  h.of_sws (by rw [hu.1]) (by rw [hu.1])

theorem addPlane (h : RunKept s t) (k span : Nat) :
    RunKept s (t.updSw k (fun r => { r with planes := span :: r.planes })) := by
  have hsw (j : Nat) := sw_setSw t k { t.sw k with planes := span :: (t.sw k).planes } j
  refine h.trans ⟨rfl, fun j => ?_, fun j => ?_⟩
  · rw [updSw_eq, hsw]
    split
    case isTrue hj => rw [← hj]
    case isFalse => rfl
  · rw [updSw_eq, hsw]
    split
    case isTrue hj => rw [← hj]
    case isFalse => rfl

theorem deny (h : RunKept s t) (b k : Nat) : RunKept s (t.deny b k) := by
  have hbroken := (StepsBroken.refl (t.tally .DIR_DENIED (hubOf b) 1)).failStep k causeBroken
  refine h.trans ⟨by rw [State.deny, hbroken.1]; rfl, fun j => ?_, fun j => ?_⟩
  · rw [State.deny, failStep_sw]
    split
    · rfl
    · split
      · rfl
      · rfl
  · rw [State.deny, failStep_sw]
    split
    · rfl
    · split
      · rfl
      · rfl

/-! Promotes on demand and waits. -/

theorem sws_promote (s : State) (b t place cls k : Nat) (req : Option TierReq) :
    (s.promote b t place cls k req).state.sws = s.sws := by
  have hat (u : State) : (u.promoteAt b t place cls k req).state.sws = u.sws :=
    by rw [((TierWork.refl u).promoteAt b t place cls k req).1]
  have hafter (u : State) (held : List HeldReq) : (u.afterMove b held).sws = u.sws :=
    by rw [((TierWork.refl u).afterMove b held).1]
  have hcancel : (s.cancelMove b).sws = s.sws := by
    have habandoned : (s.abandonMove b).sws = s.sws := by rw [((TierWork.refl s).abandonMove b).1]
    exact habandoned
  unfold State.promote
  extract_lets e h held v
  split
  · exact hat s
  · split
    · generalize ha : (s.cancelMove b).promoteAt b t place cls k req = a
      have hstate : a.state.sws = s.sws := by rw [← ha, hat, hcancel]
      cases a with
      | ok x => exact (hafter _ _).trans hstate
      | wait x c => exact (hafter _ _).trans hstate
      | fail x c => exact (hafter _ _).trans hstate
      | held x => exact (hafter _ _).trans hstate
    · have hv : v.sws = s.sws := by
        simp only [v]
        split
        · rfl
        · rfl
      rw [((TierWork.refl v).holdReq b _).1]
      exact hv

theorem waitAs (h : RunKept s t) (k cause key : Nat) (stuck : Bool) : RunKept s (t.waitAs k cause key stuck) := by
  unfold State.waitAs
  split
  · exact h
  · exact h.of_sws rfl rfl

theorem raiseMove (h : RunKept s t) (b : Nat) : RunKept s (t.raiseMove b) := by
  unfold State.raiseMove
  split
  · exact h.of_sws rfl rfl
  · exact h

theorem promoteNow (h : RunKept s t) (b k region : Nat) : RunKept s (t.promoteNow b k region) :=
  (h.raiseMove b).of_sws (sram_promote _ _ _ _ _ _ _) (sws_promote _ _ _ _ _ _ _)

theorem await (h : RunKept s t) (b k region : Nat) (demand stuck : Bool) : RunKept s (t.await b k region demand stuck) := by
  unfold State.await
  split
  · exact h.waitAs _ _ _ _
  · refine waitAs ?_ _ _ _ _
    split
    · exact h.promoteNow _ _ _
    · split
      · exact h.raiseMove b
      · exact h

theorem awaitAll (h : RunKept s t) (k : Nat) (rd wr : List Nat) (stuck : Bool) : RunKept s (t.awaitAll k rd wr stuck) := by
  have hgo (write : Bool) (u : State) (b : Nat) : RunKept u
      (match u.serve b (fun e => u.shareAllows e k write) with
        | .waits demand => u.await b k (u.firstRegion k) demand stuck
        | _ => u) := by
    split
    · exact (refl u).await _ _ _ _ _
    · exact refl u
  exact (h.foldl rd (hgo false)).foldl wr (hgo true)

/-! An engine's work. -/

theorem paste (h : RunKept s t) (p : Place) (cs : Memory) : RunKept s (t.setStores (t.mem.st.paste p 65536 cs)) := by
  refine h.of_sws ?_ rfl
  cases p with
  | hbm a => rfl
  | pocket a => rfl
  | flash a => rfl
  | host a => rfl

theorem withShare (h : RunKept s t) (k : Nat) (rd wr : List Nat) {f : State → State} (hf : ∀ u, RunKept u (f u)) :
    RunKept s (t.withShare k rd wr f) := by
  unfold State.withShare
  extract_lets noRead noWrite denied hidden kept worked shown
  have hdenied : RunKept s denied := h.foldl _ (fun u b => (refl u).deny b k)
  have hhide (e : Nat × DirEntry → DirEntry) (u : State) (hu : RunKept s u) :
      RunKept s (hidden.foldl (fun x p => x.setDir p.1 (e p)) u) := hu.foldl _ (fun x p => (refl x).of_sws rfl rfl)
  have hworked : RunKept s worked := (hhide (fun _ => {}) denied hdenied).trans (hf _)
  exact (hhide Prod.snd worked hworked).foldl kept (fun u p => (refl u).paste _ _)

theorem engineAs (h : RunKept s t) (k : Nat) (rd wr : List (Nat × Nat)) (stuck : Bool) {f : State → State}
    (hf : ∀ u, RunKept u (f u)) : RunKept s (t.engineAs k rd wr stuck f) := by
  unfold State.engineAs
  dsimp only
  split
  · exact h.withShare _ _ _ (fun u => ((refl u).cached ((Cached.refl u).streams _ _)).trans (hf _))
  · exact h.awaitAll _ _ _ _

/-! The working planes of a commit (R184). -/

theorem takePlane (h : RunKept s t) (d : Nat) (p : Nat × Part) : RunKept s (t.takePlane d p) := by
  unfold State.takePlane
  extract_lets k span v n bs gone
  have hgone (u : State) : RunKept u (gone u) := (refl u).of_sws rfl rfl
  clear_value gone
  split
  · exact h.trans (hgone t)
  · exact h.engineAs _ _ _ _ (fun u =>
      ((hgone u).stored (((Stored.refl _).putDev _ _).putDev _ _)).addPlane _ _)

theorem takePlanes (h : RunKept s t) (d k : Nat) : RunKept s (t.takePlanes d k) :=
  h.foldl _ (fun u p => (refl u).takePlane d p)

theorem sendPlanes (h : RunKept s t) (k : Nat) : RunKept s (t.sendPlanes k) := by
  unfold State.sendPlanes
  refine h.foldl _ (fun u p => (refl u).engineAs _ _ _ _ (fun x => ?_))
  exact ((refl x).foldl _ (fun y m => (refl y).sent (sendData_sent _ _ _ _ _ _ _ _))).addPlane _ _

end RunKept

end Sys2Proof.Proofs
end

section
/-! O30: the commit of a step (R184, R210). -/

namespace Sys2Proof.Proofs

open Sys2Proof.Machine Sys2Proof.Laws

/-! Descriptor fields in different bytes. -/

theorem bytes_congr {d : Byte} {m m' : Memory} (n a : Nat) (h : ∀ i, i < n → FMap.get d m (a + i) = FMap.get d m' (a + i)) :
    Memory.bytes d m a n = Memory.bytes d m' a n := by
  induction n generalizing a with
  | zero => rfl
  | succ n ih =>
    have hfirst : FMap.get d m a = FMap.get d m' a := h 0 (Nat.succ_pos n)
    have hrest := ih (a + 1) (fun i hi => by
      have hnext := h (i + 1) (Nat.succ_lt_succ hi)
      rwa [show a + (i + 1) = a + 1 + i by omega] at hnext)
    rw [Memory.bytes, Memory.bytes, hfirst, hrest]

/-- A field whose bytes lie behind those of the field written keeps what it holds. -/
theorem desc_setDesc_behind (s : State) (k v : Nat) {lo w lo' w' : Nat} (h : lo' / 8 + (lo' % 8 + w' + 7) / 8 ≤ lo / 8) :
    (s.setDesc k lo' w' v).desc k lo w = s.desc k lo w := by
  simp only [State.desc, State.setDesc, mem_setStores]
  rw [bytes_congr]
  intro i hi
  rw [get_write, dif_neg (by rw [leBytes_length]; omega)]

@[simp] theorem desc_wrap (s x : State) (k lo w : Nat) : (wrap s x).desc k lo w = x.desc k lo w := rfl

/-! The parts of a commit. -/

theorem commitGroup_stored (s : State) (k i : Nat) : Stored s (s.commitGroup k i) := by
  unfold State.commitGroup
  extract_lets g c r g₁ g₂ g₃ g₄
  split
  · exact Stored.refl s
  · exact (Stored.refl s).putDevNat _ _ _

theorem matchedRoot_stored (s : State) (k : Nat) (f : Fold) (v : Bool) : Stored s (s.matchedRoot k f v) := by
  unfold State.matchedRoot
  extract_lets a h r
  split
  · exact (Stored.refl s).putDevNat _ _ _
  · exact Stored.refl s

theorem storeTree_stored (s : State) (k step : Nat) : Stored s (s.storeTree k step) := by
  unfold State.storeTree
  extract_lets a h
  split
  · exact Stored.refl s
  · exact ((Stored.refl s).putDev _ _).putDevNat _ _ _

/-- The groups advanced and the digest area's header rewritten, on the state that the engine finds (R184, R215). -/
def groupsCommitted (y : State) (k : Nat) (f : Fold) : State :=
  ((List.range 4096).foldl (fun t i => t.commitGroup k i) (y.endWaits (2 ^ 29 + k))).matchedRoot k f true

/-- The residual selector flipped (R172, R184). -/
def selectorFlipped (a : State) (k : Nat) : State := a.setDesc k 1944 1 (1 - a.desc k 1944 1)

/-- The digest tree of a compared step stored, and LAST_STEP (R184, R215). -/
def stepNoted (b : State) (k step : Nat) : State :=
  (if b.compared k then b.storeTree k step else b).setDesc k 1856 64 step

/-- The commit counted, and the step settled. -/
def commitCounted (c : State) (k : Nat) : State :=
  (c.tally .HUB_TACK_PASS 0 1).updSw k (fun x => { x with settled := true })

theorem commitNow_eq {y : State} {k : Nat} {f : Fold} (hfinal : (y.sw k).final = some f) :
    y.commitNow k = commitCounted (stepNoted (selectorFlipped (groupsCommitted y k f) k) k (y.sw k).step) k := by
  simp only [State.commitNow, hfinal]
  rfl

theorem groupsCommitted_sram (y : State) (k : Nat) (f : Fold) :
    (groupsCommitted y k f).mem.st.sram = y.mem.st.sram := by
  have hgroups := (Stored.refl (y.endWaits (2 ^ 29 + k))).foldl (List.range 4096) (g := fun t i => t.commitGroup k i)
    (fun u i => commitGroup_stored u k i)
  exact (hgroups.trans (matchedRoot_stored _ k f true)).2.trans (sram_endWaits y _)

/-- The selector shows the other half, and stays so (R172). -/
theorem stepNoted_selector (a : State) (k step : Nat) :
    (stepNoted (selectorFlipped a k) k step).desc k 1944 1 = 1 - a.desc k 1944 1 := by
  have htree : (if (selectorFlipped a k).compared k then (selectorFlipped a k).storeTree k step
      else selectorFlipped a k).mem.st.sram = (selectorFlipped a k).mem.st.sram := by
    split
    · exact (storeTree_stored _ _ _).2
    · rfl
  rw [stepNoted, desc_setDesc_behind _ _ _ (by decide), desc_congr htree, selectorFlipped, desc_setDesc_same]
  exact Nat.mod_eq_of_lt (by omega)

theorem commitCounted_shows (c : State) (k : Nat) : ((commitCounted c k).sw k).settled = true ∧
    (commitCounted c k).f .HUB_TACK_PASS 0 = satAdd (c.f .HUB_TACK_PASS 0) 1 ∧
    ∀ lo w, (commitCounted c k).desc k lo w = c.desc k lo w := by
  refine ⟨?_, f_tally_same c 0 1 rfl, fun lo w => rfl⟩
  rw [commitCounted, updSw_eq, sw_setSw_same]

/-! The command. -/

/-- A commit whose step has the final verdict 1 and no work left in T1 takes and sends the working planes; it then waits or
is done (R184). -/
theorem stepCommit_due {s : State} {k : Nat} {f : Fold} (hstarted : (s.sw k).started = true)
    (hsettled : (s.sw k).settled = false) (hfailed : (s.sw k).failed = false) (hfinal : (s.sw k).final = some f)
    (hv : f.v = true) (hupdates : s.jobsOf k 1 = []) (herrors : s.jobsOf k 2 = [])
    (hrows : ∀ p ∈ s.pendEntries k, phState p.2 = 2 → s.allInT1 (s.pendBolts k p.2) = false) :
    let u := (s.takePlanes (s.sw k).domain k).sendPlanes k
    stepCommit k s = if !(u.planesDue k).isEmpty || !(u.planesOwed k).isEmpty then u.waitAs k 5 (2 ^ 29 + k) true
      else u.engineAs k (u.commitRanges k).1 (u.commitRanges k).2 true (fun y => y.commitNow k) := by
  intro u
  unfold stepCommit
  extract_lets r v1 landed w
  have hv1 : v1 = true := by
    simp only [v1, r, hfinal]
    exact hv
  have hlanded : landed = false := by
    simpa [landed] using hrows
  rw [if_neg, if_neg]
  · simp [hupdates, herrors, hlanded]
  · simp [r, hstarted, hsettled, hfailed, hv1]

/-- Settles O30: the wait on the seam, and the commit with the fields of the descriptor that it writes. -/
theorem stepCommitAdvancesSwatch : Obligations.StepCommitAdvancesSwatch := by
  intro s k f hu hk hstarted hsettled hfailed hfinal hv hupdates herrors hrows u
  have hcommit : stepCommit k (fresh s) =
      if !(u.planesDue k).isEmpty || !(u.planesOwed k).isEmpty then u.waitAs k 5 (2 ^ 29 + k) true
      else u.engineAs k (u.commitRanges k).1 (u.commitRanges k).2 true (fun y => y.commitNow k) :=
    stepCommit_due (s := fresh s) hstarted hsettled hfailed hfinal hv hupdates herrors hrows
  have hkept : RunKept (fresh s) u := ((RunKept.refl _).takePlanes _ _).sendPlanes _
  constructor
  · intro hmissing
    rw [exec_stepCommit, act_up (by simpa using hk) hu, hcommit, if_pos]
    simpa [or_iff_not_imp_left] using hmissing
  · intro hdue howed hfree y a b c
    have hcached : Cached u (u.streams (u.commitRanges k).1 (u.commitRanges k).2) := (Cached.refl u).streams _ _
    have hserved := hkept.cached hcached
    have hnow := commitNow_eq ((hserved.final k).trans hfinal)
    rw [hserved.step k] at hnow
    have hselector : c.desc k 1944 1 = 1 - s.desc k 1944 1 := by
      have hsram : a.mem.st.sram = s.mem.st.sram := (groupsCommitted_sram _ k f).trans hserved.sram
      rw [← desc_congr hsram]
      exact stepNoted_selector a k _
    obtain ⟨hdone, hpass, hdesc⟩ := commitCounted_shows c k
    have hstep : c.desc k 1856 64 = (s.sw k).step % 2 ^ 64 := desc_setDesc_same _ _ _ _ _
    rw [if_neg (by simp [hdue, howed]), engineAs_free hfree, hnow] at hcommit
    refine ⟨wrap s (commitCounted c k), ?_, rfl, ?_, ?_, ?_, ?_⟩
    · rw [exec_stepCommit, act_up (by simpa using hk) hu, hcommit]
      rfl
    · rw [sw_read_wrap, hdone]
    · rw [f_read_wrap, hpass]
    · rw [desc_wrap, hdesc, hselector]
    · rw [desc_wrap, hdesc, hstep]

end Sys2Proof.Proofs
end

section
/-! The first clause of O29: a row's append to the pending-update ledger (R186, R188, R189, R191). -/

namespace Sys2Proof.Proofs

open Sys2Proof.Machine Sys2Proof.Laws

/-! A counter that advances before bytes are written. -/

theorem readsAlike_tally (s : State) {n : FieldName} (i k : Nat) (hstatus : n ≠ .BASE_STATUS_STATE)
    (hbase : n ≠ .TIER_T3_BASE_BASE) : ReadsAlike s (s.tally n i k) where
  st := rfl
  dir := rfl
  ways := rfl
  status j := by rw [tally_eq, f_setF, if_neg (fun h => hstatus h.1)]
  t3Base := by rw [tally_eq, f_setF, if_neg (fun h => hbase h.1)]

@[simp] theorem st_markDirty (s : State) (b : Nat) (gs : List Nat) : (s.markDirty b gs).mem.st = s.mem.st := by
  unfold State.markDirty
  split
  · rfl
  · split
    · rfl
    · rfl

/-- One bolt's part of a write. -/
theorem ReadsAlike.write {s t : State} (h : ReadsAlike s t) (p : Place) (bs : List Byte) (b : Nat) (gs : List Nat) :
    ReadsAlike ((s.setStores (s.mem.st.write p bs)).markDirty b gs) ((t.setStores (t.mem.st.write p bs)).markDirty b gs) := by
  have hs : Stored s ((s.setStores (s.mem.st.write p bs)).markDirty b gs) := ((Stored.refl s).write _ _).markDirty _ _
  have ht : Stored t ((t.setStores (t.mem.st.write p bs)).markDirty b gs) := ((Stored.refl t).write _ _).markDirty _ _
  exact {
    st := by rw [st_markDirty, st_markDirty, mem_setStores, mem_setStores, h.st]
    dir := by rw [ht.1, hs.1]; exact h.dir
    ways := by rw [ht.1, hs.1]; exact h.ways
    status := fun i => by rw [ht.f_eq, hs.f_eq, h.status]
    t3Base := by rw [ht.f_eq, hs.f_eq, h.t3Base] }

/-- What reads alike reads alike after the same write. -/
theorem ReadsAlike.devPut {s t : State} (h : ReadsAlike s t) (fuel a : Nat) (bs : List Byte) :
    ReadsAlike (s.devPut a bs fuel) (t.devPut a bs fuel) := by
  induction fuel generalizing s t a bs with
  | zero => exact h
  | succ fuel ih =>
    unfold State.devPut
    extract_lets here s' t'
    have hpart : ReadsAlike s' t' := by
      simp only [s', t', h.homeLive_eq, h.homePlace_eq]
      split
      · exact h.write _ _ _ _
      · exact h
    clear_value s' t'
    split
    · exact ih hpart _ _
    · exact hpart

theorem ReadsAlike.putDev {s t : State} (h : ReadsAlike s t) (a : Nat) (bs : List Byte) :
    ReadsAlike (s.putDev a bs) (t.putDev a bs) := h.devPut _ a bs

/-! Pins. -/

theorem mem_insertAsc {x y : Nat} {l : List Nat} (h : y ∈ insertAsc x l) : y = x ∨ y ∈ l := by
  induction l with
  | nil => simpa [insertAsc] using h
  | cons z l ih =>
    unfold insertAsc at h
    split at h
    · exact .inr h
    · split at h
      · exact List.mem_cons.1 h
      · rcases List.mem_cons.1 h with h | h
        · exact .inr (h ▸ List.mem_cons_self)
        · exact (ih h).imp id (List.mem_cons_of_mem _)

theorem insertAsc_ascends {x : Nat} {l : List Nat} (h : l.Pairwise (· < ·)) : (insertAsc x l).Pairwise (· < ·) := by
  induction l with
  | nil => simp [insertAsc]
  | cons y l ih =>
    obtain ⟨hy, hl⟩ := List.pairwise_cons.1 h
    unfold insertAsc
    split
    · exact h
    · split
      · rename_i hlt
        refine List.pairwise_cons.2 ⟨fun z hz => ?_, h⟩
        rcases List.mem_cons.1 hz with rfl | hz
        · exact hlt
        · exact hlt.trans (hy z hz)
      · refine List.pairwise_cons.2 ⟨fun z hz => ?_, ih hl⟩
        rcases mem_insertAsc hz with rfl | hz
        · omega
        · exact hy z hz

theorem sortAsc_nodup (l : List Nat) : (sortAsc l).Nodup := by
  have hasc : (sortAsc l).Pairwise (· < ·) := by
    unfold sortAsc
    induction l with
    | nil => exact List.Pairwise.nil
    | cons x l ih => exact insertAsc_ascends ih
  exact hasc.imp Nat.ne_of_lt

/-- A bolt takes one more pin. -/
def pinBolt (s : State) (b : Nat) : State := s.setDir b { s.dirE b with pins := (s.dirE b).pins + 1 }

theorem pinBolt_dirE (s : State) (b x : Nat) :
    (pinBolt s b).dirE x = if b = x then { s.dirE b with pins := (s.dirE b).pins + 1 } else s.dirE x := get_set _ _ _ _ _

theorem foldl_pinBolt_dirE {l : List Nat} (hl : l.Nodup) (s : State) (x : Nat) : (l.foldl pinBolt s).dirE x =
    if x ∈ l then { s.dirE x with pins := (s.dirE x).pins + 1 } else s.dirE x := by
  induction l generalizing s with
  | nil => rfl
  | cons b l ih =>
    obtain ⟨hb, hl⟩ := List.nodup_cons.1 hl
    rw [List.foldl_cons, ih hl, pinBolt_dirE]
    by_cases hx : b = x
    · subst hx
      simp [hb]
    · simp [hx, Ne.symm hx]

/-- Pins stand in the directory alone. -/
theorem foldl_pinBolt_rest (l : List Nat) (s : State) :
    l.foldl pinBolt s = { s with mem := { s.mem with dir := (l.foldl pinBolt s).mem.dir } } :=
  List.foldlRecOn (motive := fun t : State => t = { s with mem := { s.mem with dir := t.mem.dir } }) _ _ rfl
    (fun t ht b _ => by rw [ht]; rfl)

/-! A row that has passed its checks. -/

/-- The header of an entry that awaits the verdict (R189). -/
def entryHead (s : State) (a : RowAppend) : Nat :=
  1 + 2 ^ 2 + 2 ^ 8 * a.span + 2 ^ 24 * a.row + 2 ^ 64 * (gStep (s.group a.sw (spGroup (s.span a.sw a.span))) + 1)
    + 2 ^ 128 * a.norm

/-- The bytes of an entry: its header and the row's gradients. -/
def entryBytes (s : State) (a : RowAppend) : List Byte :=
  leBytes (entryHead s a) 32 ++ a.vals.flatMap (fun x => leBytes x 4)

/-- The lowest free entry of a swatch's ledger. -/
def freeEntry (s : State) (k : Nat) : Option Nat :=
  (List.range (s.desc k 1024 32)).find? (fun j => phState (s.pendHead k j) = 0)

theorem ReadsAlike.freeEntry_eq {s t : State} (h : ReadsAlike s t) (k : Nat) : freeEntry t k = freeEntry s k := by
  simp only [freeEntry, h.desc_eq, h.pendHead_eq]

theorem ReadsAlike.entryBytes_eq {s t : State} (h : ReadsAlike s t) (a : RowAppend) : entryBytes t a = entryBytes s a := by
  simp only [entryBytes, entryHead, h.group_eq, h.span_eq]

/-- The row's bolts, all in T1 or a pocket, can each take one more pin. -/
def PinsFit (s : State) (bolts : List Nat) : Prop :=
  ∀ b ∈ bolts, (s.dirE b).state ≠ 0 ∧ (s.dirE b).pins < 255 ∧ (s.dirE b).tier ≤ 1

/-- Before the verdict, a row takes the free entry, and its bolts, which need no promote, one more pin each. -/
theorem appendRow_free {s : State} {a : RowAppend} {j : Nat} (hfinal : (s.sw a.sw).final = none)
    (hfree : freeEntry s a.sw = some j) (hpins : PinsFit s a.bolts) (hnodup : a.bolts.Nodup) :
    s.appendRow a = (a.bolts.foldl pinBolt (s.putDev (s.pendAt a.sw j) (entryBytes s a)), true) := by
  have hdir (b : Nat) : (s.putDev (s.pendAt a.sw j) (entryBytes s a)).dirE b = s.dirE b :=
    ((Stored.refl s).putDev _ _).dirE_eq b
  have hheld : a.bolts.filter (fun b => decide (((s.putDev (s.pendAt a.sw j) (entryBytes s a)).dirE b).state ≠ 0)) =
      a.bolts := List.filter_eq_self.2 (fun b hb => by simpa [hdir] using (hpins b hb).1)
  have hhome : ∀ b ∈ a.bolts,
      ((a.bolts.foldl pinBolt (s.putDev (s.pendAt a.sw j) (entryBytes s a))).dirE b).tier ≤ 1 := by
    intro b hb
    rw [foldl_pinBolt_dirE hnodup, if_pos hb, hdir]
    exact (hpins b hb).2.2
  unfold State.appendRow
  extract_lets k v1 free full g st h
  have hv1 : v1 = none := by simp only [v1, k, hfinal, Option.map_none]
  have hentry : free = some j := hfree
  have hfull : full = [] := List.filter_eq_nil_iff.2 (fun b hb => by have hb := hpins b hb; simp; omega)
  have hst : st = 1 := by simp only [st, hv1]; rfl
  clear_value free full v1 st
  subst hv1 hentry hfull hst
  rw [if_neg (by simp)]
  dsimp -zeta only
  rw [if_neg (by simp)]
  extract_lets written pinned promoted
  have hwritten : written = s.putDev (s.pendAt a.sw j) (entryBytes s a) := rfl
  have hpinned : pinned = a.bolts.foldl pinBolt (s.putDev (s.pendAt a.sw j) (entryBytes s a)) := by
    simp only [pinned, hwritten, hheld]
    rfl
  have hpromoted : promoted = pinned :=
    List.foldlRecOn (motive := fun t => t = pinned) _ _ rfl (fun t ht b hb => by
      rw [ht, hpinned, if_neg (Nat.not_lt.2 (hhome b hb))])
  rw [if_neg (by decide), hpromoted, hpinned]

/-- Before the verdict, a row waits while no entry is free (R191). -/
theorem appendRow_full {s : State} {a : RowAppend} (hfinal : (s.sw a.sw).final = none) (hfree : freeEntry s a.sw = none) :
    s.appendRow a = (s.waitAs a.sw 0 (pendKey a.sw a.press) true, false) := by
  unfold State.appendRow
  extract_lets k v1 free full
  have hv1 : v1 = none := by simp only [v1, k, hfinal, Option.map_none]
  have hentry : free = none := hfree
  clear_value free full v1
  subst hv1 hentry
  rw [if_neg (by simp)]

/-! The command. -/

/-- The sum of a row's contributions, multiplied and checked (R186, R188): gradients, norm, whether it is skipped, and the
saturations. -/
def rowChecked (u : State) (k i : Nat) (rows : List (List Nat)) : (List Fv × Fv × Bool) × Nat :=
  (rowGrad (u.group k (spGroup (u.span k i)))
    (rowSum (spCols (u.span k i)) ((u.members k).findIdx (fun x => x = u.place)) rows)).run 0

/-- A row of swatch `k`'s span `i` that has passed its checks. -/
def checkedRow (u : State) (k i row : Nat) (rows : List (List Nat)) : RowAppend where
  sw := k
  span := i
  row := row
  press := spPress (u.span k i)
  vals := (rowChecked u k i rows).1.1.map toF32
  norm := toF32 (rowChecked u k i rows).1.2.1
  bolts := rowBolts (gWide (u.group k (spGroup (u.span k i)))) (u.span k i) row

/-- A row skipped: counted at its press, with its saturations, and with its group (R186). -/
def rowSkipped (u : State) (k i : Nat) (rows : List (List Nat)) : State :=
  ((u.tally .PRESS_ROW_SKIP (spPress (u.span k i)) 1).tally .PRESS_SAT (spPress (u.span k i)) (rowChecked u k i rows).2).updSw
    k (fun x => { x with rowSkips := FMap.upd 0 x.rowSkips (spGroup (u.span k i)) (fun n => satAdd n 1) })

/-- A row whose saturations have been counted. -/
def rowCounted (u : State) (k i : Nat) (rows : List (List Nat)) : State :=
  u.tally .PRESS_SAT (spPress (u.span k i)) (rowChecked u k i rows).2

/-- What an append command asks of its row: a step that has started, an active span of rule ROW with that row, and one
contribution for each member, each empty or as long as the row, one of them not empty (R186, R188). -/
structure RowGiven (u : State) (k i row : Nat) (rows : List (List Nat)) : Prop where
  started : (u.sw k).started = true
  span : i < u.spanCount k
  rule : gRule (u.group k (spGroup (u.span k i))) = 3
  active : gActive (u.group k (spGroup (u.span k i))) = true
  row : row < spRows (u.span k i)
  members : rows.length = natMax (u.members k).length 1
  lengths : ∀ x ∈ rows, x = [] ∨ x.length = spCols (u.span k i)
  touched : ∃ x ∈ rows, x ≠ []

/-- Such a command, once earlier appends of its swatch have been tried again, skips the row, appends it or leaves it waiting. -/
theorem pendingAppend_given {s : State} {k i row : Nat} {rows : List (List Nat)}
    (h : RowGiven (s.retryAppends k) k i row rows) :
    let u := s.retryAppends k
    pendingAppend k i row rows s =
      if (rowChecked u k i rows).1.2.2 then rowSkipped u k i rows
      else
        let x := (rowCounted u k i rows).appendRow (checkedRow u k i row rows)
        if x.2 then x.1 else { x.1 with rowAppends := x.1.rowAppends ++ [checkedRow u k i row rows] } := by
  have hlengths : rows.all (fun x => x.isEmpty || decide (x.length = spCols ((s.retryAppends k).span k i))) = true := by
    simpa using h.lengths
  have htouched : rows.all List.isEmpty = false := by simpa using h.touched
  unfold pendingAppend
  generalize s.retryAppends k = w at *
  intro u
  extract_lets v gi g st ms r a x
  rw [if_neg]
  · have hchecked : rowChecked u k i rows = r := rfl
    have hrow : checkedRow u k i row rows = a := rfl
    simp only [hchecked, hrow]
    rfl
  · have hspan : ¬w.spanCount k ≤ i := Nat.not_le.2 h.span
    have hrow : ¬spRows (w.span k i) ≤ row := Nat.not_le.2 h.row
    have hmembers : rows.length = natMax ms.length 1 := h.members
    simp [u, v, g, gi, h.started, h.rule, h.active, hspan, hrow, hlengths, htouched, hmembers]

end Sys2Proof.Proofs
end

section
/-! The three outcomes of a row's append (R186, R188, R189, R191). -/

namespace Sys2Proof.Proofs

open Sys2Proof.Machine Sys2Proof.Laws

variable {s u : State} {k i row : Nat} {rows : List (List Nat)}

theorem exec_append (hu : s.up) (hk : k < 65536) (hretried : (fresh s).retryAppends k = u) (h : RowGiven u k i row rows) :
    exec (.pendingRowAppend k i row rows) s = .next (wrap s
      (if (rowChecked u k i rows).1.2.2 then rowSkipped u k i rows
      else
        let x := (rowCounted u k i rows).appendRow (checkedRow u k i row rows)
        if x.2 then x.1 else { x.1 with rowAppends := x.1.rowAppends ++ [checkedRow u k i row rows] })) := by
  subst hretried
  rw [exec_pendingRowAppend, act_up (by simpa using hk) hu, pendingAppend_given h]

/-- A row above the norm or not finite is skipped and counted (R186). -/
theorem rowSkipped_counts (s u : State) (k i : Nat) (rows : List (List Nat)) :
    let v := u.span k i
    let t := wrap s (rowSkipped u k i rows)
    t.f .PRESS_ROW_SKIP (spPress v) = satAdd (u.f .PRESS_ROW_SKIP (spPress v)) 1 ∧
    FMap.get 0 (t.sw k).rowSkips (spGroup v) = satAdd (FMap.get 0 (u.sw k).rowSkips (spGroup v)) 1 ∧
    t = wrap s { u with regs := t.regs, sws := t.sws } ∧
    SameRegs u t [(.PRESS_ROW_SKIP, spPress v), (.PRESS_SAT, spPress v)] := by
  intro v t
  refine ⟨?_, ?_, rfl, ?_⟩
  · calc t.f .PRESS_ROW_SKIP (spPress v) = (u.tally .PRESS_ROW_SKIP (spPress v) 1).f .PRESS_ROW_SKIP (spPress v) := by
          change ((u.tally .PRESS_ROW_SKIP (spPress v) 1).tally .PRESS_SAT (spPress v) _).f .PRESS_ROW_SKIP (spPress v) = _
          rw [tally_eq _ .PRESS_SAT, f_setF, if_neg (by simp)]
      _ = _ := f_tally_same _ _ _ rfl
  · have hsw : t.sw k = { u.sw k with
        rowSkips := FMap.upd 0 (u.sw k).rowSkips (spGroup v) (fun n => satAdd n 1) } := sw_setSw_same _ _ _
    rw [hsw]
    exact get_set_same _ _ _ _
  · exact sameRegs_setF (sameRegs_setF (sameRegs_refl u _) _ (by simp [v])) _ (by simp [v])

/-- The row's saturations are counted with its press. -/
theorem rowCounted_sat (u : State) (k i : Nat) (rows : List (List Nat)) :
    (rowCounted u k i rows).f .PRESS_SAT (spPress (u.span k i)) =
      satAdd (u.f .PRESS_SAT (spPress (u.span k i))) (rowChecked u k i rows).2 := f_tally_same _ _ _ rfl

theorem rowCounted_sameRegs (u : State) (k i : Nat) (rows : List (List Nat)) :
    SameRegs u (rowCounted u k i rows) [(.PRESS_SAT, spPress (u.span k i))] := sameRegs_tally _ _ _ _

theorem rowCounted_readsAlike (u : State) (k i : Nat) (rows : List (List Nat)) : ReadsAlike u (rowCounted u k i rows) :=
  readsAlike_tally u _ _ (by decide) (by decide)

/-- A row that takes an entry: the entry is written, each bolt of the row takes one more pin, and the saturations are
counted (R189). -/
theorem pinned_row (s u : State) (k i row j : Nat) (rows : List (List Nat)) {x : State}
    (hx : x = (checkedRow u k i row rows).bolts.foldl pinBolt
      ((rowCounted u k i rows).putDev ((rowCounted u k i rows).pendAt k j)
        (entryBytes (rowCounted u k i rows) (checkedRow u k i row rows)))) :
    let a := checkedRow u k i row rows
    let v := u.span k i
    x.mem.st = (u.putDev (u.pendAt k j) (entryBytes u a)).mem.st ∧
    (∀ b ∈ a.bolts, x.dirE b = { u.dirE b with pins := (u.dirE b).pins + 1 }) ∧
    (∀ b, b ∉ a.bolts → x.dirE b = u.dirE b) ∧
    x.f .PRESS_SAT (spPress v) = satAdd (u.f .PRESS_SAT (spPress v)) (rowChecked u k i rows).2 ∧
    wrap s x = wrap s { u with regs := x.regs, mem := x.mem } ∧ SameRegs u x [(.PRESS_SAT, spPress v)] := by
  intro a v
  have halike := rowCounted_readsAlike u k i rows
  rw [halike.pendAt_eq, halike.entryBytes_eq] at hx
  have hstored := (Stored.refl (rowCounted u k i rows)).putDev (u.pendAt k j) (entryBytes u a)
  have hrest := foldl_pinBolt_rest a.bolts ((rowCounted u k i rows).putDev (u.pendAt k j) (entryBytes u a))
  rw [← hx] at hrest
  have hnodup : a.bolts.Nodup := sortAsc_nodup _
  have hdir (b : Nat) : x.dirE b = if b ∈ a.bolts then { u.dirE b with pins := (u.dirE b).pins + 1 } else u.dirE b := by
    rw [hx, foldl_pinBolt_dirE hnodup, hstored.dirE_eq, halike.dirE_eq]
  have hf : x.f = (rowCounted u k i rows).f := by
    rw [hrest]
    exact funext fun n => funext fun m => hstored.f_eq n m
  refine ⟨?_, fun b hb => by rw [hdir, if_pos hb], fun b hb => by rw [hdir, if_neg hb], ?_, ?_, ?_⟩
  · rw [hrest]
    exact (halike.putDev _ _).st
  · rw [hf]
    exact rowCounted_sat u k i rows
  · rw [hrest, hstored.1]
    rfl
  · intro n m hn
    rw [hf]
    exact rowCounted_sameRegs u k i rows n m hn

/-- What waits: the swatch with its key, until an entry becomes free or the step ends. -/
theorem waitAs_stuck (s : State) (k cause key : Nat) :
    (∃ x ∈ (s.waitAs k cause key true).mem.waiters, x.sw = k ∧ x.key = key ∧ x.stuck = true) ∧
    s.waitAs k cause key true = { s with mem := { s.mem with waiters := (s.waitAs k cause key true).mem.waiters } } := by
  unfold State.waitAs
  split
  · rename_i h
    obtain ⟨x, hx, hkey⟩ := List.any_eq_true.1 h
    simp only [Bool.and_eq_true, decide_eq_true_eq] at hkey
    exact ⟨⟨x, hx, hkey.1.1, hkey.1.2, hkey.2⟩, rfl⟩
  · exact ⟨⟨_, List.mem_append_right _ List.mem_cons_self, rfl, rfl, rfl⟩, rfl⟩

/-- What an append command does with its row: skips it, gives it the free entry, or leaves it waiting for one. -/
theorem pendingRowAppend_outcomes (hu : s.up) (hk : k < 65536) (hretried : (fresh s).retryAppends k = u)
    (h : RowGiven u k i row rows) :
    let v := u.span k i
    let a := checkedRow u k i row rows
    let r := rowChecked u k i rows
    (r.1.2.2 = true → exec (.pendingRowAppend k i row rows) s = .next (wrap s (rowSkipped u k i rows))) ∧
    (r.1.2.2 = false → (u.sw k).final = none →
      (∀ j, freeEntry u k = some j → PinsFit u a.bolts →
        exec (.pendingRowAppend k i row rows) s = .next (wrap s (a.bolts.foldl pinBolt
          ((rowCounted u k i rows).putDev ((rowCounted u k i rows).pendAt k j) (entryBytes (rowCounted u k i rows) a))))) ∧
      (freeEntry u k = none →
        let w := (rowCounted u k i rows).waitAs k 0 (pendKey k (spPress v)) true
        exec (.pendingRowAppend k i row rows) s = .next (wrap s { w with rowAppends := w.rowAppends ++ [a] }))) := by
  have hexec := exec_append hu hk hretried h
  intro v a r
  have halike := rowCounted_readsAlike u k i rows
  refine ⟨fun hskip => ?_, fun hskip hfinal => ⟨fun j hj hpins => ?_, fun hj => ?_⟩⟩
  · rw [hexec]
    exact congrArg (fun x => Host.Outcome.next (wrap s x)) (if_pos hskip)
  · have hrow := appendRow_free (s := rowCounted u k i rows) (a := a) (j := j) hfinal
      ((halike.freeEntry_eq k).trans hj) (fun b hb => by rw [halike.dirE_eq]; exact hpins b hb) (sortAsc_nodup _)
    rw [hexec]
    refine congrArg (fun x => Host.Outcome.next (wrap s x)) ?_
    dsimp only
    rw [if_neg (by rw [hskip]; decide), hrow, if_pos rfl]
    rfl
  · have hrow := appendRow_full (s := rowCounted u k i rows) (a := a) hfinal ((halike.freeEntry_eq k).trans hj)
    rw [hexec]
    refine congrArg (fun x => Host.Outcome.next (wrap s x)) ?_
    dsimp only
    rw [if_neg (by rw [hskip]; decide), hrow, if_neg Bool.false_ne_true]
    rfl

end Sys2Proof.Proofs
end

section
/-! The second clause of O29: a row of the pending-update ledger is applied (R180, R182, R187, R189). -/

namespace Sys2Proof.Proofs

open Sys2Proof.Machine Sys2Proof.Laws

/-- The committed rows that await landing and the appends that wait are the same in the two states. -/
def RowsKept (s t : State) : Prop := t.rowsDue = s.rowsDue ∧ t.rowAppends = s.rowAppends

namespace RowsKept

variable {s t u : State}

theorem refl (s : State) : RowsKept s s := ⟨rfl, rfl⟩

theorem trans (h : RowsKept s t) (k : RowsKept t u) : RowsKept s u := ⟨k.1.trans h.1, k.2.trans h.2⟩

theorem foldl {α : Type} (h : RowsKept s t) (l : List α) {g : State → α → State} (hg : ∀ u a, RowsKept u (g u a)) :
    RowsKept s (l.foldl g t) := List.foldlRecOn _ _ h (fun u hu a _ => hu.trans (hg u a))

theorem setF (h : RowsKept s t) (n : FieldName) (i v : Nat) : RowsKept s (t.setF n i v) := h

theorem setMem (h : RowsKept s t) (m : Mem) : RowsKept s (t.setMem m) := h

theorem of_regsOut (h : RegsOut s t) : RowsKept s t := ⟨by rw [h], by rw [h]⟩

theorem of_failed (h : Failed s t) : RowsKept s t := ⟨by rw [h.1], by rw [h.1]⟩

theorem of_tierWork (h : TierWork s t) : RowsKept s t := ⟨by rw [h.1], by rw [h.1]⟩

theorem of_accessed (h : Accessed s t) : RowsKept s t := ⟨by rw [h.1], by rw [h.1]⟩

theorem formConsts (s : State) (k st gi : Nat) : RowsKept s (s.formConsts k st gi) := by
  unfold State.formConsts
  split
  · exact refl s
  · exact refl s

theorem setJobs (s : State) (st : Nat) (l : List PressJob) : RowsKept s (s.setJobs st l) := by
  rw [setJobs_rest]
  exact refl s

theorem queueRows (s : State) (k : Nat) : RowsKept s (s.queueRows k) := by
  unfold State.queueRows
  refine (refl s).foldl _ (fun u p => ?_)
  dsimp only
  split
  · exact refl u
  · exact setJobs u _ _

theorem mapAdd (s : State) (e : MapEnt) : RowsKept s (s.mapAdd e) := by
  unfold State.mapAdd
  dsimp only
  split
  · exact refl s
  · exact refl s

theorem retireSlot (h : RowsKept s t) (st slot cause : Nat) : RowsKept s (t.retireSlot st slot cause) := by
  unfold State.retireSlot
  split
  · exact h
  · dsimp only
    exact (((h.setMem _).trans (mapAdd _ _)).setF .BASE_RETIRED st _).trans
      (of_tierWork (TierWork.refl _).countFree.loseCapacity)

theorem baseUncorr (h : RowsKept s t) (st slot g unit : Nat) : RowsKept s (t.baseUncorr st slot g unit) := by
  unfold State.baseUncorr
  extract_lets x m y
  have hx : RowsKept s x := by
    unfold x
    split
    · exact ((((h.setF _ _ _).setF _ _ _).setF _ _ _).setF _ _ _).setF _ _ _
    · exact h
  have hy : RowsKept s y := hx
  exact (hy.setF .BASE_UNCORR st _).retireSlot _ _ _

theorem uncorrHbm (h : RowsKept s t) (b g : Nat) : RowsKept s (t.uncorrHbm b g) := by
  unfold State.uncorrHbm
  dsimp only
  split
  · exact h
  · exact (h.setMem _).baseUncorr _ _ _ _

theorem noteUncorr (h : RowsKept s t) (b o n : Nat) (kind : UnitKind) (num : Nat) :
    RowsKept s (t.noteUncorr b o n kind num) := by
  unfold State.noteUncorr
  extract_lets k u
  have hu : RowsKept s u := h
  have hledger (type payload : Nat) : RowsKept s (u.ledger type payload) := hu
  exact (hledger _ _).trans (of_regsOut (interruptAll_regsOut _ 5))

theorem withdrawAgain (h : RowsKept s t) (cause how : Nat) : RowsKept s (t.withdrawAgain cause how) := by
  have hset := h.trans (of_failed (setWithdraw_failed t cause))
  exact ⟨hset.1, hset.2⟩

theorem rowUncorr (s : State) (st v row : Nat) (wide : Bool) (i : Nat) : RowsKept s (s.rowUncorr st v row wide i) :=
  ((((refl s).uncorrHbm _ _).noteUncorr _ _ _ _ _).withdrawAgain _ _).setF .PRESS_STATUS_UNCORR_SEEN st 1

theorem putRow (s : State) (wide : Bool) (v row : Nat) (bad : List Nat) (acc : Fv) (ws : List Fv) :
    RowsKept s (s.putRow wide v row bad acc ws) :=
  of_accessed (.of_stored ((Stored.refl s).foldl _ (fun t _ => ((Stored.refl t).putDev _ _).putWork _ _ _)))

theorem unpinBolt (s : State) (b : Nat) : RowsKept s (s.unpinBolt b) := by
  unfold State.unpinBolt
  dsimp only
  split
  · exact refl s
  · exact of_tierWork ((((TierWork.refl s).setDir _ _).settleBolt _).wake _)

theorem showRows (s : State) : RowsKept s s.showRows := (refl s).foldl _ (fun u _ => (refl u).setF _ _ _)

/-- With no append of swatch `k` waiting, trying its appends again ends waits alone. -/
theorem retryAppends {k : Nat} (h : ∀ a ∈ s.rowAppends, a.sw ≠ k) : RowsKept s (s.retryAppends k) := by
  have hmine : s.rowAppends.filter (fun a => a.sw = k) = [] :=
    List.filter_eq_nil_iff.2 (fun a ha => by simpa using h a ha)
  unfold State.retryAppends
  rw [hmine]
  refine (refl s).foldl _ (fun u st => ?_)
  split
  · exact refl u
  · exact of_tierWork ((TierWork.refl u).endWaits _)

end RowsKept

/-- An entry that becomes free awaits landing no more (R190). -/
theorem pendFree_rowsDue {s : State} {k : Nat} (j : Nat) (h : ∀ a ∈ s.rowAppends, a.sw ≠ k) :
    ∀ r ∈ FMap.get [] (s.pendFree k j).rowsDue k, r.1 ≠ j := by
  unfold State.pendFree
  extract_lets hd st t w
  have hunpinned : RowsKept s t := (RowsKept.refl s).foldl _ RowsKept.unpinBolt
  have hwoken : RowsKept w ((w.putDevNat (w.pendAt k j) (setBits hd 2 2 0) 32).endWaits (rowKey k j st)).showRows :=
    ((RowsKept.of_accessed (.of_stored ((Stored.refl w).putDevNat _ _ _))).trans
      (.of_tierWork ((TierWork.refl _).endWaits _))).trans (.showRows _)
  have hkept := hwoken.trans (RowsKept.retryAppends (k := k) (by rw [hwoken.2]; exact hunpinned.2 ▸ h))
  rw [hkept.1]
  intro r hr
  rw [get_set_same] at hr
  simpa using (List.mem_filter.1 hr).2

/-! The command. -/

/-- The application of swatch `k`'s entry `j`, its row held by the press of stack `st`, once the bolts of the ledger and of the
row, which `u` names, are served in `y`: the row's blocks but those in `bad` are written by the rule ROW (R180), what could not
be read is counted and the module withdraws (R187). -/
def appliedRow (u y : State) (st k j : Nat) (bad : List Nat) : State :=
  let h := u.pendHead k j
  let v := u.span k (phSpan h)
  let g := u.group k (spGroup v)
  let n := spRowBlocks v
  let gs := (y.devNats (y.pendAt k j + 32) 4 (spCols v)).map f32
  let ws := ((List.range n).flatMap (fun i => y.masters (gWide g) v (phRow h * n + i))).take (spCols v)
  let lost := (bad.filter (fun i => i < n)).eraseDups
  let acc := if lost.contains 0 then f32 (Config.freeValue 32 y.mem.tick).toNat
    else f32 (y.devNat (recAt (gWide g) v (phRow h * n) + 128) 4)
  let x := (ruleRow g (spCols v) acc ws gs).run 0
  let w := (((y.formConsts k st (spGroup v)).use).putRow (gWide g) v (phRow h) lost x.1.1 x.1.2).tally .PRESS_SAT st x.2
  let q := (lost.foldl (fun u i => u.rowUncorr st v (phRow h) (gWide g) i) w).tally .PRESS_FAR st
    (y.farBolts st (rowRanges (gWide g) v (phRow h)))
  q.tally .PRESS_BLOCKS st (n - lost.length)

theorem appliedRow_rowsKept (u y : State) (st k j : Nat) (bad : List Nat) : RowsKept y (appliedRow u y st k j bad) := by
  unfold appliedRow
  extract_lets h v g n gs ws lost acc x w q
  have hwritten : RowsKept y w :=
    ((((RowsKept.formConsts y k st _).setMem _).trans (.putRow _ _ _ _ _ _ _))).setF .PRESS_SAT st _
  have hcounted : RowsKept y q := (hwritten.foldl lost (fun t i => .rowUncorr t st v _ _ i)).setF .PRESS_FAR st _
  exact hcounted.setF .PRESS_BLOCKS st _

/-- The ranges that an application reads: the entry and its row. -/
def applyReads (u : State) (k j : Nat) : List (Nat × Nat) :=
  let h := u.pendHead k j
  let v := u.span k (phSpan h)
  (u.pendAt k j, u.pendSize k) :: rowRanges (gWide (u.group k (spGroup v))) v (phRow h)

/-- The ranges that it writes: the entry's header and its row. -/
def applyWrites (u : State) (k j : Nat) : List (Nat × Nat) :=
  let h := u.pendHead k j
  let v := u.span k (phSpan h)
  (u.pendAt k j, 32) :: rowRanges (gWide (u.group k (spGroup v))) v (phRow h)

/-- The application at the front of its press's queue, with its bolts served. -/
theorem pendingApply_front {s u : State} {st k j : Nat} {bad : List Nat} {rest : List PressJob}
    (hdue : (s.retryAppends k).queueRows k = u) (hjobs : u.jobs st = ⟨3, k, j⟩ :: rest)
    (hfree : u.engineFree k (applyReads u k j) (applyWrites u k j)) :
    pendingApply st k j bad s =
      (((appliedRow u (u.streams (applyReads u k j) (applyWrites u k j)) st k j bad).pendFree k j).setJobs st rest).queueRows
        k := by
  unfold pendingApply
  rw [hdue]
  extract_lets w
  split
  · rename_i hnil
    exact absurd (hjobs.symm.trans hnil) (by simp)
  · rename_i job rest' hcons
    obtain ⟨hjob, hrest⟩ := List.cons.inj (hcons.symm.trans hjobs)
    subst hjob hrest
    rw [if_neg (by simp)]
    exact engine_free hfree _

/-- Settles O29: a row that passes its checks takes the lowest free entry or waits; an application becomes due no more. -/
theorem pendingRowsAppendAndApply : Obligations.PendingRowsAppendAndApply := by
  unfold Obligations.PendingRowsAppendAndApply
  constructor
  · intro s k i row rows hu hk
    generalize hretried : (fresh s).retryAppends k = u
    intro u' v g ms r hstarted hspan hrule hactive hrow hmembers hlengths htouched
    obtain ⟨hskips, hpasses⟩ := pendingRowAppend_outcomes (rows := rows) hu hk hretried
      { started := hstarted, span := hspan, rule := hrule, active := hactive, row := hrow, members := hmembers,
        lengths := hlengths, touched := htouched }
    refine ⟨fun hskip => ⟨_, hskips hskip, rowSkipped_counts s u k i rows⟩, fun hskip hfinal => ?_⟩
    obtain ⟨hfree, hfull⟩ := hpasses hskip hfinal
    refine ⟨fun j hj hpins => ?_, fun hj => ?_⟩
    · intro h
      obtain ⟨hst, hpinned, hothers, hsat, hrest, hregs⟩ := pinned_row s u k i row j rows rfl
      refine ⟨_, hfree j hj hpins, ?_, hpinned, hothers, hsat, hrest, hregs⟩
      have hbytes : entryBytes u (checkedRow u k i row rows) =
          leBytes h 32 ++ r.1.1.flatMap (fun x => leBytes (toF32 x) 4) :=
        congrArg (leBytes h 32 ++ ·) (List.flatMap_map _ _ _)
      rw [hbytes] at hst
      exact hst
    · obtain ⟨hwaiter, hrest⟩ := waitAs_stuck (rowCounted u k i rows) k 0 (pendKey k (spPress v))
      refine ⟨_, hfull hj, ?_, hwaiter, ?_, ?_⟩
      · have happends := congrArg State.rowAppends hrest
        exact congrArg (· ++ [checkedRow u k i row rows]) happends
      · rw [hrest]
        rfl
      · intro n m hn
        rw [hrest]
        exact rowCounted_sameRegs u k i rows n m hn
  · intro s st k j bad rest hu hst hk
    generalize hdue : ((fresh s).retryAppends k).queueRows k = u
    intro u' hjobs h v g n rows rd wr hfree y gs ws lost acc x w q z
    refine ⟨?_, fun happends => ?_⟩
    · rw [exec_pendingRowApply, act_up (by simp [hst, hk]) hu, pendingApply_front hdue hjobs hfree]
      rfl
    · have hread : RowsKept u y := .of_accessed (.of_cached ((Cached.refl u).streams rd wr))
      have hkept := hread.trans (appliedRow_rowsKept u y st k j bad)
      have hleft : RowsKept ((appliedRow u y st k j bad).pendFree k j) (z.queueRows k) :=
        (RowsKept.setJobs _ st rest).trans (.queueRows _ k)
      rw [hleft.1]
      exact pendFree_rowsDue j (by rw [hkept.2]; exact happends)

end Sys2Proof.Proofs
end

section
/-! O49: the membership messages (R208, R323 to R326). -/

namespace Sys2Proof.Proofs

open Sys2Proof.Machine Sys2Proof.Laws

/-! A message reaches its domain. -/

theorem onDomain_serving {s : State} {id d : Nat} {f : Nat → List Nat → State → State} (hd : s.domOf id = some d)
    (hs : s.serving = true) (l : List Nat) : onDomain (id :: l) f (fresh s) = f d l (fresh s) := by
  have hdom : (fresh s).domOf id = some d := hd
  have hserves : (fresh s).serving = true := hs
  simp [onDomain, hdom, hserves]

/-- A membership command at a serving module for a domain it is enabled in. -/
theorem act_onDomain {s : State} {id d : Nat} {f : Nat → List Nat → State → State} (hu : s.up) (hd : s.domOf id = some d)
    (hs : s.serving = true) (l : List Nat) :
    act true (whenUp (onDomain (id :: l) f)) s = .next (wrap s (f d l (fresh s))) := by
  rw [act_up rfl hu, onDomain_serving hd hs]

/-! The next list. -/

theorem leaveMsg_member {s : State} {d : Nat} {l : List Nat} (hmember : l.getD 1 0 ∈ (s.dom d).members)
    (hstays : l.getD 1 0 ∉ (s.dom d).leaving) : leaveMsg d l s =
      (s.setDom d { s.dom d with
        leaving := l.getD 1 0 :: (s.dom d).leaving
        joins := (s.dom d).joins.filter (fun j => j.1 ≠ l.getD 1 0) }).trigger d := by
  unfold leaveMsg
  dsimp only
  rw [if_pos (by simp only [List.contains_eq_mem, hmember, hstays]; rfl)]

/-! A proposal. -/

/-- A module with an open step of the domain accepts a proposal and announces nothing yet (R325, step 2). -/
theorem accept_open {s : State} {d : Nat} (e c : Nat) (l : List Nat) (hopen : s.openIn d ≠ []) : s.accept d e c l =
    (s.setDom d { s.dom d with seen := e, accepted := some ⟨e, c, l, s.now, false⟩ }).setDomState d 3 := by
  unfold State.accept
  extract_lets v a
  generalize ht : (s.setDom d { v with seen := e, accepted := some a }).setDomState d 3 = t
  have haccepted : (t.dom d).accepted = some a := by
    rw [← ht]
    exact congrArg Dom.accepted (dom_setDom_same s d { v with seen := e, accepted := some a })
  have hopen' : t.openIn d ≠ [] := by
    rw [← ht]
    exact hopen
  unfold State.tryAnnounce
  simp only [haccepted]
  rw [if_pos (by simp [hopen'])]

theorem proposeMsg_later {s : State} {d : Nat} {l : List Nat} (hlisted : s.place ∈ l.drop 2)
    (hlater : isLater 32 (l.getD 0 0) (s.dom d).seen = true) :
    proposeMsg d l s = s.accept d (l.getD 0 0) (l.getD 1 0) (l.drop 2) := by
  unfold proposeMsg
  dsimp only
  rw [if_neg (by rw [hlater]; simpa using hlisted)]

/-! An announcement. -/

/-- While a listed place has not announced, the convener only notes an ANNOUNCE (R325, step 4). -/
theorem noteAnnounce_waits {s : State} {d place : Nat} {p : Proposal} (l : List (Nat × Nat))
    (hproposal : (s.dom d).proposal = some p) (hplace : place ∈ p.list)
    (hwaits : ∃ x ∈ p.list, x ≠ place ∧ ∀ h ∈ p.heard, h.1 ≠ x) : s.noteAnnounce d p.epoch place l =
      s.setDom d { s.dom d with proposal := some { p with
        heard := (p.heard.filter (fun h => h.1 ≠ place)) ++ [(place, l)] } } := by
  obtain ⟨x, hx, hne, hunheard⟩ := hwaits
  have hmissing : ¬ ∀ y ∈ p.list, ∃ h ∈ (p.heard.filter (fun h => h.1 ≠ place)) ++ [(place, l)], h.1 = y := by
    intro hall
    obtain ⟨h, hh, heq⟩ := hall x hx
    rcases List.mem_append.1 hh with hh | hh
    · exact hunheard h (List.mem_of_mem_filter hh) heq
    · rw [List.mem_singleton.1 hh] at heq
      exact hne heq.symm
  unfold State.noteAnnounce
  simp only [hproposal]
  rw [if_neg (by simp [List.contains_eq_mem, hplace])]
  unfold State.tryAdopt
  simp only [dom_setDom_same]
  rw [if_neg (by simpa using hmissing)]

/-- A domain with a proposal is not the empty one, so that a later write of the domain replaces it. -/
theorem setDom_proposal_setDom (s : State) (d : Nat) {v : Dom} {p : Proposal} (hv : v.proposal = some p) (w : Dom) :
    (s.setDom d v).setDom d w = s.setDom d w := by
  have hne : v ≠ {} := by
    rintro rfl
    cases hv
  simp only [State.setDom, set_set hne]

/-- The announced epoch counts as seen, and the announcement is noted. -/
theorem announceMsg_waits {s : State} {d : Nat} {l : List Nat} {p : Proposal} (hproposal : (s.dom d).proposal = some p)
    (hepoch : p.epoch = l.getD 0 0) (hplace : l.getD 1 0 ∈ p.list)
    (hwaits : ∃ x ∈ p.list, x ≠ l.getD 1 0 ∧ ∀ h ∈ p.heard, h.1 ≠ x) : announceMsg d l s =
      s.setDom d { s.dom d with
        seen := laterEpoch (s.dom d).seen (l.getD 0 0)
        proposal := some { p with
          heard := (p.heard.filter (fun h => h.1 ≠ l.getD 1 0)) ++ [(l.getD 1 0, pairsOf (l.drop 2))] } } := by
  have hseen := dom_setDom_same s d { s.dom d with seen := laterEpoch (s.dom d).seen (l.getD 0 0) }
  unfold announceMsg
  dsimp only
  rw [← hepoch] at hseen ⊢
  rw [noteAnnounce_waits _ (by rw [hseen]; exact hproposal) hplace hwaits, hseen]
  exact setDom_proposal_setDom s d (v := { s.dom d with seen := laterEpoch (s.dom d).seen p.epoch }) hproposal _

/-! An epoch is entered. -/

/-- Two states with the same domains, whose registers but those of the listed fields read alike. -/
def DomsKept (l : List FieldName) (s t : State) : Prop := t.doms = s.doms ∧ ∀ n i, n ∉ l → t.f n i = s.f n i

namespace DomsKept

variable {l : List FieldName} {s t u : State}

theorem refl (s : State) : DomsKept l s s := ⟨rfl, fun _ _ _ => rfl⟩

theorem trans (h : DomsKept l s t) (k : DomsKept l t u) : DomsKept l s u :=
  ⟨k.1.trans h.1, fun n i hn => (k.2 n i hn).trans (h.2 n i hn)⟩

theorem dom_eq (h : DomsKept l s t) (d : Nat) : t.dom d = s.dom d := by rw [State.dom, h.1, State.dom]

theorem foldl {α : Type} (h : DomsKept l s t) (xs : List α) {g : State → α → State} (hg : ∀ u a, DomsKept l u (g u a)) :
    DomsKept l s (xs.foldl g t) := List.foldlRecOn _ _ h (fun u hu a _ => hu.trans (hg u a))

theorem setF (h : DomsKept l s t) {n : FieldName} (i v : Nat) (hn : n ∈ l) : DomsKept l s (t.setF n i v) :=
  h.trans ⟨rfl, sameRegs_names n i v hn (fun _ _ _ => rfl)⟩

theorem setSw (h : DomsKept l s t) (k : Nat) (r : SwRun) : DomsKept l s (t.setSw k r) := h.trans ⟨rfl, fun _ _ _ => rfl⟩

theorem setRun (h : DomsKept l s t) (k v : Nat) : DomsKept l s (t.setRun k v) := h.trans ⟨rfl, fun _ _ _ => rfl⟩

theorem stored (h : DomsKept l s t) (hu : Stored t u) : DomsKept l s u :=
  h.trans ⟨by rw [hu.1], fun n i _ => hu.f_eq n i⟩

theorem interrupt (h : DomsKept l s t) (fn c : Nat) (hn : .HST_INT_CAUSE_CAUSE ∈ l) : DomsKept l s (t.interrupt fn c) :=
  h.trans ⟨by rw [interrupt_regsOut], fun _ _ hm => interrupt_f _ _ _ _ _ (by rintro rfl; exact hm hn)⟩

end DomsKept

theorem zeroResiduals_stored (s : State) (k m : Nat) : Stored s (s.zeroResiduals k m) := by
  unfold State.zeroResiduals
  refine (Stored.refl s).foldl _ (fun t p => ?_)
  split
  · exact (Stored.refl t).putDev _ _
  · exact Stored.refl t

theorem resetResiduals_domsKept (s : State) (k m : Nat) : DomsKept [.PRESS_RES_RESET] s (s.resetResiduals k m) :=
  ((DomsKept.refl s).stored (zeroResiduals_stored s k m)).foldl _
    (fun u st => (DomsKept.refl u).setF st (satAdd (u.f .PRESS_RES_RESET st) 1) (by simp))

theorem levelSwatch_domsKept (s : State) (k high : Nat) : DomsKept [.PRESS_RES_RESET] s (s.levelSwatch k high) := by
  unfold State.levelSwatch
  extract_lets below u
  have hu : DomsKept [.PRESS_RES_RESET] s u := (DomsKept.refl s).setSw _ _
  clear_value u
  split
  · split
    · exact hu.setRun _ _
    · exact hu
  · split
    · exact hu.setRun _ _
    · exact hu

/-- A configuration that waits for the epoch change comes into force (R345). -/
def cfgTaken (s : State) (d : Nat) : State :=
  match (s.dom d).cfgDue with
  | some c => s.putDomCfg d c
  | none => s

/-- The domain in the epoch of an ADOPT. -/
def adoptedDom (v : Dom) (a : Adopt) : Dom :=
  { v with
    seen := a.epoch, members := sortAsc a.list
    joins := v.joins.filter (fun j => !(sortAsc a.list).contains j.1)
    leaving := [], proposal := none, accepted := none, cfgDue := none, force := false
    haltedBy := if a.halt then some a else none
    reqs := [], colls := [], early := [], earlyTr := [], heardAt := []
    interval := a.sws.foldl (fun m x => FMap.set 0 m x.1 x.2.2.2) []
    source := a.sws.foldl (fun m x => FMap.set 0 m x.1 (x.2.2.1 + 1)) [] }

/-- The domain and its registers in the epoch of an ADOPT. -/
def adopted (s : State) (d : Nat) (a : Adopt) : State :=
  let s := (cfgTaken s d).setDom d (adoptedDom (s.dom d) a)
  let s := (s.setF .COLL_DOM_STATE_EPOCH d a.epoch).setF .COLL_DOM_STATE_MEMBERS d ((sortAsc a.list).length - 1)
  let s := (s.setF .COLL_DOM_STATE_POSITION d (s.position d)).setF .COLL_DOM_SEQ_NEXT d 1
  ((s.showOpen d).domBit .COLL_STATUS_MEMBER d true).domBit .COLL_STATUS_HALTED d a.halt

/-- The swatches of the domain in the new epoch: their residuals zero, and each level or behind (R175, R208). -/
def swatchesLevelled (s : State) (d : Nat) (a : Adopt) : State :=
  a.sws.foldl (fun t x => t.levelSwatch x.1 x.2.1)
    ((s.domSwatches d).foldl (fun t k => t.resetResiduals k (sortAsc a.list).length) s)

theorem enter_eq (s : State) (d : Nat) (a : Adopt) : s.enter d a =
    let u := swatchesLevelled (adopted s d a) d a
    ((u.setDomState d (if a.halt then 4 else u.memberState d)).tally .COLL_EPOCHS 0 1).interrupt 0 4 := rfl

theorem swatchesLevelled_domsKept (s : State) (d : Nat) (a : Adopt) :
    DomsKept [.PRESS_RES_RESET] s (swatchesLevelled s d a) :=
  ((DomsKept.refl s).foldl _ (fun u k => resetResiduals_domsKept u k _)).foldl _ (fun u _ => levelSwatch_domsKept u _ _)

theorem cfgTaken_domsKept (s : State) (d : Nat) : DomsKept [.COLL_DOM_CFG_ID, .COLL_DOM_CFG_ENABLE, .COLL_DOM_CFG_LINING,
    .COLL_DOM_CFG_EXPECT] s (cfgTaken s d) := by
  unfold cfgTaken
  split
  · exact ((((DomsKept.refl s).setF _ _ (by simp)).setF _ _ (by simp)).setF _ _ (by simp)).setF _ _ (by simp)
  · exact DomsKept.refl s

theorem adopted_dom (s : State) (d : Nat) (a : Adopt) : (adopted s d a).dom d = adoptedDom (s.dom d) a := by
  simp only [adopted, State.showOpen, State.domBit, dom_read_setF, dom_setDom_same]

theorem adopted_epoch (s : State) (d : Nat) (a : Adopt) : (adopted s d a).f .COLL_DOM_STATE_EPOCH d = a.epoch % 2 ^ 32 := by
  simp [adopted, State.showOpen, State.domBit, f_setF, fieldDesc]

theorem adopted_seqNext (s : State) (d : Nat) (a : Adopt) : (adopted s d a).f .COLL_DOM_SEQ_NEXT d = 1 := by
  simp [adopted, State.showOpen, State.domBit, f_setF, fieldDesc]

theorem adopted_epochs (s : State) (d : Nat) (a : Adopt) : (adopted s d a).f .COLL_EPOCHS 0 = s.f .COLL_EPOCHS 0 := by
  have hcfg := (cfgTaken_domsKept s d).2 .COLL_EPOCHS 0 (by decide)
  simp [adopted, State.showOpen, State.domBit, f_setF, hcfg]

/-- Entering an epoch: the domain and the registers that the rules name (R325, step 5). -/
theorem enter_shows (s : State) (d : Nat) (a : Adopt) : (s.enter d a).dom d = adoptedDom (s.dom d) a ∧
    (s.enter d a).f .COLL_DOM_STATE_EPOCH d = a.epoch % 2 ^ 32 ∧ (s.enter d a).f .COLL_DOM_SEQ_NEXT d = 1 ∧
    (s.enter d a).f .COLL_EPOCHS 0 = satAdd (s.f .COLL_EPOCHS 0) 1 := by
  rw [enter_eq]
  extract_lets u
  have hu : DomsKept [.PRESS_RES_RESET] (adopted s d a) u := swatchesLevelled_domsKept _ d a
  clear_value u
  generalize hz : u.setDomState d (if a.halt then 4 else u.memberState d) = z
  have hdomState : DomsKept [.COLL_DOM_STATE_STATE] u z := hz ▸ (DomsKept.refl u).setF _ _ (by simp)
  have hlast : DomsKept [.COLL_EPOCHS, .HST_INT_CAUSE_CAUSE] z ((z.tally .COLL_EPOCHS 0 1).interrupt 0 4) :=
    ((DomsKept.refl z).setF _ _ (by simp)).interrupt _ _ (by simp)
  have hreg (n : FieldName) (i : Nat) (hn : n ∉ [.PRESS_RES_RESET, .COLL_DOM_STATE_STATE]) :
      z.f n i = (adopted s d a).f n i :=
    (hdomState.2 n i (fun h => hn (List.mem_cons_of_mem _ h))).trans (hu.2 n i (fun h => hn (by simp_all)))
  refine ⟨?_, ?_, ?_, ?_⟩
  · rw [hlast.dom_eq, hdomState.dom_eq, hu.dom_eq, adopted_dom]
  · rw [hlast.2 _ _ (by decide), hreg _ _ (by decide), adopted_epoch]
  · rw [hlast.2 _ _ (by decide), hreg _ _ (by decide), adopted_seqNext]
  · rw [interrupt_f _ _ _ _ _ (by decide), f_tally_same _ _ _ rfl, hreg _ _ (by decide), adopted_epochs]

/-- An ADOPT that was announced for and brings another epoch is entered (R325, step 5). -/
theorem adoptMsg_announced {s : State} {d : Nat} {l : List Nat} {a : Accepted} (haccepted : (s.dom d).accepted = some a)
    (hepoch : a.epoch = l.getD 0 0) (hannounced : a.announced = true) (hnew : s.epoch d ≠ l.getD 0 0)
    (hlisted : s.place ∈ (l.drop 3).take (l.getD 2 0)) : adoptMsg d l s =
      s.enter d ⟨l.getD 0 0, (l.drop 3).take (l.getD 2 0), l.getD 1 0 ≠ 0, quadsOf (l.drop (3 + l.getD 2 0))⟩ := by
  unfold adoptMsg
  simp only [haccepted]
  rw [if_pos (by simpa [hepoch, hannounced] using hlisted)]
  unfold State.takeAdopt
  rw [if_neg (by simp only [hnew, decide_false, Bool.false_and]; decide)]

/-- Settles O49, message by message. -/
theorem membershipMessagesChangeEpochs : Obligations.MembershipMessagesChangeEpochs := by
  intro s id d l hu hd hserving v at0 at1
  refine ⟨?_, ?_, ?_, ?_, ?_, ?_, ?_⟩
  · rw [exec_join, act_onDomain hu hd hserving]
    rfl
  · intro hmember hstays
    rw [exec_leave, act_onDomain hu hd hserving, leaveMsg_member (s := fresh s) hmember hstays]
    rfl
  · intro hlisted hlater hopen
    rw [exec_propose, act_onDomain hu hd hserving, proposeMsg_later (s := fresh s) hlisted hlater,
      accept_open (s := fresh s) _ _ _ hopen]
    rfl
  · intro p hproposal hepoch hplace hwaits
    rw [exec_announce, act_onDomain hu hd hserving, announceMsg_waits (s := fresh s) hproposal hepoch hplace hwaits]
    rfl
  · intro a haccepted hepoch hannounced hnew x hlisted
    obtain ⟨hdom, hshown, hseq, hcount⟩ := enter_shows (fresh s) d x
    have hadopt : adoptMsg d l (fresh s) = (fresh s).enter d x :=
      adoptMsg_announced (s := fresh s) haccepted hepoch hannounced hnew hlisted
    refine ⟨_, by rw [exec_adopt, act_onDomain hu hd hserving, hadopt], rfl, ?_, ?_, ?_, ?_, hshown, hseq, hcount⟩
    · rw [dom_read_wrap, hdom]
      rfl
    · rw [dom_read_wrap, hdom]
      rfl
    · rw [dom_read_wrap, hdom]
      rfl
    · rw [dom_read_wrap, hdom]
      rfl
  · intro hconvenes hop
    have hcmd : cmdMsg d l (fresh s) = (fresh s).removePlace d at1 := by
      have hconv : (fresh s).convenes d = true := hconvenes
      unfold cmdMsg
      dsimp only
      rw [hconv, if_neg (by simp), if_pos hop]
    rw [exec_cmd, act_onDomain hu hd hserving, hcmd]
  · intro hconvenes hop
    have hcmd : cmdMsg d l (fresh s) = (fresh s).forceDom d := by
      have hconv : (fresh s).convenes d = true := hconvenes
      have hforce : l.getD 0 0 = 4 := hop
      unfold cmdMsg
      dsimp only
      rw [hconv, hforce, if_neg (by simp), if_neg (by decide), if_pos rfl]
    rw [exec_cmd, act_onDomain hu hd hserving, hcmd]

end Sys2Proof.Proofs
end

section
/-! SUPPORT. Open collectives by their numbers (R330), their timers started again (R206, R335), and what goes out with a
message or a sequence (R324, R331). -/

namespace Sys2Proof.Proofs

open Sys2Proof.Machine Sys2Proof.Laws

/-! Open collectives. -/

theorem find_replaced_seq (l : List Coll) (c : Coll) (q : Nat) :
    (l.map (fun x => if x.seq = c.seq then c else x)).find? (fun x => x.seq = q) =
      if c.seq = q then (l.find? (fun x => x.seq = q)).map (fun _ => c) else l.find? (fun x => x.seq = q) := by
  induction l with
  | nil => simp
  | cons x l ih =>
    rw [List.map_cons, List.find?_cons, ih, List.find?_cons]
    by_cases hx : x.seq = c.seq
    · by_cases hq : c.seq = q
      · simp [hx, hq]
      · simp [hx, hq]
    · by_cases hq : c.seq = q
      · simp [hx, ← hq]
      · by_cases hxq : x.seq = q
        · simp only [if_neg hx, if_neg hq, decide_eq_true hxq]
        · simp [hx, hq, hxq]

theorem coll_setColl (s : State) (d : Nat) (c : Coll) (q : Nat) : (s.setColl d c).coll d q =
    if c.seq = q then (s.coll d q).map (fun _ => c) else s.coll d q := by
  simp only [State.coll, State.setColl, dom_setDom_same]
  exact find_replaced_seq _ c q

theorem seq_of_coll {s : State} {d q : Nat} {c : Coll} (h : s.coll d q = some c) : c.seq = q := by
  simpa using List.find?_some h

/-- A change that leaves a collective its number changes that collective alone. -/
theorem coll_updColl (s : State) (d seq : Nat) {f : Coll → Coll} (hf : ∀ c, (f c).seq = c.seq) (q : Nat) :
    (s.updColl d seq f).coll d q = if seq = q then (s.coll d q).map f else s.coll d q := by
  unfold State.updColl
  cases h : s.coll d seq with
  | none =>
    by_cases hq : seq = q
    · simp [← hq, h]
    · simp [hq]
  | some c =>
    rw [coll_setColl, hf, seq_of_coll h]
    by_cases hq : seq = q
    · simp [← hq, h]
    · simp [hq]

/-! Timers. -/

/-- The timers of the open collectives of some numbers start again. -/
def restartTimers (d : Nat) (seqs : List Nat) (s : State) : State :=
  seqs.foldl (fun t q => t.updColl d q (fun c => { c with timer := t.now })) s

theorem restartTimers_rest (d : Nat) (seqs : List Nat) (s : State) :
    restartTimers d seqs s = { s with doms := (restartTimers d seqs s).doms } :=
  List.foldlRecOn (motive := fun t : State => t = { s with doms := t.doms }) _ _ rfl
    (fun t ht q _ => (updColl_rest t d q _).trans (by rw [ht]))

theorem restartTimers_coll (d : Nat) (seqs : List Nat) (s : State) (q : Nat) : (restartTimers d seqs s).coll d q =
    if q ∈ seqs then (s.coll d q).map (fun c => { c with timer := s.now }) else s.coll d q := by
  induction seqs generalizing s with
  | nil => simp [restartTimers]
  | cons a l ih =>
    have hnow : (s.updColl d a (fun c => { c with timer := s.now })).now = s.now := by rw [updColl_rest]
    have hrest := ih (s.updColl d a (fun c => { c with timer := s.now }))
    rw [coll_updColl s d a (f := fun c => { c with timer := s.now }) (fun _ => rfl), hnow] at hrest
    refine hrest.trans ?_
    by_cases hl : q ∈ l
    · by_cases ha : a = q
      · simp [hl, ha, Function.comp_def]
      · simp [hl, ha]
    · by_cases ha : a = q
      · simp [hl, ha]
      · simp [hl, ha, Ne.symm ha]

/-! What goes out. -/

theorem subset_foldl_out {α : Type} {g : State → α → State} (hg : ∀ u a, u.out ⊆ (g u a).out) (l : List α) (s : State) :
    s.out ⊆ (l.foldl g s).out :=
  List.foldlRecOn (motive := fun t : State => s.out ⊆ t.out) _ _ (List.Subset.refl _) (fun t ht a _ => List.Subset.trans ht (hg t a))

theorem launch_keeps_out (s : State) (p h x : Nat) : s.out ⊆ (s.launch p h x).out := by
  have hcount (u : State) : (u.countTx p).out = u.out := by
    unfold State.countTx
    dsimp only
    split
    · rfl
    · rfl
  unfold State.launch
  dsimp only
  rw [out_emit, hcount]
  exact List.subset_append_left _ _

theorem pump_keeps_out (s : State) (p n : Nat) : s.out ⊆ (s.pump p n).out := by
  induction n generalizing s with
  | zero => exact List.Subset.refl _
  | succ n ih =>
    unfold State.pump
    split
    · exact List.Subset.refl _
    · exact List.Subset.trans (launch_keeps_out (s.setPort p _) p _ _) (ih _)

theorem sendBytes_keeps_out (s : State) (p type cls : Nat) (dl : Bool) (dest stream : Nat) (bs : List Byte) :
    s.out ⊆ (s.sendBytes p type cls dl dest stream bs).out :=
  subset_foldl_out (fun u _ => pump_keeps_out (u.setPort p _) p 1) _ s

/-- A control message goes out beside what went before it. -/
theorem message_out (s : State) (d dest code : Nat) (fields : List (Nat × Nat)) :
    s.out ++ [.message dest code (fields.map Prod.fst)] ⊆ (s.message d dest code fields).out := by
  unfold State.message State.sendCtrl
  split
  · exact List.Subset.refl _
  · exact sendBytes_keeps_out (s.emit _) _ _ _ _ _ _ _

/-- The data of a sequence goes out beside what went before it. -/
theorem sendData_out (s : State) (d dest seq phase shard first : Nat) (bs : List Byte) :
    s.out ++ [.sequence dest d seq phase shard first (bs.map BitVec.toNat)] ⊆
      (s.sendData d dest seq phase shard first bs).out := by
  unfold State.sendData
  dsimp only
  split
  · exact List.Subset.refl _
  · exact sendBytes_keeps_out (s.emit _) _ _ _ _ _ _ _

theorem message_keeps_out (s : State) (d dest code : Nat) (fields : List (Nat × Nat)) :
    s.out ⊆ (s.message d dest code fields).out :=
  List.Subset.trans (List.subset_append_left _ _) (message_out s d dest code fields)

theorem sendData_keeps_out (s : State) (d dest seq phase shard first : Nat) (bs : List Byte) :
    s.out ⊆ (s.sendData d dest seq phase shard first bs).out :=
  List.Subset.trans (List.subset_append_left _ _) (sendData_out s d dest seq phase shard first bs)

/-- What one round of a loop puts out is there after the loop, where every round keeps what is out. -/
theorem mem_foldl_out {α : Type} {g : State → α → State} {P : State → Prop} {o : Out} {l : List α} {a : α} {s : State}
    (hs : P s) (hP : ∀ u b, P u → P (g u b)) (hkeep : ∀ u b, u.out ⊆ (g u b).out) (ha : a ∈ l)
    (ho : ∀ u, P u → o ∈ (g u a).out) : o ∈ (l.foldl g s).out := by
  obtain ⟨l₁, l₂, rfl⟩ := List.append_of_mem ha
  rw [List.foldl_append, List.foldl_cons]
  exact subset_foldl_out hkeep l₂ _ (ho _ (List.foldlRecOn _ _ hs (fun u hu b _ => hP u b hu)))

theorem mem_insertAsc_of {x y : Nat} {l : List Nat} (h : y = x ∨ y ∈ l) : y ∈ insertAsc x l := by
  induction l with
  | nil => simpa [insertAsc] using h
  | cons z l ih =>
    unfold insertAsc
    split
    case isTrue hz =>
      subst hz
      simpa using h
    case isFalse =>
      split
      · simpa using h
      · rcases h with h | h
        · exact List.mem_cons_of_mem _ (ih (.inl h))
        · exact (List.mem_cons.1 h).elim (fun h => h ▸ List.mem_cons_self) (fun h => List.mem_cons_of_mem _ (ih (.inr h)))

theorem mem_sortAsc_of {y : Nat} {l : List Nat} (h : y ∈ l) : y ∈ sortAsc l := by
  induction l with
  | nil => cases h
  | cons x l ih => exact mem_insertAsc_of ((List.mem_cons.1 h).imp id ih)

end Sys2Proof.Proofs
end

section
/-! SUPPORT. A member that does not complete a step (R207): its pending-row entries are dropped (R189) and it is set to
withdraw. -/

namespace Sys2Proof.Proofs

open Sys2Proof.Machine Sys2Proof.Laws

/-! Waits that end. -/

/-- Two states that differ by waits that have ended. -/
def WaitsEnded (s t : State) : Prop :=
  t = { s with regs := t.regs, mem := { s.mem with waiters := t.mem.waiters } } ∧ ∀ n i, n ∉ tierFields → t.f n i = s.f n i

namespace WaitsEnded

variable {s t u : State}

theorem refl (s : State) : WaitsEnded s s := ⟨rfl, fun _ _ _ => rfl⟩

theorem trans (h : WaitsEnded s t) (k : WaitsEnded t u) : WaitsEnded s u :=
  ⟨by rw [k.1, h.1], fun n i hn => (k.2 n i hn).trans (h.2 n i hn)⟩

theorem foldl {α : Type} (h : WaitsEnded s t) (l : List α) {g : State → α → State} (hg : ∀ u a, WaitsEnded u (g u a)) :
    WaitsEnded s (l.foldl g t) := List.foldlRecOn _ _ h (fun u hu a _ => hu.trans (hg u a))

theorem setF (h : WaitsEnded s t) (n : FieldName) (i v : Nat) (hn : n ∈ tierFields) : WaitsEnded s (t.setF n i v) :=
  h.trans ⟨rfl, sameRegs_names n i v hn (fun _ _ _ => rfl)⟩

theorem endWaits (h : WaitsEnded s t) (key : Nat) : WaitsEnded s (t.endWaits key) := by
  have hshown : WaitsEnded t ((t.mem.waiters.filter (fun w => w.key = key)).foldl (fun t w =>
      if (t.now - w.since) / usec 1 < 1000 || 65536 ≤ w.sw then t else t.showStall w w.past) t) := by
    refine (refl t).foldl _ (fun u w => ?_)
    split
    · exact refl u
    · exact ((((refl u).setF .TIER_STALL_LAST_SWATCH 0 _ (by decide)).setF .TIER_STALL_LAST_CAUSE 0 _ (by decide)).setF
        .TIER_STALL_LAST_FAILED 0 _ (by decide)).setF .TIER_STALL_LAST_DURATION 0 _ (by decide)
  exact (h.trans hshown).trans ⟨rfl, fun _ _ _ => rfl⟩

theorem readsAlike (h : WaitsEnded s t) : ReadsAlike s t where
  st := by rw [h.1]
  dir := by rw [h.1]
  ways := by rw [h.1]
  status _ := h.2 _ _ (by decide)
  t3Base := h.2 _ _ (by decide)

end WaitsEnded

theorem ReadsAlike.pendEntries_eq {s t : State} (h : ReadsAlike s t) (k : Nat) : t.pendEntries k = s.pendEntries k := by
  have hcols : t.pendCols k = s.pendCols k := by
    simp only [State.pendCols, State.spans, State.spanCount, h.span_eq, h.group_eq, h.desc_eq]
  simp only [State.pendEntries, hcols, h.desc_eq, h.pendHead_eq]

theorem ReadsAlike.trans {s t u : State} (h : ReadsAlike s t) (k : ReadsAlike t u) : ReadsAlike s u where
  st := k.st.trans h.st
  dir := k.dir.trans h.dir
  ways := k.ways.trans h.ways
  status i := (k.status i).trans (h.status i)
  t3Base := k.t3Base.trans h.t3Base

theorem readsAlike_fresh (s : State) : ReadsAlike s (fresh s) := ⟨rfl, rfl, rfl, fun _ => rfl, rfl⟩

theorem readsAlike_setF (s : State) {n : FieldName} (i v : Nat) (hn : n ∉ [FieldName.BASE_STATUS_STATE, .TIER_T3_BASE_BASE]) :
    ReadsAlike s (s.setF n i v) where
  st := rfl
  dir := rfl
  ways := rfl
  status j := by rw [f_setF, if_neg (by rintro ⟨rfl, -⟩; simp at hn)]
  t3Base := by rw [f_setF, if_neg (by rintro ⟨rfl, -⟩; simp at hn)]

/-! Rows dropped. -/

/-- Two states that differ by entries of pending-row ledgers that have become free, with what that sets going. -/
def RowsFreed (s t : State) : Prop :=
  t = { s with regs := t.regs, out := t.out, mem := t.mem, slots := t.slots, rowsDue := t.rowsDue } ∧
    ∀ n i, n ∉ .PRESS_QUEUE_PENDING_ROWS :: tierFields → t.f n i = s.f n i

namespace RowsFreed

variable {s t u : State}

theorem refl (s : State) : RowsFreed s s := ⟨rfl, fun _ _ _ => rfl⟩

theorem trans (h : RowsFreed s t) (k : RowsFreed t u) : RowsFreed s u :=
  ⟨by rw [k.1, h.1], fun n i hn => (k.2 n i hn).trans (h.2 n i hn)⟩

theorem foldl {α : Type} (h : RowsFreed s t) (l : List α) {g : State → α → State} (hg : ∀ u a, RowsFreed u (g u a)) :
    RowsFreed s (l.foldl g t) := List.foldlRecOn _ _ h (fun u hu a _ => hu.trans (hg u a))

theorem of_tierWork (h : TierWork s t) : RowsFreed s t :=
  ⟨by rw [h.1], fun n i hn => h.2.2.2 n i (fun hm => hn (List.mem_cons_of_mem _ hm))⟩

theorem of_waitsEnded (h : WaitsEnded s t) : RowsFreed s t :=
  ⟨by rw [h.1], fun n i hn => h.2 n i (fun hm => hn (List.mem_cons_of_mem _ hm))⟩

theorem stored (h : RowsFreed s t) (hu : Stored t u) : RowsFreed s u :=
  h.trans ⟨by rw [hu.1], fun n i _ => hu.f_eq n i⟩

theorem unpinBolt (s : State) (b : Nat) : RowsFreed s (s.unpinBolt b) := by
  unfold State.unpinBolt
  dsimp only
  split
  · exact refl s
  · exact of_tierWork ((((TierWork.refl s).setDir _ _).settleBolt _).wake _)

theorem showRows (s : State) : RowsFreed s s.showRows :=
  (refl s).foldl _ (fun _ _ => ⟨rfl, sameRegs_names _ _ _ (by simp) (fun _ _ _ => rfl)⟩)

/-- With no append of swatch `k` waiting, trying its appends again ends waits alone. -/
theorem retryAppends {k : Nat} (h : ∀ a ∈ s.rowAppends, a.sw ≠ k) : RowsFreed s (s.retryAppends k) := by
  have hmine : s.rowAppends.filter (fun a => a.sw = k) = [] :=
    List.filter_eq_nil_iff.2 (fun a ha => by simpa using h a ha)
  unfold State.retryAppends
  rw [hmine]
  refine (refl s).foldl _ (fun u st => ?_)
  split
  · exact refl u
  · exact of_waitsEnded ((WaitsEnded.refl u).endWaits _)

theorem pendFree {k : Nat} (h : ∀ a ∈ s.rowAppends, a.sw ≠ k) (j : Nat) : RowsFreed s (s.pendFree k j) := by
  unfold State.pendFree
  extract_lets hd st t w
  have ht : RowsFreed s t := (refl s).foldl _ unpinBolt
  have hw : RowsFreed s w := ht.trans ⟨rfl, fun _ _ _ => rfl⟩
  have hfreed : RowsFreed s ((w.putDevNat (w.pendAt k j) (setBits hd 2 2 0) 32).endWaits (rowKey k j st)).showRows :=
    ((hw.stored ((Stored.refl w).putDevNat _ _ _)).trans (of_waitsEnded ((WaitsEnded.refl _).endWaits _))).trans
      (showRows _)
  exact hfreed.trans (retryAppends (by rw [hfreed.1]; exact h))

end RowsFreed

/-- The state without the appends of swatch `k`. -/
def appendsDropped (s : State) (k : Nat) : State := { s with rowAppends := s.rowAppends.filter (fun a => a.sw ≠ k) }

theorem appendsDropped_readsAlike (s : State) (k : Nat) : ReadsAlike s (appendsDropped s k) :=
  ⟨rfl, rfl, rfl, fun _ => rfl, rfl⟩

theorem appendsDropped_sw (s : State) (k : Nat) : ∀ a ∈ (appendsDropped s k).rowAppends, a.sw ≠ k :=
  fun _ ha => by simpa using (List.mem_filter.1 ha).2

/-- The waits of swatch `k`'s appends ended. -/
def appendWaitsEnded (s : State) (k : Nat) : State := (List.range 24).foldl (fun t st => t.endWaits (pendKey k st)) s

theorem appendWaitsEnded_waitsEnded (s : State) (k : Nat) : WaitsEnded s (appendWaitsEnded s k) :=
  (WaitsEnded.refl s).foldl _ (fun u _ => (WaitsEnded.refl u).endWaits _)

theorem dropRows_eq (s : State) (k : Nat) : s.dropRows k =
    let u := appendWaitsEnded (appendsDropped s k) k
    ((u.pendEntries k).filter (fun p => phState p.2 = 1)).foldl (fun t p => t.pendFree k p.1) u := rfl

/-- Dropping a step's rows frees entries and ends waits (R185, R189). -/
theorem dropRows_rowsFreed (s : State) (k : Nat) : RowsFreed (appendsDropped s k) (s.dropRows k) := by
  rw [dropRows_eq]
  refine List.foldlRecOn _ _ (.of_waitsEnded (appendWaitsEnded_waitsEnded _ k)) (fun u hu p _ => hu.trans ?_)
  exact RowsFreed.pendFree (by rw [hu.1]; exact appendsDropped_sw s k) p.1

/-- With no entry that awaits the verdict, only waits end. -/
theorem dropRows_waitsEnded {s : State} {k : Nat} (h : ∀ p ∈ s.pendEntries k, phState p.2 ≠ 1) :
    WaitsEnded (appendsDropped s k) (s.dropRows k) := by
  have hnone : (s.pendEntries k).filter (fun p => phState p.2 = 1) = [] :=
    List.filter_eq_nil_iff.2 (fun p hp => by simpa using h p hp)
  have hended := appendWaitsEnded_waitsEnded (appendsDropped s k) k
  rw [dropRows_eq]
  generalize appendWaitsEnded (appendsDropped s k) k = u at hended
  have hentries : u.pendEntries k = s.pendEntries k :=
    (hended.readsAlike.pendEntries_eq k).trans ((appendsDropped_readsAlike s k).pendEntries_eq k)
  dsimp only
  rw [hentries, hnone]
  exact hended

/-! The withdrawal. -/

theorem failStep_keeps_failed {s : State} {k : Nat} (h : (s.sw k).failed = true) (j b : Nat) :
    ((s.failStep j b).sw k).failed = true := by
  rw [failStep_sw]
  split
  · exact h
  · split
    · exact h
    · exact h

theorem setWithdraw_keeps_failed {s : State} {k : Nat} (h : (s.sw k).failed = true) (cause : Nat) :
    ((s.setWithdraw cause).sw k).failed = true := by
  unfold State.setWithdraw
  dsimp only
  refine List.foldlRecOn (motive := fun t : State => (t.sw k).failed = true) _ _ ?_ (fun t ht j _ => ?_)
  · split
    · exact h
    · exact h
  · split
    · exact ht
    · have hfail := failStep_keeps_failed ht j causeWithdraw
      rw [updSw_eq, sw_setSw]
      split
      case isTrue hj => rw [← hj] at hfail; exact hfail
      case isFalse => exact hfail

/-- What a member that does not complete swatch `k`'s step keeps and shows (R207). -/
theorem notComplete_shows (s : State) (k cause : Nat) :
    (s.notComplete k cause).withdraw = some (s.withdraw.getD cause) ∧ (s.notComplete k cause).rejoin = 0 ∧
      ((s.notComplete k cause).sw k).failed = true ∧ (s.notComplete k cause).doms = s.doms ∧
      (∀ a ∈ (s.notComplete k cause).rowAppends, a.sw ≠ k) ∧
      (s.notComplete k cause).f .HUB_TACK_TIMEOUT 0 = s.f .HUB_TACK_TIMEOUT 0 ∧
      ((∀ p ∈ s.pendEntries k, phState p.2 ≠ 1) →
        (s.notComplete k cause).mem = { s.mem with waiters := (s.notComplete k cause).mem.waiters }) := by
  generalize hu : s.updSw k (fun r => { r with failed := true }) = u
  have hdrop := dropRows_rowsFreed u k
  have hfail := setWithdraw_failed (u.dropRows k) cause
  have hwithdrawal := setWithdraw_withdraw (u.dropRows k) cause
  have heq : s.notComplete k cause = (u.dropRows k).setWithdraw cause := by rw [← hu]; rfl
  have hfailed : ((u.dropRows k).sw k).failed = true := by
    rw [hdrop.1]
    show (u.sw k).failed = true
    rw [← hu, updSw_eq, sw_setSw_same]
  rw [heq]
  refine ⟨?_, congrArg (fun x => x.2.2) hwithdrawal, setWithdraw_keeps_failed hfailed cause, ?_, ?_, ?_, fun hentries => ?_⟩
  · have hfirst : ((u.dropRows k).setWithdraw cause).withdraw = some ((u.dropRows k).withdraw.getD cause) :=
      congrArg Prod.fst hwithdrawal
    rw [hfirst, hdrop.1, ← hu]
    rfl
  · rw [hfail.1, hdrop.1, ← hu]
    rfl
  · rw [hfail.1, hdrop.1]
    exact appendsDropped_sw u k
  · rw [hfail.2 _ _ (by decide), hdrop.2 _ _ (by decide), ← hu]
    rfl
  · have hreads : ReadsAlike s u := by
      rw [← hu]
      exact ⟨rfl, rfl, rfl, fun _ => rfl, rfl⟩
    have hended := dropRows_waitsEnded (s := u) (k := k) (by rw [hreads.pendEntries_eq]; exact hentries)
    have hmem : ((u.dropRows k).setWithdraw cause).mem = (u.dropRows k).mem := by rw [hfail.1]
    rw [hmem, hended.1, ← hu]
    rfl

end Sys2Proof.Proofs
end

section
/-! O37: collectives issued, completed, told by trailers and timed (R200 to R207, R214, R330, R331, R335). -/

namespace Sys2Proof.Proofs

open Sys2Proof.Machine Sys2Proof.Laws

/-! Issue (R330). -/

/-- A collective that holds no FINAL trailer at its issue opens under the domain's next COLL_SEQ. -/
theorem collIssue_opens {s : State} {d : Nat} {q : CollReq} {rest : List CollReq} (hreqs : (s.dom d).reqs = q :: rest)
    (hroom : (s.dom d).colls.length < 8) (hmember : s.isMember d = true) (hplain : q.kind ≠ 1 ∨ q.closing = false) :
    let c : Coll := { seq := s.nextSeq d, step := (s.sw q.sw).step, req := q, timer := s.now }
    let u := s.setDom d { s.dom d with reqs := rest, colls := (s.dom d).colls ++ [c] }
    let v := (u.setF .COLL_DOM_SEQ_NEXT d ((s.nextSeq d + 1) % 2 ^ 32)).tally .COLL_ISSUED 0 1
    collIssue d s = (((v.takeEarly d (s.nextSeq d)).showOpen d).takeHeld d).advanceDom d := by
  have hnofinal : ∀ c : Coll, (if q.kind = 1 && q.closing then c.final else none) = none := by
    intro c
    rw [if_neg]
    rcases hplain with h | h
    · simp [h]
    · simp [h]
  intro c u v
  unfold collIssue
  simp only [hreqs]
  rw [if_neg (by simp [hroom, hmember])]
  simp only [hnofinal]
  split <;> rfl

/-! The trailers' fields (R200). -/

/-- The fields of a verdict trailer from bit 0 upward, as width and value. -/
def trailerLayout (final dig : Bool) (f : Fold) (sw epoch seq step root : Nat) : List (Nat × Nat) :=
  [(2, 1), (1, flagBit final), (1, flagBit f.v), (1, flagBit f.w), (1, flagBit dig), (1, flagBit f.mm), (1, flagBit f.dall),
    (8, f.cause % 256), (16, sw % 2 ^ 16), (32, epoch % 2 ^ 32), (32, seq % 2 ^ 32), (64, step % 2 ^ 64),
    (14, f.folded % 2 ^ 14), (82, 0), (256, root % 2 ^ 256)]

theorem trailerBits_eq_packFields (final dig : Bool) (f : Fold) (sw epoch seq step root : Nat) :
    trailerBits final dig f sw epoch seq step root = packFields (trailerLayout final dig f sw epoch seq step root) := by
  simp only [trailerBits, trailerLayout, packFields]
  ring

theorem trailerLayout_fits (final dig : Bool) (f : Fold) (sw epoch seq step root : Nat) :
    ∀ x ∈ trailerLayout final dig f sw epoch seq step root, x.2 < 2 ^ x.1 := by
  have hflag (b : Bool) : flagBit b < 2 := Nat.lt_succ_of_le (flagBit_le b)
  have hmod (v w : Nat) : v % 2 ^ w < 2 ^ w := Nat.mod_lt _ (Nat.two_pow_pos w)
  simp only [trailerLayout, List.forall_mem_cons, List.not_mem_nil, false_implies, implies_true, and_true, hmod, true_and,
    pow_one, hflag]
  omega

/-- A trailer's fields are read back. -/
theorem cutFields_trailerBits (final dig : Bool) (f : Fold) (sw epoch seq step root : Nat) :
    cutFields (trailerBits final dig f sw epoch seq step root) 0
      ((trailerLayout final dig f sw epoch seq step root).map Prod.fst) =
        trailerLayout final dig f sw epoch seq step root := by
  rw [trailerBits_eq_packFields]
  exact cutFields_packFields (trailerLayout_fits _ _ _ _ _ _ _ _)

/-- A trailer tells the fold that it was made of, and whether it is FINAL. -/
theorem trailerBits_fold (final dig : Bool) (f : Fold) (sw epoch seq step root : Nat) :
    tlFold (trailerBits final dig f sw epoch seq step root) =
        { f with cause := f.cause % 256, folded := f.folded % 2 ^ 14 } ∧
      tlFinal (trailerBits final dig f sw epoch seq step root) = final := by
  have h := cutFields_trailerBits final dig f sw epoch seq step root
  generalize trailerBits final dig f sw epoch seq step root = raw at h
  simp only [trailerLayout, List.map_cons, List.map_nil, cutFields, List.cons.injEq, Prod.mk.injEq, true_and, and_true,
    bitField_one, flagBit_inj, Nat.reduceAdd, Nat.zero_add] at h
  obtain ⟨-, hfinal, hv, hw, -, hmm, hdall, hcause, -, -, -, -, hfolded, -, -⟩ := h
  refine ⟨?_, hfinal⟩
  rw [tlFold, hv, hw, hmm, hdall, hcause, hfolded]

/-! Round trailers (R202). -/

/-- A later round's trailer carries the fold of the round before, with the member's own fields. -/
theorem roundTrailerSend_later {s : State} {d k : Nat} {c : Coll} {own : Fold} (hc : s.closing d k = some c)
    (hrounds : c.rout + 1 < (s.dom d).members.length) (hsent : c.contributed = true) (hin : c.rout ≤ c.rin)
    (hlater : c.rout ≠ 0) (hown : c.own = some own) :
    let ms := (s.dom d).members
    let f := (c.foldOf c.rout).join { own with mm := (s.sw k).mm }
    let root := if s.dig k then s.devNat (s.desc k 768 52 + 64) 32 else 0
    let raw := trailerBits false (s.dig k) f k (s.epoch d) c.seq c.step root
    roundTrailerSend d k s = ((s.sendTrailer d (ms.getD ((s.position d + 1) % natMax ms.length 1) 0) raw).updColl d c.seq
      (fun x => { x with rout := x.rout + 1, own := some { own with mm := (s.sw k).mm } })).formFinal d c.seq := by
  intro ms f root raw
  have hgoes : (decide ((s.dom d).members.length ≤ c.rout + 1) || !c.contributed || decide (c.rin < c.rout)) = false := by
    simp [hrounds, hsent, hin]
  unfold roundTrailerSend
  simp only [hc, hgoes, hlater, hown, if_false, Option.getD_some, Bool.false_eq_true]
  rfl

/-! Trailers received (R204, R214). -/

/-- No counter is later than itself (R14). -/
theorem isLater_self (n a : Nat) : isLater n a a = false := by
  have hsplit : a + 2 ^ n - a % 2 ^ n = 2 ^ n * (a / 2 ^ n + 1) := by
    have hdiv := Nat.div_add_mod a (2 ^ n)
    rw [Nat.mul_succ]
    omega
  simp [isLater, hsplit]

/-- A trailer of the epoch in force that matches an open collective is acted on. -/
theorem trailer_open {s : State} {d raw : Nat} {c : Coll} (sender : Nat) (hkind : bitField raw 0 2 = 1)
    (hepoch : tlEpoch raw = s.epoch d) (hc : s.coll d (tlSeq raw) = some c) (hsw : c.req.sw = tlSwatch raw)
    (hstep : c.step = tlStep raw) : trailer d raw sender s =
      (s.setDom d { s.dom d with heardAt := FMap.set 0 (s.dom d).heardAt sender s.now }).takeTrailer d raw sender c := by
  generalize hu : s.setDom d { s.dom d with heardAt := FMap.set 0 (s.dom d).heardAt sender s.now } = u
  have hepoch' : tlEpoch raw = u.epoch d := by
    rw [← hu]
    exact hepoch
  have hc' : u.coll d (tlSeq raw) = some c := by
    rw [← hu, State.coll, dom_setDom_same]
    exact hc
  unfold trailer
  simp only [hu]
  rw [if_neg (by simp [hkind]), hepoch', isLater_self, if_neg (by simp), if_neg (by simp), hc']
  dsimp only
  rw [if_pos (by simp [hsw, hstep])]

/-- A first-round root that differs from this member's own is a mismatch (R214). -/
theorem compareRoot_differs {s : State} {k raw : Nat} (hdig : s.dig k = true) (htold : tlDig raw = true)
    (hroot : tlRoot raw ≠ s.devNat (s.desc k 768 52 + 64) 32) : s.compareRoot k raw =
      (s.tally .HUB_AGREE_MISMATCH 0 1).updSw k (fun r => { r with mm := true }) := by
  unfold State.compareRoot
  rw [if_pos (by simp [hdig, htold, hroot])]

/-! Sequences (R331). -/

/-- A sequence whose bytes and trailer are here is taken; a gathered shard is written once its bolts are served. -/
theorem sequenceComplete_ended {s : State} {d seq sender : Nat} {c : Coll} {x : Part} (hc : s.coll d seq = some c)
    (hx : c.arrived.find? (fun p => p.sender = sender || p.sender = 8192) = some x) (hended : sender ∈ c.ended) :
    let c' : Coll := { c with
      arrived := c.arrived.erase x, ended := c.ended.erase sender
      parts := if x.phase = 2 then c.parts else c.parts ++ [x] }
    sequenceComplete d seq sender s =
      if x.phase = 2 then s.collEngine c'.req false true (fun s => ((s.setColl d c').takeShard d c' x).advanceDom d)
      else (s.setColl d c').advanceDom d := by
  intro c'
  unfold sequenceComplete
  simp only [hc, hx]
  rw [if_neg (by simp [hended])]

/-- The collective engine's work on what it writes, where every bolt is served (R264). -/
theorem collEngine_writes {s : State} {q : CollReq} (hpair : s.engineFree q.sw (pairRanges q) [])
    (hout : (s.streams (pairRanges q) []).engineFree q.sw [] ((s.streams (pairRanges q) []).outputRanges q))
    (f : State → State) : s.collEngine q false true f =
      f ((s.streams (pairRanges q) []).streams [] ((s.streams (pairRanges q) []).outputRanges q)) := by
  unfold State.collEngine
  rw [engine_free hpair]
  exact engine_free hout f

/-! Timers (R206, R207). -/

/-- The collectives of a swatch, asked for or open, leave a domain. -/
def withoutSwatch (v : Dom) (k : Nat) : Dom :=
  { v with colls := v.colls.filter (fun x => x.req.sw ≠ k), reqs := v.reqs.filter (fun q => q.sw ≠ k) }

theorem collectiveTimeout_expired {s : State} {d seq : Nat} {c : Coll} (hc : s.coll d seq = some c)
    (hexpired : msec 50 ≤ s.now - c.timer) : collectiveTimeout d seq s =
      let u := (s.tally .HUB_TACK_TIMEOUT 0 1).notComplete c.req.sw (2 ^ causeWithdraw)
      ({ u.setDom d (withoutSwatch (u.dom d) c.req.sw) with timedOut := s.withdraw.isNone } : State).showOpen d := by
  unfold collectiveTimeout
  simp only [hc]
  rw [if_neg (Nat.not_lt.2 hexpired)]
  rfl

/-- HOLD messages of swatch `k` to some places, counted (R206). -/
def sendHolds (s : State) (d k : Nat) (seqs dests : List Nat) : State :=
  dests.foldl (fun t p => (t.message d p 7 ([(s.epoch d, 4), (k, 2)] ++ seqs.map (fun q => (q, 4)))).tally .COLL_HOLD_TX 0 1) s

/-- The messages go out, and leave time and swatches alone. -/
theorem sendHolds_shows (s : State) (d k : Nat) (seqs dests : List Nat) :
    ((sendHolds s d k seqs dests).now = s.now ∧ (sendHolds s d k seqs dests).sws = s.sws) ∧
      ∀ p ∈ dests, Out.message p 7 (s.epoch d :: k :: seqs) ∈ (sendHolds s d k seqs dests).out := by
  unfold sendHolds
  refine ⟨List.foldlRecOn (motive := fun t : State => t.now = s.now ∧ t.sws = s.sws) _ _ ⟨rfl, rfl⟩
    (fun t ht p _ => ?_), fun p hp => ?_⟩
  · rw [tally_eq, (message_sent t d p 7 _).1]
    exact ht
  · refine mem_foldl_out (P := fun _ => True) trivial (fun _ _ _ => trivial) (fun u p => ?_) hp (fun u _ => ?_)
    · exact message_keeps_out u d p 7 _
    · refine message_out u d p 7 _ (List.mem_append_right _ ?_)
      simp [Function.comp_def]

/-- A holding member tells its ring neighbours, and its own timers start again (R206, R335). -/
theorem holdNoticeTick_due {s : State} {k : Nat} (hdom : (s.sw k).domain < 16) (hring : s.alone k = false)
    (hholds : s.holding k = true) (hdue : msec 10 ≤ s.now - (s.sw k).holdAt) :
    let d := (s.sw k).domain
    let ms := (s.dom d).members
    let m := ms.length
    let seqs := (((s.dom d).colls.filter (fun c => c.req.sw = k)).map Coll.seq).take 8
    let u := sendHolds s d k seqs (sortAsc [ms.getD ((s.position d + m - 1) % m) 0, ms.getD ((s.position d + 1) % m) 0])
    holdNoticeTick k s = restartTimers d seqs (u.updSw k (fun x => { x with holdAt := u.now })) := by
  have hgoes : (decide ((s.sw k).domain ≥ 16) || s.alone k || !s.holding k ||
      decide (s.now - (s.sw k).holdAt < msec 10)) = false := by
    simp [hdom, hring, hholds, hdue]
  intro d ms m seqs u
  unfold holdNoticeTick
  simp only [hgoes, if_false, Bool.false_eq_true]
  rfl

/-- A timer that has started again shows the time. -/
theorem restartTimers_timer {d q : Nat} {seqs : List Nat} {s : State} {c : Coll} (hq : q ∈ seqs)
    (hc : (restartTimers d seqs s).coll d q = some c) : c.timer = s.now := by
  rw [restartTimers_coll, if_pos hq] at hc
  obtain ⟨c', -, rfl⟩ := Option.map_eq_some_iff.1 hc
  rfl

/-- A HOLD of the epoch in force starts the timers that it lists again (R335). -/
theorem hold_epoch (s : State) (d : Nat) (seqs : List Nat) :
    hold d (s.epoch d) seqs s = restartTimers d (seqs.take 8) (s.tally .COLL_HOLD_RX 0 1) := by
  have hepoch : (s.tally .COLL_HOLD_RX 0 1).epoch d = s.epoch d := by
    rw [State.epoch, tally_eq, f_setF, if_neg (by simp)]
    rfl
  unfold hold
  dsimp only
  rw [if_neg (by rw [hepoch]; simp)]
  rfl

/-- A collective issued takes the domain's next COLL_SEQ and is counted (R330): the part of O37 about COLL_ISSUE. -/
theorem collIssue_numbers (s : State) (d : Nat) (q : CollReq) (rest : List CollReq) (hu : s.up) (hd : d < 16)
    (hreqs : (s.dom d).reqs = q :: rest) (hroom : (s.dom d).colls.length < 8) (hmember : s.isMember d = true)
    (hplain : q.kind ≠ 1 ∨ q.closing = false) :
    let c : Coll := { seq := s.nextSeq d, step := (s.sw q.sw).step, req := q, timer := s.now }
    let u := (fresh s).setDom d { s.dom d with reqs := rest, colls := (s.dom d).colls ++ [c] }
    let v := (u.setF .COLL_DOM_SEQ_NEXT d ((s.nextSeq d + 1) % 2 ^ 32)).tally .COLL_ISSUED 0 1
    exec (.collIssue d) s = .next (wrap s ((((v.takeEarly d (s.nextSeq d)).showOpen d).takeHeld d).advanceDom d)) ∧
      v.nextSeq d = (s.nextSeq d + 1) % 2 ^ 32 ∧ v.f .COLL_ISSUED 0 = satAdd (s.f .COLL_ISSUED 0) 1 ∧
      (v.dom d).reqs = rest ∧ c ∈ (v.dom d).colls ∧ ∀ e, e ≠ d → v.dom e = s.dom e := by
  intro c u v
  have hissue := collIssue_opens (s := fresh s) hreqs hroom hmember hplain
  have hv : v.dom d = { s.dom d with reqs := rest, colls := (s.dom d).colls ++ [c] } := dom_setDom_same _ _ _
  refine ⟨?_, ?_, ?_, ?_, ?_, fun e he => ?_⟩
  · rw [exec_collIssue, act_up (by simpa using hd) hu, hissue]
    rfl
  · simp only [v, State.nextSeq, tally_eq, f_setF]
    simp [fieldDesc]
  · refine (f_tally_same _ 0 1 rfl).trans ?_
    rw [f_setF, if_neg (by simp)]
    rfl
  · rw [hv]
  · rw [hv]
    exact List.mem_append_right _ List.mem_cons_self
  · exact (dom_setDom _ _ _ _).trans (if_neg (Ne.symm he))

/-- A collective without a flit for 50 ms (R206): the part of O37 about COLLECTIVE_TIMEOUT. -/
theorem collectiveTimeout_withdraws (s : State) (d seq : Nat) (c : Coll) (hu : s.up) (hd : d < 16)
    (hc : s.coll d seq = some c) (hexpired : msec 50 ≤ s.now - c.timer) :
    ∃ t, exec (.collectiveTimeout d seq) s = .next t ∧ t.f .HUB_TACK_TIMEOUT 0 = satAdd (s.f .HUB_TACK_TIMEOUT 0) 1 ∧
      t.withdraw = some (s.withdraw.getD (2 ^ causeWithdraw)) ∧ t.timedOut = s.withdraw.isNone ∧
      (t.sw c.req.sw).failed = true ∧ (∀ x ∈ (t.dom d).colls, x.req.sw ≠ c.req.sw) ∧
      (∀ q ∈ (t.dom d).reqs, q.sw ≠ c.req.sw) ∧ (∀ e, e ≠ d → t.dom e = s.dom e) ∧
      t.rejoin = 0 ∧ (∀ a ∈ t.rowAppends, a.sw ≠ c.req.sw) ∧
      ((∀ p ∈ s.pendEntries c.req.sw, phState p.2 ≠ 1) → t.mem = { s.mem with waiters := t.mem.waiters }) := by
  have htimeout := collectiveTimeout_expired (s := fresh s) hc hexpired
  generalize hx : (fresh s).tally .HUB_TACK_TIMEOUT 0 1 = x at htimeout
  obtain ⟨hwithdraw, hrejoin, hfailed, hdoms, happends, hcount, hmem⟩ := notComplete_shows x c.req.sw (2 ^ causeWithdraw)
  have hreads : ReadsAlike s x := by
    rw [← hx]
    exact (readsAlike_fresh s).trans (readsAlike_setF _ _ _ (by decide))
  have hcounted : x.f .HUB_TACK_TIMEOUT 0 = satAdd (s.f .HUB_TACK_TIMEOUT 0) 1 := by
    rw [← hx]
    exact f_tally_same _ 0 1 rfl
  have hdom (e : Nat) : (x.notComplete c.req.sw (2 ^ causeWithdraw)).dom e = s.dom e := by
    rw [State.dom, hdoms, ← hx]
    rfl
  generalize x.notComplete c.req.sw (2 ^ causeWithdraw) = w at *
  dsimp only at htimeout
  generalize hz : w.setDom d (withoutSwatch (w.dom d) c.req.sw) = z at htimeout
  have hleft : z.dom d = withoutSwatch (s.dom d) c.req.sw := by
    rw [← hz, dom_setDom_same, hdom]
  have hexec : exec (.collectiveTimeout d seq) s =
      .next (wrap s (({ z with timedOut := s.withdraw.isNone } : State).showOpen d)) := by
    rw [exec_collectiveTimeout, act_up (by simpa using hd) hu, htimeout]
    rfl
  refine ⟨_, hexec, ?_, ?_, rfl, ?_, ?_, ?_, fun e he => ?_, ?_, ?_, fun hentries => ?_⟩
  · rw [← hcounted, ← hcount, ← hz, f_read_wrap, State.showOpen, f_setF, if_neg (by simp)]
    rfl
  · rw [← hz]
    refine hwithdraw.trans ?_
    rw [← hx]
    rfl
  · rw [← hz]
    exact hfailed
  · intro q hq
    have hmem : q ∈ (withoutSwatch (s.dom d) c.req.sw).colls := by
      rw [← hleft]
      exact hq
    simpa using (List.mem_filter.1 hmem).2
  · intro q hq
    have hmem : q ∈ (withoutSwatch (s.dom d) c.req.sw).reqs := by
      rw [← hleft]
      exact hq
    simpa using (List.mem_filter.1 hmem).2
  · rw [← hdom e, ← hz]
    exact (dom_setDom _ _ _ _).trans (if_neg (Ne.symm he))
  · rw [← hz]
    exact hrejoin
  · rw [← hz]
    exact happends
  · rw [← hz]
    refine (hmem ?_).trans ?_
    · rw [hreads.pendEntries_eq]
      exact hentries
    · rw [← hx]
      rfl

/-- A holding member's message to its ring neighbours (R206, R335): the part of O37 about HOLD_NOTICE_TICK. -/
theorem holdNoticeTick_notifies (s : State) (k : Nat) (hu : s.up) (hk : k < 65536) (hdomain : (s.sw k).domain < 16)
    (hring : s.alone k = false) (hholds : s.holding k = true) (hdue : msec 10 ≤ s.now - (s.sw k).holdAt) :
    let d := (s.sw k).domain
    let m := (s.dom d).members.length
    let seqs := (((s.dom d).colls.filter (fun c => c.req.sw = k)).map Coll.seq).take 8
    ∃ t, exec (.holdNoticeTick k) s = .next t ∧ t.sw k = { s.sw k with holdAt := s.now } ∧
      (∀ p ∈ [(s.dom d).members.getD ((s.position d + m - 1) % m) 0, (s.dom d).members.getD ((s.position d + 1) % m) 0],
        Out.message p 7 (s.epoch d :: k :: seqs) ∈ t.out) ∧
      (∀ q ∈ seqs, ∀ c, t.coll d q = some c → c.timer = s.now) := by
  intro d m seqs
  generalize hdests : [(s.dom d).members.getD ((s.position d + m - 1) % m) 0,
    (s.dom d).members.getD ((s.position d + 1) % m) 0] = dests
  obtain ⟨⟨hnow, hsws⟩, hout⟩ := sendHolds_shows (fresh s) d k seqs (sortAsc dests)
  have htick : holdNoticeTick k (fresh s) = restartTimers d seqs
      ((sendHolds (fresh s) d k seqs (sortAsc dests)).updSw k
        (fun x => { x with holdAt := (sendHolds (fresh s) d k seqs (sortAsc dests)).now })) := by
    rw [← hdests]
    exact holdNoticeTick_due (s := fresh s) hdomain hring hholds hdue
  generalize sendHolds (fresh s) d k seqs (sortAsc dests) = u at *
  refine ⟨_, by rw [exec_holdNoticeTick, act_up (by simpa using hk) hu, htick], ?_, fun p hp => ?_, fun q hq c hc => ?_⟩
  · rw [restartTimers_rest]
    refine (sw_setSw_same _ _ _).trans ?_
    rw [State.sw, hsws, hnow]
    rfl
  · rw [restartTimers_rest]
    exact hout p (mem_sortAsc_of hp)
  · exact (restartTimers_timer hq hc).trans hnow

/-- A HOLD of the epoch in force (R335): the part of O37 about HOLD. -/
theorem hold_restarts (s : State) (d : Nat) (seqs : List Nat) (sender : Nat) (hu : s.up) (hd : d < 16)
    (hsender : sender < 8192) :
    ∃ t, exec (.hold d (s.epoch d) seqs sender) s = .next t ∧ t.f .COLL_HOLD_RX 0 = satAdd (s.f .COLL_HOLD_RX 0) 1 ∧
      (∀ q ∈ seqs.take 8, ∀ c, t.coll d q = some c → c.timer = s.now) ∧
      (∀ q, q ∉ seqs.take 8 → t.coll d q = s.coll d q) ∧
      t = { s with out := [], doms := t.doms, regs := t.regs } ∧ SameRegs s t [(.COLL_HOLD_RX, 0)] := by
  have hhold := hold_epoch (fresh s) d seqs
  have hrest := restartTimers_rest d (seqs.take 8) ((fresh s).tally .COLL_HOLD_RX 0 1)
  have hcoll := restartTimers_coll d (seqs.take 8) ((fresh s).tally .COLL_HOLD_RX 0 1)
  have htimer {q : Nat} {c : Coll} := restartTimers_timer (d := d) (q := q) (seqs := seqs.take 8)
    (s := (fresh s).tally .COLL_HOLD_RX 0 1) (c := c)
  have hexec : exec (.hold d (s.epoch d) seqs sender) s =
      .next (wrap s (restartTimers d (seqs.take 8) ((fresh s).tally .COLL_HOLD_RX 0 1))) := by
    rw [exec_hold, act_up (by simpa using ⟨hd, hsender⟩) hu, ← hhold]
    rfl
  generalize restartTimers d (seqs.take 8) ((fresh s).tally .COLL_HOLD_RX 0 1) = t at *
  refine ⟨_, hexec, ?_, fun q hq c hc => ?_, fun q hq => ?_, ?_, ?_⟩
  · rw [hrest]
    exact f_tally_same (fresh s) 0 1 rfl
  · exact htimer hq hc
  · exact (hcoll q).trans (if_neg hq)
  · rw [hrest]
    rfl
  · rw [hrest]
    exact sameRegs_tally (fresh s) .COLL_HOLD_RX 0 1

/-- Settles O37, command by command. -/
theorem collectivesNumberSequenceAndTime : Obligations.CollectivesNumberSequenceAndTime := by
  unfold Obligations.CollectivesNumberSequenceAndTime
  refine ⟨?_, ?_, ?_, ?_, ?_, ?_, ?_, ?_⟩
  · exact collIssue_numbers
  · intro s d seq sender c x hu hd hsender hc hx hended c'
    have hseq := sequenceComplete_ended (s := fresh s) hc hx hended
    constructor
    · intro hphase
      rw [exec_sequenceComplete, act_up (by simpa using ⟨hd, hsender⟩) hu, hseq, if_neg hphase]
    · intro hphase hfree y hout
      rw [exec_sequenceComplete, act_up (by simpa using ⟨hd, hsender⟩) hu, hseq, if_pos hphase,
        collEngine_writes (q := c'.req) (engineFree_fresh hfree) hout]
  · intro s d k c own hu hd hk hc hrounds hsent hin hlater hown ms f root raw
    have hround := roundTrailerSend_later (s := fresh s) hc hrounds hsent hin hlater hown
    refine ⟨?_, trailerBits_fold _ _ _ _ _ _ _ _⟩
    rw [exec_roundTrailerSend, act_up (by simpa using ⟨hd, hk⟩) hu, hround]
    rfl
  · intro s d raw sender c hu hd hsender hmember hkind hepoch hc hsw hstep u
    have htakes : takesTrailer d raw sender (fresh s) = u.takeTrailer d raw sender c := by
      refine (if_pos hmember).trans ?_
      exact trailer_open (s := fresh s) sender hkind hepoch hc hsw hstep
    refine ⟨by rw [exec_trailer, act_up (by simpa using ⟨hd, hsender⟩) hu, htakes], fun hdig htold hroot => ?_⟩
    rw [compareRoot_differs hdig htold hroot]
    exact ⟨by rw [updSw_eq, sw_setSw_same]; rfl, f_tally_same s 0 1 rfl⟩
  · intro s d raw sender hu hd hsender hmember
    have htakes : takesTrailer d raw sender (fresh s) = (fresh s).tally .HUB_TACK_STALE 0 1 :=
      if_neg (ne_true_of_eq_false hmember)
    rw [exec_trailer, act_up (by simpa using ⟨hd, hsender⟩) hu, htakes]
  · exact collectiveTimeout_withdraws
  · exact holdNoticeTick_notifies
  · exact hold_restarts

end Sys2Proof.Proofs
end

section
/-! SUPPORT. The first stage of localisation (R216): what gathering the roots changes, reads and sends, and what the search
for a majority makes of the swatch's run. -/

namespace Sys2Proof.Proofs

open Sys2Proof.Machine Sys2Proof.Laws

/-! Lists of options. -/

theorem allSome_eq_some {α : Type} {l : List (Option α)} {xs : List α} : allSome l = some xs ↔ l = xs.map some := by
  induction l generalizing xs with
  | nil => cases xs <;> simp [allSome]
  | cons o l ih =>
    cases o with
    | none => cases xs <;> simp [allSome]
    | some a => cases xs <;> simp [allSome, ih, and_comm]

theorem none_mem_of_allSome {α : Type} {l : List (Option α)} (h : allSome l = none) : none ∈ l := by
  induction l with
  | nil => cases h
  | cons o l ih =>
    cases o with
    | none => exact List.mem_cons_self
    | some a => exact List.mem_cons_of_mem _ (ih (Option.map_eq_none_iff.1 h))

/-! What a stage changes. -/

/-- The register fields that gathering the roots can change. -/
def gatherFields : List FieldName :=
  [.SEAM_TX_MFLITS, .BASE_HIT, .BASE_MISS, .BASE_DALU_DROP, .HUB_AGREE_STATUS_STATE, .HUB_AGREE_STATUS_SWATCH]

/-- Two states that differ by the gathering of the roots of swatch `k`. -/
structure Gathering (k : Nat) (s t : State) : Prop where
  rest : t = { s with
    out := t.out, sws := t.sws, ports := t.ports, regs := t.regs
    mem := { s.mem with cache := t.mem.cache, plru := t.mem.plru, tick := t.mem.tick } }
  others : ∀ j, j ≠ k → t.sw j = s.sw j
  domain : (t.sw k).domain = (s.sw k).domain
  regs : ∀ n i, n ∉ gatherFields → t.f n i = s.f n i

namespace Gathering

variable {k : Nat} {s t u : State}

theorem refl (s : State) : Gathering k s s := ⟨rfl, fun _ _ => rfl, rfl, fun _ _ _ => rfl⟩

theorem trans (h : Gathering k s t) (h' : Gathering k t u) : Gathering k s u where
  rest := by rw [h'.rest, h.rest]
  others j hj := (h'.others j hj).trans (h.others j hj)
  domain := h'.domain.trans h.domain
  regs n i hn := (h'.regs n i hn).trans (h.regs n i hn)

theorem of_sent (h : Sent s t) : Gathering k s t where
  rest := by rw [h.1]
  others j _ := by rw [h.1]; rfl
  domain := by rw [h.1]; rfl
  regs n i hn := h.2 n i (by rintro rfl; exact hn (by decide))

theorem of_cached (h : Cached s t) : Gathering k s t where
  rest := by rw [h.1]
  others j _ := by rw [h.1]; rfl
  domain := by rw [h.1]; rfl
  regs n i hn := h.2 n i (fun hm => hn (by
    simp only [cacheFields, List.mem_cons, List.not_mem_nil, or_false] at hm
    rcases hm with rfl | rfl | rfl <;> decide))

theorem setSw (h : Gathering k s t) {r : SwRun} (hr : r.domain = (t.sw k).domain) : Gathering k s (t.setSw k r) :=
  h.trans ⟨rfl, fun j hj => by rw [sw_setSw, if_neg (Ne.symm hj)], by rw [sw_setSw_same, hr], fun _ _ _ => rfl⟩

theorem showAgree (h : Gathering k s t) (v : Nat) : Gathering k s (t.showAgree k v) :=
  h.trans ⟨rfl, fun _ _ => rfl, rfl,
    sameRegs_names _ _ _ (by decide) (sameRegs_names _ _ _ (by decide) (fun _ _ _ => rfl))⟩

/-! What it reads stays. -/

variable (h : Gathering k s t)
include h

theorem memOnly : MemOnly s.mem t.mem := by
  rw [h.rest]
  rfl

theorem dom_eq (d : Nat) : t.dom d = s.dom d := by
  rw [h.rest]
  rfl

theorem place_eq : t.place = s.place := by
  have hboot : t.boot = s.boot := by rw [h.rest]
  have hbyte : t.patByte = s.patByte := by
    funext i v
    unfold State.patByte
    rw [hboot]
  have hpos : t.bpos = s.bpos := h.regs _ _ (by decide)
  simp only [State.place, State.placeAt, State.board, State.coord, State.tsize, hbyte, hpos]

theorem members_eq : t.members k = s.members k := by
  simp only [State.members, h.domain, h.dom_eq]

theorem myPos_eq : t.myPos k = s.myPos k := by
  simp only [State.myPos, h.members_eq, h.place_eq]

theorem lining_eq (d : Nat) : t.lining d = s.lining d := by
  rw [State.lining, h.regs .COLL_DOM_CFG_LINING d (by decide), h.regs .COLL_DOM_CFG_EXPECT d (by decide), State.lining]

theorem doneSeq_eq (d : Nat) : t.doneSeq d = s.doneSeq d := by
  simp only [State.doneSeq, h.dom_eq, h.regs .COLL_DOM_SEQ_NEXT d (by decide)]

theorem readsAlike : ReadsAlike s t where
  st := by rw [h.rest]
  dir := by rw [h.rest]
  ways := by rw [h.rest]
  status _ := h.regs _ _ (by decide)
  t3Base := h.regs _ _ (by decide)

theorem stored_eq (i : Nat) : t.stored k i = s.stored k i := by
  simp only [State.stored, h.readsAlike.devNat_eq, h.readsAlike.desc_eq]

theorem agreeIn_eq (phase shard x w : Nat) : t.agreeIn k phase shard x w = s.agreeIn k phase shard x w := by
  simp only [State.agreeIn, h.domain, h.dom_eq]

end Gathering

theorem showAgree_state (s : State) (k : Nat) {v : Nat} (hv : v < 4) : (s.showAgree k v).f .HUB_AGREE_STATUS_STATE 0 = v := by
  rw [State.showAgree, f_setF, if_neg (by simp)]
  exact f_setF_fits s 0 hv

theorem showAgree_swatch (s : State) {k : Nat} (v : Nat) (hk : k < 65536) :
    (s.showAgree k v).f .HUB_AGREE_STATUS_SWATCH 0 = k := f_setF_fits _ 0 hk

/-! The roots sent. -/

/-- The root of ring position `p`, where it is here: this member's own is the one it has stored. -/
def rootAt (s : State) (k p : Nat) : Option Nat :=
  if p = s.myPos k then some (s.stored k 0) else (s.agreeIn k 7 p 0 32).map (fun l => l.headD 0)

theorem Gathering.rootAt_eq {k : Nat} {s t : State} (h : Gathering k s t) : rootAt t k = rootAt s k := by
  funext p
  simp only [rootAt, h.myPos_eq, h.stored_eq, h.agreeIn_eq]

/-- This member's root sent to every other one. -/
def rootsOut (s : State) (k : Nat) : State :=
  ((List.range (s.members k).length).filter (fun p => p ≠ s.myPos k)).foldl
    (fun t p => t.sendAgree k p 7 (s.myPos k) 0 (leBytes (s.stored k 0) 32)) s

/-- The roots sent, unless they are already. -/
def rootsSent (s : State) (k : Nat) : State :=
  if (s.sw k).rootSent then s else (rootsOut s k).updSw k (fun r => { r with rootSent := true })

theorem sendAgree_sent (s : State) (k pos phase shard x : Nat) (bs : List Byte) :
    Sent s (s.sendAgree k pos phase shard x bs) := sendData_sent _ _ _ _ _ _ _ _

theorem rootsOut_sent (s : State) (k : Nat) : Sent s (rootsOut s k) := foldl_sent _ _ (fun u _ => sendAgree_sent u _ _ _ _ _ _) s

theorem rootsSent_gathering (s : State) (k : Nat) : Gathering k s (rootsSent s k) := by
  unfold rootsSent
  split
  · exact .refl s
  · exact (Gathering.of_sent (rootsOut_sent s k)).setSw rfl

theorem rootsSent_f (s : State) (k : Nat) {n : FieldName} (i : Nat) (hn : n ≠ .SEAM_TX_MFLITS) :
    (rootsSent s k).f n i = s.f n i := by
  unfold rootsSent
  split
  · rfl
  · exact (rootsOut_sent s k).2 n i hn

theorem rootsSent_sw (s : State) (k : Nat) : (rootsSent s k).sw k = { s.sw k with rootSent := true } := by
  unfold rootsSent
  split
  case isTrue hsent => rw [← hsent]
  case isFalse =>
    rw [updSw_eq, sw_setSw_same, (rootsOut_sent s k).1]
    rfl

/-- A member that has not sent its root sends it to every other one (R216, step 1). -/
theorem rootsSent_out {s : State} {k p : Nat} (hsent : (s.sw k).rootSent = false) (hp : p < (s.members k).length)
    (hother : p ≠ s.myPos k) : Out.sequence ((s.members k).getD p 0) (s.sw k).domain (s.doneSeq (s.sw k).domain) 7 (s.myPos k) k
      ((leBytes (s.stored k 0) 32).map BitVec.toNat) ∈ (rootsSent s k).out := by
  unfold rootsSent
  rw [if_neg (by simp [hsent])]
  refine mem_foldl_out (P := Sent s) (.refl s) (fun u _ hu => hu.trans (sendAgree_sent u _ _ _ _ _ _))
    (fun u _ => sendData_keeps_out u _ _ _ _ _ _ _) (List.mem_filter.2 ⟨List.mem_range.2 hp, by simpa using hother⟩)
    (fun u hu => ?_)
  have hg : Gathering k s u := .of_sent hu
  have hout := sendData_out u (u.sw k).domain ((u.members k).getD p 0) (u.doneSeq (u.sw k).domain) 7 (s.myPos k)
    (k + 65536 * 0) (leBytes (s.stored k 0) 32)
  refine hout (List.mem_append_right _ ?_)
  rw [hg.domain, hg.members_eq, hg.doneSeq_eq]
  exact List.mem_cons_self

/-! The majority sought. -/

theorem gatherRoots_eq (s : State) (k : Nat) : s.gatherRoots k =
    (allSome ((List.range (s.members k).length).map (rootAt s k))).elim (rootsSent s k) ((rootsSent s k).findMajority k) := by
  have hg := rootsSent_gathering s k
  have hroots : (fun p => if p = s.myPos k then some ((rootsSent s k).stored k 0)
      else ((rootsSent s k).agreeIn k 7 p 0 32).map (fun l => l.headD 0)) = rootAt s k := by
    rw [← hg.rootAt_eq]
    funext p
    rw [rootAt, hg.myPos_eq]
  unfold State.gatherRoots
  extract_lets m me u
  have hu : u = rootsSent s k := rfl
  rw [hu, hroots]
  cases allSome ((List.range m).map (rootAt s k)) with
  | none => rfl
  | some roots => rfl

/-- The run of a swatch of whose roots no majority is sought or found (R218). -/
theorem findMajority_none {s : State} {k : Nat} {roots : List Nat}
    (h : s.lining (s.sw k).domain = true ∨ majorityOf roots = none) :
    s.findMajority k roots = s.setSw k { s.sw k with stage := 4, majority := false } := by
  have hnone : (if s.lining (s.sw k).domain then none else majorityOf roots) = none := by
    rcases h with h | h
    · rw [if_pos h]
    · rw [h, ite_self]
  unfold State.findMajority
  simp only [hnone]
  rfl

/-- The stage that a member goes on to with a majority: 1 the odd members and their reference, 4 the odd ones of more than
16 members, 5 the others (R216, R218). -/
def majorityStage (m me ref : Nat) (odd : List Nat) : Nat :=
  if me ∈ odd then (if 16 < m then 4 else 1) else if me = ref ∧ m ≤ 16 then 1 else 5

theorem findMajority_some {s : State} {k x : Nat} {roots : List Nat} (hpair : s.lining (s.sw k).domain = false)
    (hx : majorityOf roots = some x) :
    let ref := roots.findIdx (fun y => y = x)
    let odd := (List.range (s.members k).length).filter (fun i => roots.getD i 0 ≠ x)
    let stage := majorityStage (s.members k).length (s.myPos k) ref odd
    let u := s.setSw k { s.sw k with stage := stage, majority := true, refPos := ref, odd := odd }
    s.findMajority k roots = if stage = 5 then u.showAgree k 0 else u := by
  intro ref odd stage u
  have hstage : (if !(odd.contains (s.myPos k) || (decide (s.myPos k = ref) && decide ((s.members k).length ≤ 16))) then 5
      else if 16 < (s.members k).length then 4 else 1) = stage := by
    simp only [stage, majorityStage, List.contains_eq_mem]
    by_cases hodd : s.myPos k ∈ odd
    · simp [hodd]
    · by_cases hm : (s.members k).length ≤ 16
      · by_cases href : s.myPos k = ref
        · simp [hm, href, Nat.not_lt.2 hm]
        · simp [hodd, href]
      · simp [hodd, hm]
  unfold State.findMajority
  simp only [hpair, hx, if_false, Bool.false_eq_true]
  simp only [ref, odd] at hstage
  rw [hstage]
  rfl

/-- What the search for a majority keeps. -/
theorem findMajority_keeps (s : State) {k : Nat} (hk : k < 65536) (roots : List Nat)
    (hshown : s.f .HUB_AGREE_STATUS_SWATCH 0 = k) : Gathering k s (s.findMajority k roots) ∧
      (s.findMajority k roots).out = s.out ∧ ((s.findMajority k roots).sw k).rootSent = (s.sw k).rootSent ∧
      (s.findMajority k roots).f .HUB_AGREE_STATUS_SWATCH 0 = k := by
  by_cases hnone : s.lining (s.sw k).domain = true ∨ majorityOf roots = none
  · rw [findMajority_none hnone]
    exact ⟨(Gathering.refl s).setSw rfl, rfl, by rw [sw_setSw_same], hshown⟩
  · obtain ⟨hpair, hmajority⟩ := not_or.1 hnone
    obtain ⟨x, hx⟩ := Option.ne_none_iff_exists'.1 hmajority
    rw [findMajority_some (by simpa using hpair) hx]
    split
    · exact ⟨((Gathering.refl s).setSw (by rfl)).showAgree 0, rfl, by simp only [State.showAgree, sw_read_setF, sw_setSw_same],
        showAgree_swatch _ 0 hk⟩
    · exact ⟨(Gathering.refl s).setSw rfl, rfl, by rw [sw_setSw_same], hshown⟩

/-- The run of a swatch with a majority, and what HUB_AGREE_STATUS then shows. -/
theorem findMajority_some_shows {s : State} {k x : Nat} {roots : List Nat} (hpair : s.lining (s.sw k).domain = false)
    (hx : majorityOf roots = some x) :
    let ref := roots.findIdx (fun y => y = x)
    let odd := (List.range (s.members k).length).filter (fun i => roots.getD i 0 ≠ x)
    let stage := majorityStage (s.members k).length (s.myPos k) ref odd
    (s.findMajority k roots).sw k = { s.sw k with stage := stage, majority := true, refPos := ref, odd := odd } ∧
      (s.findMajority k roots).f .HUB_AGREE_STATUS_STATE 0 = if stage = 5 then 0 else s.f .HUB_AGREE_STATUS_STATE 0 := by
  intro ref odd stage
  rw [findMajority_some hpair hx]
  by_cases h5 : stage = 5
  · rw [if_pos h5, if_pos h5]
    exact ⟨by simp only [State.showAgree, sw_read_setF, sw_setSw_same]; rfl, showAgree_state _ k (by decide)⟩
  · rw [if_neg h5, if_neg h5]
    exact ⟨sw_setSw_same _ _ _, rfl⟩

/-- What gathering the roots keeps, whether or not all of them are here. -/
theorem gatherRoots_keeps (s : State) {k : Nat} (hk : k < 65536) (hshown : s.f .HUB_AGREE_STATUS_SWATCH 0 = k) :
    Gathering k s (s.gatherRoots k) ∧ (s.gatherRoots k).out = (rootsSent s k).out ∧
      ((s.gatherRoots k).sw k).rootSent = true ∧ (s.gatherRoots k).f .HUB_AGREE_STATUS_SWATCH 0 = k := by
  have hsent := rootsSent_gathering s k
  have hroot : ((rootsSent s k).sw k).rootSent = true := by rw [rootsSent_sw]
  have hswatch := (rootsSent_f s k 0 (by decide)).trans hshown
  rw [gatherRoots_eq]
  cases allSome ((List.range (s.members k).length).map (rootAt s k)) with
  | none => exact ⟨hsent, rfl, hroot, hswatch⟩
  | some roots =>
    obtain ⟨hkept, hout, hrootKept, hshownKept⟩ := findMajority_keeps (rootsSent s k) hk roots hswatch
    exact ⟨hsent.trans hkept, hout, hrootKept.trans hroot, hshownKept⟩

/-! The stage begun. -/

/-- Serving blocks changes no swatch's run. -/
theorem cached_sw_same {s t : State} (h : Cached s t) (k : Nat) : t.sw k = s.sw k := by rw [h.1]; rfl

/-- The state in which this member looks at the roots: shown as localising, the digest area read (R216). -/
def localising (s : State) (k : Nat) : State := (s.showAgree k 1).streams (s.treeRange k) []

theorem localising_cached (s : State) (k : Nat) : Cached (s.showAgree k 1) (localising s k) := (Cached.refl _).streams _ _

theorem localising_gathering (s : State) (k : Nat) : Gathering k s (localising s k) :=
  ((Gathering.refl s).showAgree 1).trans (.of_cached (localising_cached s k))

theorem localising_sw (s : State) (k : Nat) : (localising s k).sw k = s.sw k :=
  cached_sw_same (localising_cached s k) k

theorem localising_state (s : State) (k : Nat) : (localising s k).f .HUB_AGREE_STATUS_STATE 0 = 1 :=
  ((localising_cached s k).2 _ _ (by decide)).trans (showAgree_state s k (by decide))

theorem localising_swatch (s : State) {k : Nat} (hk : k < 65536) : (localising s k).f .HUB_AGREE_STATUS_SWATCH 0 = k :=
  ((localising_cached s k).2 _ _ (by decide)).trans (showAgree_swatch s 1 hk)

/-- The first stage gathers the roots, once the digest area is served. -/
theorem agreeStage_gathers {s : State} {k : Nat} (hstage : (s.sw k).stage = 0) (hfree : s.engineFree k (s.treeRange k) []) :
    agreeStage k s = (localising s k).gatherRoots k := by
  have hshown : (s.showAgree k 1).engineFree k (s.treeRange k) [] := hfree
  have hy : ((localising s k).sw k).stage = 0 := by rw [localising_sw, hstage]
  unfold agreeStage
  rw [engineAs_free hshown]
  unfold localising at hy ⊢
  rw [if_pos hy]

end Sys2Proof.Proofs
end

section
/-! PROOF. What AGREE_LOCALISE does with the roots (R216, steps 1 and 2). -/

namespace Sys2Proof.Proofs

open Sys2Proof.Machine Sys2Proof.Laws

theorem fresh_gathering (k : Nat) (s : State) : Gathering k s (fresh s) := ⟨rfl, fun _ _ => rfl, rfl, fun _ _ _ => rfl⟩

theorem wrap_gathering {k : Nat} {s t : State} (h : Gathering k s t) : Gathering k s (wrap s t) where
  rest := by rw [h.rest]; rfl
  others := h.others
  domain := h.domain
  regs := h.regs

/-- The roots that are not all here leave the stage as it is. -/
theorem gatherRoots_missing {s : State} {k : Nat} (h : ∃ p, p < (s.members k).length ∧ rootAt s k p = none) :
    s.gatherRoots k = rootsSent s k := by
  rw [gatherRoots_eq]
  cases hroots : allSome ((List.range (s.members k).length).map (rootAt s k)) with
  | none => rfl
  | some roots =>
    obtain ⟨p, hp, hnone⟩ := h
    have hmem : rootAt s k p ∈ roots.map some :=
      allSome_eq_some.1 hroots ▸ List.mem_map_of_mem (List.mem_range.2 hp)
    rw [hnone] at hmem
    simp at hmem

/-- With every root here a majority is sought. -/
theorem gatherRoots_whole {s : State} {k : Nat} {roots : List Nat}
    (h : (List.range (s.members k).length).map (rootAt s k) = roots.map some) :
    s.gatherRoots k = (rootsSent s k).findMajority k roots := by
  rw [gatherRoots_eq, allSome_eq_some.2 h]
  rfl

/-- Localisation goes on to its next stage while it lasts. -/
theorem agreeLocalise_lasts {s : State} {k : Nat} (hdis : s.disagrees k = true) (hstage : (s.sw k).stage < 4)
    (bad : List Nat) : agreeLocalise k bad s = agreeStage k (s.spoilAll k bad) := by
  unfold agreeLocalise
  exact if_neg (by simp [hdis, hstage])

/-- AGREE_LOCALISE while localisation lasts. -/
theorem exec_agreeLocalise_lasts {s : State} {k : Nat} (hu : s.up) (hk : k < 65536) (hdis : s.disagrees k = true)
    (hstage : (s.sw k).stage < 4) (bad : List Nat) :
    exec (.agreeLocalise k bad) s = .next (wrap s (agreeStage k ((fresh s).spoilAll k bad))) := by
  rw [exec_agreeLocalise, act_up (decide_eq_true hk) hu, agreeLocalise_lasts (s := fresh s) hdis hstage bad]

theorem spoilAll_nil (s : State) (k : Nat) : s.spoilAll k [] = s := rfl

/-- AGREE_LOCALISE in its first stage gathers the roots. -/
theorem exec_agreeLocalise_gathers {s : State} {k : Nat} (hu : s.up) (hk : k < 65536) (hdis : s.disagrees k = true)
    (hstage : (s.sw k).stage = 0) (hfree : s.engineFree k (s.treeRange k) []) :
    exec (.agreeLocalise k []) s = .next (wrap s ((localising (fresh s) k).gatherRoots k)) := by
  rw [exec_agreeLocalise_lasts hu hk hdis (by rw [hstage]; decide), spoilAll_nil,
    agreeStage_gathers (s := fresh s) hstage (engineFree_fresh hfree)]

/-- Localisation's first stage (R216, steps 1 and 2): the part of O38 about AGREE_LOCALISE. -/
theorem agreeLocalise_roots (s : State) (k : Nat) (hu : s.up) (hk : k < 65536) (hdis : s.disagrees k = true)
    (hstage : (s.sw k).stage = 0) (hfree : s.engineFree k (s.treeRange k) []) :
    ∃ t, exec (.agreeLocalise k []) s = .next t ∧ t.f .HUB_AGREE_STATUS_SWATCH 0 = k ∧ MemOnly s.mem t.mem ∧
      (∀ j, j ≠ k → t.sw j = s.sw j) ∧ (t.sw k).rootSent = true ∧
      t = { s with out := t.out, sws := t.sws, ports := t.ports, regs := t.regs, mem := t.mem } ∧
      (∀ n i, n ∉ gatherFields → t.f n i = s.f n i) ∧
      ((s.sw k).rootSent = false → ∀ p, p < (s.members k).length → p ≠ s.myPos k →
        Out.sequence ((s.members k).getD p 0) (s.sw k).domain (s.doneSeq (s.sw k).domain) 7 (s.myPos k) k
          ((leBytes (s.stored k 0) 32).map BitVec.toNat) ∈ t.out) ∧
      ((∃ p, p < (s.members k).length ∧ rootAt s k p = none) →
        t.sw k = { s.sw k with rootSent := true } ∧ t.f .HUB_AGREE_STATUS_STATE 0 = 1) ∧
      (∀ roots : List Nat, (List.range (s.members k).length).map (rootAt s k) = roots.map some →
        (s.lining (s.sw k).domain = true ∨ majorityOf roots = none →
          t.sw k = { s.sw k with rootSent := true, stage := 4, majority := false } ∧ t.f .HUB_AGREE_STATUS_STATE 0 = 1) ∧
        (∀ x, s.lining (s.sw k).domain = false → majorityOf roots = some x →
          let ref := roots.findIdx (fun y => y = x)
          let odd := (List.range (s.members k).length).filter (fun i => roots.getD i 0 ≠ x)
          let stage := majorityStage (s.members k).length (s.myPos k) ref odd
          t.sw k = { s.sw k with rootSent := true, stage := stage, majority := true, refPos := ref, odd := odd } ∧
            t.f .HUB_AGREE_STATUS_STATE 0 = (if stage = 5 then 0 else 1))) := by
  have hexec := exec_agreeLocalise_gathers hu hk hdis hstage hfree
  have hy : Gathering k s (localising (fresh s) k) := (fresh_gathering k s).trans (localising_gathering _ k)
  have hsw : (localising (fresh s) k).sw k = s.sw k := localising_sw (fresh s) k
  have hstate := localising_state (fresh s) k
  have hswatch := localising_swatch (fresh s) hk
  generalize localising (fresh s) k = y at *
  obtain ⟨hkept, hout, hroot, hshown⟩ := gatherRoots_keeps y hk hswatch
  have hg : Gathering k s (wrap s (y.gatherRoots k)) := wrap_gathering (hy.trans hkept)
  have hsentSw : (rootsSent y k).sw k = { s.sw k with rootSent := true } := by rw [rootsSent_sw, hsw]
  have hsentState : (rootsSent y k).f .HUB_AGREE_STATUS_STATE 0 = 1 := (rootsSent_f y k 0 (by decide)).trans hstate
  have hsent : Gathering k s (rootsSent y k) := hy.trans (rootsSent_gathering y k)
  refine ⟨_, hexec, hshown, hg.memOnly, hg.others, hroot, ?_, hg.regs, fun hnot p hp hother => ?_, fun hmissing => ?_,
    fun roots hroots => ⟨fun hnone => ?_, fun x hpair hx => ?_⟩⟩
  · rw [hg.rest]
  · have hy' := rootsSent_out (s := y) (k := k) (p := p) (by rw [hsw]; exact hnot) (by rw [hy.members_eq]; exact hp)
      (by rw [hy.myPos_eq]; exact hother)
    rw [hsw, hy.members_eq, hy.myPos_eq, hy.doneSeq_eq, hy.stored_eq] at hy'
    exact hout ▸ hy'
  · have hend := gatherRoots_missing (s := y) (k := k) (by rw [hy.members_eq, hy.rootAt_eq]; exact hmissing)
    rw [hend]
    exact ⟨hsentSw, hsentState⟩
  · have hend := gatherRoots_whole (s := y) (k := k) (by rw [hy.members_eq, hy.rootAt_eq]; exact hroots)
    rw [hend, findMajority_none (by rw [hsent.domain, hsent.lining_eq]; exact hnone)]
    refine ⟨?_, hsentState⟩
    refine (sw_setSw_same (rootsSent y k) k _).trans ?_
    rw [hsentSw]
  · have hend := gatherRoots_whole (s := y) (k := k) (by rw [hy.members_eq, hy.rootAt_eq]; exact hroots)
    have hfound := findMajority_some_shows (s := rootsSent y k) (k := k) (by rw [hsent.domain, hsent.lining_eq]; exact hpair) hx
    rw [hsent.members_eq, hsent.myPos_eq, hsentSw, hsentState] at hfound
    rw [hend]
    exact hfound

end Sys2Proof.Proofs
end

section
/-! PROOF. The end of localisation (R218, R219): the halt, the withdrawal and the repair of an odd member. -/

namespace Sys2Proof.Proofs

open Sys2Proof.Machine Sys2Proof.Laws

/-! What a repair reads and writes depends on what device memory and the descriptors read as. -/

namespace ReadsAlike

variable {s t : State} (h : ReadsAlike s t) (k : Nat)
include h

theorem replicated_eq : t.replicated k = s.replicated k := by
  simp only [State.replicated, State.spans, State.spanCount, h.span_eq, h.group_eq, h.desc_eq]

theorem spanWide_eq (i : Nat) : t.spanWide k i = s.spanWide k i := by simp only [State.spanWide, h.span_eq, h.group_eq]

theorem treeReads_eq : t.treeReads k = s.treeReads k := by
  simp only [State.treeReads, State.recRange, h.replicated_eq, h.span_eq, h.group_eq]

theorem treeRange_eq : t.treeRange k = s.treeRange k := by
  simp only [State.treeRange, State.treeBytes, State.leavesBefore, h.replicated_eq, h.span_eq, h.group_eq, h.desc_eq]

theorem repairWrites_eq (l : List (Nat × Nat)) : t.repairWrites k l = s.repairWrites k l := by
  simp only [State.repairWrites, h.spanWide_eq, h.span_eq, h.treeRange_eq]

end ReadsAlike

/-! AGREE_REPAIR. -/

/-- AGREE_REPAIR once localisation is over. -/
theorem exec_agreeRepair_over {s : State} {k : Nat} (hu : s.up) (hk : k < 65536) (hdis : s.disagrees k = true)
    (hstage : (s.sw k).stage = 4) (bad : List Nat) :
    exec (.agreeRepair k bad) s = .next (wrap s (agreeMend k ((fresh s).spoilAll k bad))) := by
  have hgo : agreeRepair k bad (fresh s) = agreeMend k ((fresh s).spoilAll k bad) := by
    have hguard : ¬ ((!(fresh s).disagrees k || decide (((fresh s).sw k).stage ≠ 4)) = true) := by
      have hd : (fresh s).disagrees k = true := hdis
      have hst : ((fresh s).sw k).stage = 4 := hstage
      rw [hd, hst]
      decide
    unfold agreeRepair
    exact if_neg hguard
  rw [exec_agreeRepair, act_up (decide_eq_true hk) hu, hgo]

theorem agreeMend_halts {s : State} {k : Nat} (h : (s.sw k).majority = false) : agreeMend k s = s.haltDisagree k := by
  unfold agreeMend
  exact if_pos (by rw [h]; rfl)

theorem agreeMend_withdraws {s : State} {k : Nat} (h : (s.sw k).majority = true) (hm : 16 < (s.members k).length) :
    agreeMend k s = s.withdrawDisagree k := by
  unfold agreeMend
  exact (if_neg (by rw [h]; decide)).trans (if_pos hm)

/-- An odd member that has the covered bytes of every differing block writes its own. -/
theorem agreeMend_repairs {s : State} {k : Nat} {l : List (Nat × Nat × Nat)} (h : (s.sw k).majority = true)
    (hm : (s.members k).length ≤ 16) (hodd : s.isReference k = false)
    (hl : (s.sw k).oddBlocks.map (fun p => (s.agreeIn k 11 p.1 p.2 (recCovered (s.spanWide k p.1))).map (fun l =>
      (p.1, p.2, l.headD 0))) = l.map some)
    (hfree : s.engineFree k (s.treeReads k) (s.repairWrites k (s.sw k).oddBlocks)) :
    agreeMend k s = (s.streams (s.treeReads k) (s.repairWrites k (s.sw k).oddBlocks)).repair k l := by
  unfold agreeMend
  dsimp only
  rw [if_neg (by rw [h]; decide), if_neg (Nat.not_lt.2 hm), if_neg (by rw [hodd]; decide), allSome_eq_some.2 hl]
  exact engineAs_free hfree true _

/-- What a halt shows (R218). -/
theorem haltDisagree_shows (s : State) {k : Nat} (hk : k < 65536) :
    ((s.haltDisagree k).sw k).stage = 5 ∧ (s.haltDisagree k).f .HUB_AGREE_STATUS_HALT_SEEN 0 = 1 ∧
      (s.haltDisagree k).f .HUB_AGREE_STATUS_STATE 0 = 3 ∧ (s.haltDisagree k).f .HUB_AGREE_STATUS_SWATCH 0 = k := by
  unfold State.haltDisagree
  extract_lets a recorded shown
  have hseen : shown.f .HUB_AGREE_STATUS_HALT_SEEN 0 = 1 := by
    simp only [shown, State.showAgree, raise_eq]
    rw [f_setF, if_neg (by simp), f_setF, if_neg (by simp)]
    exact f_setF_fits _ 0 (by decide)
  have hstate : shown.f .HUB_AGREE_STATUS_STATE 0 = 3 := showAgree_state _ k (by decide)
  have hswatch : shown.f .HUB_AGREE_STATUS_SWATCH 0 = k := showAgree_swatch _ 3 hk
  clear_value shown
  have hentry (n : FieldName) (hn : n ≠ .LEDG_STATUS_QUEUE) : (shown.agreeEntry k 2 0 0).f n 0 = shown.f n 0 :=
    ledger_f _ _ _ _ _ hn
  refine ⟨by rw [updSw_eq, sw_setSw_same], ?_, ?_, ?_⟩
  · exact (hentry _ (by decide)).trans hseen
  · exact (hentry _ (by decide)).trans hstate
  · exact (hentry _ (by decide)).trans hswatch

/-- A withdrawal that asks to join again, when the module was not to withdraw. -/
theorem withdrawAgain_first {s : State} (h : s.withdraw = none) (cause how : Nat) :
    Failed s (s.withdrawAgain cause how) ∧ (s.withdrawAgain cause how).withdraw = some cause ∧
      (s.withdrawAgain cause how).rejoin = natMax how s.rejoin := by
  have heq : s.withdrawAgain cause how = { s.setWithdraw cause with rejoin := natMax how s.rejoin } := by
    unfold State.withdrawAgain
    simp only [h, Option.isNone_none, Bool.true_or, if_true]
  have hset := setWithdraw_withdraw s cause
  have hfailed := setWithdraw_failed s cause
  rw [heq]
  rw [h] at hset
  generalize s.setWithdraw cause = x at *
  exact ⟨hfailed.trans ⟨rfl, fun _ _ _ => rfl⟩, (Prod.mk.inj hset).1, rfl⟩

/-- What a withdrawal for a disagreement shows (R218, R219, R327). -/
theorem withdrawDisagree_shows {s : State} (k : Nat) (h : s.withdraw = none) :
    ((s.withdrawDisagree k).sw k).stage = 5 ∧ ((s.withdrawDisagree k).sw k).lostState = true ∧
      (s.withdrawDisagree k).withdraw = some (2 ^ causeDisagree) ∧ (s.withdrawDisagree k).rejoin = natMax 2 s.rejoin ∧
      (s.withdrawDisagree k).f .HUB_AGREE_STATUS_WITHDRAW_SEEN 0 = 1 ∧
      (s.withdrawDisagree k).f .HUB_AGREE_STATUS_STATE 0 = 0 ∧ (s.withdrawDisagree k).mem = s.mem := by
  have hraised : (s.raise .HUB_AGREE_STATUS_WITHDRAW_SEEN 0).f .HUB_AGREE_STATUS_WITHDRAW_SEEN 0 = 1 :=
    f_setF_fits s 0 (by decide)
  have hmem : (s.raise .HUB_AGREE_STATUS_WITHDRAW_SEEN 0).mem = s.mem := rfl
  have hasked : (s.raise .HUB_AGREE_STATUS_WITHDRAW_SEEN 0).rejoin = s.rejoin := rfl
  obtain ⟨hfailed, hcause, hrejoin⟩ := withdrawAgain_first (s := s.raise .HUB_AGREE_STATUS_WITHDRAW_SEEN 0) h
    (2 ^ causeDisagree) 2
  unfold State.withdrawDisagree State.agreeEnd
  generalize s.raise .HUB_AGREE_STATUS_WITHDRAW_SEEN 0 = u at *
  generalize u.withdrawAgain (2 ^ causeDisagree) 2 = x at *
  generalize hy : (x.updSw k (fun r => { r with lostState := true })).updSw k (fun r => { r with stage := 5 }) = y
  have hregs (n : FieldName) : y.f n 0 = x.f n 0 := by rw [← hy]; rfl
  obtain ⟨hstage, hlost⟩ : (y.sw k).stage = 5 ∧ (y.sw k).lostState = true := by
    rw [← hy, updSw_eq, sw_setSw_same, updSw_eq, sw_setSw_same]
    exact ⟨rfl, rfl⟩
  obtain ⟨hwithdraw, hjoin, hmems⟩ : y.withdraw = x.withdraw ∧ y.rejoin = x.rejoin ∧ y.mem = x.mem := by rw [← hy]; exact ⟨rfl, rfl, rfl⟩
  clear hy
  refine ⟨hstage, hlost, hwithdraw.trans hcause, hjoin.trans (hrejoin.trans (by rw [hasked])), ?_,
    showAgree_state y k (by decide), hmems.trans ?_⟩
  · rw [State.showAgree, f_setF, if_neg (by simp), f_setF, if_neg (by simp), hregs]
    exact (hfailed.2 _ _ (by decide)).trans hraised
  · rw [hfailed.1]
    exact hmem

end Sys2Proof.Proofs
end

section
/-! PROOF. The two ends of a state transfer (R221): what the source sends, and what the receiver installs. -/

namespace Sys2Proof.Proofs

open Sys2Proof.Machine Sys2Proof.Laws

/-! The source. -/

/-- The members that a source sends to: every one but itself. -/
def transferDests (s : State) (d : Nat) : List Nat := (s.dom d).members.filter (fun p => p ≠ s.place)

/-- A sequence of a transfer sent to every such member. -/
def sentToAll (dests : List Nat) (d k phase shard : Nat) (bs : List Byte) (s : State) : State :=
  dests.foldl (fun u p => u.sendData d p (u.doneSeq d) phase shard k bs) s

/-- The covered bytes of a span of swatch `k`, as the source reads them. -/
def spanBytes (s : State) (k i : Nat) : List Byte :=
  (List.range (spBlocks (s.span k i))).flatMap (s.covered (gWide (s.group k (spGroup (s.span k i)))) (s.span k i))

/-- Every replicated span sent. -/
def spansSent (dests : List Nat) (d k : Nat) (s : State) : State :=
  (s.replicated k).foldl (fun t i => sentToAll dests d k 4 i (spanBytes t k i) t) s

/-- The bytes of the commit's number and of every group's fields. -/
def commitBytes (s : State) (k last : Nat) : List Byte :=
  leBytes last 8 ++ (List.range 4096).flatMap (fun i => groupFields i (s.group k i))

/-- A commit sent: every replicated span, then the fields. -/
def commitSent (dests : List Nat) (d k last : Nat) (s : State) : State :=
  sentToAll dests d k 5 0 (commitBytes (spansSent dests d k s) k last) (spansSent dests d k s)

/-- The source with a commit noted as sent. -/
def noteSent (d k last : Nat) (s : State) : State :=
  s.setDom d { s.dom d with sent := FMap.set 0 (s.dom d).sent k (last + 1) }

theorem sentToAll_sent (dests : List Nat) (d k phase shard : Nat) (bs : List Byte) (s : State) :
    Sent s (sentToAll dests d k phase shard bs s) := foldl_sent _ _ (fun _ _ => sendData_sent _ _ _ _ _ _ _ _) s

theorem spansSent_sent (dests : List Nat) (d k : Nat) (s : State) : Sent s (spansSent dests d k s) :=
  foldl_sent _ _ (fun _ _ => sentToAll_sent _ _ _ _ _ _ _) s

theorem commitSent_sent (dests : List Nat) (d k last : Nat) (s : State) : Sent s (commitSent dests d k last s) :=
  (spansSent_sent dests d k s).trans (sentToAll_sent _ _ _ _ _ _ _)

theorem doneSeq_of_sent {s t : State} (h : Sent s t) (d : Nat) : t.doneSeq d = s.doneSeq d := (Gathering.of_sent (k := 0) h).doneSeq_eq d

/-- What is sent to every member goes out to each. -/
theorem sentToAll_out {dests : List Nat} {p : Nat} (hp : p ∈ dests) (d k phase shard : Nat) (bs : List Byte) (s : State) :
    Out.sequence p d (s.doneSeq d) phase shard k (bs.map BitVec.toNat) ∈ (sentToAll dests d k phase shard bs s).out := by
  refine mem_foldl_out (P := Sent s) (.refl s) (fun u _ hu => hu.trans (sendData_sent u _ _ _ _ _ _ _))
    (fun u _ => sendData_keeps_out u _ _ _ _ _ _ _) hp (fun u hu => ?_)
  refine sendData_out u _ _ _ _ _ _ _ (List.mem_append_right _ ?_)
  rw [doneSeq_of_sent hu]
  exact List.mem_cons_self

theorem commitSent_out {dests : List Nat} {p : Nat} (hp : p ∈ dests) (d k last : Nat) (s : State) :
    ∃ bs, Out.sequence p d (s.doneSeq d) 5 0 k bs ∈ (commitSent dests d k last s).out ∧
      bs.take 8 = (leBytes last 8).map BitVec.toNat := by
  refine ⟨(commitBytes (spansSent dests d k s) k last).map BitVec.toNat, ?_, ?_⟩
  · rw [← doneSeq_of_sent (spansSent_sent dests d k s)]
    exact sentToAll_out hp d k 5 0 _ _
  · rw [← List.map_take, commitBytes, List.take_left' (leBytes_length _ _)]

/-- A source that has a commit to send, with its records and tables served, sends it. -/
theorem stateTransferSend_sends {s : State} {d k : Nat} (hsource : FMap.get 0 (s.dom d).source k = s.place + 1)
    (hmember : s.isMember d = true) (hidle : s.idle k = true) (hdue : FMap.get 0 (s.dom d).sent k ≠ s.desc k 1856 64 + 1)
    (hfree : s.engineFree k (s.treeReads k ++ s.groupTable k) []) :
    stateTransferSend d k s = noteSent d k (s.desc k 1856 64)
      (commitSent (transferDests s d) d k (s.desc k 1856 64) (s.streams (s.treeReads k ++ s.groupTable k) [])) := by
  unfold stateTransferSend
  dsimp only
  rw [if_neg (by simp [hsource, hmember, hidle, hdue])]
  exact engine_free hfree _

/-- The source's end of a state transfer: the part of O38 about STATE_TRANSFER_SEND. -/
theorem stateTransferSend_commit (s : State) (d k : Nat) (hu : s.up) (hd : d < 16) (hk : k < 65536)
    (hsource : FMap.get 0 (s.dom d).source k = s.place + 1) (hmember : s.isMember d = true) (hidle : s.idle k = true)
    (hdue : FMap.get 0 (s.dom d).sent k ≠ s.desc k 1856 64 + 1)
    (hfree : s.engineFree k (s.treeReads k ++ s.groupTable k) []) :
    ∃ t, exec (.stateTransferSend d k) s = .next t ∧
      t.dom d = { s.dom d with sent := FMap.set 0 (s.dom d).sent k (s.desc k 1856 64 + 1) } ∧
      (∀ e, e ≠ d → t.dom e = s.dom e) ∧ MemOnly s.mem t.mem ∧
      (∀ p ∈ (s.dom d).members, p ≠ s.place →
        ∃ bs, Out.sequence p d (s.doneSeq d) 5 0 k bs ∈ t.out ∧ bs.take 8 = (leBytes (s.desc k 1856 64) 8).map BitVec.toNat) ∧
      t = { s with out := t.out, doms := t.doms, ports := t.ports, regs := t.regs, mem := t.mem } ∧
      ∀ n i, n ∉ [.SEAM_TX_MFLITS, .BASE_HIT, .BASE_MISS, .BASE_DALU_DROP] → t.f n i = s.f n i := by
  have hgo := stateTransferSend_sends (s := fresh s) hsource hmember hidle hdue (engineFree_fresh hfree)
  have hcached : Cached (fresh s) ((fresh s).streams ((fresh s).treeReads k ++ (fresh s).groupTable k) []) :=
    (Cached.refl _).streams _ _
  have hdests : transferDests (fresh s) d = transferDests s d := rfl
  have hlast : (fresh s).desc k 1856 64 = s.desc k 1856 64 := rfl
  rw [hdests, hlast] at hgo
  generalize (fresh s).streams ((fresh s).treeReads k ++ (fresh s).groupTable k) [] = y at *
  have hsent := commitSent_sent (transferDests s d) d k (s.desc k 1856 64) y
  have hseq : y.doneSeq d = s.doneSeq d := ((fresh_gathering 0 s).trans (.of_cached hcached)).doneSeq_eq d
  have hout (p : Nat) (hp : p ∈ transferDests s d) := commitSent_out hp d k (s.desc k 1856 64) y
  rw [hseq] at hout
  generalize commitSent (transferDests s d) d k (s.desc k 1856 64) y = u at *
  have hrest : u = { s with
      out := u.out, ports := u.ports, regs := u.regs
      mem := { s.mem with cache := u.mem.cache, plru := u.mem.plru, tick := u.mem.tick } } := by
    rw [hsent.1, hcached.1]
    rfl
  have hdom (e : Nat) : u.dom e = s.dom e := by rw [hrest]; rfl
  have hexec : exec (.stateTransferSend d k) s = .next (wrap s (noteSent d k (s.desc k 1856 64) u)) := by
    rw [exec_stateTransferSend, act_up (by simp [hd, hk]) hu, hgo]
  refine ⟨_, hexec, ?_, fun e he => ?_, ?_, fun p hp hother => ?_, ?_, fun n i hn => ?_⟩
  · refine (dom_setDom_same u d _).trans ?_
    rw [hdom]
  · refine (dom_setDom u d _ e).trans ?_
    rw [if_neg (Ne.symm he), hdom]
  · have hmem : MemOnly s.mem u.mem := by rw [hrest]; rfl
    exact hmem
  · exact hout p (List.mem_filter.2 ⟨hp, by simpa using hother⟩)
  · rw [hrest]
    rfl
  · obtain ⟨hflits, hcache⟩ := not_or.1 (fun h => hn (List.mem_cons.2 h))
    exact (hsent.2 n i hflits).trans (hcached.2 n i hcache)

/-! The receiver. -/

theorem rebuildWork_stored (s : State) (k v : Nat) : Stored s (s.rebuildWork k v) :=
  (Stored.refl s).foldl _ (fun t _ => (Stored.refl t).putWork _ _ _)

theorem installSpan_stored (s : State) (d k i : Nat) : Stored s (s.installSpan d k i) := by
  unfold State.installSpan
  exact ((Stored.refl s).foldl _ (fun t _ => (Stored.refl t).putDev _ _)).trans (rebuildWork_stored _ _ _)

theorem setDesc_accessed (s : State) (k lo w v : Nat) : Accessed s (s.setDesc k lo w v) := ⟨rfl, rfl, fun _ _ _ _ => rfl⟩

theorem putGroupFields_stored (s : State) (k : Nat) (bs : List Byte) : Stored s (s.putGroupFields k bs) :=
  (Stored.refl s).putDevNat _ _ _

/-- The spans of a transfer installed. -/
def spansInstalled (d k : Nat) (is : List Nat) (s : State) : State := is.foldl (fun t i => t.installSpan d k i) s

/-- What an installed transfer leaves: its spans written and their planes rebuilt, the residuals cleared, the commit's number
and the groups' fields taken from the bytes `fs`. -/
def transferInstalled (d k : Nat) (fs : List Byte) (s : State) : State :=
  (List.range ((fs.length - 8) / 28)).foldl (fun t j => t.putGroupFields k ((fs.drop (8 + 28 * j)).take 28))
    ((s.zeroResiduals k (s.dom d).members.length).setDesc k 1856 64 (leNat (fs.take 8)))

theorem spansInstalled_stored (d k : Nat) (is : List Nat) (s : State) : Stored s (spansInstalled d k is s) :=
  (Stored.refl s).foldl is (fun _ _ => installSpan_stored _ _ _ _)

theorem transferInstalled_accessed (d k : Nat) (fs : List Byte) (s : State) : Accessed s (transferInstalled d k fs s) :=
  ((Accessed.of_stored (zeroResiduals_stored s k _)).trans (setDesc_accessed _ _ _ _ _)).trans
    (.of_stored ((Stored.refl _).foldl _ (fun _ _ => putGroupFields_stored _ _ _)))

/-- A receiver's last work (R221): what was received is dropped, and it asks to join. -/
def transferJoined (d k : Nat) (s : State) : State :=
  (((s.setDom d { s.dom d with incoming := (s.dom d).incoming.filter (fun p => p.1 ≠ k) }).updSw k
    (fun r => { r with behind := false, lostState := false })).sendJoin d).trigger d

/-- A receiver that has every block installs the transfer, once what it writes is served. -/
theorem stateTransferDone_installs {s : State} {d k : Nat} {fs : List Byte} (hfs : s.transferred d k 5 0 = some fs)
    (hrun : s.run k = 6) (hmember : s.isMember d = true)
    (hwhole : ∀ i ∈ s.replicated k, (s.transferred d k 4 i).map List.length =
      some (spBlocks (s.span k i) * recCovered (gWide (s.group k (spGroup (s.span k i))))))
    (hfree : s.engineFree k [] (s.transferWrites d k)) :
    stateTransferDone d k s = transferJoined d k (transferInstalled d k fs (spansInstalled d k
      ((s.streams [] (s.transferWrites d k)).replicated k) (s.streams [] (s.transferWrites d k)))) := by
  unfold stateTransferDone
  extract_lets whole
  have hall : whole = true := List.all_eq_true.2 (fun i hi => decide_eq_true (hwhole i hi))
  rw [hfs]
  dsimp only
  rw [if_neg (by simp [hrun, hmember, hall])]
  exact engine_free hfree _

/-- The receiver's end of a state transfer: the part of O38 about STATE_TRANSFER_DONE. -/
theorem stateTransferDone_commit (s : State) (d k : Nat) (fs : List Byte) (hu : s.up) (hd : d < 16) (hk : k < 65536)
    (hfs : s.transferred d k 5 0 = some fs) (hrun : s.run k = 6) (hmember : s.isMember d = true)
    (hwhole : ∀ i ∈ s.replicated k, (s.transferred d k 4 i).map List.length =
      some (spBlocks (s.span k i) * recCovered (gWide (s.group k (spGroup (s.span k i))))))
    (hfree : s.engineFree k [] (s.transferWrites d k)) :
    let c := transferInstalled d k fs (spansInstalled d k (s.replicated k) ((fresh s).streams [] (s.transferWrites d k)))
    exec (.stateTransferDone d k) s = .next (wrap s (transferJoined d k c)) ∧ c.doms = s.doms ∧ SameButCache s c [] ∧
      MemOnly s.mem c.mem := by
  have hgo := stateTransferDone_installs (s := fresh s) hfs hrun hmember hwhole (engineFree_fresh hfree)
  have hcached : Cached (fresh s) ((fresh s).streams [] (s.transferWrites d k)) := (Cached.refl _).streams _ _
  have hwrites : (fresh s).transferWrites d k = s.transferWrites d k := rfl
  rw [hwrites] at hgo
  generalize (fresh s).streams [] (s.transferWrites d k) = y at *
  rw [((readsAlike_fresh s).trans hcached.readsAlike).replicated_eq] at hgo
  intro c
  have hc : Accessed (fresh s) c := ((Accessed.of_cached hcached).trans (.of_stored (spansInstalled_stored d k _ y))).trans
    (transferInstalled_accessed d k fs _)
  change stateTransferDone d k (fresh s) = transferJoined d k c at hgo
  clear_value c
  obtain ⟨hrest, hmem, hregs⟩ := hc
  refine ⟨?_, by rw [hrest]; rfl, hregs, hmem⟩
  rw [exec_stateTransferDone, act_up (by simp [hd, hk]) hu, hgo]

end Sys2Proof.Proofs
end

section
/-! PROOF. O38: localisation, halt, and the two ends of a state transfer. -/

namespace Sys2Proof.Proofs

open Sys2Proof.Machine Sys2Proof.Laws

/-- AGREE_REPAIR of a swatch whose localisation is over (R218, R219). -/
theorem agreeRepair_mends (s : State) (k : Nat) (hu : s.up) (hk : k < 65536) (hdis : s.disagrees k = true)
    (hstage : (s.sw k).stage = 4) :
    ((s.sw k).majority = false → ∃ t, exec (.agreeRepair k []) s = .next t ∧ t = wrap s ((fresh s).haltDisagree k) ∧
      (t.sw k).stage = 5 ∧ t.f .HUB_AGREE_STATUS_HALT_SEEN 0 = 1 ∧ t.f .HUB_AGREE_STATUS_STATE 0 = 3 ∧
      t.f .HUB_AGREE_STATUS_SWATCH 0 = k) ∧
    ((s.sw k).majority = true → 16 < (s.members k).length → s.withdraw = none →
      ∃ t, exec (.agreeRepair k []) s = .next t ∧ t = wrap s ((fresh s).withdrawDisagree k) ∧ (t.sw k).stage = 5 ∧
        (t.sw k).lostState = true ∧ t.withdraw = some (2 ^ causeDisagree) ∧ t.rejoin = natMax 2 s.rejoin ∧
        t.f .HUB_AGREE_STATUS_WITHDRAW_SEEN 0 = 1 ∧ t.f .HUB_AGREE_STATUS_STATE 0 = 0 ∧ t.mem = s.mem) ∧
    (∀ l : List (Nat × Nat × Nat), (s.sw k).majority = true → (s.members k).length ≤ 16 → s.isReference k = false →
      (s.sw k).oddBlocks.map (fun p => (s.agreeIn k 11 p.1 p.2 (recCovered (s.spanWide k p.1))).map (fun l =>
        (p.1, p.2, l.headD 0))) = l.map some →
      s.engineFree k (s.treeReads k) (s.repairWrites k (s.sw k).oddBlocks) →
      exec (.agreeRepair k []) s = .next (wrap s
        (((fresh s).streams (s.treeReads k) (s.repairWrites k (s.sw k).oddBlocks)).repair k l))) := by
  have hexec := exec_agreeRepair_over hu hk hdis hstage []
  rw [spoilAll_nil] at hexec
  refine ⟨fun hnone => ?_, fun hmajority hm hwithdraw => ?_, fun l hmajority hm hodd hl hfree => ?_⟩
  · rw [agreeMend_halts (s := fresh s) hnone] at hexec
    have hshows := haltDisagree_shows (fresh s) hk
    generalize (fresh s).haltDisagree k = x at *
    exact ⟨_, hexec, rfl, hshows⟩
  · rw [agreeMend_withdraws (s := fresh s) hmajority hm] at hexec
    have hshows := withdrawDisagree_shows (s := fresh s) k hwithdraw
    generalize (fresh s).withdrawDisagree k = x at *
    exact ⟨_, hexec, rfl, hshows⟩
  · have hreads := readsAlike_fresh s
    have hin (phase shard x w : Nat) : (fresh s).agreeIn k phase shard x w = s.agreeIn k phase shard x w := rfl
    have hsw : (fresh s).sw k = s.sw k := rfl
    rw [hexec, agreeMend_repairs (s := fresh s) hmajority hm hodd
      (by simpa only [hin, hsw, hreads.spanWide_eq] using hl)
      (by simpa only [hsw, hreads.treeReads_eq, hreads.repairWrites_eq] using engineFree_fresh hfree),
      hsw, hreads.treeReads_eq, hreads.repairWrites_eq]

/-- Settles O38: the roots are sent and a majority sought with the gathering's frame, localisation ends in a halt, a withdrawal
or a repair, and each end of a state transfer is its engine's work with every bolt served. -/
theorem agreementAndStateTransfer : Obligations.AgreementAndStateTransfer := by
  unfold Obligations.AgreementAndStateTransfer
  refine ⟨fun s k hu hk hdis hstage hfree => ?_, fun s k hu hk hdis hstage => ?_, fun s k bad hu hk hdis => ⟨fun hstage => ?_,
    fun hstage => ?_⟩, fun s d k hu hd hk hsource hmember hidle hdue hfree => ?_,
    fun s d k fs hu hd hk hfs hrun hmember hwhole hfree => ?_⟩
  · exact agreeLocalise_roots s k hu hk hdis hstage hfree
  · exact agreeRepair_mends s k hu hk hdis hstage
  · exact exec_agreeLocalise_lasts hu hk hdis hstage bad
  · exact exec_agreeRepair_over hu hk hdis hstage bad
  · exact stateTransferSend_commit s d k hu hd hk hsource hmember hidle hdue hfree
  · exact stateTransferDone_commit s d k fs hu hd hk hfs (by exact hrun) hmember hwhole hfree

end Sys2Proof.Proofs
end

section
/-! O42: pockets (R247 to R250): the scratch window, the zeroing of a way, and a sweep. -/

namespace Sys2Proof.Proofs

open Sys2Proof.Machine Sys2Proof.Laws

/-! The scratch window (R248). -/

/-- An access that fits the window and meets no way being zeroed. -/
theorem pocketAccess_window {s : State} {r k a : Nat} (hfits : a + 64 ≤ s.window r k) (hzero : s.zeroingAt r k a 64 = false)
    (v : Nat) (write : Bool) : pocketAccess r k 4096 a write v false s =
      if write then s.setStores { s.mem.st with
        pocket := Memory.write 0 s.mem.st.pocket (s.windowAddr r k a) (leBytes v 64) }
      else s.emit (.data (leNat (Memory.bytes 0 s.mem.st.pocket (s.windowAddr r k a) 64))) := by
  simp only [pocketAccess, if_true, if_neg (Nat.not_lt.2 hfits), hzero, Bool.false_eq_true, if_false]

theorem exec_pocketAccess_window {s : State} {r k a : Nat} (hu : s.up) (hr : r < 48) (hk : k < 65536) (halign : a % 64 = 0)
    (hfits : a + 64 ≤ s.window r k) (hspace : a + 64 ≤ 2 ^ 43) (hzero : s.zeroingAt r k a 64 = false) (v : Nat) (write : Bool) :
    exec (.pocketAccess r k 4096 a write v false) s = .next (if write then { s with
        out := []
        mem := { s.mem with st := { s.mem.st with
          pocket := Memory.write 0 s.mem.st.pocket (s.windowAddr r k a) (leBytes v 64) } } }
      else { s with out := [.data (leNat (Memory.bytes 0 s.mem.st.pocket (s.windowAddr r k a) 64))] }) := by
  rw [exec_pocketAccess, act_up (by simpa [hr, hk, halign] using hspace) hu, pocketAccess_window (s := fresh s) hfits hzero]
  cases write with
  | true => rfl
  | false => rfl

/-! The zeroing of a way (R247). -/

theorem bitAt_putBit_clear (v i : Nat) : bitAt (putBit v i false) i = false := by
  have hfield : flagBit (bitAt (putBit v i false) i) = 0 := by rw [← bitField_one, putBit, bitField_setBits_same]; rfl
  cases h : bitAt (putBit v i false) i with
  | false => rfl
  | true => simp [h, flagBit] at hfield

/-- A region's way reads zero, and ZEROING no longer shows it. -/
def wayZeroed (s : State) (r w : Nat) : State :=
  (s.setMem { s.mem with
    st := { s.mem.st with
      pocket := FMap.clearRange s.mem.st.pocket (67108864 * r + 4194304 * w) (67108864 * r + 4194304 * w + 4194304) }
    zeroing := FMap.set 0 s.mem.zeroing (16 * r + w) 0 }).setF .RGN_PKT_STATUS_ZEROING r
      (putBit (s.f .RGN_PKT_STATUS_ZEROING r) w false)

theorem pocketZeroingDone_waitsEnded {s : State} {r w : Nat} (h : FMap.get 0 s.mem.zeroing (16 * r + w) ≠ 0) :
    WaitsEnded (wayZeroed s r w) (pocketZeroingDone r w s) := by
  have hrun : pocketZeroingDone r w s = (wayZeroed s r w).endWaits (2 ^ 27 + r) := by
    simp only [pocketZeroingDone, if_neg h]
    rfl
  rw [hrun]
  exact (WaitsEnded.refl _).endWaits _

theorem wayZeroed_shows (s : State) (r : Nat) {w : Nat} (hw : w < 16) :
    bitAt ((wayZeroed s r w).f .RGN_PKT_STATUS_ZEROING r) w = false := by
  rw [wayZeroed, f_setF_same, bitAt_mod _ (by exact hw), bitAt_putBit_clear]

theorem exec_pocketZeroingDone_zeroes {s : State} {r w : Nat} (hu : s.up) (hr : r < 48) (hw : w < 16)
    (h : FMap.get 0 s.mem.zeroing (16 * r + w) ≠ 0) :
    ∃ t, exec (.pocketZeroingDone r w) s = .next t ∧ FMap.get 0 t.mem.zeroing (16 * r + w) = 0 ∧
      (∀ j, FMap.get 0 t.mem.st.pocket j =
        if 67108864 * r + 4194304 * w ≤ j ∧ j < 67108864 * r + 4194304 * w + 4194304 then 0
        else FMap.get 0 s.mem.st.pocket j) ∧
      bitAt (t.f .RGN_PKT_STATUS_ZEROING r) w = false ∧
      t.mem.st = { s.mem.st with pocket := t.mem.st.pocket } ∧
      t = { s with
          out := [], regs := t.regs
          mem := { s.mem with st := t.mem.st, zeroing := t.mem.zeroing, waiters := t.mem.waiters } } := by
  have hended := pocketZeroingDone_waitsEnded (s := fresh s) h
  rw [exec_pocketZeroingDone, act_up (by simp [hr, hw]) hu]
  generalize pocketZeroingDone r w (fresh s) = x at hended ⊢
  obtain ⟨hrest, hregs⟩ := hended
  have hst : x.mem.st = (wayZeroed (fresh s) r w).mem.st := by rw [hrest]
  have hzeroing : x.mem.zeroing = (wayZeroed (fresh s) r w).mem.zeroing := by rw [hrest]
  refine ⟨_, rfl, ?_, fun j => ?_, ?_, ?_, ?_⟩
  · rw [mem_wrap, hzeroing]
    exact get_set_same 0 s.mem.zeroing (16 * r + w) 0
  · rw [mem_wrap, hst]
    exact get_clearRange _ _ _ _ _
  · rw [f_read_wrap, hregs _ _ (by decide), wayZeroed_shows _ _ hw]
  · rw [mem_wrap, hst]
    rfl
  · rw [hrest]
    rfl

/-! A sweep (R250). -/

/-- The lines that a sweep leaves: those that stood, but for lines of the region's shared ways with a stale stamp. -/
theorem mem_pocketSweep_lines (s : State) (r : Nat) (p : Nat × Option PLine) :
    p ∈ (pocketSweep r s).mem.lines ↔ p ∈ s.mem.lines ∧
      ∀ l, p.2 = some l → p.1 / 16 / 16384 = r → (s.way r (p.1 % 16)).1 = 1 → l.stamp = s.stamp l.sw := by
  refine List.mem_filter.trans (and_congr_right fun _ => ?_)
  obtain ⟨key, line⟩ := p
  cases line with
  | none => simp
  | some l => grind

theorem exec_pocketSweep_leaves {s : State} {r : Nat} (hu : s.up) (hr : r < 48) :
    ∃ t, exec (.pocketSweep r) s = .next t ∧
      (∀ p ∈ t.mem.lines, ∀ l, p.2 = some l → p.1 / 16 / 16384 = r → (s.way r (p.1 % 16)).1 = 1 → l.stamp = s.stamp l.sw) ∧
      (∀ p ∈ s.mem.lines, p.1 / 16 / 16384 ≠ r → p ∈ t.mem.lines) ∧
      (∀ k, k < 65536 → FMap.get 0 t.mem.stampRun (65536 * r + k) = 0) ∧
      t = { s with out := [], mem := { s.mem with lines := t.mem.lines, stampRun := t.mem.stampRun } } := by
  have hlines := mem_pocketSweep_lines (fresh s) r
  rw [exec_pocketSweep, act_up (by simpa using hr) hu]
  refine ⟨_, rfl, fun p hp => ((hlines p).1 hp).2, fun p hp hother => ?_, fun k hk => ?_, rfl⟩
  · exact (hlines p).2 ⟨hp, fun l _ hregion => absurd hregion hother⟩
  · exact (get_clearRange _ _ _ _ _).trans (if_pos (by omega))

/-- Settles O42: a scratch window is read and written in its region's ways, the end of a zeroing clears its way's range, and
a sweep keeps the lines that are not stale. -/
theorem pocketWindowsZeroingAndSweeps : Obligations.PocketWindowsZeroingAndSweeps := by
  unfold Obligations.PocketWindowsZeroingAndSweeps
  refine ⟨fun s r k a v write hu hr hk halign hfits hspace hzero => ?_, fun s r w hu hr hw h => ?_, fun s r hu hr => ?_⟩
  · exact exec_pocketAccess_window hu hr hk halign hfits hspace hzero v write
  · exact exec_pocketZeroingDone_zeroes hu hr hw h
  · exact exec_pocketSweep_leaves hu hr

end Sys2Proof.Proofs
end

section
/-! Class arbiters (R25, R30, R376): the unit that is granted, and where it goes. -/

namespace Sys2Proof.Proofs

open Sys2Proof.Machine Sys2Proof.Laws

/-! The choice among units that are all ready. -/

theorem oldestOf_some {us : List ArbUnit} {c j : Nat} (h : oldestOf us c = some j) :
    ∃ u, us[j]? = some u ∧ u.cls = c := by
  obtain ⟨⟨u, i⟩, hfound, rfl⟩ := Option.map_eq_some_iff.1 h
  have hcls := List.find?_some hfound
  exact ⟨u, List.mk_mem_zipIdx_iff_getElem?.1 (List.mem_of_find?_eq_some hfound), by simp_all⟩

theorem oldestOf_ne_none {us : List ArbUnit} {u : ArbUnit} (hu : u ∈ us) (hready : u.ready = true) :
    oldestOf us u.cls ≠ none := by
  obtain ⟨j, hj⟩ := List.mem_iff_getElem?.1 hu
  intro hnone
  have hall := List.find?_eq_none.1 (Option.map_eq_none_iff.1 hnone) _ (List.mk_mem_zipIdx_iff_getElem?.2 hj)
  simp [hready] at hall

/-- Priority takes a unit of the lowest class that waits. -/
theorem byPriority_lowest {us : List ArbUnit} {j : Nat} (hready : ∀ u ∈ us, u.ready = true) (h : byPriority us = some j) :
    ∃ u, us[j]? = some u ∧ ∀ x ∈ us, u.cls ≤ x.cls := by
  obtain ⟨lower, c, upper, hrange, hc, hlower⟩ := List.findSome?_eq_some_iff.1 h
  obtain ⟨u, hu, hcls⟩ := oldestOf_some hc
  have hlow {x : Nat} (hx : x < 6) (hxc : x < c) : x ∈ lower := by
    have hrise : (lower ++ c :: upper).Pairwise (· < ·) := hrange ▸ List.pairwise_lt_range
    have hmem : x ∈ lower ++ c :: upper := hrange ▸ List.mem_range.2 hx
    rcases List.mem_append.1 hmem with hmem | hmem
    · exact hmem
    · have habove := (List.pairwise_append.1 hrise).2.1
      rcases List.mem_cons.1 hmem with rfl | hmem
      · omega
      · have := List.rel_of_pairwise_cons habove hmem
        omega
  have hc6 : c < 6 := List.mem_range.1 (hrange ▸ by simp)
  refine ⟨u, hu, fun x hx => Nat.le_of_not_lt fun hlt => oldestOf_ne_none hx (hready x hx) (hlower x.cls (hlow ?_ ?_))⟩
  · omega
  · omega

theorem byPriority_ne_none {us : List ArbUnit} (hne : us ≠ []) (hready : ∀ u ∈ us, u.ready = true)
    (hcls : ∀ u ∈ us, u.cls < 6) : byPriority us ≠ none := by
  obtain ⟨u, hu⟩ := List.exists_mem_of_ne_nil us hne
  exact fun hnone => oldestOf_ne_none hu (hready u hu) (List.findSome?_eq_none_iff.1 hnone u.cls (List.mem_range.2 (hcls u hu)))

/-- An arbiter whose units are all ready grants one of them, of the lowest class where no floor offer stands. -/
theorem arbPick_grants (a : Arb) {us : List ArbUnit} (hne : us ≠ []) (hready : ∀ u ∈ us, u.ready = true)
    (hcls : ∀ u ∈ us, u.cls < 6) :
    ∃ j u, (arbPick a us).1 = some j ∧ us[j]? = some u ∧
      (a.owed = [] → floorClass a.grant = [] → ∀ x ∈ us, u.cls ≤ x.cls) := by
  obtain ⟨j, hj⟩ := Option.ne_none_iff_exists'.1 (byPriority_ne_none hne hready hcls)
  obtain ⟨u, hu, hlowest⟩ := byPriority_lowest hready hj
  unfold arbPick
  dsimp only
  split
  · exact ⟨j, u, hj, hu, fun _ _ => hlowest⟩
  · split
    next i hoffer =>
      obtain ⟨c, -, hc⟩ := List.exists_of_findSome?_eq_some hoffer
      obtain ⟨x, hx, -⟩ := oldestOf_some hc
      refine ⟨i, x, rfl, hx, fun howed hfloor => ?_⟩
      rw [howed, hfloor] at hoffer
      cases hoffer
    next => exact ⟨j, u, hj, hu, fun _ _ => hlowest⟩

/-! Where a unit goes (R25, R30). -/

theorem linkEnd_ne {x y : Nat} {d : Dir} (h : nextLink x y = some d) : linkEnd x d ≠ x := by
  unfold nextLink at h
  cases d with
  | west | east | north | south => grind [linkEnd]

/-- A unit at a stop waits next at a link that leaves the stop, at a router's port that is not its weave stop's, or at a
seam port. -/
theorem nextArb_cases {x n : Nat} {p : Pkt} (h : nextArb x p = some n) :
    n / 4 = x ∨ (400 ≤ n ∧ ((n - 400) % 12 ≠ 11 ∨ 976 ≤ n)) := by
  unfold nextArb at h
  split at h
  next d _ =>
    obtain rfl := Option.some.inj h
    left
    cases d with
    | west | east | north | south => simp only [linkArb, Dir.code]; omega
  next =>
    right
    split at h
    next r _ =>
      obtain ⟨hport, hn⟩ := Option.ite_none_right_eq_some.1 h
      obtain rfl := Option.some.inj hn
      simp only [routerArb]
      omega
    next die _ =>
      obtain rfl := Option.some.inj (Option.ite_none_right_eq_some.1 h).2
      simp only [seamArb]
      omega
    next => cases h

theorem regionStop_lt : ∀ r < 48, regionStop r < 100 := by decide

theorem arb_enqueue (s : State) (n : Nat) (p : Pkt) (i : Nat) :
    (s.enqueue n p).arb i =
      if n = i then { s.arb n with queue := (s.arb n).queue ++ [{ p with through := false }] } else s.arb i := get_set _ _ _ _ _

/-- Two states that differ by arbiters other than `i`. -/
def OtherArbs (i : Nat) (s t : State) : Prop := t = { s with arbs := t.arbs } ∧ t.arb i = s.arb i

theorem arriveAt_otherArbs {x i : Nat} {p : Pkt} (h : ∀ n, nextArb x p = some n → n ≠ i) (s : State) :
    OtherArbs i s (s.arriveAt x p) := by
  unfold State.arriveAt
  split
  next n hn => exact ⟨rfl, by rw [arb_enqueue, if_neg (h n hn)]⟩
  next => exact ⟨rfl, rfl⟩

/-- A unit never comes back to the arbiter that has just granted it. -/
theorem passArb_otherArbs (s : State) (i : Nat) (p : Pkt) : OtherArbs i s (s.passArb i p) := by
  unfold State.passArb
  split
  case isTrue hlink =>
    split
    next d hd =>
      have hend := linkEnd_ne hd
      exact arriveAt_otherArbs (fun n hn => by have := nextArb_cases hn; omega) s
    next => exact ⟨rfl, rfl⟩
  case isFalse =>
    split
    case isTrue hport =>
      simp only [Bool.and_eq_true, decide_eq_true_eq] at hport
      have hstop := regionStop_lt ((i - 400) / 12) (by omega)
      exact arriveAt_otherArbs (fun n hn => by have := nextArb_cases hn; omega) s
    case isFalse => exact ⟨rfl, rfl⟩

theorem mem_passArb_queue {s : State} {i n : Nat} {p : Pkt} {d : Dir} (hi : i < 400) (hd : nextLink (i / 4) p.stop = some d)
    (hn : nextArb (linkEnd (i / 4) d) p = some n) : { p with through := false } ∈ ((s.passArb i p).arb n).queue := by
  simp [State.passArb, hi, hd, State.arriveAt, hn, arb_enqueue]

/-! ARBITER_GRANT. -/

/-- The units that are left once one of class `cls` at place `j` has been granted. -/
def unitsLeft (q : List Pkt) (j cls : Nat) : List Pkt :=
  (q.eraseIdx j).map (fun x => { x with through := x.through || (x.cls < 2 && 2 ≤ cls) })

/-- The units of a queue as its arbiter sees them: each may be granted now. -/
def readyUnits (q : List Pkt) : List ArbUnit := q.map (fun p => { cls := p.cls, ready := true, through := p.through })

/-- An arbiter that has granted the unit `p` at place `j` of its queue. -/
def arbAfter (a : Arb) (j : Nat) (p : Pkt) (owed : List Nat) : Arb :=
  { grant := a.grant + 1, owed := owed, queue := unitsLeft a.queue j p.cls }

/-- The unit has left the queue of arbiter `i`. -/
def unitTaken (s : State) (i j : Nat) (p : Pkt) (owed : List Nat) : State :=
  { s with arbs := FMap.set {} s.arbs i (arbAfter (s.arb i) j p owed) }

theorem arb_unitTaken (s : State) (i j : Nat) (p : Pkt) (owed : List Nat) :
    (unitTaken s i j p owed).arb i = arbAfter (s.arb i) j p owed := by simp [State.arb, unitTaken]

/-- What the grant of the unit `p` at place `j` by arbiter `i` comes to. -/
structure Granted (s : State) (i j : Nat) (p : Pkt) (t : State) : Prop where
  out : t.out = s.out ++ [.data (p.cls + 256 * p.tag)]
  grant : (t.arb i).grant = (s.arb i).grant + 1
  queue : (t.arb i).queue = unitsLeft (s.arb i).queue j p.cls
  next : ∀ d n, i < 400 → nextLink (i / 4) p.stop = some d → nextArb (linkEnd (i / 4) d) p = some n →
    { p with through := false } ∈ (t.arb n).queue
  rest : t = { s with out := t.out, arbs := t.arbs }

theorem unitTaken_granted (s : State) (i j : Nat) (p : Pkt) (owed : List Nat) :
    Granted s i j p (((unitTaken s i j p owed).passArb i p).emit (.data (p.cls + 256 * p.tag))) := by
  obtain ⟨hrest, harb⟩ := passArb_otherArbs (unitTaken s i j p owed) i p
  rw [arb_unitTaken] at harb
  refine ⟨?_, ?_, ?_, fun d n hi hd hn => mem_passArb_queue hi hd hn, ?_⟩
  · rw [out_emit, hrest]
    rfl
  · exact congrArg Arb.grant harb
  · exact congrArg Arb.queue harb
  · rw [hrest]
    rfl

theorem arbiterGrant_grants {s : State} {i : Nat} (hne : (s.arb i).queue ≠ []) (hcls : ∀ x ∈ (s.arb i).queue, x.cls < 6) :
    ∃ j p, (s.arb i).queue[j]? = some p ∧ Granted s i j p (arbiterGrant i [] s) ∧
      ((s.arb i).owed = [] → floorClass (s.arb i).grant = [] → ∀ x ∈ (s.arb i).queue, p.cls ≤ x.cls) := by
  obtain ⟨j, u, hpick, hu, hlowest⟩ := arbPick_grants (s.arb i)
    (us := readyUnits (s.arb i).queue) (by simpa [readyUnits] using hne) (by simp [readyUnits])
    (by simpa [readyUnits] using hcls)
  rw [readyUnits, List.getElem?_map] at hu
  obtain ⟨p, hp, rfl⟩ := Option.map_eq_some_iff.1 hu
  have hrun : arbiterGrant i [] s =
      ((unitTaken s i j p (arbPick (s.arb i) (readyUnits (s.arb i).queue)).2.2).passArb i p).emit
        (.data (p.cls + 256 * p.tag)) := by
    rw [readyUnits] at hpick ⊢
    simp only [arbiterGrant, readUnits, List.foldl_nil, hpick, Option.bind_some, hp, Option.map_some]
    rfl
  exact ⟨j, p, hp, hrun ▸ unitTaken_granted s i j p _, fun howed hfloor => by
    simpa [readyUnits] using hlowest howed hfloor⟩

theorem exec_arbiterGrant_grants {s : State} {i : Nat} (hu : s.up) (hi : arbOk i = true) (hne : (s.arb i).queue ≠ [])
    (hcls : ∀ x ∈ (s.arb i).queue, x.cls < 6) :
    ∃ t j p, exec (.arbiterGrant i []) s = .next t ∧ (s.arb i).queue[j]? = some p ∧ t.out = [.data (p.cls + 256 * p.tag)] ∧
      (t.arb i).grant = (s.arb i).grant + 1 ∧ (t.arb i).queue = unitsLeft (s.arb i).queue j p.cls ∧
      ((s.arb i).owed = [] → floorClass (s.arb i).grant = [] → ∀ x ∈ (s.arb i).queue, p.cls ≤ x.cls) ∧
      (∀ d n, i < 400 → nextLink (i / 4) p.stop = some d → nextArb (linkEnd (i / 4) d) p = some n →
        { p with through := false } ∈ (t.arb n).queue) ∧
      t = { s with out := t.out, arbs := t.arbs } := by
  obtain ⟨j, p, hp, hgranted, hlowest⟩ := arbiterGrant_grants (s := fresh s) hne hcls
  rw [exec_arbiterGrant, act_up hi hu]
  generalize arbiterGrant i [] (fresh s) = x at hgranted ⊢
  exact ⟨_, j, p, rfl, hp, hgranted.out, hgranted.grant, hgranted.queue, hlowest, hgranted.next, by rw [hgranted.rest]; rfl⟩

/-- A unit that comes to a router or seam port joins its queue, and the port grants. -/
theorem arbiterGrant_arrival {i c stop port : Nat} (tag : Nat) (hi : 400 ≤ i) (hc : c < 6) (hstop : stop < 100)
    (hport : port < 12) (s : State) :
    arbiterGrant i [c, stop, port, tag] s = arbiterGrant i [] (s.enqueue i ⟨c, stop, port, tag, false⟩) := by
  simp [arbiterGrant, readUnits, hc, hstop, hport, State.comeTo, Nat.not_lt.2 hi]

theorem exec_arbiterGrant_alone {s : State} {i c stop port : Nat} (tag : Nat) (hu : s.up) (hok : arbOk i = true)
    (hi : 400 ≤ i) (hempty : (s.arb i).queue = []) (hc : c < 6) (hstop : stop < 100) (hport : port < 12) :
    ∃ t, exec (.arbiterGrant i [c, stop, port, tag]) s = .next t ∧ t.out = [.data (c + 256 * tag)] ∧
      (t.arb i).queue = [] ∧ (t.arb i).grant = (s.arb i).grant + 1 ∧ t = { s with out := t.out, arbs := t.arbs } := by
  have harb : ((fresh s).enqueue i ⟨c, stop, port, tag, false⟩).arb i =
      { s.arb i with queue := [⟨c, stop, port, tag, false⟩] } := by
    rw [arb_enqueue, if_pos rfl, show (fresh s).arb i = s.arb i from rfl, hempty]
    rfl
  obtain ⟨j, p, hp, hgranted, -⟩ := arbiterGrant_grants (s := (fresh s).enqueue i ⟨c, stop, port, tag, false⟩) (i := i)
    (by simp [harb]) (by simpa [harb] using hc)
  rw [harb, List.getElem?_singleton] at hp
  obtain ⟨rfl, hp⟩ := Option.ite_none_right_eq_some.1 hp
  obtain rfl := Option.some.inj hp
  have hqueue := hgranted.queue
  have hgrant := hgranted.grant
  rw [harb] at hqueue hgrant
  rw [exec_arbiterGrant, act_up hok hu, arbiterGrant_arrival tag hi hc hstop hport]
  have hout := hgranted.out
  have hrest := hgranted.rest
  generalize arbiterGrant i [] _ = x at hqueue hgrant hout hrest ⊢
  exact ⟨_, rfl, hout, hqueue, hgrant, by rw [hrest]; rfl⟩

end Sys2Proof.Proofs
end

section
/-! Stack controllers: a burst alone in its queue (R230, R231, R254), refresh (R227), lane swaps (R237) and the patrol scrub
(R239). -/

namespace Sys2Proof.Proofs

open Sys2Proof.Machine Sys2Proof.Laws

/-! A burst alone in its queue. -/

/-- The nine numbers by which a request arrives. -/
def arrivalOf (q : HbmReq) : List Nat :=
  [q.cls, q.port, q.slot, q.granule, q.unit, flagBit q.write, q.data, q.hint, q.part]

/-- A request that has just come to pseudo-channel `p`, its fields in their ranges. -/
structure Arrived (now p : Nat) (q : HbmReq) : Prop where
  cls : q.cls < 6
  port : q.port < 4
  slot : q.slot < 1572864
  granule : q.granule < 256
  unit : q.unit < 4
  pch : (q.granule + q.slot) % 64 = p
  part : q.part < 8
  data : q.data < 2 ^ 512
  arrival : q.arrival = now
  passed : q.passed = 0
  through : q.through = false

theorem flagBit_ne_zero (b : Bool) : decide (flagBit b ≠ 0) = b := by cases b <;> rfl

theorem readArrivals_arrivalOf {now p : Nat} {q : HbmReq} (h : Arrived now p q) : readArrivals now p 1 (arrivalOf q) = [q] := by
  obtain ⟨cls, arrival, port, slot, granule, unit, write, data, hint, part, passed, through⟩ := q
  obtain ⟨hcls, hport, hslot, hgranule, hunit, hpch, hpart, hdata, rfl, rfl, rfl⟩ := h
  simp only [arrivalOf, readArrivals, hcls, hport, hslot, hgranule, hunit, hpch, hpart, decide_true, Bool.and_self, if_true,
    flagBit_ne_zero, Nat.mod_eq_of_lt hdata]

/-- Nothing else could go ahead of a lone request. -/
theorem openRowPick_alone (rows : FMap (Option Nat)) (q : HbmReq) (us : List ArbUnit) : openRowPick rows [q] us 0 = 0 := by
  simp [openRowPick]

/-- An arbiter grants the only unit that waits. -/
theorem arbPick_alone (a : Arb) {u : ArbUnit} (hready : u.ready = true) (hcls : u.cls < 6) : (arbPick a [u]).1 = some 0 := by
  obtain ⟨j, x, hpick, hx, -⟩ := arbPick_grants a (us := [u]) (by simp) (by simpa using hready) (by simpa using hcls)
  rw [List.getElem?_singleton] at hx
  obtain ⟨rfl, -⟩ := Option.ite_none_right_eq_some.1 hx
  exact hpick

/-- A pseudo-channel that has granted its only request. -/
structure BurstGranted (c : Pch) (q : HbmReq) (v : Pch) : Prop where
  queue : v.queue = []
  grant : v.arb.grant = c.arb.grant + 1
  row : FMap.get none v.rows (bankOf q.slot) = some (rowOf q.slot)

theorem hbmRequest_alone {s : State} {st p : Nat} {q : HbmReq} (hq : Arrived s.hbmCycle p q) (hempty : (s.pch st p).queue = [])
    (hlevel : s.f .BASE_STATUS_LEVEL st ≠ 2) (syms : List Nat) :
    ∃ v, BurstGranted (s.pch st p) q v ∧ hbmRequest st p (arrivalOf q) syms s = (s.setPch st p v).serveReq st q syms := by
  have hqueue : (readArrivals s.hbmCycle p ((arrivalOf q).length / 9) (arrivalOf q)).foldl (fun l r => enqueueReq r l)
      (s.pch st p).queue = [q] := by
    rw [hempty, show (arrivalOf q).length / 9 = 1 by simp [arrivalOf], readArrivals_arrivalOf hq]
    rfl
  have hpick := arbPick_alone (s.pch st p).arb (u := { cls := q.cls, ready := true, through := q.through }) rfl hq.cls
  have hunits (b : Bool) : arbUnits (decide (s.f .BASE_STATUS_LEVEL st = 2) && b) [] [q] =
      [{ cls := q.cls, ready := true, through := q.through }] := by simp [arbUnits, hlevel]
  refine ⟨?pch, And.symm ⟨?run, ?granted⟩⟩
  case run =>
    simp only [hbmRequest, hqueue, hunits, hpick, Option.map_some, openRowPick_alone, ite_self, Option.bind_some,
      List.getElem?_cons_zero]
    rfl
  case granted => exact ⟨by simp [afterGrant], rfl, by simp⟩

/-- The place of a request's 64 B unit in HBM. -/
def burstAddr (st : Nat) (q : HbmReq) : Nat := stackBytes * st + 65536 * q.slot + 256 * q.granule + 64 * q.unit

/-- The unit as it is read. -/
def burstRead (m : Stores) (st : Nat) (q : HbmReq) : Nat := leNat (Memory.bytes 0 m.hbm (burstAddr st q) 64)

/-- The stores once the unit has been written. -/
def burstWritten (m : Stores) (st : Nat) (q : HbmReq) : Stores :=
  { m with hbm := Memory.write 0 m.hbm (burstAddr st q) (leBytes q.data 64) }

/-- A stack in service serves a request through its base cache, and the check code finds nothing in a unit without bad
symbols. -/
theorem serveReq_clean {s : State} {st : Nat} (hserves : s.stackServes st = true) (q : HbmReq) :
    ∃ u, Cached s u ∧ s.serveReq st q [] =
      if q.write then u.setStores (burstWritten s.mem.st st q) else u.emit (.data (burstRead s.mem.st st q)) := by
  have hcached := (Cached.refl s).cacheAccess st q.slot q.granule (q.hint % 4) (bitField q.hint 2 4) q.part q.write
  have hgood (line : Option Bool) : beyondRepair line [] = false := by
    cases line with
    | none => rfl
    | some dirty => cases dirty <;> rfl
  simp only [State.serveReq, hserves, Bool.not_true, Bool.false_eq_true, if_false, hgood]
  generalize s.cacheAccess st q.slot q.granule (q.hint % 4) (bitField q.hint 2 4) q.part q.write = u at hcached ⊢
  rw [hcached.st_eq]
  split
  · exact ⟨u, hcached, rfl⟩
  · refine ⟨u.use, hcached.use, ?_⟩
    cases s.cachedLine st q.slot q.granule with
    | none => rfl
    | some dirty => rfl

theorem exec_hbmRequest_serves {s : State} {st p : Nat} {q : HbmReq} (hu : s.up) (hst : st < 24) (hp : p < 64)
    (hstate : s.f .BASE_STATUS_STATE st = 2) (hon : (s.stack st).stopped = false) (hlevel : s.f .BASE_STATUS_LEVEL st ≠ 2)
    (hempty : (s.pch st p).queue = []) (hq : Arrived s.hbmCycle p q) :
    ∃ t, exec (.hbmRequest st p (arrivalOf q) []) s = .next t ∧
      t.out = (if q.write then [] else [.data (burstRead s.mem.st st q)]) ∧
      t.mem.st = (if q.write then burstWritten s.mem.st st q else s.mem.st) ∧
      BurstGranted (s.pch st p) q (t.pch st p) ∧ t = { s with out := t.out, mem := t.mem, regs := t.regs } := by
  obtain ⟨v, hv, hrun⟩ := hbmRequest_alone (s := fresh s) hq hempty hlevel []
  have hpch : ((fresh s).setPch st p v).pch st p = v := by simp [State.pch]
  have hserves : s.stackServes st = true := by simp [State.stackServes, hstate, hon]
  obtain ⟨u, hcached, hserved⟩ := serveReq_clean (s := (fresh s).setPch st p v) hserves q
  rw [exec_hbmRequest, act_up_whenever (by simp [hst, hp]) hu (by simp [State.dramOn, hstate, hon]), hrun, hserved, hcached.1]
  rw [← hpch] at hv
  cases q.write with
  | true => exact ⟨_, rfl, rfl, rfl, hv, rfl⟩
  | false => exact ⟨_, rfl, rfl, rfl, hv, rfl⟩

/-! Refresh, lanes and the patrol scrub. -/

theorem exec_perBankRefresh_closes {s : State} {st p b : Nat} (hu : s.up) (hst : st < 24) (hp : p < 64) (hb : b < 64)
    (hon : s.dramOn st = true) :
    ∃ t, exec (.perBankRefresh st p b) s = .next t ∧ FMap.get none (t.pch st p).rows b = none ∧
      FMap.get 0 (t.pch st p).acts b = 0 ∧
      FMap.get 0 (t.pch st p).refresh b = FMap.get 0 (s.pch st p).refresh b + 1 ∧
      (∀ c, c ≠ b → FMap.get none (t.pch st p).rows c = FMap.get none (s.pch st p).rows c) ∧
      t = { s with out := [], mem := { s.mem with pchs := t.mem.pchs } } := by
  rw [exec_perBankRefresh, act_up_whenever (by simp [hst, hp, hb]) hu hon]
  have hpch : (wrap s (perBankRefresh st p b (fresh s))).pch st p = { s.pch st p with
      rows := FMap.set none (s.pch st p).rows b none, acts := FMap.set 0 (s.pch st p).acts b 0
      refresh := FMap.upd 0 (s.pch st p).refresh b (fun n => n + 1) } := by
    rw [State.pch, mem_wrap, perBankRefresh, setPch_eq, mem_setMem, get_set_same]
    rfl
  refine ⟨_, rfl, ?_, ?_, ?_, fun c hc => ?_, rfl⟩
  all_goals rw [hpch]
  · simp
  · simp
  · simp [FMap.upd]
  · exact get_set_other none (s.pch st p).rows none hc.symm

theorem boot_mapAdd {s : State} (e : MapEnt) (h : s.boot.map.length < 32000) :
    (s.mapAdd e).boot.map = s.boot.map ++ [{ e with seq := s.thm.newest + s.ledgQ.length + 1 }] := by
  have hroom : (s.ledger 0x07 (2 ^ 8 * ({ e with seq := 0 } : MapEnt).bits)).boot.map.length < 32000 := h
  rw [State.mapAdd, if_pos hroom]
  rfl

/-- Lane `l` of a stack's channel `ch` is out, and a spare of the channel is taken. -/
def laneSwapped (s : State) (st ch l : Nat) : State :=
  let k := s.stack st
  let s := s.setStack st { k with laneDue := k.laneDue.filter (fun x => x ≠ l), lanesOut := insertAsc l k.lanesOut }
  let s := s.setSub .BASE_SELVEDGE_SPARES st (2 * ch) 2 (s.sub .BASE_SELVEDGE_SPARES st (2 * ch) 2 + 1)
  let s := { s with meters := { s.meters with swaps := FMap.upd 0 s.meters.swaps st (fun n => n + 1) } }
  s.tally .BASE_LANE_SWAP st 1

theorem laneSwap_due {s : State} {st ch l : Nat} (hdue : (s.stack st).laneDue.find? (fun l => l / 72 = ch) = some l)
    (hspare : s.spareLeft st ch = true) : laneSwap st ch s =
      (laneSwapped s st ch l).mapAdd { kind := 3, unit := st, channel := ch, lane := l % 72, cause := 4 } := by
  simp only [laneSwap, hdue, hspare, Bool.not_true, Bool.false_eq_true, if_false]
  rfl

theorem stack_laneSwapped (s : State) (st ch l : Nat) : (laneSwapped s st ch l).stack st =
    { s.stack st with
      laneDue := (s.stack st).laneDue.filter (fun x => x ≠ l), lanesOut := insertAsc l (s.stack st).lanesOut } := by
  simp [laneSwapped, State.stack]

theorem spares_laneSwapped {s : State} {st ch : Nat} (l : Nat) (hch : ch < 32) (hspare : s.spareLeft st ch = true) :
    (laneSwapped s st ch l).sub .BASE_SELVEDGE_SPARES st (2 * ch) 2 = s.sub .BASE_SELVEDGE_SPARES st (2 * ch) 2 + 1 := by
  have hleft : s.sub .BASE_SELVEDGE_SPARES st (2 * ch) 2 < 2 := by simpa [State.spareLeft] using hspare
  have hf : (laneSwapped s st ch l).f .BASE_SELVEDGE_SPARES st =
      setBits (s.f .BASE_SELVEDGE_SPARES st) (2 * ch) 2 (s.sub .BASE_SELVEDGE_SPARES st (2 * ch) 2 + 1) % 2 ^ 64 := by
    rw [laneSwapped, tally_eq, f_setF, if_neg (by simp)]
    exact f_setF_same _ _ _ _
  rw [State.sub, hf, bitField_mod (by omega), bitField_setBits_same, Nat.mod_eq_of_lt (by omega)]

theorem laneSwaps_laneSwapped (s : State) (st ch l : Nat) :
    (laneSwapped s st ch l).f .BASE_LANE_SWAP st = satAdd (s.f .BASE_LANE_SWAP st) 1 := by
  have hbefore (v : Nat) : (s.setF .BASE_SELVEDGE_SPARES st v).f .BASE_LANE_SWAP st = s.f .BASE_LANE_SWAP st := by
    rw [f_setF, if_neg (by simp)]
  rw [laneSwapped, tally_eq, f_setF_same]
  exact (satAdd_mod _ _).trans (congrArg (satAdd · 1) (hbefore _))

theorem exec_laneSwap_takesSpare {s : State} {st ch l : Nat} (hu : s.up) (hst : st < 24) (hch : ch < 32)
    (hdue : (s.stack st).laneDue.find? (fun l => l / 72 = ch) = some l) (hspare : s.spareLeft st ch = true)
    (hroom : s.boot.map.length < 32000) :
    ∃ t, exec (.laneSwap st ch) s = .next t ∧ l ∉ (t.stack st).laneDue ∧ l ∈ (t.stack st).lanesOut ∧
      t.sub .BASE_SELVEDGE_SPARES st (2 * ch) 2 = s.sub .BASE_SELVEDGE_SPARES st (2 * ch) 2 + 1 ∧
      t.f .BASE_LANE_SWAP st = satAdd (s.f .BASE_LANE_SWAP st) 1 ∧
      t.boot.map = s.boot.map ++
        [{ kind := 3, unit := st, channel := ch, lane := l % 72, cause := 4, seq := s.thm.newest + s.ledgQ.length + 1 }] := by
  have hstack := stack_laneSwapped (fresh s) st ch l
  have hspares := spares_laneSwapped (s := fresh s) l hch hspare
  have hswaps := laneSwaps_laneSwapped (fresh s) st ch l
  have hmap := boot_mapAdd (s := laneSwapped (fresh s) st ch l)
    { kind := 3, unit := st, channel := ch, lane := l % 72, cause := 4 } hroom
  obtain ⟨-, hmem, hregs⟩ := mapAdd_entry (laneSwapped (fresh s) st ch l)
    { kind := 3, unit := st, channel := ch, lane := l % 72, cause := 4 }
  rw [exec_laneSwap, act_up (by simp [hst, hch]) hu, laneSwap_due (s := fresh s) hdue hspare]
  generalize State.mapAdd (laneSwapped (fresh s) st ch l) _ = x at hmap hmem hregs ⊢
  have hx : x.stack st = (laneSwapped (fresh s) st ch l).stack st := by rw [State.stack, hmem, State.stack]
  rw [hstack] at hx
  refine ⟨_, rfl, ?_, ?_, ?_, ?_, hmap⟩
  · show l ∉ (x.stack st).laneDue
    simp [hx]
  · show l ∈ (x.stack st).lanesOut
    rw [hx]
    exact mem_insertAsc_of (.inl rfl)
  · rw [State.sub, f_read_wrap, hregs _ _ (by simp)]
    exact hspares
  · rw [f_read_wrap, hregs _ _ (by simp)]
    exact hswaps

/-- A slot read without bad symbols. -/
theorem patrolScrub_clean (st slot : Nat) (s : State) : patrolScrub st slot [] s =
    if slot = 1572863 then
      (s.setStack st { s.stack st with scrubAt := (slot + 1) % 1572864 }).tally .BASE_SCRUB_PASS st 1
    else s.setStack st { s.stack st with scrubAt := (slot + 1) % 1572864 } := rfl

theorem exec_patrolScrub_moves {s : State} {st slot : Nat} (hu : s.up) (hst : st < 24) (hslot : slot < 1572864)
    (hserves : s.stackServes st = true) (hat : slot = (s.stack st).scrubAt) :
    ∃ t, exec (.patrolScrub st slot []) s = .next t ∧ t.stack st = { s.stack st with scrubAt := (slot + 1) % 1572864 } ∧
      t.f .BASE_SCRUB_PASS st =
        (if slot = 1572863 then satAdd (s.f .BASE_SCRUB_PASS st) 1 else s.f .BASE_SCRUB_PASS st) ∧
      t.mem.st = s.mem.st ∧ SameRegs s t [(.BASE_SCRUB_PASS, st)] := by
  rw [exec_patrolScrub, act_up_whenever (by simp [hst, hslot]) hu (by simp [hserves, ← hat]), patrolScrub_clean]
  split
  case isTrue =>
    refine ⟨_, rfl, by simp [State.stack], ?_, rfl, sameRegs_setF (sameRegs_refl s _) _ (by simp)⟩
    rw [f_read_wrap, tally_eq, f_setF_same]
    exact satAdd_mod _ _
  case isFalse => exact ⟨_, rfl, by simp [State.stack], rfl, rfl, sameRegs_refl s _⟩

/-- Settles O40: arbiters grant one unit and pass it on, a lone burst is served in its bank's row, a refresh closes its row,
a lane swap takes a spare, and a clean read moves the scrubber on. -/
theorem stackControllersGrantAndRepair : Obligations.StackControllersGrantAndRepair := by
  unfold Obligations.StackControllersGrantAndRepair
  refine ⟨fun s i hu hi hne hcls => ?_, fun s i c stop port tag hu hok hi hempty hc hstop hport => ?_,
    fun s st p cls port slot g u v h part write hu hst hp hstate hon hlevel hempty hcls hport hslot hg hunit hpch hpart hv => ?_,
    fun s st p b hu hst hp hb hon => ?_, fun s st ch l hu hst hch hdue hspare hroom => ?_,
    fun s st slot hu hst hslot hserves hat => ?_⟩
  · exact exec_arbiterGrant_grants hu hi hne hcls
  · exact exec_arbiterGrant_alone tag hu hok hi hempty hc hstop hport
  · obtain ⟨t, hrun, hout, hst', hgranted, hrest⟩ := exec_hbmRequest_serves hu hst hp hstate hon hlevel hempty
      (q := { cls, arrival := s.hbmCycle, port, slot, granule := g, unit := u, write, data := v, hint := h, part })
      ⟨hcls, hport, hslot, hg, hunit, hpch, hpart, hv, rfl, rfl, rfl⟩
    exact ⟨t, hrun, hout, hst', hgranted.queue, hgranted.grant, hgranted.row, hrest⟩
  · exact exec_perBankRefresh_closes hu hst hp hb hon
  · exact exec_laneSwap_takesSpare hu hst hch hdue hspare hroom
  · exact exec_patrolScrub_moves hu hst hslot hserves hat

end Sys2Proof.Proofs
end

section
/-! The clauses of O36: the cutter's walk over a run plan (R67, R284, R329, R367 to R370). -/

namespace Sys2Proof.Proofs

open Sys2Proof.Machine Sys2Proof.Laws

/-! What requests at the base caches leave alone. -/

namespace Cached

variable {s t : State}

theorem sws_eq (h : Cached s t) : t.sws = s.sws := by rw [h.1]

theorem now_eq (h : Cached s t) : t.now = s.now := by rw [h.1]

theorem sw_eq (h : Cached s t) (k : Nat) : t.sw k = s.sw k := by rw [h.1]; rfl

theorem swCores_eq (h : Cached s t) (k : Nat) : t.swCores k = s.swCores k := by
  have hswatch (c : Nat) : t.f .CORE_STATUS_SWATCH c = s.f .CORE_STATUS_SWATCH c := h.2 _ _ (by decide)
  simp only [State.swCores, h.sw_eq, hswatch]

theorem alone_eq (h : Cached s t) (k : Nat) : t.alone k = s.alone k := by
  simp only [State.alone, (Gathering.of_cached h).members_eq]

theorem accessed_frame (h : Cached (fresh s) t) :
    MemOnly s.mem t.mem ∧ SameButCache s t [] ∧ t = { s with mem := t.mem, regs := t.regs, out := [] } := by
  obtain ⟨hrest, hmem, hregs⟩ := Accessed.of_cached h
  exact ⟨hmem, hregs, by rw [hrest]; rfl⟩

end Cached

/-! The entry at which the cutter stands. -/

theorem readEntry_cached (s : State) (k : Nat) : Cached (fresh s) (s.readEntry k) := (Cached.refl _).streams _ _

/-- Swatch `k`'s run once its cutter has gone on to the next entry. -/
def walkedOn (s : State) (k : Nat) : SwRun := { s.sw k with plan := (s.sw k).plan + 1, planSince := s.now }

theorem planNext_of {s t : State} (hsws : t.sws = s.sws) (hnow : t.now = s.now) (k : Nat) :
    t.planNext k = { t with sws := FMap.set {} s.sws k (walkedOn s k) } := by
  unfold State.planNext State.updSw State.setSw State.sw walkedOn
  rw [hsws, hnow]
  rfl

theorem planNext_cached {s u : State} (h : Cached (fresh s) u) (k : Nat) :
    u.planNext k = { u with sws := FMap.set {} s.sws k (walkedOn s k) } := planNext_of h.sws_eq h.now_eq k

section Entry

variable {s : State} {k e : Nat} (h : s.atEntry k e)
include h

/-- The walk's step at an entry that it recognises is the entry's action on what the cutter finds behind the base caches. -/
theorem act_planStep {is : Nat → Bool} (his : is e = true) (f : Nat → State → State) :
    act (k < 65536) (whenUp (planStep k is f)) s = .next (wrap s (f e (s.readEntry k))) := by
  obtain ⟨hu, hk, hnow, hheld, hfree⟩ := h
  have hnow' : (fresh s).planNow k = some e := hnow
  have hheld' : (fresh s).planHeld k = false := hheld
  rw [act_up (by simpa using hk) hu, planStep]
  simp only [hnow', his, hheld', Bool.not_false, Bool.and_true, if_true]
  exact congrArg (fun t => Host.Outcome.next (wrap s t)) (engine_free (engineFree_fresh hfree) _)

theorem started_atEntry : (s.sw k).started = true := by
  obtain ⟨-, -, hnow, -, -⟩ := h
  unfold State.planNow at hnow
  dsimp only at hnow
  split at hnow
  case isTrue hruns => simpa using (Bool.and_eq_true_iff.1 (Bool.and_eq_true_iff.1 hruns).1).1
  case isFalse => cases hnow

/-! BARRIER and LAYER. -/

theorem exec_runBarrier_passes (hop : rpOp e = 1)
    (hpass : (s.sw k).broken = true ∨ ∀ c ∈ s.swCores k, 512 + rpValue e % 256 ∈ (s.core c).passed) :
    exec (.runBarrier k) s =
      .next (wrap s { s.readEntry k with sws := FMap.set {} s.sws k (walkedOn s k) }) := by
  have hread := readEntry_cached s k
  have hcore (c : Nat) : (s.readEntry k).core c = s.core c := by rw [hread.1]; rfl
  rw [exec_runBarrier, runBarrier, act_planStep h (by simpa using hop)]
  dsimp only
  rw [if_pos, planNext_cached hread]
  have hcores : (s.readEntry k).swCores k = s.swCores k := hread.swCores_eq k
  simpa [hread.sw_eq, hcores, hcore] using hpass

theorem exec_barrierStall_breaks (hop : rpOp e = 1) (hlatched : (s.sw k).latched = false)
    (hlimit : (s.sw k).limitHit = false) (hlate : msec (s.stallMs k) < s.now - (s.sw k).planSince) :
    ∃ t, exec (.barrierStall k) s = .next t ∧ t.f .TIER_STALL_FAIL 0 = satAdd (s.f .TIER_STALL_FAIL 0) 1 ∧
      (t.sw k).broken = true ∧ (t.sw k).bit0 = true ∧ (t.sw k).limitHit = true ∧
      bitAt (t.sw k).cause causeStall = true ∧ ∀ j, j ≠ k → t.sw j = s.sw j := by
  have hstarted := started_atEntry h
  obtain ⟨hu, hk, hnow, -, -⟩ := h
  generalize hx : ((fresh s).tally .TIER_STALL_FAIL 0 1).failStep k causeStall = x
  have hrun : barrierStall k (fresh s) = x.updSw k (fun r => { r with limitHit := true }) := by
    have hplan : (fresh s).planNow k = some e := hnow
    have hms : (fresh s).stallMs k = s.stallMs k := rfl
    simp [barrierStall, hplan, hms, hop, hstarted, hlatched, hlimit, hlate, ← hx]
  have hfail := failStep_failed ((fresh s).tally .TIER_STALL_FAIL 0 1) k causeStall
  have hsw := failStep_sw ((fresh s).tally .TIER_STALL_FAIL 0 1) k causeStall
  rw [hx] at hfail hsw
  have hown := hsw k
  rw [if_neg (by simp), if_pos (by simp [hstarted, hlatched])] at hown
  have hupd : ((x.updSw k (fun r => { r with limitHit := true })).sw k) = { x.sw k with limitHit := true } := by simp
  refine ⟨_, by rw [exec_barrierStall, act_up (by simpa using hk) hu, hrun], ?_, ?_, ?_, ?_, ?_, fun j hj => ?_⟩
  · exact (hfail.2 _ _ (by simp)).trans (f_tally_same (fresh s) 0 1 rfl)
  · rw [sw_read_wrap, hupd, hown]
  · rw [sw_read_wrap, hupd, hown]
  · rw [sw_read_wrap, hupd]
  · rw [sw_read_wrap, hupd, hown]
    exact bitAt_putBit _ _
  · rw [sw_read_wrap, updSw_eq, sw_setSw, if_neg (Ne.symm hj), hsw j, if_pos (Ne.symm hj)]
    rfl

theorem exec_layerMark_low (hop : rpOp e = 2) (hlow : rpValue e ≤ s.desc k 1920 16) :
    exec (.layerMark k) s =
      .next (wrap s { s.readEntry k with sws := FMap.set {} s.sws k (walkedOn s k) }) := by
  have hread := readEntry_cached s k
  have hdesc : (s.readEntry k).desc k 1920 16 = s.desc k 1920 16 := hread.readsAlike.desc_eq _ _ _
  rw [exec_layerMark, layerMark, act_planStep h (by simpa using hop)]
  dsimp only
  rw [State.layerSet, hdesc, if_pos hlow, planNext_cached hread]

theorem exec_layerMark_high (hop : rpOp e = 2) (hhigh : s.desc k 1920 16 < rpValue e) :
    let u := s.readEntry k
    exec (.layerMark k) s = .next (wrap s (((((u.streamRead (u.prefRange k).1 (u.prefRange k).2).setDesc k 1920 16
      (rpValue e)).prefPass k (rpValue e) true).prefPass k (rpValue e) false).planNext k)) := by
  have hdesc : (s.readEntry k).desc k 1920 16 = s.desc k 1920 16 := (readEntry_cached s k).readsAlike.desc_eq _ _ _
  rw [exec_layerMark, layerMark, act_planStep h (by simpa using hop)]
  dsimp only
  rw [State.layerSet, hdesc, if_neg (Nat.not_le.2 hhigh)]
  rfl

/-! PACK. -/

end Entry

/-- Two states that differ by jobs that have joined the queues of the presses. -/
def JobsQueued (s t : State) : Prop :=
  t = { s with regs := t.regs, pressQ := t.pressQ } ∧ ∀ st, s.jobs st ⊆ t.jobs st

namespace JobsQueued

theorem refl (s : State) : JobsQueued s s := ⟨rfl, fun _ => List.Subset.refl _⟩

theorem trans {s t u : State} (h : JobsQueued s t) (h' : JobsQueued t u) : JobsQueued s u :=
  ⟨by rw [h'.1, h.1], fun st => List.Subset.trans (h.2 st) (h'.2 st)⟩

end JobsQueued

theorem queueJob_jobsQueued (s : State) (st : Nat) (j : PressJob) : JobsQueued s (s.queueJob st j) := by
  refine ⟨by rw [State.queueJob, setJobs_rest], fun p => ?_⟩
  rw [State.queueJob, setJobs_jobs]
  split
  case isTrue hp => exact hp ▸ List.subset_append_left _ _
  case isFalse => exact List.Subset.refl _

theorem mem_jobs_queueJob (s : State) (st : Nat) (j : PressJob) : j ∈ (s.queueJob st j).jobs st := by
  rw [State.queueJob, setJobs_jobs, if_pos rfl]
  simp

/-- The pack jobs of a list of spans of swatch `k` join their queues (R182). -/
def packsQueued (k : Nat) (l : List (Nat × Nat)) (s : State) : State :=
  l.foldl (fun t p => t.queueJob (spPress p.2) ⟨0, k, p.1⟩) s

theorem packsQueued_jobsQueued (k : Nat) (l : List (Nat × Nat)) (s : State) : JobsQueued s (packsQueued k l s) :=
  List.foldlRecOn _ _ (.refl s) (fun t ht _ _ => ht.trans (queueJob_jobsQueued t _ _))

theorem mem_jobs_packsQueued {k : Nat} {l : List (Nat × Nat)} {p : Nat × Nat} (s : State) (hp : p ∈ l) :
    ⟨0, k, p.1⟩ ∈ (packsQueued k l s).jobs (spPress p.2) := by
  obtain ⟨l₁, l₂, rfl⟩ := List.append_of_mem hp
  rw [packsQueued, List.foldl_append, List.foldl_cons]
  exact (packsQueued_jobsQueued k l₂ _).2 _ (mem_jobs_queueJob _ _ _)

namespace ReadsAlike

variable {s t : State} (h : ReadsAlike s t)
include h

theorem planSpans_eq (k e : Nat) : t.planSpans k e = s.planSpans k e := by
  simp only [State.planSpans, State.spans, State.spanCount, h.span_eq, h.desc_eq]

theorem dense_eq (k v : Nat) : t.dense k v = s.dense k v := by
  simp only [State.dense, h.group_eq]

end ReadsAlike

theorem exec_runPack_queues {s : State} {k e : Nat} (h : s.atEntry k e) (hop : rpOp e = 3) :
    ∃ t, exec (.runPack k) s = .next t ∧ t.sw k = walkedOn s k ∧ (∀ j, j ≠ k → t.sw j = s.sw j) ∧
      (∀ p ∈ s.planSpans k e, s.dense k p.2 = true → ⟨0, k, p.1⟩ ∈ t.jobs (spPress p.2)) ∧
      t = wrap s { s.readEntry k with sws := t.sws, pressQ := t.pressQ, regs := t.regs } := by
  have hread := readEntry_cached s k
  generalize hl : (s.planSpans k e).filter (fun p => s.dense k p.2) = l
  have hspans : ((s.readEntry k).planSpans k e).filter (fun p => (s.readEntry k).dense k p.2) = l := by
    have halike := ReadsAlike.trans (readsAlike_fresh s) hread.readsAlike
    simp only [halike.planSpans_eq, halike.dense_eq, hl]
  have hqueued := packsQueued_jobsQueued k l (s.readEntry k)
  have hnext : (packsQueued k l (s.readEntry k)).planNext k =
      { packsQueued k l (s.readEntry k) with sws := FMap.set {} s.sws k (walkedOn s k) } :=
    planNext_of (by rw [hqueued.1]; exact hread.sws_eq) (by rw [hqueued.1]; exact hread.now_eq) k
  have hrun : exec (.runPack k) s = .next (wrap s ((packsQueued k l (s.readEntry k)).planNext k)) := by
    rw [exec_runPack, runPack, act_planStep h (by simpa using hop), hspans]
    rfl
  rw [hnext] at hrun
  have hsw (j : Nat) : (wrap s { packsQueued k l (s.readEntry k) with sws := FMap.set {} s.sws k (walkedOn s k) }).sw j =
      if k = j then walkedOn s k else s.sw j := get_set _ _ _ _ _
  refine ⟨_, hrun, by rw [hsw, if_pos rfl], fun j hj => by rw [hsw, if_neg (Ne.symm hj)], fun p hp hdense => ?_, ?_⟩
  · exact mem_jobs_packsQueued _ (hl ▸ List.mem_filter.2 ⟨hp, hdense⟩)
  · rw [hqueued.1]
    rfl

/-! COLL. -/

/-- What an entry asks of the collective engines of the step's domain (R330). -/
def askOf (k e kind : Nat) : CollReq := ⟨k, kind, rpClosing e, rpValue e, rpCount e, rpAddr e, rpRoot e⟩

/-- A domain once a request has joined those that wait for their COLL_SEQ. -/
def withAsk (v : Dom) (q : CollReq) : Dom := { v with reqs := v.reqs ++ [q] }

/-- Asking changes the domain of the swatch's step alone. -/
theorem ask_of {s u : State} {k : Nat} (hdomain : (u.sw k).domain = (s.sw k).domain) (hdoms : u.doms = s.doms) (kind e : Nat) :
    u.ask k kind e = { u with
      doms := FMap.set {} s.doms (s.sw k).domain (withAsk (s.dom (s.sw k).domain) (askOf k e kind)) } := by
  unfold State.ask State.setDom State.dom
  rw [hdomain, hdoms]
  rfl

/-- The commands of the collectives of a tensor, each with the COP that it carries out (R367). -/
def tensorCommands (k : Nat) : List (Instr × Nat) :=
  [(.collReduceScatter k, 0), (.collAllGather k, 1), (.collAllReduce k, 2), (.collBroadcast k, 3)]

theorem planNext_withDoms {s u : State} (h : Cached (fresh s) u) (doms : FMap Dom) (k : Nat) :
    State.planNext { u with doms := doms } k =
      { u with sws := FMap.set {} s.sws k (walkedOn s k), doms := doms } :=
  planNext_of (t := { u with doms := doms }) h.sws_eq h.now_eq k

theorem planNext_withMem {s u : State} (h : Cached (fresh s) u) (m : Mem) (k : Nat) :
    (u.setMem m).planNext k = { u with sws := FMap.set {} s.sws k (walkedOn s k), mem := m } :=
  planNext_of (t := u.setMem m) h.sws_eq h.now_eq k

section Entry

variable {s : State} {k e : Nat} (h : s.atEntry k e)
include h

theorem exec_runCollExchange_asks (hop : rpOp e = 4) (hmode : rpMode e = false) (halone : s.alone k = false)
    (hlining : s.lining (s.sw k).domain = false) :
    let d := (s.sw k).domain
    exec (.runCollExchange k) s = .next (wrap s { s.readEntry k with
      sws := FMap.set {} s.sws k (walkedOn s k)
      doms := FMap.set {} (FMap.set {} s.doms d (withAsk (s.dom d) (askOf k e 0))) d
        (withAsk (withAsk (s.dom d) (askOf k e 0)) (askOf k e 1)) }) := by
  intro d
  have hread := readEntry_cached s k
  have hdomain : ((s.readEntry k).sw k).domain = d := by rw [hread.sw_eq]; rfl
  have hdoms : (s.readEntry k).doms = s.doms := by rw [hread.1]; rfl
  have halone' : (s.readEntry k).alone k = false := (hread.alone_eq k).trans halone
  have hlining' : (s.readEntry k).lining d = false := ((Gathering.of_cached (k := k) hread).lining_eq d).trans hlining
  have hfirst := ask_of (s := s) hdomain hdoms 0 e
  generalize hq : FMap.set {} s.doms d (withAsk (s.dom d) (askOf k e 0)) = doms at hfirst
  have hown : State.dom { s with doms := doms } d = withAsk (s.dom d) (askOf k e 0) := by
    rw [← hq]
    exact get_set_same _ _ _ _
  have hsecond := ask_of (s := { s with doms := doms }) (u := { s.readEntry k with doms := doms }) hdomain rfl 1 e
  rw [show State.dom { s with doms := doms } (State.sw { s with doms := doms } k).domain = _ from hown] at hsecond
  rw [exec_runCollExchange, runCollExchange, act_planStep h (by simp [hop, hmode])]
  dsimp only
  rw [hdomain, if_neg (by simp [halone']), if_neg (by simp [hlining']), hfirst, hsecond]
  exact congrArg (fun t => Host.Outcome.next (wrap s t)) (planNext_withDoms hread _ k)

/-- The commands of the four collectives of a tensor walk by one meaning. -/
theorem exec_runCollTensor {i : Instr} {cop : Nat} (hi : (i, cop) ∈ tensorCommands k) (hop : rpOp e = 4)
    (hmode : rpMode e = true) (hcop : rpCop e = cop) :
    exec i s = .next (wrap s (if (s.readEntry k).alone k then (s.readEntry k).tnCopy k (rpAddr e)
      else ((s.readEntry k).ask k (2 + cop) e).planNext k)) := by
  have hexec : exec i s = act (k < 65536) (whenUp (runCollTensor cop k)) s := by
    simp only [tensorCommands, List.mem_cons, Prod.mk.injEq, List.not_mem_nil, or_false] at hi
    rcases hi with ⟨rfl, rfl⟩ | ⟨rfl, rfl⟩ | ⟨rfl, rfl⟩ | ⟨rfl, rfl⟩
    · exact exec_collReduceScatter k s
    · exact exec_collAllGather k s
    · exact exec_collAllReduce k s
    · exact exec_collBroadcast k s
  rw [hexec, runCollTensor, act_planStep h (by simp [hop, hmode, hcop])]

theorem exec_runCollTensor_asks {i : Instr} {cop : Nat} (hi : (i, cop) ∈ tensorCommands k) (hop : rpOp e = 4)
    (hmode : rpMode e = true) (hcop : rpCop e = cop) (halone : s.alone k = false) :
    exec i s = .next (wrap s { s.readEntry k with
      sws := FMap.set {} s.sws k (walkedOn s k)
      doms := FMap.set {} s.doms (s.sw k).domain (withAsk (s.dom (s.sw k).domain) (askOf k e (2 + cop))) }) := by
  have hread := readEntry_cached s k
  have hdomain : ((s.readEntry k).sw k).domain = (s.sw k).domain := by rw [hread.sw_eq]; rfl
  have hdoms : (s.readEntry k).doms = s.doms := by rw [hread.1]; rfl
  have halone' : (s.readEntry k).alone k = false := (hread.alone_eq k).trans halone
  rw [exec_runCollTensor h hi hop hmode hcop, if_neg (by simp [halone']), ask_of (s := s) hdomain hdoms]
  exact congrArg (fun t => Host.Outcome.next (wrap s t)) (planNext_withDoms hread _ k)

theorem exec_runCollTensor_copies {i : Instr} {cop : Nat} (hi : (i, cop) ∈ tensorCommands k) (hop : rpOp e = 4)
    (hmode : rpMode e = true) (hcop : rpCop e = cop) (halone : s.alone k = true)
    (hfree : (s.readEntry k).engineFree k [(rpAddr e, 64)] []) :
    let y := (s.readEntry k).streams [(rpAddr e, 64)] []
    let p := y.tnPair (rpAddr e)
    tnOk p.1 = true → tnOk p.2 = true → tnBlocks p.1 = tnBlocks p.2 → y.engineFree k (tnRanges p.1) (tnRanges p.2) →
    exec i s = .next (wrap s (((List.range (tnBlocks p.1)).foldl (fun t b => t.tnWrite p.2 b (t.tnRead p.1 b))
      (y.streams (tnRanges p.1) (tnRanges p.2))).planNext k)) := by
  intro y p hin hout hblocks hranges
  have halone' : (s.readEntry k).alone k = true := ((readEntry_cached s k).alone_eq k).trans halone
  rw [exec_runCollTensor h hi hop hmode hcop, if_pos halone', State.tnCopy, engine_free hfree]
  exact congrArg (fun t => Host.Outcome.next (wrap s t))
    ((if_pos (by simp [hin, hout, hblocks, p, y])).trans (engine_free hranges _))

/-! TIER and END. -/

theorem exec_runTier_posts (hop : rpOp e = 5) (hfree : (s.readEntry k).engineFree k [(rpAddr e, 32)] []) :
    let y := (s.readEntry k).streams [(rpAddr e, 32)] []
    let bits := y.devNat (rpAddr e) 32
    trOp bits ≤ 6 → exec (.runTier k) s = .next (wrap s { y with
      sws := FMap.set {} s.sws k (walkedOn s k)
      mem := { y.mem with
        tierQ := s.mem.tierQ ++ [⟨bits, 0, 0, 0, 0, 0, false, s.now, (s.dirE (trFirst bits)).generation, k⟩] } }) := by
  intro y bits hbits
  have hy : Cached (fresh s) y := (readEntry_cached s k).streams _ _
  have hdirE : (y.dirE (trFirst bits)).generation = (s.dirE (trFirst bits)).generation :=
    congrArg DirEntry.generation (hy.dirE_eq _)
  have htierQ : y.mem.tierQ = s.mem.tierQ := by rw [hy.1]; rfl
  have hpost : y.postTier ⟨bits, 0, 0, 0, 0, 0, false, y.now, 0, k⟩ = y.setMem { y.mem with
      tierQ := s.mem.tierQ ++ [⟨bits, 0, 0, 0, 0, 0, false, s.now, (s.dirE (trFirst bits)).generation, k⟩] } := by
    rw [State.postTier, if_neg (Nat.not_lt.2 hbits), htierQ, ← hdirE, hy.now_eq]
    rfl
  rw [exec_runTier, runTier, act_planStep h (by simpa using hop), engine_free hfree]
  refine congrArg (fun t => Host.Outcome.next (wrap s t)) ((congrArg (fun t => State.planNext t k) hpost).trans ?_)
  exact planNext_withMem hy _ k

theorem exec_runEnd_ends (hop : rpOp e = 0) (hjobs : s.jobsOf k 0 ≠ [] ∨ (s.sw k).latched = true)
    (hended : ∀ c ∈ s.swCores k, s.coreEnded c = true) :
    exec (.runEnd k) s =
      .next (wrap s { s.readEntry k with sws := FMap.set {} s.sws k { s.sw k with ended := true } }) := by
  have hread := readEntry_cached s k
  generalize hu : s.readEntry k = u at hread
  have hsw : u.sw k = s.sw k := hread.sw_eq k
  have hsws : u.sws = s.sws := hread.sws_eq
  have hcores : u.swCores k = s.swCores k := hread.swCores_eq k
  have hcoreEnded (c : Nat) : u.coreEnded c = s.coreEnded c := by
    rw [State.coreEnded, hread.2 .CORE_STATUS_STATE c (by decide)]
    rfl
  have hjobsOf : u.jobsOf k 0 = s.jobsOf k 0 := by rw [hread.1]; rfl
  have hlatch : (if (u.jobsOf k 0).isEmpty then u.latchAlone k else u) = u := by
    split
    case isTrue hnone =>
      have hlatched : (s.sw k).latched = true := hjobs.resolve_left (by simpa [hjobsOf] using hnone)
      rw [State.latchAlone, if_pos (by simp [hsw, hlatched])]
    case isFalse => rfl
  rw [exec_runEnd, runEnd, act_planStep h (by simpa using hop), hu]
  dsimp only
  rw [hlatch, if_pos (by simpa [hcores, hcoreEnded] using hended), updSw_eq, State.setSw, hsw, hsws]

end Entry

/-- Settles O36, entry by entry. -/
theorem runPlanWalksEntries : Obligations.RunPlanWalksEntries := by
  intro s k e h
  exact ⟨exec_runBarrier_passes h, exec_barrierStall_breaks h, exec_layerMark_low h, exec_layerMark_high h,
    exec_runPack_queues h, exec_runCollExchange_asks h,
    fun i cop hi hop hmode hcop => ⟨exec_runCollTensor_asks h hi hop hmode hcop, exec_runCollTensor_copies h hi hop hmode hcop⟩,
    exec_runTier_posts h, exec_runEnd_ends h, (readEntry_cached s k).accessed_frame⟩

end Sys2Proof.Proofs
end

section
/-! The clauses of O46: stall limits (R207, R293), the flash controllers' programs and budget (R286, R288) and the T3
window (R290). -/

namespace Sys2Proof.Proofs

open Sys2Proof.Machine Sys2Proof.Laws

/-! A wait past the limit. -/

theorem showStall_f {n : FieldName} (s : State) (w : Waiter) (failed : Bool) (i : Nat)
    (hn : n ∉ [FieldName.TIER_STALL_LAST_SWATCH, .TIER_STALL_LAST_CAUSE, .TIER_STALL_LAST_FAILED,
      .TIER_STALL_LAST_DURATION]) : (s.showStall w failed).f n i = s.f n i := by
  simp only [List.mem_cons, List.not_mem_nil, or_false, not_or] at hn
  obtain ⟨hswatch, hcause, hfailed, hduration⟩ := hn
  simp [State.showStall, f_setF, Ne.symm hswatch, Ne.symm hcause, Ne.symm hfailed, Ne.symm hduration]

/-- TIER_STALL_LAST shows the wait's swatch, the cause of its obstacle in force and whether it failed (R301). -/
theorem showStall_shows (s : State) (w : Waiter) :
    (s.showStall w true).f .TIER_STALL_LAST_SWATCH 0 = w.sw % 2 ^ 16 ∧
      (s.showStall w true).f .TIER_STALL_LAST_CAUSE 0 = s.causeNow w % 2 ^ 3 ∧
      (s.showStall w true).f .TIER_STALL_LAST_FAILED 0 = 1 := by
  simp [State.showStall, f_setF, fieldDesc, flagBit]

/-- The wait shown as failed, and counted once for the step of swatch `k`: how `stallLimit` begins where the step is open. -/
def stallCounted (s : State) (k : Nat) (w : Waiter) : State :=
  if (s.sw k).limitHit then s.showStall w true else (s.showStall w true).tally .TIER_STALL_FAIL 0 1

theorem stallCounted_rest (s : State) (k : Nat) (w : Waiter) :
    stallCounted s k w = { s with regs := (stallCounted s k w).regs } := by
  unfold stallCounted
  split <;> rfl

theorem stallCounted_f {n : FieldName} (s : State) (k : Nat) (w : Waiter) (i : Nat) (hn : n ≠ .TIER_STALL_FAIL) :
    (stallCounted s k w).f n i = (s.showStall w true).f n i := by
  unfold stallCounted
  split
  · rfl
  · rw [tally_eq, f_setF, if_neg (fun h => hn h.1.symm)]

theorem stallCounted_fail (s : State) (k : Nat) (w : Waiter) : (stallCounted s k w).f .TIER_STALL_FAIL 0 =
    if (s.sw k).limitHit then s.f .TIER_STALL_FAIL 0 else satAdd (s.f .TIER_STALL_FAIL 0) 1 := by
  have hkept := showStall_f (n := .TIER_STALL_FAIL) s w true 0 (by decide)
  unfold stallCounted
  split
  · exact hkept
  · rw [f_tally_same _ _ _ rfl, hkept]

/-- Setting the withdrawal leaves what it does not write of the runs. -/
theorem setWithdraw_sw_keeps {α : Type} (g : SwRun → α)
    (hopen : ∀ r c, g { r with cause := c, bit0 := true, broken := true } = g r)
    (hnext : ∀ r c, g { r with nextCause := c, nextBit0 := true } = g r)
    (hwithdraws : ∀ r, g { r with withdraws := true } = g r) (s : State) (cause k : Nat) :
    g ((s.setWithdraw cause).sw k) = g (s.sw k) := by
  have hfail (t : State) (j b i : Nat) : g ((t.failStep j b).sw i) = g (t.sw i) := by
    rw [failStep_sw]
    split
    · rfl
    · split
      · exact hopen _ _
      · exact hnext _ _
  unfold State.setWithdraw
  dsimp only
  refine List.foldlRecOn (motive := fun t : State => g (t.sw k) = g (s.sw k)) _ _ ?_ (fun t ht j _ => ?_)
  · split <;> rfl
  · split
    · exact ht
    · rw [updSw_eq, sw_setSw]
      split
      case isTrue hj => rw [hwithdraws, hj, hfail, ht]
      case isFalse => rw [hfail, ht]

/-- What a run keeps of a limit that has passed (R207, R293). -/
def limitMarks (r : SwRun) : Bool × Bool := (r.failed, r.limitHit)

section StallLimit

variable {s : State} {k cause : Nat} {w : Waiter}

/-- What makes a wait of swatch `k` under a cause late (R293). -/
def lateWait (s : State) (k cause : Nat) (x : Waiter) : Bool :=
  x.sw = k && s.causeNow x = cause && !x.past && msec (s.stallMs k) < s.now - x.since

variable (hu : s.up) (hk : k < 65536) (hcause : cause < 6) (hfind : s.mem.waiters.find? (lateWait s k cause) = some w)
  (hstarted : (s.sw k).started = true)
include hu hk hcause hfind hstarted

/-- A late wait of a step that is not latched is given up, and breaks the step. -/
theorem exec_stallLimit_open (hlatched : (s.sw k).latched = false) : exec (.stallLimit k cause) s =
    .next (wrap s ((((stallCounted (fresh s) k w).abandonWait w).failStep k causeStall).updSw k
      (fun r => { r with limitHit := true }))) := by
  have hfind' : (fresh s).mem.waiters.find? (lateWait (fresh s) k cause) = some w := hfind
  have hsw : ((fresh s).showStall w true).sw k = s.sw k := rfl
  rw [exec_stallLimit, act_up (by simp [hk, hcause]) hu]
  refine congrArg (fun t => Host.Outcome.next (wrap s t)) ?_
  unfold stallLimit
  extract_lets late
  rw [show late = lateWait (fresh s) k cause from rfl, hfind']
  dsimp only
  rw [hsw, if_pos (by simp [hstarted, hlatched])]
  rfl

theorem exec_stallLimit_breaks (hlatched : (s.sw k).latched = false) :
    ∃ t, exec (.stallLimit k cause) s = .next t ∧ bitAt (t.sw k).cause causeStall = true ∧ (t.sw k).bit0 = true ∧
      (t.sw k).broken = true ∧
      (t.sw k).limitHit = true ∧ w ∉ t.mem.waiters ∧ t.f .TIER_STALL_LAST_SWATCH 0 = k ∧
      t.f .TIER_STALL_LAST_CAUSE 0 = cause ∧ t.f .TIER_STALL_LAST_FAILED 0 = 1 ∧
      t.f .TIER_STALL_FAIL 0 =
        (if (s.sw k).limitHit then s.f .TIER_STALL_FAIL 0 else satAdd (s.f .TIER_STALL_FAIL 0) 1) ∧
      ∀ j, j ≠ k → t.sw j = s.sw j := by
  have hlate := List.find?_some hfind
  simp only [lateWait, Bool.and_eq_true, decide_eq_true_eq] at hlate
  obtain ⟨⟨⟨hwsw, hwcause⟩, -⟩, -⟩ := hlate
  have hrun := exec_stallLimit_open hu hk hcause hfind hstarted hlatched
  have hrest := stallCounted_rest (fresh s) k w
  have hother := fun n (hn : n ≠ FieldName.TIER_STALL_FAIL) => stallCounted_f (fresh s) k w 0 hn
  have hfailCount := stallCounted_fail (fresh s) k w
  generalize stallCounted (fresh s) k w = x at hrun hrest hother hfailCount
  have hxsw (j : Nat) : (x.abandonWait w).sw j = s.sw j := by rw [hrest]; rfl
  have hfailed := failStep_failed (x.abandonWait w) k causeStall
  have hsw := failStep_sw (x.abandonWait w) k causeStall
  have hmem := (failed_kept hfailed).2.1
  generalize (x.abandonWait w).failStep k causeStall = y at hrun hfailed hsw hmem
  have hown := hsw k
  rw [if_neg (by simp), hxsw, if_pos (by simp [hstarted, hlatched])] at hown
  have hupd : (y.updSw k (fun r => { r with limitHit := true })).sw k = { y.sw k with limitHit := true } := by simp
  have hf (n : FieldName) (hn : n ∉ [FieldName.CORE_STATUS_BROKEN, .CORE_STATUS_STATE, .VEC_STATUS_BUSY, .HST_INT_CAUSE_CAUSE]) :
      (y.updSw k (fun r => { r with limitHit := true })).f n 0 = x.f n 0 := hfailed.2 n 0 hn
  obtain ⟨hswatch, hcauseShown, hfailedShown⟩ := showStall_shows (fresh s) w
  refine ⟨_, hrun, ?_, ?_, ?_, ?_, ?_, ?_, ?_, ?_, ?_, fun j hj => ?_⟩
  · rw [sw_read_wrap, hupd, hown]
    exact bitAt_putBit _ _
  · rw [sw_read_wrap, hupd, hown]
  · rw [sw_read_wrap, hupd, hown]
  · rw [sw_read_wrap, hupd]
  · show w ∉ y.mem.waiters
    rw [hmem]
    simp [State.abandonWait]
  · rw [f_read_wrap, hf _ (by decide), hother _ (by decide), hswatch, hwsw]
    exact Nat.mod_eq_of_lt hk
  · rw [f_read_wrap, hf _ (by decide), hother _ (by decide), hcauseShown]
    exact (congrArg (· % 2 ^ 3) hwcause).trans (Nat.mod_eq_of_lt (by omega))
  · rw [f_read_wrap, hf _ (by decide), hother _ (by decide), hfailedShown]
  · rw [f_read_wrap, hf _ (by decide), hfailCount]
    rfl
  · rw [sw_read_wrap, updSw_eq, sw_setSw, if_neg (Ne.symm hj), hsw j, if_pos (Ne.symm hj), hxsw]

/-- A late wait that a latched step cannot leave is marked as past the limit, and the member is set to withdraw. -/
theorem exec_stallLimit_stuck (hlatched : (s.sw k).latched = true) (hstuck : w.stuck = true) :
    ∃ t, exec (.stallLimit k cause) s = .next t ∧ (t.sw k).failed = true ∧ (t.sw k).limitHit = true ∧
      t.withdraw = some (s.withdraw.getD (2 ^ causeStall)) ∧ t.timedOut = false ∧ t.rejoin = 0 ∧
      { w with past := true } ∈ t.mem.waiters := by
  have hfind' : (fresh s).mem.waiters.find? (lateWait (fresh s) k cause) = some w := hfind
  have hsw : ((fresh s).showStall w true).sw k = s.sw k := rfl
  generalize hx : ((fresh s).showStall w true).setMem { s.mem with
    waiters := s.mem.waiters.map (fun x => if x = w then { x with past := true } else x) } = x
  generalize hy : x.updSw k (fun r => { r with limitHit := true, failed := true }) = y
  have hrun : stallLimit k cause (fresh s) = y.setWithdraw (2 ^ causeStall) := by
    unfold stallLimit
    extract_lets late
    rw [show late = lateWait (fresh s) k cause from rfl, hfind']
    dsimp only
    rw [hsw, if_neg (by simp [hlatched]), if_pos (by simp [hstarted, hstuck]), ← hy, ← hx]
    rfl
  have hmarks : limitMarks ((y.setWithdraw (2 ^ causeStall)).sw k) = (true, true) := by
    rw [setWithdraw_sw_keeps limitMarks (fun _ _ => rfl) (fun _ _ => rfl) (fun _ => rfl), ← hy]
    simp [limitMarks]
  have hwithdrawal := setWithdraw_withdraw y (2 ^ causeStall)
  have hmem : (y.setWithdraw (2 ^ causeStall)).mem = y.mem := (failed_kept (setWithdraw_failed y _)).2.1
  simp only [withdrawal, limitMarks, Prod.mk.injEq] at hwithdrawal hmarks
  obtain ⟨hwithdraw, htimedOut, hrejoin⟩ := hwithdrawal
  obtain ⟨hfailed, hlimit⟩ := hmarks
  have hexec : exec (.stallLimit k cause) s = .next (wrap s (y.setWithdraw (2 ^ causeStall))) := by
    rw [exec_stallLimit, act_up (by simp [hk, hcause]) hu, hrun]
  refine ⟨_, hexec, hfailed, hlimit, ?_, htimedOut, hrejoin, ?_⟩
  · rw [withdraw_wrap, hwithdraw, ← hy, ← hx]
    rfl
  · rw [mem_wrap, hmem, ← hy, ← hx]
    exact List.mem_map.2 ⟨w, List.mem_of_find?_eq_some hfind, if_pos rfl⟩

end StallLimit

/-! The flash controllers. -/

theorem flc_setFlc (s : State) (c : Nat) (v : Flash) : (s.setFlc c v).flc c = v := get_set_same _ _ _ _

/-- The hourly counts of the window once 64 KiB more have been programmed. -/
def hoursProgrammed : List Nat → List Nat
  | [] => [65536]
  | h :: hs => (h + 65536) :: hs

/-- A controller once it has programmed the oldest bolt of its buffer. -/
def flashProgrammed (v : Flash) (rest : List Nat) (lost : Nat) : Flash :=
  { v with buffer := rest, hours := hoursProgrammed v.hours, spareGiB := v.spareGiB - lost }

/-- The registers that show a controller's programs. -/
def programRegs (c : Nat) : List (FieldName × Nat) := [(.FLC_WRITES, c), (.FLC_BUDGET_WRITTEN, c), (.FLC_STATUS_BUDGET_HIT, c)]

theorem exec_flashProgram_programs {s : State} {c lost x : Nat} {rest : List Nat} (hu : s.up) (hc : c < 2)
    (hbuffer : (s.flc c).buffer = x :: rest) (hspare : 64 ≤ (s.flc c).spareGiB - lost) :
    ∃ t, exec (.flashProgram c lost) s = .next t ∧ t.flc c = flashProgrammed (s.flc c) rest lost ∧
      t.f .FLC_WRITES c = satAdd (s.f .FLC_WRITES c) 1 ∧
      t.f .FLC_BUDGET_WRITTEN c = ((hoursProgrammed (s.flc c).hours).foldl (· + ·) 0 / 2 ^ 30) % 2 ^ 24 ∧
      t = { s with out := [], regs := t.regs, mem := { s.mem with flash := t.mem.flash } } ∧
      SameRegs s t (programRegs c) := by
  have hbuffer' : ((fresh s).flc c).buffer = x :: rest := hbuffer
  let written : State := ((fresh s).setFlc c (flashProgrammed (s.flc c) rest lost)).tally .FLC_WRITES c 1
  let shown : State := written.showBudget c
  generalize hhit : (if shown.overBudget c then shown.raise .FLC_STATUS_BUDGET_HIT c else shown) = t
  have hrest : t = { shown with regs := t.regs } := by
    rw [← hhit]
    split <;> rfl
  have hf {n : FieldName} (hn : n ≠ .FLC_STATUS_BUDGET_HIT) (i : Nat) : t.f n i = shown.f n i := by
    rw [← hhit]
    split
    · rw [raise_eq, f_setF, if_neg (fun h => hn h.1.symm)]
    · rfl
  have hflc : t.flc c = flashProgrammed (s.flc c) rest lost := by
    rw [hrest]
    exact flc_setFlc (fresh s) c _
  have hrun : flashProgram c lost (fresh s) = t := by
    have hkept : (if (t.flc c).spareGiB < 64 then t.withdrawSlots c else t) = t := by
      rw [hflc]
      exact if_neg (Nat.not_lt.2 hspare)
    unfold flashProgram
    rw [hbuffer', ← hkept, ← hhit]
    rfl
  have hexec : exec (.flashProgram c lost) s = .next (wrap s t) := by
    rw [exec_flashProgram, act_up (by simpa using hc) hu, hrun]
  refine ⟨_, hexec, hflc, ?_, ?_, ?_, ?_⟩
  · rw [f_read_wrap, hf (by decide)]
    exact (f_setF written .FLC_BUDGET_WRITTEN c _ _ c).trans (f_tally_same _ c 1 rfl)
  · have hhours : (written.flc c).hours = hoursProgrammed (s.flc c).hours :=
      congrArg Flash.hours (flc_setFlc (fresh s) c _)
    rw [f_read_wrap, hf (by decide), ← hhours]
    exact f_setF_same written .FLC_BUDGET_WRITTEN c _
  · rw [hrest]
    rfl
  · have hshown : SameRegs s shown (programRegs c) :=
      Proofs.sameRegs_setF (Proofs.sameRegs_setF (s := s) (sameRegs_refl _ _) _ (by simp [programRegs])) _ (by simp [programRegs])
    rw [← hhit]
    split
    · exact Proofs.sameRegs_setF (n := .FLC_STATUS_BUDGET_HIT) (i := c) hshown 1 (by simp [programRegs])
    · exact hshown

theorem exec_flashBudgetHour_moves {s : State} {c : Nat} (hu : s.up) (hc : c < 2) :
    ∃ t, exec (.flashBudgetHour c) s = .next t ∧ t.flc c = { s.flc c with hours := 0 :: (s.flc c).hours.take 23 } ∧
      t = { s with out := [], regs := t.regs, mem := { s.mem with flash := t.mem.flash } } ∧
      SameRegs s t [(.FLC_BUDGET_WRITTEN, c)] := by
  have hexec : exec (.flashBudgetHour c) s = .next (wrap s (flashBudgetHour c (fresh s))) := by
    rw [exec_flashBudgetHour, act_up (by simpa using hc) hu]
  refine ⟨_, hexec, flc_setFlc (fresh s) c _, rfl, ?_⟩
  exact Proofs.sameRegs_setF (s := s) (n := .FLC_BUDGET_WRITTEN) (i := c) (Proofs.sameRegs_refl s _) _ (by simp)

/-! The T3 window. -/

/-- A whole write of a register of the tier block, whose fields are all RW, outside a transaction: the write, noted. -/
theorem writeReg_tier (s : State) {u o : Nat} (off v : Nat) (htxn : s.txnOpen 0 = false) {n : FieldName}
    (hfield : fieldsAt .tier u o = [(n, u)]) (hrw : (fieldDesc n).access = .RW) :
    s.writeReg 0 .tier u o off 8 v = (s.writeRw 0 .tier u o v).noteWrite allFns false (off - off % 8) := by
  have hcmd (t : State) (w : Nat) (whole : Bool) : t.command 0 .tier u o w whole = t := rfl
  have hmay : s.mayWrite 0 .tier o v = true := rfl
  have hany : (fieldsAt .tier u o).any (fun p => (fieldDesc p.1).access = .RW) = true := by simp [hfield, hrw]
  have hw1c : ∀ p ∈ fieldsAt .tier u o, (fieldDesc p.1).access ≠ .W1C := by simp [hfield, hrw]
  simp only [State.writeReg, htxn, hmay, hany, hcmd, Bool.false_and, Bool.not_true, Bool.false_eq_true, if_true, if_false]
  exact clearWritten_of_noW1C _ _ _ hw1c

/-- The field of the T3 window that a write reaches, and what it takes of the word written. -/
def t3Field (size : Bool) : FieldName := if size then .TIER_T3_SIZE_BOLTS else .TIER_T3_BASE_BASE

/-- What that field takes of the word written. -/
def t3Value (size : Bool) (v : Nat) : Nat := if size then v else v / 65536

theorem registerWrite_t3 {s : State} {size : Bool} (v : Nat) (hunused : s.t3Used = false) (htxn : s.txnOpen 0 = false)
    (hserved : s.served 0 (.reg .tier 0 (if size then 0x10 else 0x8)) = true) :
    registerWrite 0 (if size then 0x9010 else 0x9008) 8 v s =
      (s.setF (t3Field size) 0 (t3Value size v)).noteWrite allFns false (if size then 0x9010 else 0x9008) := by
  cases size with
  | true =>
    refine (registerWrite_reg (b := .tier) (u := 0) (o := 0x10) v rfl (by decide) rfl hserved).trans ?_
    rw [writeReg_tier s _ v htxn (n := .TIER_T3_SIZE_BOLTS) (by decide +kernel) rfl]
    have hwrite : s.writeRw 0 .tier 0 0x10 v = tierT3Write true v s := rfl
    rw [hwrite, tierT3Write, if_neg (by simp [hunused])]
    rfl
  | false =>
    refine (registerWrite_reg (b := .tier) (u := 0) (o := 0x8) v rfl (by decide) rfl hserved).trans ?_
    rw [writeReg_tier s _ v htxn (n := .TIER_T3_BASE_BASE) (by decide +kernel) rfl]
    have hwrite : s.writeRw 0 .tier 0 0x8 v = tierT3Write false v s := rfl
    rw [hwrite, tierT3Write, if_neg (by simp [hunused])]
    rfl

theorem exec_tierT3Write_takes {s : State} {size : Bool} {v : Nat} (hu : s.up) (hv : v < 2 ^ 64) (hunused : s.t3Used = false)
    (htxn : s.txnOpen 0 = false) (hserved : s.served 0 (.reg .tier 0 (if size then 0x10 else 0x8)) = true) :
    ∃ t, exec (.tierT3Write size v) s = .next t ∧
      t.f (t3Field size) 0 = t3Value size v % 2 ^ (fieldDesc (t3Field size)).width ∧ SameRegs s t [(t3Field size, 0)] ∧
      t = { s with out := [], regs := t.regs, txns := t.txns } := by
  have hrun := registerWrite_t3 (s := fresh s) (size := size) v hunused htxn hserved
  have hnote := noteWrite_txns ((fresh s).setF (t3Field size) 0 (t3Value size v)) allFns false
    (if size then 0x9010 else 0x9008)
  rw [← hrun] at hnote
  refine ⟨_, by rw [exec_tierT3Write, act_up (by simpa using hv) hu], ?_, ?_, ?_⟩
  · rw [f_read_wrap, hnote]
    exact f_setF_same (fresh s) _ _ _
  · rw [hnote]
    exact Proofs.sameRegs_setF (s := s) (n := t3Field size) (i := 0) (Proofs.sameRegs_refl s _) _ (by simp)
  · rw [hnote]
    rfl

/-- Settles O46: waits past the limit, a program, an hour of the budget's window, and a write of the T3 window. -/
theorem stallLimitsFlashAndHostWindow : Obligations.StallLimitsFlashAndHostWindow := by
  refine ⟨fun s k cause w hu hk hcause hfind hstarted hlatched =>
      exec_stallLimit_breaks hu hk hcause hfind hstarted hlatched,
    fun s k cause w hu hk hcause hfind hstarted hlatched hstuck =>
      exec_stallLimit_stuck hu hk hcause hfind hstarted hlatched hstuck,
    fun s c lost x rest hu hc hbuffer hspare => exec_flashProgram_programs hu hc hbuffer hspare,
    fun s c hu hc => exec_flashBudgetHour_moves hu hc, fun s size v hu hv hunused htxn hserved => ?_⟩
  obtain ⟨t, hrun, hfield, hregs, hrest⟩ := exec_tierT3Write_takes hu hv hunused htxn hserved
  refine ⟨t, hrun, ?_, ?_, hrest⟩
  · rintro rfl
    exact ⟨hfield, hregs⟩
  · rintro rfl
    exact ⟨hfield.trans (Nat.mod_eq_of_lt (by simp only [t3Value, t3Field]; change v / 65536 < 2 ^ 48; omega)), hregs⟩

end Sys2Proof.Proofs
end

section
/-! The clauses of O45: translation buffers follow the directory (R265, R270, R295 to R297). -/

namespace Sys2Proof.Proofs

open Sys2Proof.Machine Sys2Proof.Laws

/-! A lookup of the directory. -/

/-- The register fields that a lookup of the directory can count in. -/
def lookupFields : List FieldName := [.DIR_HIT, .DIR_MISS, .BASE_HIT, .BASE_MISS, .BASE_DALU_DROP]

/-- Two states that differ by lookups of the directory: the caches, the use counter and what counts them. -/
def LookedUp (s t : State) : Prop :=
  t = { s with
    regs := t.regs
    mem := { s.mem with
      dirCache := t.mem.dirCache, cache := t.mem.cache, plru := t.mem.plru, tick := t.mem.tick } } ∧
    ∀ n i, n ∉ lookupFields → t.f n i = s.f n i

theorem lookup_lookedUp (s : State) (b : Nat) : LookedUp s (s.lookup b) := by
  have hcached {t u : State} (h : LookedUp s t) (hc : Cached t u) : LookedUp s u := by
    refine ⟨by rw [hc.1, h.1], fun n i hn => (hc.2 n i (fun hm => hn ?_)).trans (h.2 n i hn)⟩
    simp only [cacheFields, List.mem_cons, List.not_mem_nil, or_false] at hm
    rcases hm with rfl | rfl | rfl <;> decide
  have htally (t : State) (h : t = { s with mem := { s.mem with dirCache := t.mem.dirCache } }) {n : FieldName}
      (hn : n ∈ lookupFields) (i : Nat) : LookedUp s (t.tally n i 1) := by
    refine ⟨by rw [h]; rfl, fun m j hm => ?_⟩
    rw [tally_eq, f_setF, if_neg (by rintro ⟨rfl, -⟩; exact hm hn), h]
    rfl
  unfold State.lookup
  extract_lets hub key l l' src t p
  have ht : LookedUp s t := hcached (htally (s.setMem _) rfl (n := .DIR_MISS) (by decide) hub) (Cached.refl _).use
  clear_value t
  split
  · exact htally s rfl (n := .DIR_HIT) (by decide) hub
  · split
    · exact ht
    · exact hcached ht ((Cached.refl t).cacheAccess _ _ _ _ _ _ _)

namespace LookedUp

variable {s t : State} (h : LookedUp s t)
include h

theorem mem_eq : t.mem = { s.mem with
    dirCache := t.mem.dirCache, cache := t.mem.cache, plru := t.mem.plru, tick := t.mem.tick } := by
  rw [h.1]

theorem dirE_eq (b : Nat) : t.dirE b = s.dirE b := by rw [h.1]; rfl

theorem holder_eq (j : Nat) : t.holder j = s.holder j := by rw [h.1]; rfl

theorem desc_eq (k lo w : Nat) : t.desc k lo w = s.desc k lo w := desc_congr (by rw [h.1]) k lo w

theorem shareAllows_eq (e : DirEntry) (k : Nat) (write : Bool) : t.shareAllows e k write = s.shareAllows e k write := by
  simp only [State.shareAllows, h.desc_eq]

theorem serve_eq (b : Nat) (allow : DirEntry → Bool) : t.serve b allow = s.serve b allow := by
  have hmove : t.moveOf b = s.moveOf b := by rw [h.1]; rfl
  have hzeroing (e : DirEntry) : t.homeZeroing e = s.homeZeroing e := by rw [h.1]; rfl
  simp only [State.serve, h.dirE_eq, hmove, hzeroing]

end LookedUp

theorem boltOk_of_lt {b : Nat} (h : b < 2 ^ 27) : boltOk b = true := decide_eq_true h

theorem holderOk_of_lt {h : Nat} (hh : h < 86) : holderOk h = true := decide_eq_true hh

/-! DIR_NOTICE. -/

/-- An entry of an earlier generation of bolt `b` takes the notice's generation and the directory's home. -/
def noticed (s : State) (b gen : Nat) (p : Nat × Trans) : Nat × Trans :=
  if p.1 = b && isEarlier 16 p.2.generation gen then
    (p.1, { p.2 with generation := gen, home := (s.dirE b).home, tier := (s.dirE b).tier }) else p

/-- The entries of a buffer after a notice. -/
def noticedEntries (s : State) (b gen : Nat) (freed : Bool) (l : List (Nat × Trans)) : List (Nat × Trans) :=
  (l.filter (fun p => !(p.1 = b && freed && isEarlier 16 p.2.generation gen))).map (noticed s b gen)

theorem noticed_fst (s : State) (b gen : Nat) (p : Nat × Trans) : (noticed s b gen p).1 = p.1 := by
  unfold noticed
  split <;> rfl

theorem noticed_current (s : State) (b gen : Nat) {p : Nat × Trans} (hp : p.1 = b) :
    isEarlier 16 (noticed s b gen p).2.generation gen = false := by
  unfold noticed
  split
  case isTrue => exact isLater_self 16 gen
  case isFalse h => simpa [hp] using h

theorem mem_noticedEntries_other (s : State) (b gen : Nat) (freed : Bool) (l : List (Nat × Trans)) {p : Nat × Trans}
    (hp : p.1 ≠ b) : p ∈ noticedEntries s b gen freed l ↔ p ∈ l := by
  have hsame (q : Nat × Trans) (hq : q.1 ≠ b) : noticed s b gen q = q := if_neg (by simp [hq])
  simp only [noticedEntries, List.mem_map, List.mem_filter]
  constructor
  · rintro ⟨q, ⟨hq, -⟩, rfl⟩
    rw [noticed_fst] at hp
    rw [hsame q hp]
    exact hq
  · exact fun h => ⟨p, ⟨h, by simp [hp]⟩, hsame p hp⟩

/-- A buffer after a notice. -/
def noticedHolder (s : State) (b gen : Nat) (freed : Bool) (v : Holder) : Holder :=
  { v with entries := noticedEntries s b gen freed v.entries, noticed := FMap.set none v.noticed b (some gen) }

theorem exec_dirNotice_follows {s : State} {h b gen : Nat} {freed : Bool} (hu : s.up) (hh : h < 86) (hb : b < 2 ^ 27)
    (hgen : gen < 65536) (hreset : h < 48 → s.regionInReset h = false) :
    ∃ t, exec (.dirNotice h b gen freed) s = .next t ∧ FMap.get none (t.holder h).noticed b = some gen ∧
      (∀ p ∈ (t.holder h).entries, p.1 = b → isEarlier 16 p.2.generation gen = false) ∧
      (∀ p, p.1 ≠ b → (p ∈ (t.holder h).entries ↔ p ∈ (s.holder h).entries)) ∧
      (t.holder h).stopped = (s.holder h).stopped ∧ (∀ j, j ≠ h → t.holder j = s.holder j) ∧
      t = { s with out := [], mem := { s.mem with holders := t.mem.holders } } := by
  have hrun : dirNotice h b gen freed (fresh s) = (fresh s).setHolder h (noticedHolder s b gen freed (s.holder h)) := by
    have hreset' : (decide (h < 48) && (fresh s).regionInReset h) = false := by
      by_cases hr : h < 48
      · rw [show (fresh s).regionInReset h = s.regionInReset h from rfl, hreset hr, Bool.and_false]
      · simp [hr]
    rw [dirNotice, if_neg (by simp [hreset'])]
    rfl
  have hexec : exec (.dirNotice h b gen freed) s =
      .next (wrap s ((fresh s).setHolder h (noticedHolder s b gen freed (s.holder h)))) := by
    rw [exec_dirNotice, act_up (by simp [holderOk_of_lt hh, boltOk_of_lt hb, hgen]) hu, hrun]
  have hholder (j : Nat) : (wrap s ((fresh s).setHolder h (noticedHolder s b gen freed (s.holder h)))).holder j =
      if h = j then noticedHolder s b gen freed (s.holder h) else s.holder j :=
    get_set _ _ _ _ _
  refine ⟨_, hexec, ?_, ?_, ?_, ?_, fun j hj => by rw [hholder, if_neg (Ne.symm hj)], rfl⟩
  · rw [hholder, if_pos rfl]
    exact get_set_same none _ _ (some gen)
  · rw [hholder, if_pos rfl]
    intro p hp hpb
    obtain ⟨q, -, rfl⟩ := List.mem_map.1 hp
    exact noticed_current s b gen ((noticed_fst s b gen q).symm.trans hpb)
  · rw [hholder, if_pos rfl]
    exact fun p hp => mem_noticedEntries_other s b gen freed _ hp
  · rw [hholder, if_pos rfl]
    rfl

/-! TRANSLATION_FILL. -/

theorem exec_translationFill_fills {s : State} {h b k : Nat} {write : Bool} {ti loc owner : Nat} (hu : s.up) (hh : h < 86)
    (hb : b < 2 ^ 27) (hk : k < 65536) (hserve : s.serve b (fun x => s.shareAllows x k write) = .at ti loc owner)
    (hcurrent : ∀ g, FMap.get none (s.holder h).noticed b = some g → isEarlier 16 (s.dirE b).generation g = false) :
    ∃ t, exec (.translationFill b h k write) s = .next t ∧
      (b, ⟨ti, loc, (s.dirE b).share, owner, (s.dirE b).generation⟩) ∈ (t.holder h).entries ∧
      (∀ j, j ≠ h → t.holder j = s.holder j) ∧ t.mem.dir = s.mem.dir ∧ t.mem.st = s.mem.st ∧
      t = { s with out := [], mem := t.mem, regs := t.regs } := by
  have hlooked : LookedUp (fresh s) ((fresh s).lookup b) := lookup_lookedUp _ b
  generalize hx : (fresh s).lookup b = x at hlooked
  have hserve' : x.serve b (fun e => x.shareAllows e k write) = .at ti loc owner := by
    simp only [hlooked.shareAllows_eq, hlooked.serve_eq]
    exact hserve
  have hentry : x.dirE b = s.dirE b := hlooked.dirE_eq b
  have hholder : x.holder h = s.holder h := hlooked.holder_eq h
  obtain ⟨rest, hrun⟩ : ∃ rest, translationFill b h k write (fresh s) = (x.setHolder h { s.holder h with
      entries := rest ++ [(b, ⟨ti, loc, (s.dirE b).share, owner, (s.dirE b).generation⟩)] }).use := by
    unfold translationFill
    rw [hx]
    dsimp only
    rw [hserve', hentry, hholder]
    dsimp only
    rw [if_neg]
    · exact ⟨_, rfl⟩
    · cases hg : FMap.get none (s.holder h).noticed b with
      | none => simp
      | some g => simpa using hcurrent g hg
  have hexec : exec (.translationFill b h k write) s = .next (wrap s (translationFill b h k write (fresh s))) := by
    rw [exec_translationFill, act_up (by simp [holderOk_of_lt hh, boltOk_of_lt hb, hk]) hu]
  have hnew (j : Nat) (v : Holder) : (wrap s (x.setHolder h v).use).holder j = if h = j then v else x.holder j :=
    get_set _ _ _ _ _
  rw [hrun] at hexec
  refine ⟨_, hexec, ?_, fun j hj => ?_, ?_, ?_, ?_⟩
  · rw [hnew, if_pos rfl]
    exact List.mem_append_right _ List.mem_cons_self
  · rw [hnew, if_neg (Ne.symm hj)]
    exact hlooked.holder_eq j
  · show x.mem.dir = s.mem.dir
    rw [hlooked.mem_eq]
    rfl
  · show x.mem.st = s.mem.st
    rw [hlooked.mem_eq]
    rfl
  · rw [hlooked.1]
    rfl

/-! DIR_SCRUB. -/

theorem current_of_not_lagging {s : State} {b g : Nat} (h : s.lagging b g = false) : let cur := (s.dirE b).generation
    g = cur ∨ (isEarlier 16 g cur = true ∧ (cur + 65536 - g) % 65536 < 2 ^ 14) := by
  intro cur
  by_cases hg : g = cur
  · exact .inl hg
  · right
    simpa [State.lagging, cur, hg] using h

theorem lagging_self (s : State) (b : Nat) : s.lagging b (s.dirE b).generation = false := by simp [State.lagging]

theorem lagging_reResolve (s : State) (q : TierReq) : s.lagging (s.reResolve q).bolt (s.reResolve q).gen = false := by
  unfold State.reResolve
  split
  case isTrue => exact lagging_self s q.bolt
  case isFalse h => simpa using h

theorem lagging_reHeld (s : State) (b : Nat) (r : HeldReq) : s.lagging b (s.reHeld b r).gen = false := by
  unfold State.reHeld
  dsimp only
  split
  case isTrue => exact lagging_self s b
  case isFalse h => simpa using h

/-- The memory after a pass of the scrubber. -/
def scrubbed (s : State) : Mem :=
  { s.mem with
    holders := (s.mem.holders.map (fun p =>
      (p.1, { p.2 with entries := p.2.entries.filter (fun x => !s.lagging x.1 x.2.generation) }))).filter (fun p => p.2 ≠ {})
    tierQ := s.mem.tierQ.map s.reResolve
    tierWait := s.mem.tierWait.map s.reResolve
    moves := s.mem.moves.map (fun p => (p.1, p.2.map (fun m => { m with held := m.held.map (s.reHeld p.1) }))) }

/-- A pass counts what it rewrites, and itself at every hub. -/
theorem dirScrub_eq (s : State) : ∃ fixed : List Nat, dirScrub s =
    (List.range 4).foldl (fun t h => t.tally .DIR_SCRUB_PASS h 1)
      (fixed.foldl (fun t b => t.tally .DIR_SCRUB_FIX (hubOf b) 1) (s.setMem (scrubbed s))) := by
  unfold dirScrub
  extract_lets hits waits helds
  exact ⟨hits ++ waits ++ helds, rfl⟩

theorem foldl_tally_rest {α : Type} (n : FieldName) (unit : α → Nat) (l : List α) (s : State) :
    l.foldl (fun t x => t.tally n (unit x) 1) s = { s with regs := (l.foldl (fun t x => t.tally n (unit x) 1) s).regs } :=
  List.foldlRecOn (motive := fun t : State => t = { s with regs := t.regs }) _ _ rfl (fun t ht x _ => by rw [ht]; rfl)

theorem foldl_tally_other {α : Type} {n m : FieldName} (hm : m ≠ n) (unit : α → Nat) (l : List α) (s : State) (i : Nat) :
    (l.foldl (fun t x => t.tally n (unit x) 1) s).f m i = s.f m i :=
  foldl_f _ _ m i (fun t x => by rw [tally_eq, f_setF, if_neg (fun h => hm h.1.symm)]) s

theorem scrubPass_counts (s : State) {h : Nat} (hh : h < 4) :
    ((List.range 4).foldl (fun t h => t.tally .DIR_SCRUB_PASS h 1) s).f .DIR_SCRUB_PASS h =
      satAdd (s.f .DIR_SCRUB_PASS h) 1 := by
  have hstep (t : State) (i j : Nat) : (t.tally .DIR_SCRUB_PASS i 1).f .DIR_SCRUB_PASS j =
      if i = j then satAdd (t.f .DIR_SCRUB_PASS i) 1 else t.f .DIR_SCRUB_PASS j := by
    split
    case isTrue hij => rw [← hij, f_tally_same _ _ _ rfl]
    case isFalse hij => rw [tally_eq, f_setF, if_neg (fun h => hij h.2)]
  interval_cases h <;> simp [List.range_succ, hstep, -tally_eq]

theorem exec_dirScrub_scrubs {s : State} (hu : s.up) : ∃ t, exec .dirScrub s = .next t ∧
    (∀ p ∈ t.mem.holders, ∀ x ∈ p.2.entries, let cur := (s.dirE x.1).generation
      x.2.generation = cur ∨ (isEarlier 16 x.2.generation cur = true ∧ (cur + 65536 - x.2.generation) % 65536 < 2 ^ 14)) ∧
    (∀ q ∈ t.mem.tierQ ++ t.mem.tierWait, s.lagging q.bolt q.gen = false) ∧
    (∀ p ∈ t.mem.moves, ∀ m, p.2 = some m → ∀ h ∈ m.held, s.lagging p.1 h.gen = false) ∧
    (∀ h, h < 4 → t.f .DIR_SCRUB_PASS h = satAdd (s.f .DIR_SCRUB_PASS h) 1) ∧
    t = { s with
      out := [], regs := t.regs
      mem := { s.mem with
        holders := t.mem.holders, tierQ := t.mem.tierQ, tierWait := t.mem.tierWait, moves := t.mem.moves } } ∧
    ∀ n i, n ≠ .DIR_SCRUB_PASS → n ≠ .DIR_SCRUB_FIX → t.f n i = s.f n i := by
  obtain ⟨fixed, heq⟩ := dirScrub_eq (fresh s)
  have hfixed := foldl_tally_rest .DIR_SCRUB_FIX hubOf fixed ((fresh s).setMem (scrubbed (fresh s)))
  have hfixedF {m : FieldName} (hm : m ≠ .DIR_SCRUB_FIX) (i : Nat) :=
    foldl_tally_other hm hubOf fixed ((fresh s).setMem (scrubbed (fresh s))) i
  generalize fixed.foldl (fun t b => t.tally .DIR_SCRUB_FIX (hubOf b) 1) ((fresh s).setMem (scrubbed (fresh s))) = x
    at heq hfixed hfixedF
  have hpass := foldl_tally_rest .DIR_SCRUB_PASS id (List.range 4) x
  have hpassF {m : FieldName} (hm : m ≠ .DIR_SCRUB_PASS) (i : Nat) := foldl_tally_other hm id (List.range 4) x i
  have hcount {h : Nat} (hh : h < 4) := scrubPass_counts x hh
  simp only [id_eq] at hpass hpassF
  rw [← heq] at hcount hpass
  simp only [← heq] at hpassF
  have hexec : exec .dirScrub s = .next (wrap s (dirScrub (fresh s))) := by rw [exec_dirScrub, act_up rfl hu]
  clear heq
  generalize dirScrub (fresh s) = y at hexec hcount hpass hpassF
  have hrest : y = { fresh s with regs := y.regs, mem := scrubbed s } := by
    rw [hpass, hfixed]
    rfl
  have hmem : y.mem = scrubbed s := by rw [hrest]
  refine ⟨_, hexec, ?_, ?_, ?_, ?_, ?_, ?_⟩
  · rw [mem_wrap, hmem]
    intro p hp e he
    obtain ⟨q, -, rfl⟩ := List.mem_map.1 (List.mem_filter.1 hp).1
    exact current_of_not_lagging (by simpa using (List.mem_filter.1 he).2)
  · rw [mem_wrap, hmem]
    intro q hq
    rw [scrubbed, ← List.map_append] at hq
    obtain ⟨q, -, rfl⟩ := List.mem_map.1 hq
    exact lagging_reResolve s q
  · rw [mem_wrap, hmem]
    rintro p hp m hm r hr
    obtain ⟨⟨b, o⟩, -, rfl⟩ := List.mem_map.1 hp
    obtain ⟨m, -, rfl⟩ := Option.map_eq_some_iff.1 hm
    obtain ⟨r, -, rfl⟩ := List.mem_map.1 hr
    exact lagging_reHeld s b r
  · intro h hh
    rw [f_read_wrap, hcount hh, hfixedF (by decide)]
    rfl
  · rw [hrest]
    rfl
  · intro n i hn hfix
    rw [f_read_wrap, hpassF hn, hfixedF hfix]
    rfl

/-- Settles O45: a notice, a fill and a pass of the scrubber. -/
theorem translationBuffersFollowDirectory : Obligations.TranslationBuffersFollowDirectory :=
  ⟨fun _ _ _ _ _ hu hh hb hgen hreset => exec_dirNotice_follows hu hh hb hgen hreset,
    fun _ _ _ _ _ _ _ _ hu hh hb hk hserve hcurrent => exec_translationFill_fills hu hh hb hk hserve hcurrent,
    fun _ hu => exec_dirScrub_scrubs hu⟩

end Sys2Proof.Proofs
end

section
/-! SUPPORT. The base caches (R242 to R246, R265) do not look at the output or at the queue of tier requests: a lookup, a
stream and a copy come to the same whatever stands in them. -/

namespace Sys2Proof.Proofs

open Sys2Proof.Machine Sys2Proof.Laws

/-- The state with other output and another queue of tier requests. -/
def aside (o : List Out) (q : List TierReq) (s : State) : State := { s with out := o, mem := { s.mem with tierQ := q } }

section Aside

variable (o : List Out) (q : List TierReq) (s : State)

theorem aside_cache : (aside o q s).mem.cache = s.mem.cache := rfl

theorem aside_plru : (aside o q s).mem.plru = s.mem.plru := rfl

theorem aside_keepWays (st part : Nat) : (aside o q s).keepWays st part = s.keepWays st part := rfl

theorem aside_tally (n : FieldName) (i k : Nat) : (aside o q s).tally n i k = aside o q (s.tally n i k) := rfl

theorem touchWay_aside (set w : Nat) (l : CLine) :
    touchWay (aside o q s) set w l = aside o q (touchWay s set w l) := rfl

/-- Two branches that put the same things aside. -/
theorem ite_aside {c d : Prop} [Decidable c] [Decidable d] {x y x' y' : State} (hc : c = d) (hx : x = aside o q x')
    (hy : y = aside o q y') : (if c then x else y) = aside o q (if d then x' else y') :=
  (ite_congr hc (fun _ => hx) (fun _ => hy)).trans (apply_ite (aside o q) d x' y').symm

theorem allocLine_aside (st set : Nat) (l : CLine) :
    (aside o q s).allocLine st set l = aside o q (s.allocLine st set l) := by
  unfold State.allocLine
  dsimp -zeta only [aside_cache, aside_plru, aside_keepWays]
  extract_lets lines free ordinary keeps pick
  clear_value free ordinary keeps pick
  refine ite_aside o q rfl ?_ ?_
  · cases lruKeep lines l.part <;> rfl
  · cases free
    · exact ite_aside o q rfl rfl rfl
    · rfl

theorem cacheAccess_aside (st slot granule hint uses part : Nat) (write : Bool) :
    (aside o q s).cacheAccess st slot granule hint uses part write =
      aside o q (s.cacheAccess st slot granule hint uses part write) := by
  unfold State.cacheAccess
  dsimp -zeta only [aside_cache]
  extract_lets set n hit s₁ m₁ s₂ count kind u₁ mu u₂
  have hhit : s₁ = aside o q u₁ := rfl
  have hmiss : s₂ = aside o q u₂ := rfl
  clear_value hit u₁ u₂ count kind s₁ s₂
  subst hhit hmiss
  cases hit with
  | some p =>
    dsimp -zeta only
    extract_lets k₁ a₁ b₁ c₁ k₂ a₂ b₂ c₂
    have hkeeps : k₁ = k₂ := rfl
    have hline : c₁ = c₂ := by simp only [c₁, b₁, a₁, c₂, b₂, a₂, hkeeps, aside_keepWays]
    clear_value c₁ c₂
    subst hline
    exact ite_aside o q rfl rfl rfl
  | none => exact ite_aside o q rfl rfl (ite_aside o q rfl rfl (allocLine_aside o q u₂ _ _ _))

theorem lookup_aside (b : Nat) : (aside o q s).lookup b = aside o q (s.lookup b) := by
  unfold State.lookup
  refine ite_aside o q rfl rfl ?_
  extract_lets l₁ m₁ s₁ p₁ l₂ m₂ s₂ p₂
  have hs : s₁ = aside o q s₂ := rfl
  have hp : p₁ = p₂ := rfl
  clear_value s₁ p₁
  subst hs hp
  exact ite_aside o q rfl rfl (cacheAccess_aside o q s₂ _ _ _ _ _ _ _)

theorem streamHome_aside (loc x n : Nat) (write : Bool) :
    (aside o q s).streamHome loc x n write = aside o q (s.streamHome loc x n write) := by
  unfold State.streamHome
  exact ite_aside o q rfl rfl (List.foldl_hom (aside o q) (fun u i => (cacheAccess_aside o q u _ _ _ _ _ _ _)))

theorem copyRange_aside (e : DirEntry) (x n : Nat) :
    (aside o q s).copyRange e x n = aside o q (s.copyRange e x n) := by
  have hread : (if e.tier = 1 then (aside o q s).streamHome e.home x n false else aside o q s) =
      aside o q (if e.tier = 1 then s.streamHome e.home x n false else s) :=
    ite_aside o q rfl (streamHome_aside o q s _ _ _ _) rfl
  have hwrite (u : State) : (if e.dtier = 1 then (aside o q u).streamHome e.dest x n true else aside o q u) =
      aside o q (if e.dtier = 1 then u.streamHome e.dest x n true else u) :=
    ite_aside o q rfl (streamHome_aside o q u _ _ _ _) rfl
  simp only [State.copyRange]
  rw [hread, hwrite]
  rfl

theorem copyGranules_aside (e : DirEntry) (gs : List Nat) :
    (aside o q s).copyGranules e gs = aside o q (s.copyGranules e gs) :=
  List.foldl_hom (aside o q) (fun u _ => copyRange_aside o q u e _ _)

end Aside

end Sys2Proof.Proofs
end

section
/-! SUPPORT. Rules for the tier layer (R272 to R282, R299): what is written in a bolt's entry and in its move record, how
pending work of one bolt is woken, and what the ends of waits and the posting of results leave alone. -/

namespace Sys2Proof.Proofs

open Sys2Proof.Machine Sys2Proof.Laws

/-! Entries and move records. -/

theorem dirE_setDir (s : State) (b : Nat) (e : DirEntry) (c : Nat) :
    (s.setDir b e).dirE c = if b = c then e else s.dirE c := get_set _ _ _ _ _

theorem moveOf_setMove (s : State) (b : Nat) (m : Option MoveRec) (c : Nat) :
    (s.setMove b m).moveOf c = if b = c then m else s.moveOf c := get_set _ _ _ _ _

theorem dirE_fresh (s : State) (b : Nat) : (fresh s).dirE b = s.dirE b := rfl

theorem moveOf_fresh (s : State) (b : Nat) : (fresh s).moveOf b = s.moveOf b := rfl

theorem dirE_wrap (s t : State) (b : Nat) : (wrap s t).dirE b = t.dirE b := rfl

theorem moveOf_wrap (s t : State) (b : Nat) : (wrap s t).moveOf b = t.moveOf b := rfl

theorem dirE_setMove (s : State) (b : Nat) (m : Option MoveRec) (c : Nat) : (s.setMove b m).dirE c = s.dirE c := rfl

/-- An advance counts the generation of bolt `b` on (R270). -/
theorem dirE_advance (s : State) (b : Nat) (freed : Bool) (c : Nat) : (s.advance b freed).dirE c =
    if b = c then { s.dirE b with generation := ((s.dirE b).generation + 1) % 65536 } else s.dirE c :=
  dirE_setDir s b _ c

theorem f_advance (s : State) (b : Nat) (freed : Bool) {n : FieldName} (i : Nat) (hn : FieldName.DIR_FLIPS ≠ n) :
    (s.advance b freed).f n i = s.f n i := (f_setF _ _ _ _ _ _).trans (if_neg (fun h => hn h.1))

theorem out_advance (s : State) (b : Nat) (freed : Bool) :
    (s.advance b freed).out = s.out ++ [.notice b (((s.dirE b).generation + 1) % 65536) freed] := rfl

theorem dirE_tally (s : State) (n : FieldName) (i k b : Nat) : (s.tally n i k).dirE b = s.dirE b := rfl

theorem dirE_use (s : State) (b : Nat) : s.use.dirE b = s.dirE b := rfl

theorem dirE_countFree (s : State) (b : Nat) : s.countFree.dirE b = s.dirE b := by
  rw [State.dirE, countFree_mem, State.dirE]

/-- What a map holds after a write is the value written or was there before. -/
theorem mem_set {α : Type} [DecidableEq α] {d : α} {m : FMap α} {k : Nat} {v : α} {p : Nat × α}
    (h : p ∈ FMap.set d m k v) : p = (k, v) ∨ p ∈ m := by
  unfold FMap.set at h
  split at h
  · exact .inr (List.mem_of_mem_filter h)
  · exact mem_insert h

/-- No eviction is pending but that of bolt `b`. -/
def PendsOnly (b : Nat) (s : State) : Prop := ∀ p ∈ s.mem.dir, p.2.pendEvict = true → p.1 = b

theorem PendsOnly.setDir {b : Nat} {s : State} (h : PendsOnly b s) (e : DirEntry) : PendsOnly b (s.setDir b e) := by
  intro p hp hpend
  rcases mem_set hp with rfl | hp
  · rfl
  · exact h p hp hpend

/-! Waits that end, and results. -/

/-- The register fields that the end of waits and the posting of a result can change. -/
def finishFields : List FieldName :=
  [.TIER_STALL_LAST_SWATCH, .TIER_STALL_LAST_CAUSE, .TIER_STALL_LAST_FAILED, .TIER_STALL_LAST_DURATION,
    .HST_INT_CAUSE_CAUSE]

/-- Two states that differ by waits that have ended and results posted. -/
structure Finished (s t : State) : Prop where
  rest : t = { s with
    regs := t.regs, out := t.out, slots := t.slots, mem := { s.mem with waiters := t.mem.waiters } }
  out : s.out ⊆ t.out
  regs : ∀ n i, n ∉ finishFields → t.f n i = s.f n i

namespace Finished

variable {s t u : State}

theorem refl (s : State) : Finished s s := ⟨rfl, List.Subset.refl _, fun _ _ _ => rfl⟩

theorem trans (h : Finished s t) (k : Finished t u) : Finished s u :=
  ⟨by rw [k.rest, h.rest], List.Subset.trans h.out k.out, fun n i hn => (k.regs n i hn).trans (h.regs n i hn)⟩

theorem foldl {α : Type} (h : Finished s t) (l : List α) {g : State → α → State}
    (hg : ∀ u a, Finished u (g u a)) : Finished s (l.foldl g t) := List.foldlRecOn _ _ h (fun u hu a _ => hu.trans (hg u a))

theorem showStall (s : State) (w : Waiter) (failed : Bool) : Finished s (s.showStall w failed) :=
  ⟨rfl, List.Subset.refl _, fun n i hn => showStall_f s w failed i (fun hm => hn (by
    simp only [List.mem_cons, List.not_mem_nil, or_false] at hm
    rcases hm with rfl | rfl | rfl | rfl <;> decide))⟩

theorem endWaits (h : Finished s t) (key : Nat) : Finished s (t.endWaits key) := by
  unfold State.endWaits
  refine (h.foldl _ (fun u w => ?_)).trans ⟨rfl, List.Subset.refl _, fun _ _ _ => rfl⟩
  split
  · exact refl u
  · exact showStall u w w.past

theorem interrupt (s : State) (fn c : Nat) : Finished s (s.interrupt fn c) where
  rest := by rw [interrupt_regsOut]
  out := by
    unfold State.interrupt
    split
    · exact fun m hm => sendCause_keeps_out _ fn c hm
    · exact List.Subset.refl _
  regs n i hn := interrupt_f s fn c n i (by rintro rfl; exact hn (by decide))

theorem tierResult (h : Finished s t) (q : TierReq) (status entry : Nat) : Finished s (t.tierResult q status entry) := by
  have hpost (part slot : Nat) (r : Result) :
      Finished t { t with slots := FMap.set {} t.slots (4096 * part + slot) ⟨true, some r.bits⟩ } :=
    ⟨rfl, List.Subset.refl _, fun _ _ _ => rfl⟩
  unfold State.tierResult State.post
  split
  · exact h
  · dsimp only
    split
    · exact (h.trans (hpost _ _ _)).trans ((interrupt _ 0 0).trans (interrupt _ _ 0))
    · exact h.trans (hpost _ _ _)

theorem heldFail (h : Finished s t) (r : HeldReq) : Finished s (t.heldFail r) := by
  unfold State.heldFail
  split
  · exact h
  · exact (h.endWaits _).tierResult _ _ _

/-- A wait that is recorded leaves the same as waits that end. -/
theorem waitOn (s : State) (k cause key : Nat) : Finished s (s.waitOn k cause key) := by
  unfold State.waitOn State.waitAs
  split
  · exact refl s
  · exact ⟨rfl, List.Subset.refl _, fun _ _ _ => rfl⟩

/-! What stays. -/

variable (h : Finished s t)
include h

theorem dirE_eq (c : Nat) : t.dirE c = s.dirE c := by rw [h.rest]; rfl

theorem moveOf_eq (c : Nat) : t.moveOf c = s.moveOf c := by rw [h.rest]; rfl

theorem mem_eq : t.mem = { s.mem with waiters := t.mem.waiters } := by rw [h.rest]

end Finished

/-! Pending work of a bolt (R272, R276). -/

/-- Nothing pending of bolt `b` can go on: its entry is not HOME, it is pinned, or nothing is pending. -/
def Settles (b : Nat) (s : State) : Prop :=
  (s.dirE b).state ≠ 1 ∨ (s.dirE b).pins ≠ 0 ∨ ((s.dirE b).pendFree = false ∧ (s.dirE b).pendEvict = false)

theorem settleBolt_settled {b : Nat} {s : State} (h : Settles b s) : s.settleBolt b = s := by
  unfold State.settleBolt
  rcases h with h | h | ⟨hfree, hevict⟩
  · simp [h]
  · simp [h]
  · simp [hfree, hevict]

/-- A move that held no request ends without more work where nothing pending can go on. -/
theorem afterMove_settled {b : Nat} {s : State} (h : Settles b s) : s.afterMove b [] = s := by
  unfold State.afterMove
  dsimp only [List.foldl_nil]
  rw [ite_self]
  exact settleBolt_settled h

/-- The tier queues once what waits on bolts of bolt `b`'s hub is back in front. -/
def wokenMem (s : State) (b : Nat) : Mem :=
  { s.mem with
    tierQ := s.mem.tierWait.filter (fun q => hubOf (trFirst q.bits + q.done) = hubOf b) ++ s.mem.tierQ
    tierWait := s.mem.tierWait.filter (fun q => !decide (hubOf (trFirst q.bits + q.done) = hubOf b)) }

/-- Where no other bolt has an eviction pending and nothing of bolt `b` can go on, waking its hub moves requests alone. -/
theorem wake_settled {b : Nat} {s : State} (hpends : PendsOnly b s) (h : Settles b s) :
    s.wake b = s.setMem (wokenMem s b) := by
  unfold State.wake
  dsimp only
  refine List.foldlRecOn (motive := fun t => t = s.setMem (wokenMem s b)) _ _ rfl (fun t ht c hc => ?_)
  obtain ⟨p, hp, rfl⟩ := List.mem_map.1 hc
  obtain ⟨hp, hsel⟩ := List.mem_filter.1 hp
  have hb : p.1 = b := hpends p hp (by simpa using (Bool.and_eq_true_iff.1 (Bool.and_eq_true_iff.1 hsel).1).2)
  rw [ht, hb]
  exact settleBolt_settled h

/-! Locations freed. -/

theorem freeLoc_rest (s : State) (t loc : Nat) : ∃ st cache flash,
    s.freeLoc t loc = s.setMem { s.mem with st := st, cache := cache, flash := flash } := by
  unfold State.freeLoc
  split
  · exact ⟨_, _, _, rfl⟩
  · split
    · exact ⟨_, _, _, rfl⟩
    · exact ⟨s.mem.st, s.mem.cache, s.mem.flash, rfl⟩

/-- The entry of a bolt freed (R276). -/
def freedEntry (e : DirEntry) : DirEntry :=
  { e with state := 0, pendFree := false, pendEvict := false, generation := (e.generation + 1) % 65536 }

/-- Bolt `b` has been freed: its entry, its move record, the notice, and what stays. -/
structure BoltFreed (b : Nat) (s t : State) : Prop where
  entry : t.dirE b = freedEntry (s.dirE b)
  others : ∀ c, c ≠ b → t.dirE c = s.dirE c
  move : t.moveOf b = none
  queue : t.mem.tierQ = s.mem.tierQ
  notice : Out.notice b (((s.dirE b).generation + 1) % 65536) true ∈ t.out
  pends : PendsOnly b s → PendsOnly b t

theorem BoltFreed.finished {b : Nat} {s t u : State} (h : BoltFreed b s t) (k : Finished t u) : BoltFreed b s u where
  entry := (k.dirE_eq b).trans h.entry
  others c hc := (k.dirE_eq c).trans (h.others c hc)
  move := (k.moveOf_eq b).trans h.move
  queue := by rw [k.mem_eq]; exact h.queue
  notice := k.out h.notice
  pends hp := by
    unfold PendsOnly
    rw [k.mem_eq]
    exact h.pends hp

theorem freeBolt_freed (s : State) (b : Nat) : BoltFreed b s (s.freeBolt b) := by
  unfold State.freeBolt
  extract_lets e held a g f d y x
  have hg : g = ((s.dirE b).generation + 1) % 65536 := congrArg DirEntry.generation (get_set_same _ _ _ _)
  have hadir (c : Nat) (hc : c ≠ b) : a.dirE c = s.dirE c := (dirE_setDir s b _ c).trans (if_neg (Ne.symm hc))
  have hapends : PendsOnly b s → PendsOnly b a :=
    fun h => h.setDir { s.dirE b with generation := (e.generation + 1) % 65536 }
  have haout : Out.notice b (((s.dirE b).generation + 1) % 65536) true ∈ a.out :=
    List.mem_append_right _ List.mem_cons_self
  have haqueue : a.mem.tierQ = s.mem.tierQ := rfl
  clear_value g a
  have hx : x = y.setDir b (freedEntry (s.dirE b)) := by
    simp only [x, hg]
    rfl
  obtain ⟨st, cache, flash, hf⟩ := freeLoc_rest a e.tier e.home
  have hydir : y.mem.dir = a.mem.dir := by simp only [y, d, f, hf]; rfl
  have hyqueue : y.mem.tierQ = a.mem.tierQ := by simp only [y, d, f, hf]; rfl
  have hyout : y.out = a.out := by simp only [y, d, f, hf]; rfl
  clear_value x y
  subst hx
  refine BoltFreed.finished ?_ ((Finished.refl _).foldl held (fun u r => (Finished.refl u).heldFail r))
  have hentry (c : Nat) : (((y.setDir b (freedEntry (s.dirE b))).setMove b none).countFree).dirE c =
      if b = c then freedEntry (s.dirE b) else a.dirE c := by
    have hya : y.dirE c = a.dirE c := by rw [State.dirE, hydir, State.dirE]
    rw [State.dirE, countFree_mem, ← hya]
    exact dirE_setDir y b _ c
  refine ⟨by rw [hentry, if_pos rfl], fun c hc => by rw [hentry, if_neg (Ne.symm hc), hadir c hc], ?_, ?_, ?_,
    fun h => ?_⟩
  · rw [State.moveOf, countFree_mem]
    exact (moveOf_setMove (y.setDir b _) b none b).trans (if_pos rfl)
  · rw [countFree_mem]
    exact hyqueue.trans haqueue
  · exact (show _ ∈ y.out from hyout ▸ haout)
  · have hypends : PendsOnly b y := fun p hp => hapends h p (hydir ▸ hp)
    unfold PendsOnly
    rw [countFree_mem]
    exact hypends.setDir _

theorem settleBolt_frees {s : State} {b : Nat} (hstate : (s.dirE b).state = 1) (hpins : (s.dirE b).pins = 0)
    (hpend : (s.dirE b).pendFree = true) (hspaced : s.spaced b = true) : s.settleBolt b = s.freeBolt b := by
  unfold State.settleBolt
  simp [hstate, hpins, hpend, hspaced]

/-! A destination reserved (R272, R282). -/

/-- The entry of a bolt whose move `m` has taken a destination. -/
def reservedEntry (s : State) (b : Nat) (m : MoveRec) (loc : Nat) : DirEntry :=
  { s.dirE b with
    state := if m.inTier || m.dtier < (s.dirE b).tier then 2 else 3
    dtier := m.dtier
    dest := loc
    mrec := firstFree ((s.mem.dir.filter (fun p => hubOf p.1 = hubOf b && 2 ≤ p.2.state)).map (fun p => p.2.mrec)) }

/-- The state once the move has taken it. -/
def reserved (s : State) (b : Nat) (m : MoveRec) (loc : Nat) : State :=
  (((s.setDir b (reservedEntry s b m loc)).setMove b
    (some { m with phase := .copy, gen := (s.dirE b).generation })).use).countFree

/-- The stack that ONE names for a bolt whose move `m` looks for a destination. -/
def moveNear (s : State) (b : Nat) (m : MoveRec) : Nat :=
  s.nearOf b (s.dirE b).owner (if m.place < 48 && m.cls = 2 then m.place else s.firstRegion (s.dirE b).owner)

theorem reserved_mem (s : State) (b : Nat) (m : MoveRec) (loc : Nat) : (reserved s b m loc).mem = { s.mem with
    dir := FMap.set {} s.mem.dir b (reservedEntry s b m loc)
    moves := FMap.set none s.mem.moves b (some { m with phase := .copy, gen := (s.dirE b).generation })
    tick := s.mem.tick + 1 } := by
  rw [reserved, countFree_mem]
  rfl

theorem reserved_dirE (s : State) (b : Nat) (m : MoveRec) (loc c : Nat) :
    (reserved s b m loc).dirE c = if b = c then reservedEntry s b m loc else s.dirE c := by
  rw [State.dirE, reserved_mem]
  exact dirE_setDir s b _ c

theorem reserved_moveOf (s : State) (b : Nat) (m : MoveRec) (loc c : Nat) : (reserved s b m loc).moveOf c =
    if b = c then some { m with phase := .copy, gen := (s.dirE b).generation } else s.moveOf c := by
  rw [State.moveOf, reserved_mem]
  exact moveOf_setMove s b _ c

section Reserve

variable {s : State} {b : Nat} {m : MoveRec} (hmove : s.moveOf b = some m) (hphase : m.phase = .reserve)
  (hpins : m.up = false → (s.dirE b).pins = 0)
include hmove hphase hpins

/-- A move that finds room takes its destination. -/
theorem moveReserve_takes {loc : Nat} (hbudget : m.dtier = 2 → m.up = false → s.overBudget (loc % 2) = false)
    (hlink : m.dtier = 3 → s.linkUp = true)
    (hzero : m.dtier = 0 → s.windowZeroing (t0Region loc) (s.dirE b).owner (65536 * t0Pos loc) = false)
    (hroom : s.usage (s.dirE b).owner m.dtier < s.quota (s.dirE b).owner m.dtier)
    (hchoose : s.choose b m.dtier (s.dirE b).owner (s.dirE b).ilv m.place (moveNear s b m) = some loc) :
    moveReserve b s = reserved s b m loc := by
  unfold moveReserve
  rw [hmove]
  dsimp -zeta only
  rw [if_neg (by simp [hphase])]
  extract_lets e k near take try1
  have hpinned : (!m.up && decide (0 < e.pins)) = false := by
    cases hup : m.up <;> simp [e, hpins, hup]
  have htry : try1 s m.dtier = reserved s b m loc := by
    have hfound : s.choose b m.dtier k e.ilv m.place near = some loc := hchoose
    have hzeroed : (decide (m.dtier = 0) && s.windowZeroing (t0Region loc) k (65536 * t0Pos loc)) = false := by
      by_cases h0 : m.dtier = 0
      · simp [k, e, hzero h0]
      · simp [h0]
    simp only [try1]
    rw [if_neg (Nat.not_le.2 hroom), hfound]
    dsimp only
    rw [if_neg (by simp [hzeroed])]
    rfl
  rw [if_neg (by simp [hpinned])]
  by_cases hdown : m.dtier = 2 ∧ m.up = false
  · obtain ⟨hflash, hup⟩ := hdown
    have hfound : s.choose b 2 k e.ilv m.place near = some loc := hflash ▸ hchoose
    have htier : s.budgetTier b k 2 loc = some 2 := by simp [State.budgetTier, hbudget hflash hup]
    rw [if_pos (by simp [hflash, hup]), hfound]
    dsimp only
    rw [hflash] at htry
    rw [htier]
    exact htry
  · rw [if_neg (by simpa using hdown), if_neg, htry]
    simpa using hlink

/-- A move whose owner's quota is used up goes on waiting (R281). -/
theorem moveReserve_waits (hlow : m.dtier < 2)
    (hfull : s.quota (s.dirE b).owner m.dtier ≤ s.usage (s.dirE b).owner m.dtier) :
    moveReserve b s = s.reserveWaits b m 3 := by
  unfold moveReserve
  rw [hmove]
  dsimp -zeta only
  rw [if_neg (by simp [hphase])]
  extract_lets e k near take try1
  have hpinned : (!m.up && decide (0 < e.pins)) = false := by
    cases hup : m.up <;> simp [e, hpins, hup]
  rw [if_neg (by simp [hpinned]), if_neg (by simp; omega), if_neg (by simp; omega)]
  simp only [try1]
  rw [if_pos hfull]

end Reserve

end Sys2Proof.Proofs
end

section
/-! The clauses of O44: the phases of a move (R268, R272 to R275, R295). -/

namespace Sys2Proof.Proofs

open Sys2Proof.Machine Sys2Proof.Laws

/-! Copies (R272). -/

/-- Two states that differ by bytes copied: the stores, the base caches and their counters. -/
def Copied (s t : State) : Prop :=
  t = { s with
    regs := t.regs
    mem := { s.mem with st := t.mem.st, cache := t.mem.cache, plru := t.mem.plru, tick := t.mem.tick } } ∧
    ∀ n i, n ∉ cacheFields → t.f n i = s.f n i

namespace Copied

variable {s t u : State}

theorem refl (s : State) : Copied s s := ⟨rfl, fun _ _ _ => rfl⟩

theorem trans (h : Copied s t) (k : Copied t u) : Copied s u :=
  ⟨by rw [k.1, h.1], fun n i hn => (k.2 n i hn).trans (h.2 n i hn)⟩

theorem of_cached (h : Cached s t) : Copied s t := ⟨by rw [h.1], h.2⟩

theorem setStores (h : Copied s t) (st : Stores) : Copied s (t.setStores st) := h.trans ⟨rfl, fun _ _ _ => rfl⟩

theorem mem_eq (h : Copied s t) :
    t.mem = { s.mem with st := t.mem.st, cache := t.mem.cache, plru := t.mem.plru, tick := t.mem.tick } := by rw [h.1]

theorem dirE_eq (h : Copied s t) (b : Nat) : t.dirE b = s.dirE b := by rw [h.1]; rfl

theorem moveOf_eq (h : Copied s t) (b : Nat) : t.moveOf b = s.moveOf b := by rw [h.1]; rfl

theorem out_eq (h : Copied s t) : t.out = s.out := by rw [h.1]

end Copied

/-- The state in which a copy's requests have passed the base caches. -/
def copyStreams (s : State) (e : DirEntry) (x n : Nat) : State :=
  let u := if e.tier = 1 then s.streamHome e.home x n false else s
  if e.dtier = 1 then u.streamHome e.dest x n true else u

theorem copyStreams_cached (s : State) (e : DirEntry) (x n : Nat) : Cached s (copyStreams s e x n) := by
  have hif {t u : State} (h : Cached s t) (k : Cached s u) (c : Prop) [Decidable c] : Cached s (if c then t else u) := by
    split
    · exact h
    · exact k
  have hread : Cached s (if e.tier = 1 then s.streamHome e.home x n false else s) :=
    hif ((Cached.refl s).streamHome _ _ _ _) (Cached.refl s) _
  exact hif (hread.streamHome _ _ _ _) hread _

theorem copyRange_copied (s : State) (e : DirEntry) (x n : Nat) : Copied s (s.copyRange e x n) :=
  (Copied.of_cached (copyStreams_cached s e x n)).setStores _

theorem copyGranules_copied (s : State) (e : DirEntry) (gs : List Nat) : Copied s (s.copyGranules e gs) :=
  List.foldlRecOn _ _ (Copied.refl s) (fun u hu _ _ => hu.trans (copyRange_copied u e _ _))

theorem ReadsAlike.placeOf_eq {s t : State} (h : ReadsAlike s t) (ti loc owner x : Nat) :
    t.placeOf ti loc owner x = s.placeOf ti loc owner x := by
  have hway : t.way = s.way := by
    funext r w
    simp only [State.way, h.ways]
  simp only [State.placeOf, State.windowAddr, State.waysOf, hway, h.t3Base]

/-- A copy out of memory in service moves the bytes. -/
theorem copyRange_st {s : State} {e : DirEntry} (hserves : e.tier = 1 → s.f .BASE_STATUS_STATE (t1Stack e.home) < 3)
    (x n : Nat) : (s.copyRange e x n).mem.st =
      s.mem.st.move (s.placeOf e.tier e.home e.owner x) (s.placeOf e.dtier e.dest e.owner x) n := by
  have halike : ReadsAlike s (copyStreams s e x n) := (copyStreams_cached s e x n).readsAlike
  have hlive : ¬(decide (e.tier = 1) &&
      decide (3 ≤ (copyStreams s e x n).f .BASE_STATUS_STATE (t1Stack e.home))) = true := by
    rw [halike.status]
    simpa using hserves
  have hst : (s.copyRange e x n).mem.st = (copyStreams s e x n).mem.st.move
      ((copyStreams s e x n).placeOf e.tier e.home e.owner x)
      ((copyStreams s e x n).placeOf e.dtier e.dest e.owner x) n :=
    if_neg hlive
  rw [hst, halike.st, halike.placeOf_eq, halike.placeOf_eq]

/-- A copy of granules after a command has begun is the copy before it, with the output put aside. -/
theorem copyGranules_fresh (s : State) (e : DirEntry) (gs : List Nat) :
    ((fresh s).copyGranules e gs).mem = (s.copyGranules e gs).mem := by
  have h : (fresh s).copyGranules e gs = aside [] s.mem.tierQ (s.copyGranules e gs) := copyGranules_aside [] _ s e gs
  rw [h]
  have hqueue : (s.copyGranules e gs).mem.tierQ = s.mem.tierQ := by rw [(copyGranules_copied s e gs).mem_eq]
  rw [← hqueue]
  rfl

/-! MOVE_RESERVE. -/

variable {s : State} {b : Nat} {m : MoveRec}

theorem exec_moveReserve_takes {loc : Nat} (hu : s.up) (hb : b < 2 ^ 27) (hmove : s.moveOf b = some m)
    (hphase : m.phase = .reserve) (hnotFlash : m.dtier ≠ 2) (hlink : m.dtier = 3 → s.linkUp = true)
    (hpins : m.up = false → (s.dirE b).pins = 0)
    (hzero : m.dtier = 0 → s.windowZeroing (t0Region loc) (s.dirE b).owner (65536 * t0Pos loc) = false)
    (hroom : s.usage (s.dirE b).owner m.dtier < s.quota (s.dirE b).owner m.dtier)
    (hchoose : s.choose b m.dtier (s.dirE b).owner (s.dirE b).ilv m.place (moveNear s b m) = some loc) :
    exec (.moveReserve b) s = .next (wrap s (reserved (fresh s) b m loc)) := by
  rw [exec_moveReserve, act_up (boltOk_of_lt hb) hu]
  exact congrArg (fun t => Host.Outcome.next (wrap s t)) (moveReserve_takes (s := fresh s) hmove hphase hpins
    (fun h => absurd h hnotFlash) hlink hzero hroom hchoose)

/-! MOVE_COPY_DONE. -/

section CopyDone

variable (hu : s.up) (hb : b < 2 ^ 27) (hmove : s.moveOf b = some m) (hfrom : (s.dirE b).tier ≠ 3)
  (hto : (s.dirE b).dtier ≠ 3)
include hu hb hmove hfrom hto

theorem exec_moveCopyDone_copies (hserves : (s.dirE b).tier = 1 → s.f .BASE_STATUS_STATE (t1Stack (s.dirE b).home) < 3)
    (hphase : m.phase = .copy) (hnotFlash : (s.dirE b).dtier ≠ 2) :
    ∃ t, exec (.moveCopyDone b []) s = .next t ∧
      t.mem.st = s.mem.st.move (s.placeOf (s.dirE b).tier (s.dirE b).home (s.dirE b).owner 0)
        (s.placeOf (s.dirE b).dtier (s.dirE b).dest (s.dirE b).owner 0) 65536 ∧
      t.moveOf b = some { m with phase := .recopy, dirty := [], passes := 0 } ∧ t.mem.dir = s.mem.dir := by
  have hcopied : Copied (fresh s) ((fresh s).copyRange (s.dirE b) 0 65536) := copyRange_copied _ _ _ _
  have hst := copyRange_st (s := fresh s) hserves 0 65536
  generalize hx : (fresh s).copyRange (s.dirE b) 0 65536 = x at hcopied hst
  have hrun : moveCopyDone b [] (fresh s) =
      (if (s.dirE b).tier = 2 then x.tally .FLC_READS ((s.dirE b).home % 2) 1 else x).setMove b
        (some { m with phase := .recopy, dirty := [], passes := 0 }) := by
    rw [← hx, moveCopyDone, moveOf_fresh, hmove]
    dsimp only [dirE_fresh]
    rw [if_neg (by simp [hphase]), if_neg (by simp [hfrom, hto]), if_neg (by simp [hnotFlash]), if_pos hphase,
      if_neg hnotFlash]
    rfl
  have hmem : (if (s.dirE b).tier = 2 then x.tally .FLC_READS ((s.dirE b).home % 2) 1 else x).mem = x.mem := by
    split <;> rfl
  refine ⟨_, by rw [exec_moveCopyDone, act_up (by simp [boltOk_of_lt hb]) hu, hrun], ?_, ?_, ?_⟩
  · exact (congrArg Mem.st hmem).trans hst
  · exact (moveOf_setMove _ b _ b).trans (if_pos rfl)
  · exact (congrArg Mem.dir hmem).trans (by rw [hcopied.mem_eq]; rfl)

theorem exec_moveCopyDone_recopies (hphase : m.phase = .recopy) :
    ∃ t, exec (.moveCopyDone b []) s = .next t ∧
      t.mem = ((s.copyGranules (s.dirE b) m.dirty).setMove b
        (some { m with dirty := [], passes := m.passes + 1 })).mem ∧
      t = { s with out := [], mem := t.mem, regs := t.regs } ∧ SameButCache s t [] := by
  have hcopied : Copied (fresh s) ((fresh s).copyGranules (s.dirE b) m.dirty) := copyGranules_copied _ _ _
  have hmem := copyGranules_fresh s (s.dirE b) m.dirty
  generalize hx : (fresh s).copyGranules (s.dirE b) m.dirty = x at hcopied hmem
  have hrun : moveCopyDone b [] (fresh s) = x.setMove b (some { m with dirty := [], passes := m.passes + 1 }) := by
    rw [← hx, moveCopyDone, moveOf_fresh, hmove]
    dsimp only [dirE_fresh]
    rw [if_neg (by simp [hphase]), if_neg (by simp [hfrom, hto]), if_neg (by simp [hphase]), if_neg (by simp [hphase])]
    rfl
  refine ⟨_, by rw [exec_moveCopyDone, act_up (by simp [boltOk_of_lt hb]) hu, hrun], ?_, ?_, fun n i hn _ => ?_⟩
  · simp only [mem_wrap, State.setMove, State.setMem, hmem]
  · rw [hcopied.1]
    rfl
  · exact hcopied.2 n i hn

end CopyDone

/-! MOVE_HOLD, MOVE_HOLD_NOTICE and HOLD_ACK. -/

theorem moveHold_holds (hmove : s.moveOf b = some m) (hphase : m.phase = .recopy)
    (hclean : m.dirty = [] ∨ 4 ≤ m.passes) (hlink : s.moveLink (s.dirE b) = true) (hspaced : s.spaced b = true) :
    moveHold b s = (s.setMove b (some { m with phase := .hold, await := List.range 86 })).emit (.holdNotice b) := by
  have hready : ¬(decide (m.phase ≠ .recopy) || !(m.dirty.isEmpty || decide (4 ≤ m.passes))) = true := by
    rcases hclean with h | h <;> simp [hphase, h]
  rw [moveHold, hmove]
  dsimp only
  rw [if_neg hready, if_neg (by simp [hlink]), if_neg (by simp [hspaced])]

theorem moveHoldNotice_stops {h : Nat} (hmove : s.moveOf b = some m) (hphase : m.phase = .hold)
    (hgoing : b ∉ (s.holder h).stopped) (hreset : h < 48 → s.regionInReset h = false) :
    moveHoldNotice h b s = s.setHolder h { s.holder h with stopped := (s.holder h).stopped ++ [b] } := by
  rw [moveHoldNotice, hmove]
  dsimp only
  rw [if_neg (by simpa [hphase] using hgoing), if_neg (by simpa using hreset)]

theorem holdAck_acknowledges {h : Nat} (hmove : s.moveOf b = some m) (hphase : m.phase = .hold)
    (hstopped : b ∈ (s.holder h).stopped) :
    holdAck b h s = s.setMove b (some { m with await := m.await.filter (fun x => x ≠ h) }) := by
  rw [holdAck, hmove]
  dsimp only
  rw [if_neg (by simpa [hphase] using hstopped)]

theorem exec_moveHold_holds (hu : s.up) (hb : b < 2 ^ 27) (hmove : s.moveOf b = some m) (hphase : m.phase = .recopy)
    (hclean : m.dirty = [] ∨ 4 ≤ m.passes) (hlink : s.moveLink (s.dirE b) = true) (hspaced : s.spaced b = true) :
    exec (.moveHold b) s = .next { s with
      out := [.holdNotice b]
      mem := { s.mem with
        moves := FMap.set none s.mem.moves b (some { m with phase := .hold, await := List.range 86 }) } } := by
  rw [exec_moveHold, act_up (boltOk_of_lt hb) hu, moveHold_holds (s := fresh s) hmove hphase hclean hlink hspaced]
  rfl

theorem exec_moveHoldNotice_stops {h : Nat} (hu : s.up) (hb : b < 2 ^ 27) (hh : h < 86) (hmove : s.moveOf b = some m)
    (hphase : m.phase = .hold) (hgoing : b ∉ (s.holder h).stopped) (hreset : h < 48 → s.regionInReset h = false) :
    exec (.moveHoldNotice h b) s = .next { s with
      out := []
      mem := { s.mem with
        holders := FMap.set {} s.mem.holders h { s.holder h with stopped := (s.holder h).stopped ++ [b] } } } := by
  rw [exec_moveHoldNotice, act_up (by simp [boltOk_of_lt hb, holderOk_of_lt hh]) hu,
    moveHoldNotice_stops (s := fresh s) hmove hphase hgoing hreset]
  rfl

theorem exec_holdAck_acknowledges {h : Nat} (hu : s.up) (hb : b < 2 ^ 27) (hh : h < 86) (hmove : s.moveOf b = some m)
    (hphase : m.phase = .hold) (hstopped : b ∈ (s.holder h).stopped) :
    exec (.holdAck b h) s = .next { s with
      out := []
      mem := { s.mem with
        moves := FMap.set none s.mem.moves b (some { m with await := m.await.filter (fun x => x ≠ h) }) } } := by
  rw [exec_holdAck, act_up (by simp [boltOk_of_lt hb, holderOk_of_lt hh]) hu,
    holdAck_acknowledges (s := fresh s) hmove hphase hstopped]
  rfl

/-! MOVE_FLIP. -/

/-- The entry of a bolt whose HOME and DEST have been swapped under generation `g` (R274). -/
def flippedEntry (e : DirEntry) (g : Nat) : DirEntry :=
  { e with home := e.dest, dest := e.home, tier := e.dtier, dtier := e.tier, flipped := true, generation := g }

/-- The entry in which HOME and DEST have been swapped, before its generation advances. -/
def swappedEntry (e : DirEntry) : DirEntry := flippedEntry e e.generation

/-- What the flip of bolt `b` makes of the state in which its last granules have been copied. -/
def flippedState (x : State) (b : Nat) (m : MoveRec) (e : DirEntry) : State :=
  let y := ((x.setDir b (swappedEntry e)).advance b false).tally .TIER_MOVES 0 1
  ((y.setMem { y.mem with holders := (y.mem.holders.map (fun p =>
    (p.1, { p.2 with stopped := p.2.stopped.filter (fun x => x ≠ b) }))).filter (fun p => p.2 ≠ {}) }).setMove b
      (some { m with phase := .flipped, dirty := [], gen := (y.dirE b).generation })).emit
        (.release b (y.dirE b).generation e.dest e.dtier)

theorem moveFlip_flips (hmove : s.moveOf b = some m) (hphase : m.phase = .hold) (hawait : m.await = [])
    (hlink : s.moveLink (s.dirE b) = true) :
    WaitsEnded (flippedState (s.copyGranules (s.dirE b) m.dirty) b m (s.dirE b)) (moveFlip b s) := by
  rw [moveFlip, hmove]
  dsimp only
  rw [if_neg (by simp [hphase, hawait]), if_neg (by simp [hlink])]
  split
  · exact (WaitsEnded.refl _).endWaits b
  · exact .refl _

theorem dirE_swappedAdvance (x : State) (e : DirEntry) (c : Nat) :
    ((x.setDir b (swappedEntry e)).advance b false).dirE c =
      if b = c then flippedEntry e ((e.generation + 1) % 65536) else x.dirE c := by
  have hswap : (x.setDir b (swappedEntry e)).dirE b = swappedEntry e := (dirE_setDir _ _ _ _).trans (if_pos rfl)
  rw [dirE_advance, hswap, dirE_setDir]
  split <;> rfl

section Flipped

variable (x : State) (e : DirEntry)

theorem dirE_flippedState (c : Nat) : (flippedState x b m e).dirE c =
    if b = c then flippedEntry e ((e.generation + 1) % 65536) else x.dirE c := by
  have hdir : (flippedState x b m e).mem.dir = ((x.setDir b (swappedEntry e)).advance b false).mem.dir := rfl
  rw [State.dirE, hdir]
  exact dirE_swappedAdvance x e c

theorem generation_swappedAdvance :
    ((((x.setDir b (swappedEntry e)).advance b false).tally .TIER_MOVES 0 1).dirE b).generation =
      (e.generation + 1) % 65536 := by
  rw [dirE_tally, dirE_swappedAdvance, if_pos rfl]
  rfl

theorem moveOf_flippedState : (flippedState x b m e).moveOf b =
    some { m with phase := .flipped, dirty := [], gen := (e.generation + 1) % 65536 } := by
  have hmoves : (flippedState x b m e).mem.moves = FMap.set none x.mem.moves b (some { m with
    phase := .flipped, dirty := []
    gen := ((((x.setDir b (swappedEntry e)).advance b false).tally .TIER_MOVES 0 1).dirE b).generation }) := rfl
  rw [State.moveOf, hmoves, get_set_same, generation_swappedAdvance]

theorem tierMoves_flippedState : (flippedState x b m e).f .TIER_MOVES 0 = satAdd (x.f .TIER_MOVES 0) 1 := by
  have hregs : (flippedState x b m e).f .TIER_MOVES 0 =
      (((x.setDir b (swappedEntry e)).advance b false).tally .TIER_MOVES 0 1).f .TIER_MOVES 0 := rfl
  rw [hregs, f_tally_same _ 0 1 rfl, f_advance _ _ _ _ (by decide)]
  rfl

theorem out_flippedState : (flippedState x b m e).out = x.out ++
    [.notice b ((e.generation + 1) % 65536) false, .release b ((e.generation + 1) % 65536) e.dest e.dtier] := by
  have hout : (flippedState x b m e).out =
      ((x.setDir b (swappedEntry e)).advance b false).out ++
        [.release b ((((x.setDir b (swappedEntry e)).advance b false).tally .TIER_MOVES 0 1).dirE b).generation
          e.dest e.dtier] := rfl
  rw [hout, out_advance, generation_swappedAdvance, dirE_setDir, if_pos rfl, List.append_assoc]
  rfl

end Flipped

theorem exec_moveFlip_flips (hu : s.up) (hb : b < 2 ^ 27) (hmove : s.moveOf b = some m) (hphase : m.phase = .hold)
    (hawait : m.await = []) (hlink : s.moveLink (s.dirE b) = true) :
    let e := s.dirE b
    let g := (e.generation + 1) % 65536
    ∃ t, exec (.moveFlip b) s = .next t ∧ t.moveOf b = some { m with phase := .flipped, dirty := [], gen := g } ∧
      t.dirE b = flippedEntry e g ∧ (∀ c, c ≠ b → t.dirE c = s.dirE c) ∧
      t.mem.st = (s.copyGranules e m.dirty).mem.st ∧ t.f .TIER_MOVES 0 = satAdd (s.f .TIER_MOVES 0) 1 ∧
      t.out = [.notice b g false, .release b g e.dest e.dtier] := by
  intro e g
  have hcopied : Copied (fresh s) ((fresh s).copyGranules e m.dirty) := copyGranules_copied _ _ _
  have hmem := copyGranules_fresh s e m.dirty
  have hended : WaitsEnded (flippedState ((fresh s).copyGranules e m.dirty) b m e) (moveFlip b (fresh s)) :=
    moveFlip_flips (s := fresh s) hmove hphase hawait hlink
  generalize (fresh s).copyGranules e m.dirty = x at hcopied hmem hended
  generalize hrun : moveFlip b (fresh s) = t at hended
  have hdir (c : Nat) : t.dirE c = if b = c then flippedEntry e g else s.dirE c := by
    rw [hended.readsAlike.dirE_eq c, dirE_flippedState, hcopied.dirE_eq, dirE_fresh]
  have hmoves : t.moveOf b = (flippedState x b m e).moveOf b := by rw [State.moveOf, hended.1, State.moveOf]
  have hout : t.out = (flippedState x b m e).out := by rw [hended.1]
  have hcount : x.f .TIER_MOVES 0 = s.f .TIER_MOVES 0 := hcopied.2 _ _ (by decide)
  have hst : t.mem.st = (flippedState x b m e).mem.st := hended.readsAlike.st
  have hexec : exec (.moveFlip b) s = .next (wrap s t) := by rw [exec_moveFlip, act_up (boltOk_of_lt hb) hu, hrun]
  refine ⟨wrap s t, hexec, ?_, ?_, fun c hc => ?_, ?_, ?_, ?_⟩
  · rw [moveOf_wrap, hmoves, moveOf_flippedState]
  · rw [dirE_wrap, hdir, if_pos rfl]
  · rw [dirE_wrap, hdir, if_neg (Ne.symm hc)]
  · rw [mem_wrap, hst, ← hmem]
    rfl
  · rw [f_read_wrap, hended.2 .TIER_MOVES 0 (by decide), tierMoves_flippedState, hcount]
  · rw [out_wrap, hout, out_flippedState, hcopied.out_eq, out_fresh, List.nil_append]

/-! MOVE_FREE_SOURCE. -/

/-- The entry of a bolt whose move has ended (R275). -/
def endedEntry (e : DirEntry) : DirEntry := { e with state := 1, dtier := 0, dest := 0, mrec := 0, flipped := false }

/-- The state once the old home has been freed and the move record closed. -/
def endedState (s : State) (b : Nat) : State :=
  ((s.freeLoc (s.dirE b).dtier (s.dirE b).dest).setDir b (endedEntry (s.dirE b))).setMove b none

theorem moveFreeSource_ends (hmove : s.moveOf b = some m) (hphase : m.phase = .flipped) (hheld : m.held = [])
    (hfree : (s.dirE b).pendFree = false) (hevict : (s.dirE b).pendEvict = false) (hpends : PendsOnly b s) :
    (∀ c, (moveFreeSource b s).dirE c = if b = c then endedEntry (s.dirE b) else s.dirE c) ∧
      ∀ c, (moveFreeSource b s).moveOf c = if b = c then none else s.moveOf c := by
  have hrun : moveFreeSource b s = (((endedState s b).afterMove b []).wake b).countFree := by
    rw [moveFreeSource, hmove]
    dsimp only
    rw [if_neg (by simp [hphase]), hheld]
    rfl
  obtain ⟨st, cache, flash, hloc⟩ := freeLoc_rest s (s.dirE b).dtier (s.dirE b).dest
  have hdir (c : Nat) : (endedState s b).dirE c = if b = c then endedEntry (s.dirE b) else s.dirE c := by
    rw [endedState, dirE_setMove, dirE_setDir, hloc]
    rfl
  have hmoves (c : Nat) : (endedState s b).moveOf c = if b = c then none else s.moveOf c := by
    rw [endedState, moveOf_setMove, hloc]
    rfl
  have hends : PendsOnly b (endedState s b) := by
    have hfreed : PendsOnly b (s.freeLoc (s.dirE b).dtier (s.dirE b).dest) := by rw [hloc]; exact hpends
    exact hfreed.setDir (endedEntry (s.dirE b))
  generalize endedState s b = u at *
  have hsettles : Settles b u := .inr (.inr (by rw [hdir, if_pos rfl]; exact ⟨hfree, hevict⟩))
  have hmem : (moveFreeSource b s).mem = wokenMem u b := by
    rw [hrun, countFree_mem, afterMove_settled hsettles, wake_settled hends hsettles]
    rfl
  refine ⟨fun c => ?_, fun c => ?_⟩
  · rw [State.dirE, hmem]
    exact hdir c
  · rw [State.moveOf, hmem]
    exact hmoves c

/-! GENERATION_SPACING_END. -/

theorem generationSpacingEnd_frees (hspaced : s.spaced b = true) (hstate : (s.dirE b).state = 1)
    (hpins : (s.dirE b).pins = 0) (hpend : (s.dirE b).pendFree = true) (hpends : PendsOnly b s) (c : Nat) :
    (generationSpacingEnd b s).dirE c = if b = c then freedEntry (s.dirE b) else s.dirE c := by
  have hfreed := freeBolt_freed s b
  have hsettles : Settles b (s.freeBolt b) := .inl (by rw [hfreed.entry]; exact Nat.zero_ne_one)
  have hrun : generationSpacingEnd b s = ((s.freeBolt b).setMem (wokenMem (s.freeBolt b) b)).endWaits b := by
    rw [generationSpacingEnd, if_neg (by simp [hspaced]), settleBolt_frees hstate hpins hpend hspaced,
      wake_settled (hfreed.pends hpends) hsettles]
  have hended := ((Finished.refl ((s.freeBolt b).setMem (wokenMem (s.freeBolt b) b))).endWaits b).dirE_eq c
  rw [hrun, hended]
  by_cases hc : b = c
  · rw [if_pos hc, ← hc]
    exact hfreed.entry
  · rw [if_neg hc]
    exact hfreed.others c (Ne.symm hc)

/-- Settles O44, phase by phase: what each writes of the bolt's entry and of its move, and that other bolts' entries and
moves stay. -/
theorem movePhasesCarryBolt : Obligations.MovePhasesCarryBolt := by
  refine ⟨fun s b m loc hu hb hmove hphase hnotFlash hlink => ?_, fun s b m hu hb hmove => ?_,
    fun s b m hu hb hmove hphase hclean hlink hspaced => exec_moveHold_holds hu hb hmove hphase hclean hlink hspaced,
    fun s b h m hu hb hh hmove hphase =>
      ⟨fun hgoing hreset => exec_moveHoldNotice_stops hu hb hh hmove hphase hgoing hreset,
        fun hstopped => exec_holdAck_acknowledges hu hb hh hmove hphase hstopped⟩,
    fun s b m hu hb hmove hphase hawait hlink => exec_moveFlip_flips hu hb hmove hphase hawait hlink,
    fun s b m hu hb hmove hphase hheld => ?_, fun s b hu hb hspaced hstate hpins _ hpend hpends => ?_⟩
  · intro e hpins hzero hroom hchoose
    refine ⟨_, exec_moveReserve_takes hu hb hmove hphase hnotFlash hlink hpins hzero hroom hchoose, ?_,
      fun c hc => ⟨?_, ?_⟩, ?_, ?_⟩
    · rw [moveOf_wrap, reserved_moveOf, if_pos rfl]
      rfl
    · rw [moveOf_wrap, reserved_moveOf, if_neg (Ne.symm hc), moveOf_fresh]
    · rw [dirE_wrap, reserved_dirE, if_neg (Ne.symm hc), dirE_fresh]
    · rw [mem_wrap, reserved_mem]
      rfl
    · rw [dirE_wrap, reserved_dirE, if_pos rfl]
      rfl
  · intro e hfrom hto hserves
    exact ⟨fun hphase hnotFlash => exec_moveCopyDone_copies hu hb hmove hfrom hto hserves hphase hnotFlash,
      fun hphase => exec_moveCopyDone_recopies hu hb hmove hfrom hto hphase⟩
  · intro e hfree hevict hpends
    obtain ⟨hdir, hmoves⟩ := moveFreeSource_ends (s := fresh s) hmove hphase hheld hfree hevict hpends
    refine ⟨wrap s (moveFreeSource b (fresh s)), by rw [exec_moveFreeSource, act_up (boltOk_of_lt hb) hu],
      (hmoves b).trans (if_pos rfl), (hdir b).trans (if_pos rfl),
      fun c hc => ⟨(hmoves c).trans (if_neg (Ne.symm hc)), (hdir c).trans (if_neg (Ne.symm hc))⟩⟩
  · have hdir := generationSpacingEnd_frees (s := fresh s) hspaced hstate hpins hpend hpends
    exact ⟨wrap s (generationSpacingEnd b (fresh s)), by rw [exec_generationSpacingEnd, act_up (boltOk_of_lt hb) hu],
      (hdir b).trans (if_pos rfl),
      fun c hc => (hdir c).trans (if_neg (Ne.symm hc))⟩

end Sys2Proof.Proofs
end

section
/-! The clauses of O43: tier requests of one bolt (R276, R278 to R280, R282, R299). -/

namespace Sys2Proof.Proofs

open Sys2Proof.Machine Sys2Proof.Laws

/-! The request taken from the queue, and what the lookup of its bolt finds. -/

/-- The state in which the request's bolt is looked up: it is taken from the queue, and nothing has been sent. -/
def found (s : State) (q : TierReq) (rest : List TierReq) : State := (aside [] rest s).lookup (trFirst q.bits)

/-- What is found does not depend on the requests behind. -/
theorem found_eq_aside (s : State) (q : TierReq) (rest : List TierReq) :
    found s q rest = aside [] rest ((fresh s).lookup (trFirst q.bits)) := lookup_aside [] rest (fresh s) _

theorem dirE_aside (s : State) (rest : List TierReq) (b : Nat) : (aside [] rest s).dirE b = s.dirE b := rfl

theorem fresh_takes (s : State) (rest : List TierReq) :
    (fresh s).setMem { (fresh s).mem with tierQ := rest } = aside [] rest s := rfl

section Found

variable {s : State} {q : TierReq} {rest : List TierReq}

theorem found_lookedUp (s : State) (q : TierReq) (rest : List TierReq) : LookedUp (aside [] rest s) (found s q rest) :=
  lookup_lookedUp _ _

theorem found_dirE (c : Nat) : (found s q rest).dirE c = s.dirE c := (found_lookedUp s q rest).dirE_eq c

theorem found_moveOf (c : Nat) : (found s q rest).moveOf c = s.moveOf c := by
  rw [State.moveOf, (found_lookedUp s q rest).mem_eq]
  rfl

theorem found_shareAllows (e : DirEntry) (k : Nat) (write : Bool) :
    (found s q rest).shareAllows e k write = s.shareAllows e k write :=
  (found_lookedUp s q rest).shareAllows_eq e k write

theorem found_spaced (b : Nat) : (found s q rest).spaced b = s.spaced b := by
  have hnow : (found s q rest).now = s.now := by rw [(found_lookedUp s q rest).1]; rfl
  rw [State.spaced, (found_lookedUp s q rest).mem_eq, hnow]
  rfl

theorem found_usage (k t : Nat) : (found s q rest).usage k t = s.usage k t := by
  rw [State.usage, (found_lookedUp s q rest).mem_eq]
  rfl

theorem found_quota (k t : Nat) : (found s q rest).quota k t = s.quota k t := (found_lookedUp s q rest).desc_eq k _ _

theorem found_placeOf (t loc owner x : Nat) : (found s q rest).placeOf t loc owner x = s.placeOf t loc owner x := by
  have hlooked := found_lookedUp s q rest
  have halike : ReadsAlike (aside [] rest s) (found s q rest) :=
    ⟨by rw [hlooked.mem_eq], by rw [hlooked.mem_eq], by rw [hlooked.mem_eq], fun i => hlooked.2 _ i (by decide),
      hlooked.2 _ _ (by decide)⟩
  exact halike.placeOf_eq t loc owner x

theorem found_movesOf (h : Nat) : (found s q rest).movesOf h = s.movesOf h := by
  rw [State.movesOf, (found_lookedUp s q rest).mem_eq]
  rfl

theorem found_tierQ : (found s q rest).mem.tierQ = rest := by
  rw [(found_lookedUp s q rest).mem_eq]
  rfl

theorem found_st : (found s q rest).mem.st = s.mem.st := by
  rw [(found_lookedUp s q rest).mem_eq]
  rfl

theorem found_moves : (found s q rest).mem.moves = s.mem.moves := by
  rw [(found_lookedUp s q rest).mem_eq]
  rfl

theorem found_dir : (found s q rest).mem.dir = s.mem.dir := by
  rw [(found_lookedUp s q rest).mem_eq]
  rfl

theorem found_cancels : (found s q rest).mem.cancels = s.mem.cancels := by
  rw [(found_lookedUp s q rest).mem_eq]
  rfl

theorem found_tierWait : (found s q rest).mem.tierWait = s.mem.tierWait := by
  rw [(found_lookedUp s q rest).mem_eq]
  rfl

theorem found_f {n : FieldName} (i : Nat) (hn : n ∉ lookupFields) : (found s q rest).f n i = s.f n i :=
  (found_lookedUp s q rest).2 n i hn

end Found

/-! One bolt of a request, by its operation. -/

/-- What an operation other than ALLOC does with a bolt of entry `e` that is not FREE and that SHARE lets the swatch
reach. -/
def reachedAct (x : State) (b : Nat) (e : DirEntry) (q : TierReq) : Nat → TierAct
  | 1 =>
    if e.state = 1 && e.pins = 0 then (if x.spaced b then .ok (x.freeBolt b) else .wait x 2)
    else .ok (x.setDir b { e with pendFree := true })
  | 2 => x.promote b (trTier q.bits) (trPlace q.bits) 3 (trSwatch q.bits) (some q)
  | 3 => x.evict b (trTier q.bits) 3 (trSwatch q.bits) (some q)
  | 4 =>
    if e.pins < 255 then .ok (x.setDir b { e with pins := e.pins + 1 })
    else if q.job ≠ 0 then .fail x tsPinFull else .wait x 2
  | 6 => .ok x
  | _ =>
    if e.pins = 0 then .fail x tsState else .ok (((x.setDir b { e with pins := e.pins - 1 }).settleBolt b).wake b)

theorem tierOne_reaches {s : State} {q : TierReq} {b op : Nat} (hop : trOp q.bits = op) (hrange : 1 ≤ op ∧ op ≤ 6)
    (hstate : (s.dirE b).state ≠ 0)
    (hshare : (s.lookup b).shareAllows (s.dirE b) (trSwatch q.bits) (decide (op = 1)) = true) :
    s.tierOne q b = reachedAct (s.lookup b) b (s.dirE b) q op := by
  rw [State.tierOne, hop, if_neg (by omega), if_neg (by simp [hstate]), if_neg (by simp [hshare])]
  obtain ⟨hlow, hhigh⟩ := hrange
  interval_cases op <;> rfl

section Asked

variable {s : State} {op : Nat} {q : TierReq} {rest : List TierReq} {i : Instr}
  (hasked : s.asked op q rest)
include hasked

/-- What a request that reaches its bolt does with it. -/
theorem tierOne_found (hrange : 1 ≤ op ∧ op ≤ 6) (hstate : (s.dirE (trFirst q.bits)).state ≠ 0)
    (hshare : s.shareAllows (s.dirE (trFirst q.bits)) (trSwatch q.bits) (decide (op = 1)) = true) :
    (aside [] rest s).tierOne q (trFirst q.bits) =
      reachedAct (found s q rest) (trFirst q.bits) (s.dirE (trFirst q.bits)) q op := by
  obtain ⟨-, -, htrop, -⟩ := hasked
  have hallows : ((aside [] rest s).lookup (trFirst q.bits)).shareAllows ((aside [] rest s).dirE (trFirst q.bits))
      (trSwatch q.bits) (decide (op = 1)) = true := (found_shareAllows _ _ _).trans hshare
  exact tierOne_reaches htrop hrange hstate hallows

variable (hexec : exec i s = act true (whenUp (tierRun op)) s)
include hexec

/-- A request of one bolt that runs is taken from the queue: its waits end and its result is posted. -/
theorem exec_asked_ok {u : State} (hop : op ≠ 6) (hact : (aside [] rest s).tierOne q (trFirst q.bits) = .ok u) :
    ∃ t, exec i s = .next (wrap s t) ∧ Finished u t := by
  obtain ⟨hu, hqueue, htrop, hlegal, hrange, hcount, hdone⟩ := hasked
  have hloop : (aside [] rest s).tierLoop q (trCount q.bits - q.done) =
      (u.endWaits (heldKey (trFirst q.bits))).tierResult { q with done := q.done + 1 } tsOK 0 := by
    rw [hcount, hdone, State.tierLoop]
    dsimp only
    rw [hdone, Nat.add_zero, hact]
    rfl
  have hlegal' : ¬(aside [] rest s).trIllegal q.bits = true := ne_true_of_eq_false hlegal
  have hrun : tierRun op (fresh s) = (aside [] rest s).tierLoop q (trCount q.bits - q.done) := by
    rw [tierRun, show (fresh s).mem.tierQ = q :: rest from hqueue]
    dsimp only
    rw [fresh_takes, if_neg (by simp [htrop]), if_neg hlegal', if_neg (by omega), if_neg hop]
  refine ⟨_, by rw [hexec, act_up rfl hu], ?_⟩
  rw [hrun, hloop]
  exact ((Finished.refl u).endWaits _).tierResult _ _ _

/-- The same for a request that reaches its bolt. -/
theorem exec_reached_ok {u : State} (hrange : 1 ≤ op ∧ op < 6) (hstate : (s.dirE (trFirst q.bits)).state ≠ 0)
    (hshare : s.shareAllows (s.dirE (trFirst q.bits)) (trSwatch q.bits) (decide (op = 1)) = true)
    (hact : reachedAct (found s q rest) (trFirst q.bits) (s.dirE (trFirst q.bits)) q op = .ok u) :
    ∃ t, exec i s = .next (wrap s t) ∧ Finished u t :=
  exec_asked_ok hasked hexec (by omega) ((tierOne_found hasked (by omega) hstate hshare).trans hact)

end Asked

section Reached

variable {s : State} {q : TierReq} {rest : List TierReq}

/-! FREE (R276). -/

theorem reachedAct_frees (hstate : (s.dirE (trFirst q.bits)).state = 1) (hpins : (s.dirE (trFirst q.bits)).pins = 0)
    (hspaced : s.spaced (trFirst q.bits) = true) :
    reachedAct (found s q rest) (trFirst q.bits) (s.dirE (trFirst q.bits)) q 1 =
      .ok ((found s q rest).freeBolt (trFirst q.bits)) := by
  rw [reachedAct, if_pos (by simp [hstate, hpins]), if_pos (by rw [found_spaced, hspaced])]

theorem exec_free_frees (hasked : s.asked 1 q rest) (hstate : (s.dirE (trFirst q.bits)).state = 1)
    (hpins : (s.dirE (trFirst q.bits)).pins = 0) (hspaced : s.spaced (trFirst q.bits) = true)
    (hshare : s.shareAllows (s.dirE (trFirst q.bits)) (trSwatch q.bits) true = true) :
    ∃ t, exec .free s = .next (wrap s t) ∧ BoltFreed (trFirst q.bits) (found s q rest) t := by
  obtain ⟨t, hrun, hfinished⟩ := exec_reached_ok hasked (exec_free s) (by omega) (by omega) hshare
    (reachedAct_frees hstate hpins hspaced)
  exact ⟨t, hrun, (freeBolt_freed _ _).finished hfinished⟩

/-! PIN and UNPIN (R299). -/

theorem reachedAct_pins (hpins : (s.dirE (trFirst q.bits)).pins < 255) :
    reachedAct (found s q rest) (trFirst q.bits) (s.dirE (trFirst q.bits)) q 4 =
      .ok ((found s q rest).setDir (trFirst q.bits)
        { s.dirE (trFirst q.bits) with pins := (s.dirE (trFirst q.bits)).pins + 1 }) := if_pos hpins

/-- The state in which a pin of the bolt has been dropped. -/
def unpinned (s : State) (q : TierReq) (rest : List TierReq) : State :=
  (found s q rest).setDir (trFirst q.bits)
    { s.dirE (trFirst q.bits) with pins := (s.dirE (trFirst q.bits)).pins - 1 }

theorem reachedAct_unpins (hpins : 1 < (s.dirE (trFirst q.bits)).pins) (hpends : PendsOnly (trFirst q.bits) s) :
    reachedAct (found s q rest) (trFirst q.bits) (s.dirE (trFirst q.bits)) q 5 =
      .ok ((unpinned s q rest).setMem (wokenMem (unpinned s q rest) (trFirst q.bits))) := by
  have hpends' : PendsOnly (trFirst q.bits) (found s q rest) := by
    unfold PendsOnly
    rw [found_dir]
    exact hpends
  have hsettles : Settles (trFirst q.bits) (unpinned s q rest) := by
    refine .inr (.inl ?_)
    rw [unpinned, dirE_setDir, if_pos rfl]
    exact Nat.sub_ne_zero_of_lt hpins
  have hwake : ((unpinned s q rest).settleBolt (trFirst q.bits)).wake (trFirst q.bits) =
      (unpinned s q rest).setMem (wokenMem (unpinned s q rest) (trFirst q.bits)) := by
    rw [settleBolt_settled hsettles]
    exact wake_settled (hpends'.setDir _) hsettles
  rw [← hwake]
  exact if_neg (by omega)

/-! EVICT of a pinned bolt (R278). -/

theorem reachedAct_defers (hstate : (s.dirE (trFirst q.bits)).state = 1) (hpins : 0 < (s.dirE (trFirst q.bits)).pins)
    (hdown : (s.dirE (trFirst q.bits)).tier < trTier q.bits) :
    reachedAct (found s q rest) (trFirst q.bits) (s.dirE (trFirst q.bits)) q 3 =
      .ok ((found s q rest).deferEvict (trFirst q.bits) (trTier q.bits)) := by
  rw [reachedAct, State.evict, found_dirE, if_neg (by omega), if_pos hstate, if_neg (by omega), if_pos hpins]

/-! PROMOTE_REQUEST and EVICT that start a move (R272, R278). -/

/-- The move that a request starts. -/
def askedMove (s : State) (q : TierReq) : MoveRec :=
  { phase := .reserve, up := decide (trOp q.bits = 2), dtier := trTier q.bits
    place := if decide (trOp q.bits = 2) then trPlace q.bits else 0, cls := 3, dirty := [], passes := 0
    await := [], held := [], since := s.now, inTier := false, gen := (s.dirE (trFirst q.bits)).generation }

/-- The state in which that move looks for its destination. -/
def moveAsked (s : State) (q : TierReq) (rest : List TierReq) : State :=
  (found s q rest).setMove (trFirst q.bits) (some (askedMove s q))

theorem startMove_reserves {x : State} {b : Nat} {up : Bool} {t place cls : Nat}
    (hroom : (x.movesOf (hubOf b)).length < 256) :
    x.startMove b up t place cls false = .ok (moveReserve b (x.setMove b (some
      { phase := .reserve, up := up, dtier := t, place := place, cls := cls, dirty := [], passes := 0,
        await := [], held := [], since := x.now, inTier := false, gen := (x.dirE b).generation }))) := by
  rw [State.startMove, if_neg (by omega)]

theorem reachedAct_moves (hop : trOp q.bits = 2 ∨ trOp q.bits = 3) (hstate : (s.dirE (trFirst q.bits)).state = 1)
    (hmove : s.moveOf (trFirst q.bits) = none)
    (hway : if trOp q.bits = 2 then trTier q.bits < (s.dirE (trFirst q.bits)).tier
      else (s.dirE (trFirst q.bits)).tier < trTier q.bits ∧ (s.dirE (trFirst q.bits)).pins = 0)
    (hrecords : (s.movesOf (hubOf (trFirst q.bits))).length < 256) :
    reachedAct (found s q rest) (trFirst q.bits) (s.dirE (trFirst q.bits)) q (trOp q.bits) =
      .ok (moveReserve (trFirst q.bits) (moveAsked s q rest)) := by
  have hnow : (found s q rest).now = s.now := by rw [(found_lookedUp s q rest).1]; rfl
  have hroom : ((found s q rest).movesOf (hubOf (trFirst q.bits))).length < 256 := by rwa [found_movesOf]
  rcases hop with hop | hop
  · rw [hop, if_pos rfl] at hway
    rw [hop, reachedAct, State.promote, found_dirE, if_pos (by simp [hstate]), State.promoteAt, found_dirE,
      if_neg (by omega), if_pos hstate, if_neg (by omega), found_moveOf, hmove]
    dsimp only
    rw [startMove_reserves hroom, hnow, found_dirE, moveAsked, askedMove, hop]
    rfl
  · rw [hop, if_neg (by decide)] at hway
    rw [hop, reachedAct, State.evict, found_dirE, if_neg (by omega), if_pos hstate, if_neg (by omega),
      if_neg (by omega), found_moveOf, hmove, if_neg (by simp), startMove_reserves hroom, hnow, found_dirE,
      moveAsked, askedMove, hop]
    rfl

theorem moveAsked_dirE (c : Nat) : (moveAsked s q rest).dirE c = s.dirE c := by rw [moveAsked, dirE_setMove, found_dirE]

theorem moveAsked_moveOf (c : Nat) :
    (moveAsked s q rest).moveOf c = if trFirst q.bits = c then some (askedMove s q) else s.moveOf c := by
  rw [moveAsked, moveOf_setMove, found_moveOf]

section Move

variable {i : Instr} (hi : (i, trOp q.bits) ∈ [(Instr.promoteRequest, 2), (.evict, 3)])
  (hasked : s.asked (trOp q.bits) q rest)
  (hstate : (s.dirE (trFirst q.bits)).state = 1)
  (hshare : s.shareAllows (s.dirE (trFirst q.bits)) (trSwatch q.bits) false = true)
  (hmove : s.moveOf (trFirst q.bits) = none)
  (hway : if trOp q.bits = 2 then trTier q.bits < (s.dirE (trFirst q.bits)).tier
    else (s.dirE (trFirst q.bits)).tier < trTier q.bits ∧ (s.dirE (trFirst q.bits)).pins = 0)
  (hrecords : (s.movesOf (hubOf (trFirst q.bits))).length < 256)
include hi hasked hstate hshare hmove hway hrecords

theorem exec_move_starts :
    ∃ t, exec i s = .next (wrap s t) ∧ Finished (moveReserve (trFirst q.bits) (moveAsked s q rest)) t := by
  have hop : trOp q.bits = 2 ∨ trOp q.bits = 3 := by
    simp only [List.mem_cons, Prod.mk.injEq, List.not_mem_nil, or_false] at hi
    exact hi.imp And.right And.right
  have hexec : exec i s = act true (whenUp (tierRun (trOp q.bits))) s := by
    simp only [List.mem_cons, Prod.mk.injEq, List.not_mem_nil, or_false] at hi
    rcases hi with ⟨rfl, h⟩ | ⟨rfl, h⟩ <;> rw [h] <;> rfl
  have hwrite : decide (trOp q.bits = 1) = false := decide_eq_false (by omega)
  exact exec_reached_ok hasked hexec (by omega) (by omega) (by rw [hwrite]; exact hshare)
    (reachedAct_moves hop hstate hmove hway hrecords)

theorem exec_move_takes {loc : Nat}
    (htakes : moveReserve (trFirst q.bits) (moveAsked s q rest) =
      reserved (moveAsked s q rest) (trFirst q.bits) (askedMove s q) loc) :
    let b := trFirst q.bits
    ∃ t, exec i s = .next t ∧ t.mem.tierQ = rest ∧ t.mem.st = s.mem.st ∧
      t.moveOf b = some { askedMove s q with phase := .copy } ∧
      t.dirE b = { s.dirE b with
        state := if trOp q.bits = 2 then 2 else 3, dtier := trTier q.bits, dest := loc, mrec := (t.dirE b).mrec } ∧
      ∀ c, c ≠ b → t.moveOf c = s.moveOf c ∧ t.dirE c = s.dirE c := by
  intro b
  obtain ⟨t, hrun, hfinished⟩ := exec_move_starts hi hasked hstate hshare hmove hway hrecords
  rw [htakes] at hfinished
  have hup : (if (askedMove s q).inTier || decide ((askedMove s q).dtier < (s.dirE b).tier) then 2 else 3) =
      if trOp q.bits = 2 then 2 else 3 := by
    have hdtier : (askedMove s q).dtier = trTier q.bits := rfl
    have hin : (askedMove s q).inTier = false := rfl
    rw [hin, hdtier, Bool.false_or]
    by_cases hop : trOp q.bits = 2
    · rw [if_pos hop] at hway
      simp [hop, b, hway]
    · rw [if_neg hop] at hway
      simp only [hop, b, if_false, decide_eq_true_eq]
      exact if_neg (by omega)
  have hentry : t.dirE b = reservedEntry (moveAsked s q rest) b (askedMove s q) loc := by
    rw [hfinished.dirE_eq, reserved_dirE, if_pos rfl]
  refine ⟨wrap s t, hrun, ?_, ?_, ?_, ?_, fun c hc => ⟨?_, ?_⟩⟩
  · rw [mem_wrap, hfinished.mem_eq, reserved_mem]
    exact found_tierQ
  · rw [mem_wrap, hfinished.mem_eq, reserved_mem]
    exact found_st
  · rw [moveOf_wrap, hfinished.moveOf_eq, reserved_moveOf, if_pos rfl, moveAsked_dirE]
    rfl
  · rw [dirE_wrap, hentry, reservedEntry, moveAsked_dirE, hup]
    rfl
  · rw [moveOf_wrap, hfinished.moveOf_eq, reserved_moveOf, if_neg (Ne.symm hc), moveAsked_moveOf, if_neg (Ne.symm hc)]
  · rw [dirE_wrap, hfinished.dirE_eq, reserved_dirE, if_neg (Ne.symm hc), moveAsked_dirE]

theorem exec_move_waits (hlow : trTier q.bits < 2)
    (hfull : (moveAsked s q rest).quota (s.dirE (trFirst q.bits)).owner (trTier q.bits) ≤
      (moveAsked s q rest).usage (s.dirE (trFirst q.bits)).owner (trTier q.bits)) :
    let b := trFirst q.bits
    ∃ t, exec i s = .next t ∧ t.mem.tierQ = rest ∧ t.mem.st = s.mem.st ∧ t.mem.dir = s.mem.dir ∧
      t.moveOf b = some { askedMove s q with obst := 3 } ∧ ∀ c, c ≠ b → t.moveOf c = s.moveOf c := by
  intro b
  obtain ⟨t, hrun, hfinished⟩ := exec_move_starts hi hasked hstate hshare hmove hway hrecords
  have hwaits : moveReserve b (moveAsked s q rest) = (moveAsked s q rest).reserveWaits b (askedMove s q) 3 := by
    refine moveReserve_waits ?_ rfl (fun hdown => ?_) hlow ?_
    · rw [moveAsked_moveOf, if_pos rfl]
    · rw [moveAsked_dirE]
      have hop : trOp q.bits ≠ 2 := of_decide_eq_false hdown
      rw [if_neg hop] at hway
      exact hway.2
    · rw [moveAsked_dirE]
      exact hfull
  rw [hwaits] at hfinished
  have hwaited : Finished ((moveAsked s q rest).setMove b (some { askedMove s q with obst := 3 })) t :=
    (Finished.waitOn _ _ _ _).trans hfinished
  have hmoves (c : Nat) : (wrap s t).moveOf c = if b = c then some { askedMove s q with obst := 3 } else s.moveOf c := by
    rw [moveOf_wrap, hwaited.moveOf_eq, moveOf_setMove]
    refine ite_congr rfl (fun _ => rfl) (fun hc => ?_)
    rw [moveAsked_moveOf, if_neg hc]
  refine ⟨wrap s t, hrun, ?_, ?_, ?_, by rw [hmoves, if_pos rfl], fun c hc => by rw [hmoves, if_neg (Ne.symm hc)]⟩
  · rw [mem_wrap, hwaited.mem_eq]
    exact found_tierQ
  · rw [mem_wrap, hwaited.mem_eq]
    exact found_st
  · rw [mem_wrap, hwaited.mem_eq]
    exact found_dir

end Move

/-! PROMOTE_REQUEST that cancels an eviction (R279). -/

/-- The entry of a bolt whose eviction is cancelled. -/
def cancelledEntry (e : DirEntry) : DirEntry :=
  { e with state := 1, dtier := 0, dest := 0, mrec := 0, cancelled := true }

/-- The eviction of bolt `b` has been cancelled: its entry, its move record, its listing and what stays. -/
structure Cancelled (b : Nat) (x y : State) : Prop where
  dir : ∀ c, y.dirE c = if b = c then cancelledEntry (x.dirE b) else x.dirE c
  moves : ∀ c, y.moveOf c = if b = c then none else x.moveOf c
  listed : FMap.get [] y.mem.cancels (hubOf b) = FMap.get [] x.mem.cancels (hubOf b) ++ [b]
  counted : y.f .TIER_CANCELS 0 = satAdd (x.f .TIER_CANCELS 0) 1
  queue : y.mem.tierQ = x.mem.tierQ

theorem cancelMove_cancelled {x : State} {b : Nat} (hstate : (x.dirE b).state = 3)
    (hflipped : (x.dirE b).flipped = false) :
    Cancelled b x (x.cancelMove b) := by
  obtain ⟨st, cache, flash, hloc⟩ := freeLoc_rest (x.setMove b none) (x.dirE b).dtier (x.dirE b).dest
  have habandon : x.abandonMove b = ((x.setMove b none).setMem
      { (x.setMove b none).mem with st := st, cache := cache, flash := flash }).setDir b
        { x.dirE b with state := 1, dtier := 0, dest := 0, mrec := 0 } := by
    rw [State.abandonMove, if_neg (by simp [hstate, hflipped]), hloc]
  have hentry : (x.abandonMove b).dirE b = { x.dirE b with state := 1, dtier := 0, dest := 0, mrec := 0 } := by
    rw [habandon, dirE_setDir, if_pos rfl]
  have hmem : (x.cancelMove b).mem = { (x.abandonMove b).mem with
      dir := FMap.set {} (x.abandonMove b).mem.dir b (cancelledEntry (x.dirE b))
      cancels := FMap.set [] (x.abandonMove b).mem.cancels (hubOf b)
        (FMap.get [] (x.abandonMove b).mem.cancels (hubOf b) ++ [b]) } := by
    rw [State.cancelMove, hentry]
    rfl
  have hregs : (x.cancelMove b).f .TIER_CANCELS 0 = ((x.abandonMove b).tally .TIER_CANCELS 0 1).f .TIER_CANCELS 0 := rfl
  refine ⟨fun c => ?_, fun c => ?_, ?_, ?_, ?_⟩
  · rw [State.dirE, hmem, get_set]
    refine ite_congr rfl (fun _ => rfl) (fun hc => ?_)
    rw [habandon]
    exact (dirE_setDir _ b _ c).trans (if_neg hc)
  · rw [State.moveOf, hmem, habandon]
    exact moveOf_setMove x b none c
  · rw [hmem, get_set_same, habandon]
    rfl
  · rw [hregs, f_tally_same _ 0 1 rfl, habandon]
    rfl
  · rw [hmem, habandon]
    rfl

theorem reachedAct_cancels {m : MoveRec} (hstate : (s.dirE (trFirst q.bits)).state = 3)
    (hflipped : (s.dirE (trFirst q.bits)).flipped = false) (hcancelled : (s.dirE (trFirst q.bits)).cancelled = false)
    (hfree : (s.dirE (trFirst q.bits)).pendFree = false) (hevict : (s.dirE (trFirst q.bits)).pendEvict = false)
    (htier : (s.dirE (trFirst q.bits)).tier ≤ trTier q.bits) (hmove : s.moveOf (trFirst q.bits) = some m)
    (hheld : m.held = []) (hroom : (FMap.get [] s.mem.cancels (hubOf (trFirst q.bits))).length < 4096) :
    reachedAct (found s q rest) (trFirst q.bits) (s.dirE (trFirst q.bits)) q 2 =
      .ok ((found s q rest).cancelMove (trFirst q.bits)) := by
  have hdone : Cancelled (trFirst q.bits) (found s q rest) ((found s q rest).cancelMove (trFirst q.bits)) :=
    cancelMove_cancelled (by rw [found_dirE, hstate]) (by rw [found_dirE, hflipped])
  have hentry := hdone.dir (trFirst q.bits)
  rw [if_pos rfl, found_dirE] at hentry
  have hsettles : Settles (trFirst q.bits) ((found s q rest).cancelMove (trFirst q.bits)) := by
    refine .inr (.inr ?_)
    rw [hentry]
    exact ⟨hfree, hevict⟩
  have hat (h : Option TierReq) : ((found s q rest).cancelMove (trFirst q.bits)).promoteAt (trFirst q.bits)
      (trTier q.bits) (trPlace q.bits) 3 (trSwatch q.bits) h = .ok ((found s q rest).cancelMove (trFirst q.bits)) := by
    rw [State.promoteAt, hentry]
    exact (if_neg Nat.one_ne_zero).trans ((if_pos rfl).trans (if_pos htier))
  rw [reachedAct, State.promote, found_dirE, if_neg (by simp [hstate, hflipped]), found_cancels,
    if_pos (by simp [hcancelled, hroom]), found_moveOf, hmove, hat]
  dsimp only [TierAct.andThen]
  rw [hheld, afterMove_settled hsettles]

/-! ALLOC (R276, R282). -/

/-- The entry of a bolt allocated at location `loc`. -/
def allocEntry (e : DirEntry) (v loc : Nat) : DirEntry :=
  { ({} : DirEntry) with
    state := 1, tier := trTier v, share := trShare v, ilv := trIlv v, home := loc
    generation := (e.generation + 1) % 65536, owner := trSwatch v, cancelled := e.cancelled }

/-- What ALLOC makes of bolt `b`: its entry, its bytes, and what stays. -/
structure Allocated (b v loc : Nat) (x y : State) : Prop where
  dir : ∀ c, y.dirE c = if b = c then allocEntry (x.dirE b) v loc else x.dirE c
  st : y.mem.st =
    if trTier v = 3 then x.mem.st else x.mem.st.zero (x.placeOf (trTier v) loc (trSwatch v) 0) 65536
  queue : y.mem.tierQ = x.mem.tierQ

theorem allocBolt_allocates {x : State} {b v loc : Nat} (hstate : (x.dirE b).state = 0)
    (hroom : x.usage (trSwatch v) (trTier v) < x.quota (trSwatch v) (trTier v))
    (hchoose : x.choose b (trTier v) (trSwatch v) (trIlv v) (trPlace v) (trPlace v) = some loc)
    (hspaced : x.spaced b = true) : ∃ y, x.allocBolt v b = .ok y ∧ Allocated b v loc x y := by
  unfold State.allocBolt
  extract_lets e k t
  rw [if_neg (by simp [e, hstate]), if_neg (by simpa [k, t] using hroom),
    show x.choose b t k _ _ _ = some loc from hchoose]
  dsimp only
  rw [if_neg (by simp [hspaced])]
  refine ⟨_, rfl, fun c => ?_, ?_, ?_⟩
  · rw [dirE_countFree, dirE_use, dirE_advance, dirE_setDir, dirE_setDir, if_pos rfl]
    split <;> rfl
  · rw [countFree_mem]
    rfl
  · rw [countFree_mem]
    rfl

theorem exec_alloc_allocates {loc : Nat} (hasked : s.asked 0 q rest) (hstate : (s.dirE (trFirst q.bits)).state = 0)
    (hroom : s.usage (trSwatch q.bits) (trTier q.bits) < s.quota (trSwatch q.bits) (trTier q.bits))
    (hspaced : s.spaced (trFirst q.bits) = true)
    (hchoose : ((fresh s).lookup (trFirst q.bits)).choose (trFirst q.bits) (trTier q.bits) (trSwatch q.bits)
      (trIlv q.bits) (trPlace q.bits) (trPlace q.bits) = some loc) :
    ∃ t y, exec .alloc s = .next (wrap s t) ∧ Finished y t ∧
      Allocated (trFirst q.bits) q.bits loc (found s q rest) y := by
  have htrop : trOp q.bits = 0 := hasked.2.2.1
  have hchoose' : (found s q rest).choose (trFirst q.bits) (trTier q.bits) (trSwatch q.bits) (trIlv q.bits)
      (trPlace q.bits) (trPlace q.bits) = some loc := by
    rw [found_eq_aside]
    exact hchoose
  obtain ⟨y, hact, hallocated⟩ := allocBolt_allocates (x := found s q rest) (by rw [found_dirE, hstate])
    (by rw [found_usage, found_quota]; exact hroom) hchoose' (by rw [found_spaced, hspaced])
  have hone : (aside [] rest s).tierOne q (trFirst q.bits) = .ok y := by
    rw [State.tierOne, if_pos htrop]
    exact hact
  obtain ⟨t, hrun, hfinished⟩ := exec_asked_ok hasked (exec_alloc s) (by omega) hone
  exact ⟨t, y, hrun, hfinished, hallocated⟩

/-! QUERY (R299). -/

theorem slots_post (s : State) (part slot : Nat) (irq : Bool) (r : Result) :
    (s.post part slot irq r).slots = FMap.set {} s.slots (4096 * part + slot) ⟨true, some r.bits⟩ := by
  unfold State.post
  split
  · rw [State.interruptPart, interrupt_regsOut, interrupt_regsOut]
  · rfl

theorem exec_query_posts (hasked : s.asked 6 q rest)
    (hshare : (s.dirE (trFirst q.bits)).state = 0 ∨
      s.shareAllows (s.dirE (trFirst q.bits)) (trSwatch q.bits) false = true) :
    exec .query s =
      .next (wrap s ((found s q rest).tierResult { q with done := 1 } tsOK (s.dirE (trFirst q.bits)).bits)) := by
  obtain ⟨hu, hqueue, htrop, hlegal, hrange, hcount, -⟩ := hasked
  have hone : (aside [] rest s).tierOne q (trFirst q.bits) = .ok (found s q rest) := by
    have hallows : ¬(decide (((aside [] rest s).dirE (trFirst q.bits)).state ≠ 0) &&
        !(found s q rest).shareAllows (s.dirE (trFirst q.bits)) (trSwatch q.bits) (decide (trOp q.bits = 1))) = true := by
      rw [htrop, dirE_aside, found_shareAllows]
      rcases hshare with h | h <;> simp [h]
    rw [State.tierOne, if_neg (by omega), if_neg (by simp [htrop])]
    exact (if_neg hallows).trans (if_pos htrop)
  have hlegal' : ¬(aside [] rest s).trIllegal q.bits = true := ne_true_of_eq_false hlegal
  have hrun : tierRun 6 (fresh s) =
      (found s q rest).tierResult { q with done := 1 } tsOK ((found s q rest).dirE (trFirst q.bits)).bits := by
    rw [tierRun, show (fresh s).mem.tierQ = q :: rest from hqueue]
    dsimp only
    rw [fresh_takes, if_neg (by simp [htrop]), if_neg hlegal', if_neg (by omega), if_pos rfl, hone]
  rw [exec_query, act_up rfl hu, hrun, found_dirE]

end Reached

/-! The clauses. -/

section Clauses

variable {s : State} {q : TierReq} {rest : List TierReq}

theorem exec_alloc_takes {loc : Nat} (hasked : s.asked 0 q rest) (hstate : (s.dirE (trFirst q.bits)).state = 0)
    (hroom : s.usage (trSwatch q.bits) (trTier q.bits) < s.quota (trSwatch q.bits) (trTier q.bits))
    (hspaced : s.spaced (trFirst q.bits) = true)
    (hchoose : ((fresh s).lookup (trFirst q.bits)).choose (trFirst q.bits) (trTier q.bits) (trSwatch q.bits)
      (trIlv q.bits) (trPlace q.bits) (trPlace q.bits) = some loc) :
    ∃ t, exec .alloc s = .next t ∧ t.mem.tierQ = rest ∧ (∀ c, c ≠ trFirst q.bits → t.dirE c = s.dirE c) ∧
      t.dirE (trFirst q.bits) = allocEntry (s.dirE (trFirst q.bits)) q.bits loc ∧
      t.mem.st = if trTier q.bits = 3 then s.mem.st
        else s.mem.st.zero (s.placeOf (trTier q.bits) loc (trSwatch q.bits) 0) 65536 := by
  obtain ⟨t, y, hrun, hfinished, hallocated⟩ := exec_alloc_allocates hasked hstate hroom hspaced hchoose
  have hst : t.mem.st = y.mem.st := by rw [hfinished.mem_eq]
  have hqueue : t.mem.tierQ = y.mem.tierQ := by rw [hfinished.mem_eq]
  have hdir (c : Nat) : (wrap s t).dirE c =
      if trFirst q.bits = c then allocEntry (s.dirE (trFirst q.bits)) q.bits loc else s.dirE c := by
    rw [dirE_wrap, hfinished.dirE_eq, hallocated.dir, found_dirE, found_dirE]
  refine ⟨wrap s t, hrun, ?_, fun c hc => by rw [hdir, if_neg (Ne.symm hc)], by rw [hdir, if_pos rfl], ?_⟩
  · rw [mem_wrap, hqueue, hallocated.queue, found_tierQ]
  · rw [mem_wrap, hst, hallocated.st, found_st, found_placeOf]

theorem exec_free_drops (hasked : s.asked 1 q rest) (hstate : (s.dirE (trFirst q.bits)).state = 1)
    (hpins : (s.dirE (trFirst q.bits)).pins = 0) (hspaced : s.spaced (trFirst q.bits) = true)
    (hshare : s.shareAllows (s.dirE (trFirst q.bits)) (trSwatch q.bits) true = true) :
    ∃ t, exec .free s = .next t ∧ t.mem.tierQ = rest ∧ (∀ c, c ≠ trFirst q.bits → t.dirE c = s.dirE c) ∧
      t.moveOf (trFirst q.bits) = none ∧ t.dirE (trFirst q.bits) = freedEntry (s.dirE (trFirst q.bits)) ∧
      Out.notice (trFirst q.bits) (((s.dirE (trFirst q.bits)).generation + 1) % 65536) true ∈ t.out := by
  obtain ⟨t, hrun, hfreed⟩ := exec_free_frees hasked hstate hpins hspaced hshare
  have hnotice := hfreed.notice
  rw [found_dirE] at hnotice
  refine ⟨wrap s t, hrun, ?_, fun c hc => ?_, ?_, ?_, hnotice⟩
  · rw [mem_wrap, hfreed.queue, found_tierQ]
  · rw [dirE_wrap, hfreed.others c hc, found_dirE]
  · rw [moveOf_wrap, hfreed.move]
  · rw [dirE_wrap, hfreed.entry, found_dirE]

theorem exec_promoteRequest_cancels {m : MoveRec} (hasked : s.asked 2 q rest)
    (hstate : (s.dirE (trFirst q.bits)).state = 3) (hflipped : (s.dirE (trFirst q.bits)).flipped = false)
    (hcancelled : (s.dirE (trFirst q.bits)).cancelled = false) (hfree : (s.dirE (trFirst q.bits)).pendFree = false)
    (hevict : (s.dirE (trFirst q.bits)).pendEvict = false)
    (hshare : s.shareAllows (s.dirE (trFirst q.bits)) (trSwatch q.bits) false = true)
    (htier : (s.dirE (trFirst q.bits)).tier ≤ trTier q.bits) (hmove : s.moveOf (trFirst q.bits) = some m)
    (hheld : m.held = []) (hroom : (FMap.get [] s.mem.cancels (hubOf (trFirst q.bits))).length < 4096) :
    ∃ t, exec .promoteRequest s = .next t ∧ t.mem.tierQ = rest ∧ t.moveOf (trFirst q.bits) = none ∧
      t.dirE (trFirst q.bits) = cancelledEntry (s.dirE (trFirst q.bits)) ∧
      trFirst q.bits ∈ FMap.get [] t.mem.cancels (hubOf (trFirst q.bits)) ∧
      t.f .TIER_CANCELS 0 = satAdd (s.f .TIER_CANCELS 0) 1 ∧
      ∀ c, c ≠ trFirst q.bits → t.moveOf c = s.moveOf c ∧ t.dirE c = s.dirE c := by
  obtain ⟨t, hrun, hfinished⟩ := exec_reached_ok hasked (exec_promoteRequest s) (by omega) (by omega) hshare
    (reachedAct_cancels hstate hflipped hcancelled hfree hevict htier hmove hheld hroom)
  have hdone : Cancelled (trFirst q.bits) (found s q rest) ((found s q rest).cancelMove (trFirst q.bits)) :=
    cancelMove_cancelled (by rw [found_dirE, hstate]) (by rw [found_dirE, hflipped])
  generalize (found s q rest).cancelMove (trFirst q.bits) = y at hdone hfinished
  have hdir (c : Nat) : (wrap s t).dirE c =
      if trFirst q.bits = c then cancelledEntry (s.dirE (trFirst q.bits)) else s.dirE c := by
    rw [dirE_wrap, hfinished.dirE_eq, hdone.dir, found_dirE, found_dirE]
  have hmoves (c : Nat) : (wrap s t).moveOf c = if trFirst q.bits = c then none else s.moveOf c := by
    rw [moveOf_wrap, hfinished.moveOf_eq, hdone.moves, found_moveOf]
  have hcancels : t.mem.cancels = y.mem.cancels := by rw [hfinished.mem_eq]
  have hqueue : t.mem.tierQ = y.mem.tierQ := by rw [hfinished.mem_eq]
  refine ⟨wrap s t, hrun, ?_, by rw [hmoves, if_pos rfl], by rw [hdir, if_pos rfl], ?_, ?_,
    fun c hc => ⟨by rw [hmoves, if_neg (Ne.symm hc)], by rw [hdir, if_neg (Ne.symm hc)]⟩⟩
  · rw [mem_wrap, hqueue, hdone.queue, found_tierQ]
  · rw [mem_wrap, hcancels, hdone.listed]
    exact List.mem_append_right _ List.mem_cons_self
  · rw [f_read_wrap, hfinished.regs _ _ (by decide), hdone.counted, found_f _ (by decide)]

/-- What a request that wrote its bolt's entry alone leaves: the queue, the entry, the other entries, bytes and moves. -/
def WroteEntry (b : Nat) (e : DirEntry) (l : List TierReq) (s t : State) : Prop :=
  t.mem.tierQ = l ∧ t.dirE b = e ∧ (∀ c, c ≠ b → t.dirE c = s.dirE c) ∧ t.mem.st = s.mem.st ∧
    t.mem.moves = s.mem.moves

theorem wrote_entry {b : Nat} {e : DirEntry} {l : List TierReq} {x y t : State} (hfinished : Finished y t)
    (hdir : y.mem.dir = FMap.set {} s.mem.dir b e) (hst : y.mem.st = s.mem.st) (hmoves : y.mem.moves = s.mem.moves)
    (hqueue : y.mem.tierQ = l) : WroteEntry b e l s (wrap x t) := by
  have hentry (c : Nat) : (wrap x t).dirE c = if b = c then e else s.dirE c := by
    rw [dirE_wrap, hfinished.dirE_eq, State.dirE, hdir]
    exact get_set _ _ _ _ _
  refine ⟨?_, by rw [hentry, if_pos rfl], fun c hc => by rw [hentry, if_neg (Ne.symm hc)], ?_, ?_⟩
  · rw [mem_wrap, hfinished.mem_eq, ← hqueue]
  · rw [mem_wrap, hfinished.mem_eq, ← hst]
  · rw [mem_wrap, hfinished.mem_eq, ← hmoves]

/-- The directory once the bolt's entry has been written in what is found. -/
theorem dir_found_setDir (e : DirEntry) :
    FMap.set {} (found s q rest).mem.dir (trFirst q.bits) e = FMap.set {} s.mem.dir (trFirst q.bits) e := by
  rw [found_dir]

theorem exec_evict_defers (hasked : s.asked 3 q rest) (hstate : (s.dirE (trFirst q.bits)).state = 1)
    (hpins : 0 < (s.dirE (trFirst q.bits)).pins) (hdown : (s.dirE (trFirst q.bits)).tier < trTier q.bits)
    (hshare : s.shareAllows (s.dirE (trFirst q.bits)) (trSwatch q.bits) false = true) :
    ∃ t, exec .evict s = .next t ∧ t.f .TIER_DEFERS 0 = satAdd (s.f .TIER_DEFERS 0) 1 ∧
      WroteEntry (trFirst q.bits) { s.dirE (trFirst q.bits) with pendEvict := true } rest s t := by
  obtain ⟨t, hrun, hfinished⟩ := exec_reached_ok hasked (exec_evict s) (by omega) (by omega) hshare
    (reachedAct_defers hstate hpins hdown)
  have hdir : ((found s q rest).deferEvict (trFirst q.bits) (trTier q.bits)).mem.dir =
      FMap.set {} (found s q rest).mem.dir (trFirst q.bits)
        { (found s q rest).dirE (trFirst q.bits) with pendEvict := true } := rfl
  have hst : ((found s q rest).deferEvict (trFirst q.bits) (trTier q.bits)).mem.st = (found s q rest).mem.st := rfl
  have hmoves : ((found s q rest).deferEvict (trFirst q.bits) (trTier q.bits)).mem.moves = (found s q rest).mem.moves := rfl
  have hqueue : ((found s q rest).deferEvict (trFirst q.bits) (trTier q.bits)).mem.tierQ = (found s q rest).mem.tierQ := rfl
  rw [found_dir, found_dirE] at hdir
  refine ⟨wrap s t, hrun, ?_, wrote_entry hfinished hdir (hst.trans found_st) (hmoves.trans found_moves)
    (hqueue.trans found_tierQ)⟩
  rw [f_read_wrap, hfinished.regs _ _ (by decide), State.deferEvict, f_tally_same _ 0 1 rfl,
    ← found_f (s := s) (q := q) (rest := rest) 0 (by decide)]
  rfl

theorem exec_pin_takes (hasked : s.asked 4 q rest) (hstate : (s.dirE (trFirst q.bits)).state ≠ 0)
    (hpins : (s.dirE (trFirst q.bits)).pins < 255)
    (hshare : s.shareAllows (s.dirE (trFirst q.bits)) (trSwatch q.bits) false = true) :
    ∃ t, exec .pin s = .next t ∧ WroteEntry (trFirst q.bits)
      { s.dirE (trFirst q.bits) with pins := (s.dirE (trFirst q.bits)).pins + 1 } rest s t := by
  obtain ⟨t, hrun, hfinished⟩ := exec_reached_ok hasked (exec_pin s) (by omega) hstate hshare (reachedAct_pins hpins)
  exact ⟨wrap s t, hrun, wrote_entry hfinished (dir_found_setDir _) found_st found_moves found_tierQ⟩

theorem exec_unpin_drops (hasked : s.asked 5 q rest) (hstate : (s.dirE (trFirst q.bits)).state ≠ 0)
    (hpins : 1 < (s.dirE (trFirst q.bits)).pins)
    (hshare : s.shareAllows (s.dirE (trFirst q.bits)) (trSwatch q.bits) false = true)
    (hpends : PendsOnly (trFirst q.bits) s) :
    ∃ t, exec .unpin s = .next t ∧ WroteEntry (trFirst q.bits)
      { s.dirE (trFirst q.bits) with pins := (s.dirE (trFirst q.bits)).pins - 1 }
      (s.mem.tierWait.filter (fun x => hubOf (trFirst x.bits + x.done) = hubOf (trFirst q.bits)) ++ rest) s t := by
  obtain ⟨t, hrun, hfinished⟩ := exec_reached_ok hasked (exec_unpin s) (by omega) hstate hshare
    (reachedAct_unpins hpins hpends)
  have hqueue : (wokenMem (unpinned s q rest) (trFirst q.bits)).tierQ = (found s q rest).mem.tierWait.filter
      (fun x => hubOf (trFirst x.bits + x.done) = hubOf (trFirst q.bits)) ++ (found s q rest).mem.tierQ := rfl
  rw [found_tierWait, found_tierQ] at hqueue
  exact ⟨wrap s t, hrun, wrote_entry hfinished (dir_found_setDir _) found_st found_moves hqueue⟩

theorem exec_query_leaves (hasked : s.asked 6 q rest)
    (hshare : (s.dirE (trFirst q.bits)).state = 0 ∨
      s.shareAllows (s.dirE (trFirst q.bits)) (trSwatch q.bits) false = true) (hjob : q.job ≠ 0) :
    ∃ t, exec .query s = .next t ∧ t.mem.tierQ = rest ∧ t.mem.dir = s.mem.dir ∧ t.mem.st = s.mem.st ∧
      FMap.get {} t.slots (4096 * q.part + q.slot) = ⟨true, some (Result.bits
        { seq := q.seq, status := tsOK, sw := q.recSw, bolts := 1, entry := (s.dirE (trFirst q.bits)).bits })⟩ := by
  have hfinished : Finished (found s q rest)
      ((found s q rest).tierResult { q with done := 1 } tsOK (s.dirE (trFirst q.bits)).bits) :=
    (Finished.refl _).tierResult _ _ _
  refine ⟨_, exec_query_posts hasked hshare, ?_, ?_, ?_, ?_⟩
  · rw [mem_wrap, hfinished.mem_eq]
    exact found_tierQ
  · rw [mem_wrap, hfinished.mem_eq]
    exact found_dir
  · rw [mem_wrap, hfinished.mem_eq]
    exact found_st
  · rw [slots_wrap, State.tierResult, if_neg hjob, slots_post, get_set_same]

end Clauses

/-- Settles O43: the act of each operation on the bolt, then what its result and the ends of its waits leave. -/
theorem tierRequestsActOnBolt : Obligations.TierRequestsActOnBolt := by
  refine ⟨fun s q rest loc hasked => ?_, fun s q rest hasked => ?_, fun s q rest i hi hasked => ?_,
    fun s q rest m hasked => ?_, fun s q rest hasked => ?_, fun s q rest hasked => ?_, fun s q rest hasked => ?_,
    fun s q rest hasked => ?_⟩
  case refine_1 => exact fun hstate hroom hspaced hchoose => exec_alloc_takes hasked hstate hroom hspaced hchoose
  case refine_2 => exact fun hstate hpins hspaced hshare => exec_free_drops hasked hstate hpins hspaced hshare
  case refine_3 =>
    intro b ti e up m u hstate hshare hmove hway hrecords
    have hway' : if trOp q.bits = 2 then ti < e.tier else e.tier < ti ∧ e.pins = 0 := by
      simpa only [up, decide_eq_true_eq] using hway
    have haside : moveAsked s q rest = aside [] rest u := by rw [moveAsked, found_eq_aside]; rfl
    have hdir : (moveAsked s q rest).dirE b = e := moveAsked_dirE b
    refine ⟨fun loc hroom hbudget hlink hzero hchoose => ?_, fun hlow hfull => ?_⟩
    · have htakes : moveReserve b (moveAsked s q rest) = reserved (moveAsked s q rest) b (askedMove s q) loc := by
        have hnear : moveNear (moveAsked s q rest) b (askedMove s q) = u.nearOf b e.owner (u.firstRegion e.owner) := by
          rw [moveNear, hdir, if_neg (by simp [askedMove]), haside]
          rfl
        refine moveReserve_takes (by rw [moveAsked_moveOf, if_pos rfl]) rfl (fun hdown => ?_) (fun hflash _ => ?_)
          (fun hhost => ?_) ?_ ?_ ?_
        · rw [if_neg (of_decide_eq_false hdown)] at hway'
          exact hdir ▸ hway'.2
        · rw [haside]
          exact hbudget hflash
        · rw [haside]
          exact hlink hhost
        · rw [hdir, haside]
          exact hzero
        · rw [hdir, haside]
          exact hroom
        · rw [hnear, hdir, haside]
          exact hchoose
      obtain ⟨t, hrun, hqueue, hst, hmoved, hentry, hothers⟩ :=
        exec_move_takes hi hasked hstate hshare hmove hway' hrecords htakes
      refine ⟨t, hrun, hqueue, hst, hmoved, ?_, hothers⟩
      simpa only [up, decide_eq_true_eq] using hentry
    · exact exec_move_waits hi hasked hstate hshare hmove hway' hrecords hlow (by rw [haside]; exact hfull)
  case refine_4 =>
    exact fun hstate hflipped hcancelled hfree hevict hshare htier hmove hheld hroom =>
      exec_promoteRequest_cancels hasked hstate hflipped hcancelled hfree hevict hshare htier hmove hheld hroom
  case refine_5 =>
    intro b e hstate hpins hdown hshare
    obtain ⟨t, hrun, hcount, hqueue, hentry, hothers, hst, hmoves⟩ :=
      exec_evict_defers hasked hstate hpins hdown hshare
    exact ⟨t, hrun, hqueue, hentry, hcount, hothers, hst, hmoves⟩
  case refine_6 => exact fun hstate hpins hshare => exec_pin_takes hasked hstate hpins hshare
  case refine_7 =>
    intro b hstate hpins hshare hpends
    obtain ⟨t, hrun, hqueue, hentry, hothers, hst, hmoves⟩ := exec_unpin_drops hasked hstate hpins hshare hpends
    exact ⟨t, hrun, hentry, hothers, hst, hmoves, hqueue⟩
  case refine_8 => exact fun hshare hjob => exec_query_leaves hasked hshare hjob

end Sys2Proof.Proofs
end

section
/-! The clauses of O50: the host's commands of membership (R345, R346) and its timers (R325, R327). -/

namespace Sys2Proof.Proofs

open Sys2Proof.Machine Sys2Proof.Laws

/-! Leaving a domain (R207, R345). -/

/-- LEAVE sent to every other member. -/
def leaveSent (s : State) (d cause : Nat) : State :=
  ((s.dom d).members.filter (fun p => p ≠ s.place)).foldl
    (fun t p => t.message d p 3 [(t.epoch d, 4), (t.place, 2), (cause, 1)]) s

/-- The domain at a module that has left it. -/
def leftDom (v : Dom) : Dom :=
  { v with
    members := [], joins := [], leaving := [], proposal := none, accepted := none, leaveDue := false
    haltedBy := none, reqs := [], colls := [], early := [], earlyTr := [], cfgDue := none }

/-- The registers of a domain that has been left. -/
def leftRegs (s : State) (d : Nat) : State :=
  let s := ((s.setF .COLL_DOM_STATE_EPOCH d 0).setF .COLL_DOM_STATE_MEMBERS d 0).setF .COLL_DOM_STATE_POSITION d 0
  let s := ((s.showOpen d).domBit .COLL_STATUS_MEMBER d false).domBit .COLL_STATUS_HALTED d false
  s.setDomState d (if s.domEnabled d then 5 else 0)

/-- The alert and the interrupts of a withdrawal (R428). -/
def withdrawalTold (s : State) : State := ((s.alert 3).interrupt 0 4).interruptAll 5

/-- A configuration that waited comes into force, if there is one (R345). -/
def cfgInForce (due : Option Nat) (d : Nat) (s : State) : State :=
  match due with
  | some c => s.putDomCfg d c
  | none => s

theorem leaveDom_member {s : State} {d : Nat} (cause : Nat) (hmember : s.isMember d = true) :
    s.leaveDom d cause = withdrawalTold (leftRegs (cfgInForce (s.dom d).cfgDue d
      (((leaveSent s d cause).withdrawEntry d cause).setDom d (leftDom (s.dom d)))) d) := by
  unfold State.leaveDom
  rw [hmember]
  rfl

theorem leaveSent_sent (s : State) (d cause : Nat) : Sent s (leaveSent s d cause) :=
  foldl_sent _ _ (fun t p => message_sent t d p 3 _) s

theorem cfgInForce_rest (due : Option Nat) (d : Nat) (s : State) :
    cfgInForce due d s = { s with regs := (cfgInForce due d s).regs } := by
  unfold cfgInForce
  split
  · rfl
  · rfl

theorem leftRegs_regsOut (s : State) (d : Nat) : RegsOut s (leftRegs s d) :=
  ((((((RegsOut.refl s).setF _ _ _).setF _ _ _).setF _ _ _).setF _ _ _).setF _ _ _).setF _ _ _ |>.setF _ _ _

theorem leftRegs_epoch (s : State) (d : Nat) : (leftRegs s d).f .COLL_DOM_STATE_EPOCH d = 0 := by
  simp [leftRegs, State.showOpen, State.domBit, State.setDomState, f_setF, fieldDesc]

/-- An alert changes registers, output and the SMBus target alone. -/
theorem alert_rest (s : State) (c : Nat) :
    s.alert c = { s with regs := (s.alert c).regs, out := (s.alert c).out, smb := (s.alert c).smb } := by
  unfold State.alert
  dsimp only
  split
  · rfl
  · rw [interrupt_regsOut]

theorem withdrawalTold_rest (s : State) : withdrawalTold s =
    { s with regs := (withdrawalTold s).regs, out := (withdrawalTold s).out, smb := (withdrawalTold s).smb } := by
  unfold withdrawalTold
  rw [interruptAll_regsOut, interrupt_regsOut, alert_rest]

theorem withdrawalTold_f (s : State) {n : FieldName} (i : Nat) (hn : n ≠ .HST_INT_CAUSE_CAUSE) :
    (withdrawalTold s).f n i = s.f n i := by
  rw [withdrawalTold, interruptAll_f _ _ _ _ hn, interrupt_f _ _ _ _ _ hn, alert_f _ _ _ _ hn]

/-- What leaving a domain leaves of it, what it shows, and its ledger entry (R207, R490, R502). -/
theorem leaveDom_shows {s : State} {d : Nat} (cause : Nat) (hmember : s.isMember d = true) :
    (s.leaveDom d cause).dom d = leftDom (s.dom d) ∧ (s.leaveDom d cause).f .COLL_DOM_STATE_EPOCH d = 0 ∧
      (s.leaveDom d cause).ledgQ =
        s.ledgQ ++ [⟨0x08, s.domId d + 2 ^ 32 * s.epoch d + 2 ^ 64 * (cause % 256), s.clkTime⟩] := by
  have hsent := leaveSent_sent s d cause
  have hid : (leaveSent s d cause).domId d = s.domId d := hsent.2 _ _ (by decide)
  have hepoch : (leaveSent s d cause).epoch d = s.epoch d := hsent.2 _ _ (by decide)
  have hentry : ((leaveSent s d cause).withdrawEntry d cause).ledgQ =
      s.ledgQ ++ [⟨0x08, s.domId d + 2 ^ 32 * s.epoch d + 2 ^ 64 * (cause % 256), s.clkTime⟩] := by
    rw [State.withdrawEntry, ledger_ledgQ, hid, hepoch, hsent.1]
    rfl
  rw [leaveDom_member cause hmember]
  generalize hleft : ((leaveSent s d cause).withdrawEntry d cause).setDom d (leftDom (s.dom d)) = u
  have hdom : u.dom d = leftDom (s.dom d) := by rw [← hleft, dom_setDom_same]
  have hqueue : u.ledgQ = ((leaveSent s d cause).withdrawEntry d cause).ledgQ := by rw [← hleft, ledgQ_setDom]
  refine ⟨?_, ?_, ?_⟩
  · rw [withdrawalTold_rest, leftRegs_regsOut, cfgInForce_rest]
    exact hdom
  · rw [withdrawalTold_f _ _ (by decide), leftRegs_epoch]
  · rw [withdrawalTold_rest, leftRegs_regsOut, cfgInForce_rest]
    exact hqueue.trans hentry

theorem collLeave_idle {s : State} {d : Nat} (hmember : s.isMember d = true) (hidle : s.openIn d = []) :
    collLeave d s = s.leaveDom d (2 ^ causeWithdraw) := by
  rw [collLeave, State.leaveWhenIdle, hmember, hidle, if_neg (by simp), if_pos (by simp)]

/-- While a step of the domain is open, a LEAVE waits (R345). -/
theorem collLeave_open {s : State} {d : Nat} (hmember : s.isMember d = true) (hopen : s.openIn d ≠ []) :
    collLeave d s = s.setDom d { s.dom d with leaveDue := true } := by
  rw [collLeave, State.leaveWhenIdle, hmember, if_neg (by simp), if_neg (by simpa using hopen)]

theorem collJoin_asks {s : State} {d : Nat} (henabled : s.domEnabled d = true) (hserving : s.serving = true)
    (houtside : s.isMember d = false) : collJoin d s = (s.sendJoin d).trigger d := by
  rw [collJoin, henabled, hserving, houtside, if_pos (by simp)]

/-! Commands at the convener (R346). -/

theorem collConvener_own {s : State} {d : Nat} (op place : Nat) (henabled : s.domEnabled d = true)
    (hconvenes : s.convener d = some s.place) :
    collConvener d op place s = if op = 3 then s.removePlace d place else s.forceDom d := by
  unfold collConvener State.convenerCmd
  rw [henabled, if_pos rfl, hconvenes]
  exact if_neg (not_not.2 rfl)

/-! A write of COLL_DOM_CFG (R345). -/

theorem targetAt_domCfg {d : Nat} (fn : Nat) (hd : d < 16) :
    targetAt fn (0xA100 + 16 * d) = .reg .coll 0 (0x100 + 16 * d) := by
  have hpage : (0xA100 + 16 * d) / 4096 = 10 := by omega
  have hword : 8 * ((0xA100 + 16 * d) % 4096 / 8) = 0x100 + 16 * d := by omega
  have hblock : pageBlock fn 10 = some (.coll, 0) := rfl
  unfold targetAt
  rw [hpage, hblock, hword, if_neg (by decide), if_neg (by simp; omega), if_neg (by simp; omega)]

/-- The registers of the domains' configurations hold RW fields, and none that a write of 1 clears. -/
theorem fieldsAt_domCfg {d : Nat} (hd : d < 16) :
    (fieldsAt .coll 0 (0x100 + 16 * d)).any (fun p => (fieldDesc p.1).access = .RW) = true ∧
      ∀ p ∈ fieldsAt .coll 0 (0x100 + 16 * d), (fieldDesc p.1).access ≠ .W1C := by
  have hall : ∀ d < 16, (fieldsAt .coll 0 (0x100 + 16 * d)).any (fun p => (fieldDesc p.1).access = .RW) = true ∧
      ∀ p ∈ fieldsAt .coll 0 (0x100 + 16 * d), (fieldDesc p.1).access ≠ .W1C := by decide +kernel
  exact hall d hd

/-- The collective block's one command register is COLL_CMD. -/
theorem command_coll_other (s : State) (fn u : Nat) {o : Nat} (w : Nat) (whole : Bool) (ho : o ≠ 8) :
    s.command fn .coll u o w whole = s := by
  unfold State.command
  split <;> simp_all

theorem writeRw_domCfg (s : State) {d : Nat} (v : Nat) (hd : d < 16) :
    s.writeRw 0 .coll 0 (0x100 + 16 * d) v = s.writeDomCfg d v := by
  have hin : 0x100 + 16 * d < 0x200 := by omega
  have haligned : (0x100 + 16 * d) % 16 = 0 := by omega
  simp [State.writeRw, hin, haligned]

/-- A member's write that keeps the domain enabled waits for the next epoch change. -/
theorem writeDomCfg_waits {s : State} {d v : Nat} (hmember : s.isMember d = true) (henables : bitAt v 32 = true) :
    s.writeDomCfg d v = s.setDom d { s.dom d with cfgDue := some v } := by
  rw [State.writeDomCfg, hmember, henables]
  rfl

theorem registerWrite_domCfg {s : State} {d v : Nat} (hd : d < 16) (hmember : s.isMember d = true)
    (henables : bitAt v 32 = true) (htxn : s.txnOpen 0 = false)
    (hserved : s.served 0 (.reg .coll 0 (0x100 + 16 * d)) = true) :
    registerWrite 0 (0xA100 + 16 * d) 8 v s =
      (s.setDom d { s.dom d with cfgDue := some v }).noteWrite allFns false (0xA100 + 16 * d) := by
  obtain ⟨hany, hw1c⟩ := fieldsAt_domCfg hd
  have haddr : 0xA100 + 16 * d - (0xA100 + 16 * d) % 8 = 0xA100 + 16 * d := by omega
  have hmay : s.mayWrite 0 .coll (0x100 + 16 * d) v = true := rfl
  refine (registerWrite_reg v (by simp [aligned]; omega) (targetAt_domCfg 0 hd) rfl hserved).trans ?_
  simp only [State.writeReg, htxn, hmay, hany, haddr, Bool.false_and, Bool.not_true, Bool.false_eq_true, if_true, if_false]
  rw [command_coll_other _ _ _ _ _ (by omega), clearWritten_of_noW1C _ _ _ hw1c, writeRw_domCfg s v hd,
    writeDomCfg_waits hmember henables]

theorem exec_collDomCfgWrite_waits {s : State} {d v : Nat} (hu : s.up) (hd : d < 16) (hv : v < 2 ^ 64)
    (hmember : s.isMember d = true) (henables : bitAt v 32 = true) (htxn : s.txnOpen 0 = false)
    (hserved : s.served 0 (.reg .coll 0 (0x100 + 16 * d)) = true) :
    ∃ t, exec (.collDomCfgWrite 0 d v) s = .next t ∧ t.dom d = { s.dom d with cfgDue := some v } ∧
      t = { s with out := [], doms := t.doms, txns := t.txns } := by
  have hrun := registerWrite_domCfg (s := fresh s) hd hmember henables htxn hserved
  have hnote := noteWrite_txns ((fresh s).setDom d { (fresh s).dom d with cfgDue := some v }) allFns false (0xA100 + 16 * d)
  rw [← hrun] at hnote
  refine ⟨_, by rw [exec_collDomCfgWrite, act_up (by simpa [hd] using hv) hu], ?_, ?_⟩
  · rw [hnote]
    exact dom_setDom_same (fresh s) d _
  · rw [hnote]
    rfl

/-! Timers (R325, R327). -/

/-- The listed places that have not announced, but this module's own. -/
def silentPlaces (s : State) (p : Proposal) : List Nat :=
  p.list.filter (fun x => !p.heard.any (fun h => h.1 = x) && x ≠ s.place)

/-- A proposal that has waited 100 ms for an announcement is made again without the silent places. -/
theorem proposeRetry_due {s : State} {d : Nat} {p : Proposal} (hproposal : (s.dom d).proposal = some p)
    (hdue : msec 100 ≤ s.now - p.since) (hwaits : ∃ x ∈ p.list, ∀ h ∈ p.heard, h.1 ≠ x) :
    proposeRetry d s = ((((s.setDom d { s.dom d with
      leaving := (s.dom d).leaving ++ (silentPlaces s p).filter (s.dom d).members.contains
      joins := (s.dom d).joins.filter (fun j => !(silentPlaces s p).contains j.1) }).tally .COLL_PROPOSE_RETRY 0 1).propose d
        (p.list.filter (fun x => !(silentPlaces s p).contains x)))) := by
  have hmissing : p.list.all (fun x => p.heard.any (fun h => h.1 = x)) = false := by
    obtain ⟨x, hx, hsilent⟩ := hwaits
    refine List.all_eq_false.2 ⟨x, hx, ?_⟩
    simpa only [List.any_eq_true, decide_eq_true_eq, not_exists, not_and] using hsilent
  unfold proposeRetry
  simp only [hproposal]
  rw [if_neg (by simp [Nat.not_lt.2 hdue, hmissing])]
  rfl

/-- A module that has announced and had no ADOPT for 200 ms asks to join again. -/
theorem adoptTimeout_due {s : State} {d : Nat} {a : Accepted} (haccepted : (s.dom d).accepted = some a)
    (hannounced : a.announced = true) (hdue : msec 200 ≤ s.now - a.since) : adoptTimeout d s =
      ((s.setDom d { s.dom d with accepted := none, proposal := none }).sendJoin d).trigger d := by
  unfold adoptTimeout
  simp only [haccepted]
  rw [if_neg (by simp [hannounced, hdue])]

theorem joinResend_due {s : State} {d : Nat} (hcandidate : s.f .COLL_DOM_STATE_STATE d = 1)
    (henabled : s.domEnabled d = true) (hdue : msec 100 ≤ s.now - (s.dom d).joinAt) :
    joinResend d s = (s.sendJoin d).trigger d := by
  unfold joinResend
  rw [if_neg (by simp [hcandidate, henabled, hdue])]

theorem memberStrike_due {s : State} {d place : Nat} (hconvenes : s.convener d = some s.place)
    (hmember : place ∈ (s.dom d).members) (hother : place ≠ s.place)
    (hdue : msec 50 ≤ s.now - FMap.get 0 (s.dom d).heardAt place) : memberStrike d place s = s.removePlace d place := by
  unfold memberStrike State.convenes
  rw [if_pos (by simp [hconvenes, hmember, hother, hdue])]

/-- Settles O50, command by command and timer by timer. -/
theorem membershipCommandsAndTimers : Obligations.MembershipCommandsAndTimers := by
  intro s d hu hd v
  have hok : decide (d < 16) = true := decide_eq_true hd
  refine ⟨fun henabled hserving houtside => ?_, fun hmember hopen => ?_, fun hmember hidle => ?_,
    fun place hplace henabled hconvenes => ⟨?_, ?_, fun hmember hother hdue => ?_⟩,
    fun fn val hfn hval hmember henables htxn hserved => ?_, fun p hproposal hdue hwaits => ?_,
    fun a haccepted hannounced hdue => ?_, fun hcandidate henabled hdue => ?_⟩
  · rw [exec_collCmdJoin, act_up hok hu, collJoin_asks (s := fresh s) henabled hserving houtside]
  · rw [exec_collCmdLeave, act_up hok hu, collLeave_open (s := fresh s) hmember hopen]
    rfl
  · obtain ⟨hdom, hepoch, hentry⟩ := leaveDom_shows (s := fresh s) (2 ^ causeWithdraw) hmember
    refine ⟨_, by rw [exec_collCmdLeave, act_up hok hu, collLeave_idle (s := fresh s) hmember hidle], rfl, ?_, ?_, hepoch,
      hentry⟩
    · exact congrArg Dom.members hdom
    · exact congrArg Dom.colls hdom
  · rw [exec_collCmdRemove, act_up (by simp [hd, hplace]) hu, collConvener_own (s := fresh s) _ _ henabled hconvenes]
    rfl
  · rw [exec_collCmdForce, act_up hok hu, collConvener_own (s := fresh s) _ _ henabled hconvenes]
    rfl
  · rw [exec_memberStrike, act_up (by simp [hd, hplace]) hu, memberStrike_due (s := fresh s) hconvenes hmember hother hdue]
  · subst hfn
    exact exec_collDomCfgWrite_waits hu hd hval hmember henables htxn hserved
  · rw [exec_proposeRetry, act_up hok hu, proposeRetry_due (s := fresh s) hproposal hdue hwaits]
    rfl
  · rw [exec_adoptTimeout, act_up hok hu, adoptTimeout_due (s := fresh s) haccepted hannounced hdue]
    rfl
  · rw [exec_joinResend, act_up hok hu, joinResend_due (s := fresh s) hcandidate henabled hdue]

end Sys2Proof.Proofs
end

section
/-! SUPPORT. What a port's sending changes of the ports (R309 to R312): of no other port anything, and of its own receiver
nothing. -/

namespace Sys2Proof.Proofs

open Sys2Proof.Machine Sys2Proof.Laws

/-- Two states that differ at port `p` alone, and there neither in the SEQ expected next nor in whether a NAK is out. -/
structure SendsOn (p : Nat) (s t : State) : Prop where
  others : ∀ q, q ≠ p → t.port q = s.port q
  rx : (t.port p).rx = (s.port p).rx
  naked : (t.port p).naked = (s.port p).naked

/-- Returning credits with a flit leaves the receiver alone. -/
theorem ackHead_receiver (v : Port) (h : Nat) : (ackHead v h).2.rx = v.rx ∧ (ackHead v h).2.naked = v.naked := by
  unfold ackHead
  cases v.give with
  | nil => exact ⟨rfl, rfl⟩
  | cons c rest => exact ⟨rfl, rfl⟩

namespace SendsOn

variable {p : Nat} {s t u : State}

theorem refl (p : Nat) (s : State) : SendsOn p s s := ⟨fun _ _ => rfl, rfl, rfl⟩

theorem trans (h : SendsOn p s t) (k : SendsOn p t u) : SendsOn p s u :=
  ⟨fun q hq => (k.others q hq).trans (h.others q hq), k.rx.trans h.rx, k.naked.trans h.naked⟩

theorem of_ports (h : SendsOn p s t) (hu : u.ports = t.ports) : SendsOn p s u := by
  have hport (q : Nat) : u.port q = t.port q := by rw [State.port, hu, State.port]
  exact h.trans ⟨fun q _ => hport q, by rw [hport], by rw [hport]⟩

theorem setPort (h : SendsOn p s t) {v : Port} (hrx : v.rx = (t.port p).rx) (hnaked : v.naked = (t.port p).naked) :
    SendsOn p s (t.setPort p v) :=
  h.trans ⟨fun q hq => by rw [port_setPort, if_neg (Ne.symm hq)], by rw [port_setPort_same, hrx],
    by rw [port_setPort_same, hnaked]⟩

theorem countTx (h : SendsOn p s t) : SendsOn p s (t.countTx p) := by
  unfold State.countTx
  dsimp only
  split
  · exact (h.setPort (by rfl) (by rfl)).of_ports rfl
  · exact h.setPort (by rfl) (by rfl)

theorem launch (h : SendsOn p s t) (head x : Nat) : SendsOn p s (t.launch p head x) := by
  obtain ⟨hrx, hnaked⟩ := ackHead_receiver (t.port p) (setBits head 8 12 (t.port p).tx)
  exact ((h.setPort (by exact hrx) (by exact hnaked)).countTx).of_ports rfl

theorem pump (h : SendsOn p s t) (n : Nat) : SendsOn p s (t.pump p n) := by
  induction n generalizing t with
  | zero => exact h
  | succ n ih =>
    unfold State.pump
    split
    · exact h
    · exact ih ((h.setPort (by rfl) (by rfl)).launch _ _)

theorem sendFlit (h : SendsOn p s t) (head x : Nat) : SendsOn p s (t.sendFlit p head x) := (h.setPort (by rfl) (by rfl)).pump 1

theorem sendBare (h : SendsOn p s t) (head : Nat) : SendsOn p s (t.sendBare p head) := by
  obtain ⟨hrx, hnaked⟩ := ackHead_receiver (t.port p) head
  exact (h.setPort hrx hnaked).of_ports rfl

end SendsOn

end Sys2Proof.Proofs
end

section
/-! The clauses of O47: ports train (R305 to R307, R313, R320), retrain (R316) and fall (R313). -/

namespace Sys2Proof.Proofs

open Sys2Proof.Machine Sys2Proof.Laws

/-! What a HELLO tells, and what it is compared with (R314, R317 to R320). -/

/-- Two states alike in the pattern and its generation, the straps and the depth of the clocks. -/
structure WiredAlike (s t : State) : Prop where
  boot : t.boot = s.boot
  clk : t.clk = s.clk
  bpos : t.bpos = s.bpos
  gen : t.f .PAT_STATUS_GEN 0 = s.f .PAT_STATUS_GEN 0

namespace WiredAlike

variable {s t : State}

theorem refl (s : State) : WiredAlike s s := ⟨rfl, rfl, rfl, rfl⟩

theorem setF (h : WiredAlike s t) {n : FieldName} (i v : Nat) (hn : n ∉ [FieldName.HST_STRAPS_BOARDPOS, .PAT_STATUS_GEN]) :
    WiredAlike s (t.setF n i v) where
  boot := h.boot
  clk := h.clk
  bpos := by
    rw [State.bpos, f_setF, if_neg (by rintro ⟨rfl, -⟩; simp at hn)]
    exact h.bpos
  gen := by
    rw [f_setF, if_neg (by rintro ⟨rfl, -⟩; simp at hn)]
    exact h.gen

theorem setPort (h : WiredAlike s t) (p : Nat) (v : Port) : WiredAlike s (t.setPort p v) := ⟨h.boot, h.clk, h.bpos, h.gen⟩

variable (h : WiredAlike s t)
include h

theorem patByte_eq : t.patByte = s.patByte := by
  funext k d
  rw [State.patByte, h.boot, State.patByte]

theorem tsize_eq : t.tsize = s.tsize := by
  funext d
  rw [State.tsize, h.patByte_eq, State.tsize]

theorem placeAt_eq : t.placeAt = s.placeAt := by
  funext c q
  rw [State.placeAt, h.tsize_eq, State.placeAt]

theorem board_eq : t.board = s.board := by simp only [State.board, State.coord, h.patByte_eq]

theorem setDim_eq : t.setDim = s.setDim := by
  funext j
  rw [State.setDim, State.dims, h.tsize_eq, State.setDim, State.dims]

theorem torusPort_eq : t.torusPort = s.torusPort := by
  funext p
  rw [State.torusPort, h.bpos, State.torusPort]

theorem nextBoard_eq : t.nextBoard = s.nextBoard := by
  funext d plus
  rw [State.nextBoard, h.board_eq, h.tsize_eq, State.nextBoard]

theorem cabled_eq (p : Nat) : t.cabled p = s.cabled p := by
  rw [State.cabled, State.dims, h.board_eq, h.tsize_eq, h.setDim_eq, h.torusPort_eq, h.nextBoard_eq, h.bpos]
  rfl

theorem peerAt_eq (p : Nat) : t.peerAt p = s.peerAt p := by
  rw [State.peerAt, h.cabled_eq, h.placeAt_eq, State.peerAt]

theorem helloFits_eq (p : Nat) (l : List Nat) : t.helloFits p l = s.helloFits p l := by
  rw [State.helloFits, h.cabled_eq, h.placeAt_eq, h.tsize_eq]
  rfl

theorem helloFields_eq (p : Nat) : t.helloFields p = s.helloFields p := by
  rw [State.helloFields, State.place, h.placeAt_eq, h.board_eq, h.tsize_eq, h.bpos, h.gen, h.clk]
  rfl

theorem sendHello_out (p : Nat) : (t.sendHello p).out =
    t.out ++ [.message ((s.peerAt p).getD 0) 1 ((s.helloFields p).set 1 s.boot.moduleId)] := by
  rw [State.sendHello, out_emit, h.peerAt_eq, h.helloFields_eq, h.boot]

end WiredAlike

/-! Training begins (R313). -/

/-- A port as training finds it: both ends start their sequence afresh, and what waits to go out still waits. -/
def portAfresh (v : Port) : Port :=
  { v with
    present := true, tx := 0, rx := 0, unacked := [], credits := [], give := [], streams := [], hello := none
    naked := false, ctrlLeft := 0 }

theorem portDetect_begins {s : State} {p : Nat} (hdown : s.f .SEAM_STATUS_STATE p = 0)
    (hgood : bitAt s.boot.badPorts p = false) :
    portDetect p s = ((s.setPort p (portAfresh (s.port p))).setF .SEAM_STATUS_STATE p 1).sendHello p := by
  unfold portDetect
  rw [if_neg (by simp [hdown, hgood])]
  rfl

theorem exec_portDetect_begins {s : State} {p : Nat} (hu : s.up) (hp : p < 16) (hdown : s.f .SEAM_STATUS_STATE p = 0)
    (hgood : bitAt s.boot.badPorts p = false) :
    ∃ t, exec (.portDetect p) s = .next t ∧ t.f .SEAM_STATUS_STATE p = 1 ∧
      t.out = [.message ((s.peerAt p).getD 0) 1 ((s.helloFields p).set 1 s.boot.moduleId)] ∧
      t.port p = portAfresh (s.port p) ∧ (∀ q, q ≠ p → t.port q = s.port q) ∧
      t = { s with out := t.out, ports := t.ports, regs := t.regs } ∧ SameRegs s t [(.SEAM_STATUS_STATE, p)] := by
  have hrun := portDetect_begins (s := fresh s) hdown hgood
  have hport : (fresh s).port p = s.port p := rfl
  rw [hport] at hrun
  generalize hv : portAfresh (s.port p) = v at *
  have halike : WiredAlike (fresh s) (((fresh s).setPort p v).setF .SEAM_STATUS_STATE p 1) :=
    ((WiredAlike.refl _).setPort _ _).setF _ _ (by decide)
  refine ⟨_, by rw [exec_portDetect, act_up (by simpa [portOk] using hp) hu, hrun], ?_, ?_, ?_, fun q hq => ?_, rfl, ?_⟩
  · exact f_setF_fits ((fresh s).setPort p v) (n := .SEAM_STATUS_STATE) (v := 1) p (by decide)
  · rw [out_wrap, halike.sendHello_out]
    rfl
  · exact port_setPort_same (fresh s) p v
  · exact (port_setPort (fresh s) p v q).trans (if_neg (Ne.symm hq))
  · exact Proofs.sameRegs_setF (t := (fresh s).setPort p v) (n := .SEAM_STATUS_STATE) (i := p) (fun _ _ _ => rfl) 1 (by simp)

/-! The peer's HELLO (R314, R315, R320). -/

/-- What the peer says of itself, as its registers show it. -/
def helloShown (s : State) (p : Nat) (l : List Nat) : State :=
  ((((s.setF .SEAM_STATUS_GEN p (natMin 1 (l.getD 0 0))).setF .SEAM_PEER_ID_PEER_ID p (l.getD 1 0)).setF
    .SEAM_STATUS_PEER_PLACE p (l.getD 2 0)).setF .SEAM_STATUS_PEER_PORT p (l.getD 10 0)).setF
      .SEAM_STATUS_PEER_DEPTH p (l.getD 12 31)

theorem helloShown_alike (s : State) (p : Nat) (l : List Nat) : WiredAlike s (helloShown s p l) :=
  (((((WiredAlike.refl s).setF _ _ (by decide)).setF _ _ (by decide)).setF _ _ (by decide)).setF _ _ (by decide)).setF _ _
    (by decide)

theorem hello_trains {s : State} {p : Nat} (l : List Nat) (htrains : s.f .SEAM_STATUS_STATE p = 1 ∨ s.f .SEAM_STATUS_STATE p = 7) :
    hello p l s = (helloShown s p l).setPort p { s.port p with hello := some (s.helloFits p l) } := by
  have hport : (helloShown s p l).port p = s.port p := rfl
  rw [← (helloShown_alike s p l).helloFits_eq, ← hport]
  unfold hello
  rw [if_neg (by rcases htrains with h | h <;> simp [h])]
  rfl

theorem exec_hello_notes {s : State} {p : Nat} (l : List Nat) (hu : s.up) (hp : p < 16)
    (htrains : s.f .SEAM_STATUS_STATE p = 1 ∨ s.f .SEAM_STATUS_STATE p = 7) :
    ∃ t, exec (.hello p l) s = .next t ∧ t.port p = { s.port p with hello := some (s.helloFits p l) } ∧
      t.f .SEAM_STATUS_GEN p = natMin 1 (l.getD 0 0) ∧ t.f .SEAM_PEER_ID_PEER_ID p = l.getD 1 0 % 2 ^ 64 ∧
      t.f .SEAM_STATUS_PEER_DEPTH p = l.getD 12 31 % 2 ^ 5 ∧ t = { s with out := [], ports := t.ports, regs := t.regs } ∧
      SameRegs s t [(.SEAM_STATUS_GEN, p), (.SEAM_PEER_ID_PEER_ID, p), (.SEAM_STATUS_PEER_PLACE, p),
        (.SEAM_STATUS_PEER_PORT, p), (.SEAM_STATUS_PEER_DEPTH, p)] := by
  have hrun := hello_trains (s := fresh s) l htrains
  have hgen : natMin 1 (l.getD 0 0) % 2 ^ 2 = natMin 1 (l.getD 0 0) := by
    refine Nat.mod_eq_of_lt ?_
    unfold natMin
    split
    · decide
    · omega
  refine ⟨_, by rw [exec_hello, act_up (by simpa [portOk] using hp) hu, hrun], ?_, ?_, ?_, ?_, rfl, ?_⟩
  · exact port_setPort_same (helloShown (fresh s) p l) p _
  · simpa [helloShown, f_setF, fieldDesc] using hgen
  · simp [helloShown, f_setF, fieldDesc]
  · simp [helloShown, f_setF, fieldDesc]
  · have hregs : SameRegs s (helloShown (fresh s) p l) [(.SEAM_STATUS_GEN, p), (.SEAM_PEER_ID_PEER_ID, p),
        (.SEAM_STATUS_PEER_PLACE, p), (.SEAM_STATUS_PEER_PORT, p), (.SEAM_STATUS_PEER_DEPTH, p)] :=
      Proofs.sameRegs_setF (Proofs.sameRegs_setF (Proofs.sameRegs_setF (Proofs.sameRegs_setF (Proofs.sameRegs_setF
        (t := fresh s) (fun _ _ _ => rfl) _ (by simp)) _ (by simp)) _ (by simp)) _ (by simp)) _ (by simp)
    exact hregs

/-! Training ends (R305 to R307, R320). -/

/-- The lanes that qualified at this end. -/
def ownLanes (lanes : List Nat) : List Nat := sortAsc (lanes.filter (fun l => l < 18))

/-- How many lanes qualified at the end that has fewer. -/
def weakerEnd (lanes : List Nat) : Nat :=
  lanes.foldl (fun n l => if 18 ≤ l then natMin n (l - 18) else n) (ownLanes lanes).length

section Training
variable {s : State} {p rtt : Nat} {lanes : List Nat} (hst : s.f .SEAM_STATUS_STATE p = 1)
include hst

theorem portUpEnd_miswired (hhello : (s.port p).hello = some false) :
    portUpEnd p lanes rtt s = (s.setF .SEAM_STATUS_STATE p 4).linkEntry p := by
  unfold portUpEnd
  simp only [hhello]
  rw [if_neg (by simp [hst])]
  rfl

theorem portUpEnd_far (hhello : (s.port p).hello = some true) (hfar : 2000 < rtt) :
    portUpEnd p lanes rtt s = (s.setF .SEAM_STATUS_STATE p 5).setF .SEAM_RTT_RTT p rtt := by
  unfold portUpEnd
  simp only [hhello]
  rw [if_neg (by simp [hst]), if_neg (by simp), if_pos hfar]

theorem portUpEnd_narrow (hhello : (s.port p).hello = some true) (hnear : rtt ≤ 2000) (hfew : weakerEnd lanes < 8) :
    portUpEnd p lanes rtt s = (s.setF .SEAM_STATUS_STATE p 0).setF .SEAM_STATUS_GEN p 0 := by
  unfold portUpEnd
  simp only [hhello]
  rw [if_neg (by simp [hst]), if_neg (by simp), if_neg (Nat.not_lt.2 hnear)]
  exact if_pos hfew

end Training

/-- A port comes up at full width with 16 lanes (R307). -/
def fullWidth (lanes : List Nat) : Bool := 16 ≤ weakerEnd lanes

/-- The lanes that a port uses. -/
def mappedLanes (lanes : List Nat) : List Nat := (ownLanes lanes).take (if fullWidth lanes then 16 else 8)

/-- The registers of a port that has come up. -/
def trainedRegs (s : State) (p : Nat) (lanes : List Nat) (rtt : Nat) : State :=
  let s := (s.setF .SEAM_STATUS_STATE p (if fullWidth lanes then 2 else 3)).setF .SEAM_RTT_RTT p rtt
  let s := s.setF .SEAM_LANES_UNUSED p (0x3FFFF - maskOf (mappedLanes lanes))
  let s := s.setF .SEAM_LANES_SPARES p (if fullWidth lanes then ((mappedLanes lanes).filter (fun l => 16 ≤ l)).length else 0)
  if fullWidth lanes then s else s.raise .SEAM_STATUS_HALF_SEEN p

/-- A port that has come up from training, with every credit. -/
def trainedPort (s : State) (p : Nat) (lanes : List Nat) (rtt : Nat) : State :=
  let s := trainedRegs s p lanes rtt
  s.setPort p { s.port p with credits := (portVcs p).map (fun c => (c, 128)) }

theorem portUpEnd_up {s : State} {p rtt : Nat} {lanes : List Nat} (hst : s.f .SEAM_STATUS_STATE p = 1)
    (hhello : (s.port p).hello = some true) (hnear : rtt ≤ 2000) (hlanes : 8 ≤ weakerEnd lanes) :
    portUpEnd p lanes rtt s = ((trainedPort s p lanes rtt).sourceCameUp p).pump p
      ((trainedPort s p lanes rtt).port p).waiting.length := by
  unfold portUpEnd
  extract_lets st v own weak
  rw [show v.hello = some true from hhello]
  dsimp -zeta only
  rw [if_neg (by simp [st, hst]), if_neg (by simp), if_neg (Nat.not_lt.2 hnear), if_neg (show ¬ weak < 8 from Nat.not_lt.2 hlanes)]
  rename_i full mapped r1 r2 r3 regs old opened
  have hregs : regs = trainedRegs s p lanes rtt := rfl
  have hopened : opened = trainedPort s p lanes rtt := by
    rw [trainedPort, ← hregs]
    exact if_pos hst
  rw [hopened]

theorem sourceCameUp_rest (s : State) (p : Nat) :
    s.sourceCameUp p = { s with boot := (s.sourceCameUp p).boot } := by
  unfold State.sourceCameUp
  split
  · rfl
  · rfl

theorem trainedRegs_ports (s : State) (p : Nat) (lanes : List Nat) (rtt : Nat) :
    (trainedRegs s p lanes rtt).ports = s.ports := by
  unfold trainedRegs
  split
  · rfl
  · rfl

/-- What a port that has come up shows: its round trip, its width, and the lanes it does not use. -/
theorem trainedRegs_shows (s : State) (p : Nat) (lanes : List Nat) {rtt : Nat} (hrtt : rtt < 65536) :
    (trainedRegs s p lanes rtt).f .SEAM_RTT_RTT p = rtt ∧
      (trainedRegs s p lanes rtt).f .SEAM_STATUS_STATE p = (if 16 ≤ weakerEnd lanes then 2 else 3) ∧
      (trainedRegs s p lanes rtt).f .SEAM_LANES_UNUSED p =
        (0x3FFFF - maskOf ((ownLanes lanes).take (if 16 ≤ weakerEnd lanes then 16 else 8))) % 2 ^ 18 ∧
      (weakerEnd lanes < 16 → (trainedRegs s p lanes rtt).f .SEAM_STATUS_HALF_SEEN p = 1) := by
  have hfits : rtt % 65536 = rtt := Nat.mod_eq_of_lt hrtt
  unfold trainedRegs mappedLanes
  by_cases hfull : 16 ≤ weakerEnd lanes
  · have hwidth : fullWidth lanes = true := decide_eq_true hfull
    simp [hfull, hwidth, f_setF, fieldDesc, hfits, Nat.not_lt.2 hfull]
  · have hwidth : fullWidth lanes = false := decide_eq_false hfull
    simp [hfull, hwidth, f_setF, fieldDesc, hfits]

/-- What coming up leaves of the registers and of the other ports. -/
theorem portUpEnd_up_keeps {s : State} {p rtt : Nat} {lanes : List Nat} (hst : s.f .SEAM_STATUS_STATE p = 1)
    (hhello : (s.port p).hello = some true) (hnear : rtt ≤ 2000) (hlanes : 8 ≤ weakerEnd lanes) :
    (∀ n i, n ≠ .SEAM_TX_MFLITS → (portUpEnd p lanes rtt s).f n i = (trainedRegs s p lanes rtt).f n i) ∧
      ∀ q, q ≠ p → (portUpEnd p lanes rtt s).port q = s.port q := by
  rw [portUpEnd_up hst hhello hnear hlanes]
  generalize hx : trainedPort s p lanes rtt = x
  have hreg (n : FieldName) (i : Nat) : (x.sourceCameUp p).f n i = (trainedRegs s p lanes rtt).f n i := by
    rw [sourceCameUp_rest, ← hx]
    rfl
  have hport (q : Nat) (hq : q ≠ p) : (x.sourceCameUp p).port q = s.port q := by
    rw [sourceCameUp_rest, ← hx]
    refine (port_setPort _ p _ q).trans ?_
    rw [if_neg (Ne.symm hq), State.port, trainedRegs_ports, State.port]
  refine ⟨fun n i hn => ((pump_sent _ p _).2 n i hn).trans (hreg n i), fun q hq => ?_⟩
  exact (((SendsOn.refl p _).pump _).others q hq).trans (hport q hq)

/-- The ends of training: not up with a wrong cabling, a round trip too long or too few lanes, and else at full or half width. -/
theorem exec_portUp_ends {s : State} {p rtt : Nat} (lanes : List Nat) (hu : s.up) (hp : p < 16) (hrtt : rtt < 65536)
    (hst : s.f .SEAM_STATUS_STATE p = 1) : ∃ t, exec (.portUp p lanes rtt) s = .next t ∧
      ((s.port p).hello = some false → t.f .SEAM_STATUS_STATE p = 4 ∧ t.ports = s.ports) ∧
      ((s.port p).hello = some true → 2000 < rtt → t.f .SEAM_STATUS_STATE p = 5 ∧ t.f .SEAM_RTT_RTT p = rtt ∧
        t.ports = s.ports) ∧
      ((s.port p).hello = some true → rtt ≤ 2000 → weakerEnd lanes < 8 → t.f .SEAM_STATUS_STATE p = 0 ∧ t.ports = s.ports) ∧
      ((s.port p).hello = some true → rtt ≤ 2000 → 8 ≤ weakerEnd lanes → t.f .SEAM_RTT_RTT p = rtt ∧
        t.f .SEAM_STATUS_STATE p = (if 16 ≤ weakerEnd lanes then 2 else 3) ∧
        t.f .SEAM_LANES_UNUSED p =
          (0x3FFFF - maskOf ((ownLanes lanes).take (if 16 ≤ weakerEnd lanes then 16 else 8))) % 2 ^ 18 ∧
        (weakerEnd lanes < 16 → t.f .SEAM_STATUS_HALF_SEEN p = 1) ∧ ∀ q, q ≠ p → t.port q = s.port q) := by
  have hst' : (fresh s).f .SEAM_STATUS_STATE p = 1 := hst
  refine ⟨_, by rw [exec_portUp, act_up (by simp [portOk, hp, hrtt]) hu], fun hhello => ?_, fun hhello hfar => ?_,
    fun hhello hnear hfew => ?_, fun hhello hnear hlanes => ?_⟩
  · rw [portUpEnd_miswired hst' hhello, f_read_wrap, State.linkEntry, ledger_f _ _ _ _ _ (by decide)]
    exact ⟨f_setF_fits (fresh s) (n := .SEAM_STATUS_STATE) (v := 4) p (by decide), rfl⟩
  · rw [portUpEnd_far hst' hhello hfar, f_read_wrap, f_setF, if_neg (by simp)]
    exact ⟨f_setF_fits (fresh s) (n := .SEAM_STATUS_STATE) (v := 5) p (by decide),
      f_setF_fits _ (n := .SEAM_RTT_RTT) p hrtt, rfl⟩
  · rw [portUpEnd_narrow hst' hhello hnear hfew, f_read_wrap, f_setF, if_neg (by simp)]
    exact ⟨f_setF_fits (fresh s) (n := .SEAM_STATUS_STATE) (v := 0) p (by decide), rfl⟩
  · obtain ⟨hregs, hports⟩ := portUpEnd_up_keeps hst' hhello hnear hlanes
    obtain ⟨htrip, hwidth, hunused, hhalf⟩ := trainedRegs_shows (fresh s) p lanes hrtt
    exact ⟨(hregs _ _ (by decide)).trans htrip, (hregs _ _ (by decide)).trans hwidth, (hregs _ _ (by decide)).trans hunused,
      fun hnarrow => (hregs _ _ (by decide)).trans (hhalf hnarrow), hports⟩

/-! Retraining (R316). -/

/-- The times of a port's retrains within the last 60 s, with one now. -/
def retrainTimes (s : State) (p : Nat) : List Nat := s.now :: (s.port p).retrains.filter (fun t => s.now < t + sec 60)

/-- A port's retrain noted and counted. -/
def retrainNoted (s : State) (p : Nat) : State :=
  let t := (s.setPort p { s.port p with retrains := retrainTimes s p, hello := none, naked := false }).tally .SEAM_RETRAIN p 1
  { t with meters := { t.meters with retrains := FMap.upd 0 t.meters.retrains p (fun n => n + 1) } }

/-- A port retired until the next module reset. -/
def portRetired (s : State) (p : Nat) : State :=
  ((s.setF .SEAM_STATUS_STATE p 6).setF .SEAM_STATUS_GEN p 0).raise .SEAM_STATUS_RETIRED_SEEN p

theorem retrainPort_eq (s : State) (p : Nat) : s.retrainPort p =
    if 8 < (retrainTimes s p).length then (portRetired (retrainNoted s p) p).linkEntry p
    else (((retrainNoted s p).setF .SEAM_STATUS_STATE p 7).linkEntry p).sendHello p := rfl

theorem linkEntry_f (s : State) (p : Nat) {n : FieldName} (i : Nat) (hn : n ≠ .LEDG_STATUS_QUEUE) :
    (s.linkEntry p).f n i = s.f n i := ledger_f s _ _ n i hn

theorem linkEntry_ledgQ (s : State) (p : Nat) : ∃ e, (s.linkEntry p).ledgQ = s.ledgQ ++ [e] ∧ e.type = 0x05 := by
  rw [State.linkEntry, ledger_ledgQ]
  exact ⟨_, rfl, rfl⟩

theorem retrainNoted_count (s : State) (p : Nat) :
    (retrainNoted s p).f .SEAM_RETRAIN p = satAdd (s.f .SEAM_RETRAIN p) 1 :=
  f_tally_same (s.setPort p { s.port p with retrains := retrainTimes s p, hello := none, naked := false }) p 1 rfl

theorem retrainNoted_port (s : State) (p : Nat) :
    (retrainNoted s p).port p = { s.port p with retrains := retrainTimes s p, hello := none, naked := false } :=
  port_setPort_same s p _

/-- What a retrain counts, keeps and shows; the ninth within 60 s retires the port. -/
theorem retrainPort_shows (s : State) (p : Nat) :
    (s.retrainPort p).f .SEAM_RETRAIN p = satAdd (s.f .SEAM_RETRAIN p) 1 ∧
      (s.retrainPort p).port p = { s.port p with retrains := retrainTimes s p, hello := none, naked := false } ∧
      (s.retrainPort p).f .SEAM_STATUS_STATE p = (if 8 < (retrainTimes s p).length then 6 else 7) ∧
      (8 < (retrainTimes s p).length → (s.retrainPort p).f .SEAM_STATUS_RETIRED_SEEN p = 1 ∧ (s.retrainPort p).out = s.out) ∧
      ∃ e, (s.retrainPort p).ledgQ = s.ledgQ ++ [e] ∧ e.type = 0x05 := by
  have hcount := retrainNoted_count s p
  have hport := retrainNoted_port s p
  rw [retrainPort_eq]
  generalize hx : retrainNoted s p = x at *
  have hout : x.out = s.out := by rw [← hx]; rfl
  have hqueue : x.ledgQ = s.ledgQ := by rw [← hx]; rfl
  by_cases hnine : 8 < (retrainTimes s p).length
  · rw [if_pos hnine, if_pos hnine, ← hqueue, linkEntry_f _ _ _ (by decide), linkEntry_f _ _ _ (by decide),
      linkEntry_f _ _ _ (by decide)]
    refine ⟨?_, hport, ?_, fun _ => ⟨?_, hout⟩, linkEntry_ledgQ (portRetired x p) p⟩
    · simpa [portRetired, f_setF] using hcount
    · simp [portRetired, f_setF, fieldDesc]
    · simp [portRetired, f_setF, fieldDesc]
  · rw [if_neg hnine, if_neg hnine, ← hqueue]
    refine ⟨?_, hport, ?_, fun h => absurd h hnine, linkEntry_ledgQ (x.setF .SEAM_STATUS_STATE p 7) p⟩
    · refine (linkEntry_f _ _ _ (by decide)).trans ?_
      rw [f_setF, if_neg (by simp)]
      exact hcount
    · exact (linkEntry_f _ _ _ (by decide)).trans (f_setF_fits x (n := .SEAM_STATUS_STATE) (v := 7) p (by decide))

/-! The signal is lost (R313). -/

theorem signalLoss_falls {s : State} {p : Nat} (hstays : s.f .SEAM_STATUS_STATE p ≠ 6) : signalLoss p s =
    ((s.setPort p { s.port p with present := false, hello := none }).setF .SEAM_STATUS_STATE p 0).setF
      .SEAM_STATUS_GEN p 0 := by
  unfold signalLoss
  exact if_neg hstays

theorem exec_signalLoss_falls {s : State} {p : Nat} (hu : s.up) (hp : p < 16) (hstays : s.f .SEAM_STATUS_STATE p ≠ 6) :
    ∃ t, exec (.signalLoss p) s = .next t ∧ t.f .SEAM_STATUS_STATE p = 0 ∧ t.f .SEAM_STATUS_GEN p = 0 ∧
      t.port p = { s.port p with present := false, hello := none } ∧ (∀ q, q ≠ p → t.port q = s.port q) ∧
      t = { s with out := [], ports := t.ports, regs := t.regs } ∧
      SameRegs s t [(.SEAM_STATUS_STATE, p), (.SEAM_STATUS_GEN, p)] := by
  have hrun := signalLoss_falls (s := fresh s) hstays
  have hport : (fresh s).port p = s.port p := rfl
  rw [hport] at hrun
  generalize hv : ({ s.port p with present := false, hello := none } : Port) = v at *
  refine ⟨_, by rw [exec_signalLoss, act_up (by simpa [portOk] using hp) hu, hrun], ?_, ?_, ?_, fun q hq => ?_, rfl, ?_⟩
  · simp [f_setF, fieldDesc]
  · simp [f_setF, fieldDesc]
  · exact port_setPort_same (fresh s) p v
  · exact (port_setPort (fresh s) p v q).trans (if_neg (Ne.symm hq))
  · exact Proofs.sameRegs_setF (n := .SEAM_STATUS_GEN) (i := p) (Proofs.sameRegs_setF (t := (fresh s).setPort p v)
      (n := .SEAM_STATUS_STATE) (i := p) (fun _ _ _ => rfl) 0 (by simp)) 0 (by simp)

/-- Settles O47, clause by clause. -/
theorem portsTrainRetrainAndFall : Obligations.PortsTrainRetrainAndFall := by
  refine ⟨fun s p hu hp hdown hgood => ?_, fun s p l hu hp htrains => exec_hello_notes l hu hp htrains,
    fun s p rtt lanes hu hp hrtt hst => exec_portUp_ends lanes hu hp hrtt hst, fun s p hu hp hup => ?_,
    fun s p hu hp hstays => exec_signalLoss_falls hu hp hstays⟩
  · obtain ⟨t, hrun, hstate, hout, hport, hothers, hrest, hregs⟩ := exec_portDetect_begins hu hp hdown hgood
    refine ⟨t, hrun, hstate, hout, ?_, ?_, ?_, ?_, ?_, hothers, hrest, hregs⟩
    all_goals rw [hport]; rfl
  · have hexec : exec (.retrain p) s = .next (wrap s ((fresh s).retrainPort p)) := by
      rw [exec_retrain, act_up (by simpa [portOk] using hp) hu, whenever_of (by exact hup)]
    exact ⟨_, hexec, retrainPort_shows (fresh s) p⟩

end Sys2Proof.Proofs
end

section
/-! SUPPORT. An engine's wait and work for a swatch leave the seam ports alone (R264, R271, R277). -/

namespace Sys2Proof.Proofs

open Sys2Proof.Machine Sys2Proof.Laws

/-! The two states of each lemma have the same ports. -/

theorem foldl_ports {α : Type} (l : List α) {g : State → α → State} (hg : ∀ u a, (g u a).ports = u.ports) (s : State) :
    (l.foldl g s).ports = s.ports :=
  List.foldlRecOn (motive := fun t : State => t.ports = s.ports) _ _ rfl (fun u hu a _ => (hg u a).trans hu)

theorem andThen_state (a : TierAct) (f : State → State) : (a.andThen f).state = f a.state := by
  cases a with
  | ok t => rfl
  | wait t c => rfl
  | fail t c => rfl
  | held t => rfl

theorem promote_ports (s : State) (b t place cls k : Nat) (req : Option TierReq) :
    (s.promote b t place cls k req).state.ports = s.ports := by
  have hat (u : State) : (u.promoteAt b t place cls k req).state.ports = u.ports := by
    rw [((TierWork.refl u).promoteAt b t place cls k req).1]
  have hcancel : (s.cancelMove b).ports = s.ports := by
    have habandoned : (s.abandonMove b).ports = s.ports := by rw [((TierWork.refl s).abandonMove b).1]
    exact habandoned
  unfold State.promote
  extract_lets e held v w
  split
  · exact hat s
  · split
    · rw [andThen_state, ((TierWork.refl _).afterMove b held).1]
      exact (hat _).trans hcancel
    · have hw : w.ports = s.ports := by
        simp only [w]
        split
        · rfl
        · rfl
      rw [((TierWork.refl w).holdReq b _).1]
      exact hw

theorem waitAs_ports (s : State) (k cause key : Nat) (stuck : Bool) : (s.waitAs k cause key stuck).ports = s.ports := by
  unfold State.waitAs
  split
  · rfl
  · rfl

theorem raiseMove_ports (s : State) (b : Nat) : (s.raiseMove b).ports = s.ports := by
  unfold State.raiseMove
  split
  · rfl
  · rfl

theorem await_ports (s : State) (b k region : Nat) (demand stuck : Bool) :
    (s.await b k region demand stuck).ports = s.ports := by
  unfold State.await
  split
  · exact waitAs_ports _ _ _ _ _
  · refine (waitAs_ports _ _ _ _ _).trans ?_
    split
    · exact (promote_ports _ _ _ _ _ _ _).trans (raiseMove_ports s b)
    · split
      · exact raiseMove_ports s b
      · rfl

theorem awaitAll_ports (s : State) (k : Nat) (rd wr : List Nat) (stuck : Bool) :
    (s.awaitAll k rd wr stuck).ports = s.ports := by
  have hgo (write : Bool) (u : State) (b : Nat) :
      (match u.serve b (fun e => u.shareAllows e k write) with
        | .waits demand => u.await b k (u.firstRegion k) demand stuck
        | _ => u).ports = u.ports := by
    split
    · exact await_ports _ _ _ _ _ _
    · rfl
  exact (foldl_ports wr (hgo true) _).trans (foldl_ports rd (hgo false) s)

theorem deny_ports (s : State) (b k : Nat) : (s.deny b k).ports = s.ports := by
  rw [State.deny, ((StepsBroken.refl (s.tally .DIR_DENIED (hubOf b) 1)).failStep k causeBroken).1]
  rfl

theorem withShare_ports (s : State) (k : Nat) (rd wr : List Nat) {f : State → State} (hf : ∀ u, (f u).ports = u.ports) :
    (s.withShare k rd wr f).ports = s.ports := by
  unfold State.withShare
  extract_lets noRead noWrite denied hidden kept worked shown
  have hdenied : denied.ports = s.ports := foldl_ports _ (fun u b => deny_ports u b k) s
  have hdirs (e : Nat × DirEntry → DirEntry) (u : State) : (hidden.foldl (fun x p => x.setDir p.1 (e p)) u).ports = u.ports :=
    foldl_ports hidden (fun _ _ => by rfl) u
  have hworked : worked.ports = s.ports := ((hf _).trans (hdirs (fun _ => {}) denied)).trans hdenied
  exact (foldl_ports kept (fun _ _ => by rfl) shown).trans ((hdirs Prod.snd worked).trans hworked)

theorem engine_ports (s : State) (k : Nat) (rd wr : List (Nat × Nat)) {f : State → State} (hf : ∀ u, (f u).ports = u.ports) :
    (s.engine k rd wr f).ports = s.ports := by
  have hstreams (u : State) : (u.streams rd wr).ports = u.ports := by rw [((Cached.refl u).streams rd wr).1]
  unfold State.engine State.engineAs
  dsimp only
  split
  · exact withShare_ports _ _ _ _ (fun u => (hf _).trans (hstreams u))
  · exact awaitAll_ports _ _ _ _ _

end Sys2Proof.Proofs
end

section
/-! The clauses of O48: flits delivered in order, asked for again and replayed (R309 to R312). -/

namespace Sys2Proof.Proofs

open Sys2Proof.Machine Sys2Proof.Laws

/-! What the taking of a sequence leaves alone (R330, R331). -/

theorem updColl_ports (s : State) (d seq : Nat) (f : Coll → Coll) : (s.updColl d seq f).ports = s.ports := by
  rw [updColl_rest]

theorem takePlane_ports (s : State) (d : Nat) (x : Nat × Part) : (s.takePlane d x).ports = s.ports := by
  unfold State.takePlane
  extract_lets k span v n bs gone
  split
  · rfl
  · refine engine_ports s k _ _ (fun u => ?_)
    have hwritten : Stored (gone u) (((gone u).putDev (spWork v) (bs.take n)).putDev (spWscale v) (bs.drop n)) :=
      ((Stored.refl _).putDev _ _).putDev _ _
    have hports : (((gone u).putDev (spWork v) (bs.take n)).putDev (spWscale v) (bs.drop n)).ports = u.ports := by
      rw [hwritten.1]
      rfl
    exact hports

theorem arrive_ports (s : State) (d epoch seq : Nat) (x : Part) : (s.arrive d epoch seq x).ports = s.ports := by
  unfold State.arrive
  dsimp only
  split
  · rfl
  · split
    · split
      · exact foldl_ports _ (fun u p => takePlane_ports u d p) _
      · rfl
    · split
      · rfl
      · split
        · rfl
        · split
          · rfl
          · rfl

/-! Receivers. -/

/-- Two states in which every port expects the same SEQ next and has a NAK out or has none. -/
def ReceiversKept (s t : State) : Prop := ∀ q, (t.port q).rx = (s.port q).rx ∧ (t.port q).naked = (s.port q).naked

namespace ReceiversKept

variable {s t u : State}

theorem refl (s : State) : ReceiversKept s s := fun _ => ⟨rfl, rfl⟩

theorem trans (h : ReceiversKept s t) (k : ReceiversKept t u) : ReceiversKept s u :=
  fun q => ⟨(k q).1.trans (h q).1, (k q).2.trans (h q).2⟩

theorem of_ports (h : ReceiversKept s t) (hu : u.ports = t.ports) : ReceiversKept s u := by
  have hport (q : Nat) : u.port q = t.port q := by rw [State.port, hu, State.port]
  exact h.trans (fun q => by rw [hport]; exact ⟨rfl, rfl⟩)

theorem of_sends {p : Nat} (h : SendsOn p s t) : ReceiversKept s t := by
  intro q
  by_cases hq : q = p
  · subst hq
    exact ⟨h.rx, h.naked⟩
  · rw [h.others q hq]
    exact ⟨rfl, rfl⟩

theorem setPort (h : ReceiversKept s t) {p : Nat} {v : Port} (hrx : v.rx = (t.port p).rx)
    (hnaked : v.naked = (t.port p).naked) : ReceiversKept s (t.setPort p v) :=
  h.trans (of_sends ((SendsOn.refl p t).setPort hrx hnaked))

theorem countRx (h : ReceiversKept s t) (p : Nat) : ReceiversKept s (t.countRx p) := by
  unfold State.countRx
  dsimp only
  split
  · exact (h.setPort (p := p) (v := { t.port p with rxPart := 0 }) rfl rfl).of_ports rfl
  · exact h.setPort rfl rfl

theorem relay (h : ReceiversKept s t) (p head x : Nat) : ReceiversKept s (t.relay p head x) := by
  unfold State.relay
  split
  · exact h
  · exact h.trans (of_sends ((SendsOn.refl _ t).sendFlit _ _))

theorem takeCtrl (h : ReceiversKept s t) (p x : Nat) : ReceiversKept s (t.takeCtrl p x) := by
  unfold State.takeCtrl
  dsimp only
  split
  · exact h.setPort rfl rfl
  · split
    · exact h.of_ports rfl
    · split
      · exact h
      · exact h.setPort rfl rfl

theorem takeData (h : ReceiversKept s t) (p head x : Nat) : ReceiversKept s (t.takeData p head x) := by
  unfold State.takeData
  extract_lets v bs fs len whole w
  have hw : ReceiversKept s w := h.setPort rfl rfl
  clear_value w
  split
  · exact hw.of_ports rfl
  · extract_lets y sender
    have hy : ReceiversKept s y := hw.of_ports (updColl_ports w _ _ _)
    split
    · exact hw.of_ports rfl
    · split
      · exact hy
      · exact hy.of_ports (arrive_ports _ _ _ _ _)

theorem pump (h : ReceiversKept s t) (p n : Nat) : ReceiversKept s (t.pump p n) :=
  h.trans (of_sends ((SendsOn.refl p t).pump n))

theorem idleBack (h : ReceiversKept s t) (p : Nat) : ReceiversKept s (t.idleBack p) := by
  unfold State.idleBack
  split
  · exact h
  · exact h.trans (of_sends ((SendsOn.refl p t).sendBare _))

end ReceiversKept

/-! The flit expected next (R309, R310). -/

/-- A port that has received the flit it expected, whose credit goes back. -/
def received (v : Port) (h : Nat) : Port :=
  { v with rx := (v.rx + 1) % 4096, naked := false, give := FMap.upd 0 v.give (vcOf h) (fun n => n + 1) }

/-- A flit delivered moves the receiver on by one, and no NAK is out any more. -/
theorem deliver_receiver (s : State) (p h x : Nat) :
    ((s.deliver p h x).port p).rx = ((s.port p).rx + 1) % 4096 ∧ ((s.deliver p h x).port p).naked = false := by
  generalize hw : s.setPort p (received (s.port p) h) = w
  have hport : (w.port p).rx = ((s.port p).rx + 1) % 4096 ∧ (w.port p).naked = false := by
    rw [← hw, port_setPort_same]
    exact ⟨rfl, rfl⟩
  unfold State.deliver
  extract_lets v u
  have hu : ReceiversKept w u := hw ▸ (ReceiversKept.refl _).countRx p
  clear_value u
  have hkept {t : State} (ht : ReceiversKept w t) : (t.port p).rx = ((s.port p).rx + 1) % 4096 ∧ (t.port p).naked = false :=
    ⟨(ht p).1.trans hport.1, (ht p).2.trans hport.2⟩
  split
  · exact hkept (hu.relay p h x)
  · split
    · exact hkept (hu.takeData p h x)
    · exact hkept (hu.takeCtrl p x)

theorem takeAck_receiver (s : State) (p h : Nat) : ((s.takeAck p h).port p).rx = (s.port p).rx := by
  rw [State.takeAck, port_setPort_same]

/-- An error-free DATA or CTRL flit of the expected SEQ is delivered, and what waits goes out. -/
theorem flitReceive_expected {s : State} {p h : Nat} (x : Nat) (htype : hType h = 1 ∨ hType h = 2) (hclass : hClass h ≤ 5)
    (hseq : hSeq h = (s.port p).rx) : flitReceive p h x [] true s =
      let u := (s.takeAck p h).deliver p h x
      (u.pump p (u.port p).waiting.length).idleBack p := by
  have hrx := takeAck_receiver s p h
  unfold flitReceive
  extract_lets e t w y
  have he : e = (0, 0) := rfl
  have ht : t = s := if_pos (by rw [he]; decide)
  have hsound : (!true || decide (3 < e.1) || decide (3 < e.2) || decide (4 < hType h) ||
      (decide (5 < hClass h) && decide (1 ≤ hType h) && decide (hType h ≤ 2))) = false := by
    have h4 : ¬ 4 < hType h := by omega
    simp [he, h4, Nat.not_lt.2 hclass]
  have hw : w = s.takeAck p h := by rw [← ht]
  have hy : y = (s.takeAck p h).deliver p h x := by
    rw [← hw] at hrx ⊢
    simp only [y]
    rw [if_neg (by omega), if_pos (by simpa using htype), if_pos (hseq.trans hrx.symm)]
  rw [hsound, if_neg (by decide), hy]

theorem exec_flitReceive_expected {s : State} {p h : Nat} (x : Nat) (hu : s.up) (hp : p < 16) (hh : h < 2 ^ 64)
    (hup : s.portUp p = true) (htype : hType h = 1 ∨ hType h = 2) (hclass : hClass h ≤ 5) (hseq : hSeq h = (s.port p).rx) :
    ∃ t, exec (.flitReceive p h x [] true) s = .next t ∧
      (let u := ((fresh s).takeAck p h).deliver p h x
       t = wrap s ((u.pump p (u.port p).waiting.length).idleBack p)) ∧
      (t.port p).rx = ((s.port p).rx + 1) % 4096 ∧ (t.port p).naked = false := by
  have hrun := flitReceive_expected (s := fresh s) x htype hclass hseq
  have hexec : exec (.flitReceive p h x [] true) s = .next (wrap s (flitReceive p h x [] true (fresh s))) := by
    rw [exec_flitReceive, act_up (by simpa [portOk, hp] using hh) hu, whenever_of (by exact hup)]
  obtain ⟨hrx, hnaked⟩ := deliver_receiver ((fresh s).takeAck p h) p h x
  rw [takeAck_receiver] at hrx
  rw [hrun] at hexec
  generalize ((fresh s).takeAck p h).deliver p h x = u at *
  obtain ⟨hrxKept, hnakedKept⟩ := (((ReceiversKept.refl u).pump p (u.port p).waiting.length).idleBack p) p
  exact ⟨_, hexec, rfl, hrxKept.trans hrx, hnakedKept.trans hnaked⟩

/-! A flit in error (R310). -/

/-- The state in which a flit with a bad CRC is asked for again: corrected symbols are counted. -/
def flitCounted (s : State) (p : Nat) (err : List Nat) : State :=
  let e := fecErrors err
  if e = (0, 0) || 3 < e.1 || 3 < e.2 then s else s.tally .SEAM_FEC_CORR p 1

theorem flitReceive_bad (s : State) (p h x : Nat) (err : List Nat) :
    flitReceive p h x err false s = (flitCounted s p err).sendNak p := rfl

theorem flitCounted_regs (s : State) (p : Nat) (err : List Nat) :
    flitCounted s p err = { s with regs := (flitCounted s p err).regs } ∧
      SameRegs s (flitCounted s p err) [(.SEAM_FEC_CORR, p)] := by
  unfold flitCounted
  dsimp only
  split
  · exact ⟨rfl, fun _ _ _ => rfl⟩
  · exact ⟨rfl, Proofs.sameRegs_setF (t := s) (fun _ _ _ => rfl) _ (by simp)⟩

/-- The first NAK goes out with the flit that asks for the SEQ expected next. -/
theorem sendNak_first {s : State} {p : Nat} (hfirst : (s.port p).naked = false) : s.sendNak p =
    (s.setPort p { s.port p with naked := true }).sendBare p (flitHead 4 0 false 0 0) := by
  rw [State.sendNak, hfirst]
  rfl

theorem exec_flitReceive_bad {s : State} {p h : Nat} (x : Nat) (err : List Nat) (hu : s.up) (hp : p < 16) (hh : h < 2 ^ 64)
    (hup : s.portUp p = true) (hfirst : (s.port p).naked = false) :
    ∃ t, exec (.flitReceive p h x err false) s = .next t ∧ (t.port p).naked = true ∧ (t.port p).rx = (s.port p).rx ∧
      t.out = [.flit p (ackHead { s.port p with naked := true } (flitHead 4 0 false 0 0)).1 0] ∧
      (∀ q, q ≠ p → t.port q = s.port q) ∧ t = { s with out := t.out, ports := t.ports, regs := t.regs } ∧
      SameRegs s t [(.SEAM_FEC_CORR, p)] := by
  have hexec : exec (.flitReceive p h x err false) s = .next (wrap s (flitReceive p h x err false (fresh s))) := by
    rw [exec_flitReceive, act_up (by simpa [portOk, hp] using hh) hu, whenever_of (by exact hup)]
  obtain ⟨hrest, hregs⟩ := flitCounted_regs (fresh s) p err
  rw [flitReceive_bad] at hexec
  generalize flitCounted (fresh s) p err = c at *
  have hport (q : Nat) : c.port q = s.port q := by rw [hrest]; rfl
  rw [sendNak_first (by rw [hport]; exact hfirst), hport] at hexec
  generalize hv : ({ s.port p with naked := true } : Port) = v at *
  have hasked := (SendsOn.refl p (c.setPort p v)).sendBare (flitHead 4 0 false 0 0)
  refine ⟨_, hexec, ?_, ?_, ?_, fun q hq => ?_, ?_, hregs⟩
  · refine hasked.naked.trans ?_
    rw [port_setPort_same, ← hv]
  · refine hasked.rx.trans ?_
    rw [port_setPort_same, ← hv]
  · rw [out_wrap, State.sendBare, out_emit, port_setPort_same, out_setPort, hrest]
    rfl
  · exact ((hasked.others q hq).trans ((port_setPort c p v q).trans (if_neg (Ne.symm hq)))).trans (hport q)
  · rw [hrest]
    rfl

/-! Replay (R310). -/

/-- A flit as it goes out again. -/
def replayed (now : Nat) (f : Flit) : Flit := { f with replays := f.replays + 1, sentAt := now }

/-- The unacknowledged flits before the one named have other numbers. -/
theorem findIdx_seq {before rest : List Flit} {f : Flit} (hbefore : ∀ g ∈ before, g.seq ≠ f.seq) :
    (before ++ f :: rest).findIdx (fun g => g.seq = f.seq) = before.length := by
  have hnone : before.findIdx (fun g => g.seq = f.seq) = before.length :=
    List.findIdx_eq_length.2 (fun g hg => by simpa using hbefore g hg)
  rw [List.findIdx_append, hnone, if_neg (Nat.lt_irrefl _), List.findIdx_cons]
  simp

theorem emitFlits (p now : Nat) (l : List Flit) (s : State) :
    (l.map (replayed now)).foldl (fun t f => t.emit (.flit p f.header f.payload)) s =
      { s with out := s.out ++ l.map (fun g => .flit p g.header g.payload) } := by
  induction l generalizing s with
  | nil => simp
  | cons g l ih =>
    rw [List.map_cons, List.foldl_cons, ih]
    simp [State.emit, replayed]

/-- The flits from the one named on go again, in order, and are counted; with fewer than 16 replays of each the port does not
retrain. -/
theorem replayFrom_replays {s : State} {p : Nat} {f : Flit} {before rest : List Flit}
    (hunacked : (s.port p).unacked = before ++ f :: rest) (hbefore : ∀ g ∈ before, g.seq ≠ f.seq)
    (hfew : ∀ g ∈ f :: rest, g.replays < 15) :
    let u := (s.setPort p { s.port p with unacked := before ++ (f :: rest).map (replayed s.now) }).tally
      .SEAM_REPLAY p (rest.length + 1)
    s.replayFrom p f.seq = { u with out := s.out ++ (f :: rest).map (fun g => .flit p g.header g.payload) } := by
  have hmap : (fun g : Flit => ({ g with replays := g.replays + 1, sentAt := s.now } : Flit)) = replayed s.now := rfl
  have hstays : ((f :: rest).map (replayed s.now)).any (fun g => 16 ≤ g.replays) = false := by
    rw [List.any_map, List.any_eq_false]
    intro g hg
    simpa [replayed] using hfew g hg
  intro u
  unfold State.replayFrom
  simp only [hunacked, findIdx_seq hbefore, List.drop_left, List.take_left]
  rw [hmap, if_neg (by simp), hstays, if_neg (by simp), emitFlits, List.length_map, List.length_cons]
  rfl

/-- The flit that has waited longest for its acknowledgement, once one has waited 4 µs, is where a replay begins. -/
theorem replayTimeout_replays {s : State} {p : Nat} {f : Flit} {before rest : List Flit} (hup : s.portUp p = true)
    (hunacked : (s.port p).unacked = before ++ f :: rest) (hlate : f.sentAt + usec 4 ≤ s.now)
    (hbefore : ∀ g ∈ before, s.now < g.sentAt + usec 4) : replayTimeout p s = s.replayFrom p f.seq := by
  have hnone : before.find? (fun g => g.sentAt + usec 4 ≤ s.now) = none :=
    List.find?_eq_none.2 (fun g hg => by simpa using hbefore g hg)
  have hfind : (s.port p).unacked.find? (fun g => g.sentAt + usec 4 ≤ s.now) = some f := by
    rw [hunacked, List.find?_append, hnone, List.find?_cons, decide_eq_true hlate]
    rfl
  unfold replayTimeout
  rw [hfind]
  exact if_pos hup

theorem exec_replays {s : State} {p : Nat} {f : Flit} {before rest : List Flit} {i : Instr} (hu : s.up) (hp : p < 16)
    (hup : s.portUp p = true) (hunacked : (s.port p).unacked = before ++ f :: rest)
    (hi : (i = .nak p f.seq ∧ f.seq < 4096) ∨ (i = .replayTimeout p ∧ f.sentAt + usec 4 ≤ s.now ∧
      ∀ g ∈ before, s.now < g.sentAt + usec 4)) :
    exec i s = .next (wrap s ((fresh s).replayFrom p f.seq)) := by
  rcases hi with ⟨rfl, hseq⟩ | ⟨rfl, hlate, hbefore⟩
  · rw [exec_nak, act_up (by simp [portOk, hp, hseq]) hu, whenever_of (by exact hup)]
  · rw [exec_replayTimeout, act_up (by simpa [portOk] using hp) hu,
      replayTimeout_replays (s := fresh s) hup hunacked hlate hbefore]

theorem replayFrom_shows {s : State} {p : Nat} {f : Flit} {before rest : List Flit}
    (hunacked : (s.port p).unacked = before ++ f :: rest) (hbefore : ∀ g ∈ before, g.seq ≠ f.seq)
    (hfew : ∀ g ∈ f :: rest, g.replays < 15) :
    let t := wrap s ((fresh s).replayFrom p f.seq)
    t.out = (f :: rest).map (fun g => .flit p g.header g.payload) ∧
      t.port p = { s.port p with unacked := before ++ (f :: rest).map (replayed s.now) } ∧
      t.f .SEAM_REPLAY p = satAdd (s.f .SEAM_REPLAY p) (rest.length + 1) ∧ (∀ q, q ≠ p → t.port q = s.port q) ∧
      t = { s with out := t.out, ports := t.ports, regs := t.regs } ∧ SameRegs s t [(.SEAM_REPLAY, p)] := by
  have hrun := replayFrom_replays (s := fresh s) hunacked hbefore hfew
  have hport : (fresh s).port p = s.port p := rfl
  have hnow : (fresh s).now = s.now := rfl
  rw [hport, hnow] at hrun
  intro t
  generalize hv : ({ s.port p with unacked := before ++ (f :: rest).map (replayed s.now) } : Port) = v at *
  have ht : t = wrap s { ((fresh s).setPort p v).tally .SEAM_REPLAY p (rest.length + 1) with
      out := (f :: rest).map (fun g => .flit p g.header g.payload) } := congrArg (wrap s) hrun
  clear_value t
  subst ht
  refine ⟨rfl, port_setPort_same (fresh s) p v, ?_, fun q hq => ?_, rfl, ?_⟩
  · exact f_tally_same ((fresh s).setPort p v) p (rest.length + 1) rfl
  · exact (port_setPort (fresh s) p v q).trans (if_neg (Ne.symm hq))
  · exact Proofs.sameRegs_setF (t := (fresh s).setPort p v) (n := .SEAM_REPLAY) (i := p) (fun _ _ _ => rfl) _ (by simp)

/-- Settles O48: a flit in error, the flit expected next, and the replay that a NAK or a time-out starts. -/
theorem flitsAreDeliveredOrReplayed : Obligations.FlitsAreDeliveredOrReplayed :=
  ⟨fun _ _ _ x err hu hp hh hup hfirst => exec_flitReceive_bad x err hu hp hh hup hfirst,
    fun _ _ _ x hu hp hh hup htype hclass hseq => exec_flitReceive_expected x hu hp hh hup htype hclass hseq,
    fun _ _ _ _ _ _ hu hp hup hunacked hbefore hfew hi =>
      ⟨_, exec_replays hu hp hup hunacked hi, replayFrom_shows hunacked hbefore hfew⟩⟩

end Sys2Proof.Proofs
end
